-- ==== Sys2Proof/Word.lean ====
section
/-!
DEFINITION. The word types of the RGX-20 and their plainest arithmetic.
-/

namespace Sys2Proof

/-- One byte. -/
abbrev Byte := BitVec 8

/-- A 32-bit word: grain registers, FP32 codes, accumulator words (R30, R70). -/
abbrev Word := BitVec 32

/-- A 64-bit word: register values, TIME, sequence numbers (R3, R396). -/
abbrev U64 := BitVec 64

/-- A finite map from natural keys, kept as a list with strictly rising keys. Memory is one: its
entries are `Host.Cell` pairs. -/
abbrev AMap (V : Type) := List (Nat × V)

end Sys2Proof
end

