-- ==== Sys2Proof/Syntax.lean ====
section
/-!
DEFINITION. The commands of the block: one constructor of `Instr` for each row of
spec/opcode_table.json, with the operands the row's rule names, and the types of those operands.
-/

namespace Sys2Proof

/-! ## Operand types shared by several commands -/

/-- Where a change comes from (R386 ORIGIN and ORIGID). -/
inductive Origin where
  /-- The device itself. -/
  | internal
  /-- A write through BAR0 of host die `hd` (0 or 1), audited as queue FFh (R338). -/
  | bar0 (hd : Nat)
  /-- A command of queue pair `pair`. -/
  | queue (pair : Nat)
  /-- Host core `core` of host die `hd`. -/
  | hostCore (hd core : Nat)
  /-- A manager device on the fabric. -/
  | fabric (dev : Nat)
  /-- The 1149.1 port or the I3C target. -/
  | testPort
  /-- Self-test. -/
  | selfTest
deriving DecidableEq, Repr

/-- A 32-byte tile header (R111). HCHK is computed when the header is encoded. -/
structure TileHdr where
  fmt : Nat := 0
  poison : Bool := false
  lastTile : Bool := false
  cont : Bool := false
  paired : Bool := false
  scales : Bool := false
  vrows : Nat := 1
  vcols : Nat := 0
  cause : Nat := 0
  vstage : Nat := 0
  epoch : Nat := 0
  step : Nat := 0
  mb : Nat := 0
  slice : Nat := 0
  row0 : Nat := 0
  optag : Nat := 0
  stream : Nat := 0
deriving DecidableEq, Repr

/-- One row in a stream with its sideband (R111): the header of its tile, its index in the tile, its
valid elements, whether it ends its tile, its poison cause (0 when clean). -/
structure Row where
  hdr : TileHdr := {}
  idx : Nat := 0
  data : List Byte := []
  valid : Nat := 0
  last : Bool := false
  cause : Nat := 0
deriving DecidableEq, Repr

/-- A fabric packet (R265) as its header fields and payload. -/
structure Packet where
  device : Nat := 0
  space : Nat := 0
  offset : Nat := 0
  src : Nat := 0
  type : Nat := 0
  vc : Nat := 0
  bcast : Bool := false
  poison : Bool := false
  rep : Bool := false
  len : Nat := 0
  job : Nat := 0
  op : Nat := 0
  tagIdx : Nat := 0
  tagGen : Nat := 0
  jobgen : Nat := 0
  seq : Nat := 0
  hops : Nat := 32
  ord : Nat := 0
  boot : Nat := 0
  payload : List Byte := []
deriving DecidableEq, Repr

/-- The operations of the memory-side units (R240). -/
inductive MsOp where
  | add | min | max | fetchAdd | cas
deriving DecidableEq, Repr

/-- Element types of memory-side operations and collectives (R240, R284). -/
inductive Elem where
  | fp32 | bf16 | int32 | int64
deriving DecidableEq, Repr

/-- One access to an object's range that meets a stub (R235, R236). `addr` is the byte offset inside
the object. -/
inductive Access where
  | read (tag addr len : Nat)
  | write (tag addr : Nat) (data : List Byte)
  | msop (tag addr : Nat) (op : MsOp) (elem : Elem) (data cmp : List Byte)
deriving DecidableEq, Repr

/-- How a tier access ended in the medium (R238, R245, R247, R251). `corrected` counts errors the
medium corrected, `retries` the retries made. -/
inductive MediumResult where
  | ok (corrected retries : Nat)
  | uncorrectable
deriving DecidableEq, Repr

/-- How a move's copy ended (R234). -/
inductive CopyResult where
  | good
  | sourceEcc (tiles : List Nat)
  | destFailed
  | sourceTimeout
deriving DecidableEq, Repr

/-- The object a move carries (R233): a KV page by its table entry or by its home, or a buffer. -/
inductive MovObj where
  | page (seq layer slot : Nat)
  | pageAt (tier addr : Nat)
  | buffer (idx : Nat)
deriving DecidableEq, Repr

/-- What a target answers to a weight chunk (R187). -/
inductive ChunkAnswer where
  | good
  | failed
  | targetDead
deriving DecidableEq, Repr

/-- A check block (R188). -/
structure CheckBlock where
  gnorm : Word
  nonfin : Nat
  step : Nat
  /-- The step-poison flag of that learner device at its boundary. -/
  poisoned : Bool
deriving DecidableEq, Repr

/-- A row of attention input: the query's sequence, its K and V rows (bytes in the sequence's format,
one list per KV head), its query rows (FP codes, one list per query head) and the row's poison. -/
structure AttRow where
  seq : Nat
  gen : Nat
  k : List (List Byte)
  v : List (List Byte)
  q : List (List Byte)
  cause : Nat := 0
deriving DecidableEq, Repr

/-- The kind-specific part of a tile operation at issue (R106, R113). Its data comes from the input streams of its
station, in the order in which the station lists them. -/
inductive OpWork where
  /-- The next array command of a MATMUL or CONV station's templates on a brick of the die; ROWS and OPTAG are filled in
  at issue (R64, R69, R124). -/
  | array (brick : Nat)
  /-- A sliver invocation on a set of grains of one brick. -/
  | sliver (brick : Nat) (grains : List Nat)
  /-- An ATTEND operation of one layer over the next `n` rows (R149). -/
  | attend (layer n : Nat)
  /-- Prefix reuse for a new sequence of the station (R158 to R160): the token row. -/
  | prefixReuse (seq gen : Nat) (tokens : List Nat)
  /-- A tree of candidates for a sequence (R156): the descriptor's entries; the next rows are the candidates'. -/
  | tree (layer seq gen : Nat) (parents : List Nat)
  /-- A write by a RECOMPUTE station of positions of a dropped page (R155), one row each. -/
  | recompute (layer seq gen page : Nat) (positions : List Nat)
  /-- A routed row of a mixture layer (R316, R317): source rank and chosen expert. -/
  | route (table srcRank expert : Nat)
  /-- Stage 1 of the next world of a WORLD or PORT station: its observation row (R11). -/
  | observe
  /-- Stage 5 of the next DEV world of a WORLD station: the row of its action (R11, R16). -/
  | act
  /-- A rebuilt expert placement shadow: table, VERSION, its entries as N, SLOT and RANK0 to RANK3, and whether
  the rebuild is complete (R316, R318). -/
  | placement (table version : Nat) (entries : List (Nat × Nat × List Nat)) (complete : Bool)
  /-- A move of a MOVE station (R106, R234): engine, object, destination tier. -/
  | move (engine : Nat) (obj : MovObj) (dstTier : Nat)
deriving DecidableEq, Repr

/-- A whistle cell (R295), as fields; the CRC is computed. -/
structure Cell where
  type : Nat := 1
  pos : Nat := 0
  level : Nat := 0
  opnum : Nat := 0
  wgroup : Nat := 0
  opc : Nat := 0
  rep : Bool := false
  edge : Bool := false
  down : Bool := false
  empty : Bool := false
  fb : Bool := false
  term : Nat := 0
  payload : List Byte := []
deriving DecidableEq, Repr

/-- A world-port frame (R332): the 32-byte header and the body as received, with its arrival. -/
structure WpFrame where
  version : Nat := 1
  type : Nat := 2
  world : Nat := 0
  wgen : Nat := 0
  seq : Nat := 0
  tick : Nat := 0
  frag : Nat := 0
  lastFrag : Bool := true
  len : Nat := 0
  aux : Nat := 0
  ref : Word := 0
  tstamp : Nat := 0
  body : List Byte := []
deriving DecidableEq, Repr

/-- A foreign world-port frame (R319). -/
inductive ForeignFrame where
  | badFcs
  | pauseOrPfc
  | otherEthertype
  /-- A frame received in preempted pieces and reassembled (R321). -/
  | reassembled
deriving DecidableEq, Repr

/-! ## The decoded content of a Dolward image (R377)

The layout inside section entries is not part of the manual, so a load carries both the image's bytes
and what they hold. -/

structure WinDecl where
  base : Nat := 0
  limit : Nat := 0
  rd : Bool := false
  wr : Bool := false
deriving DecidableEq, Repr

/-- A stream port bound for a grain or a brick's array (R42, R64): the stream, the station that uses
the port, the direction. -/
structure PortDecl where
  port : Nat
  stream : Nat
  station : Nat := 0
  outbound : Bool
deriving DecidableEq, Repr

/-- One grain of the brick and grain map: role 0 IDLE, 1 WORLD, 2 SLIVER (R28). -/
structure GrainDecl where
  grain : Nat
  role : Nat
  win0 : WinDecl := {}
  win1 : WinDecl := {}
  ports : List PortDecl := []
  world : Nat := 0
  inWorld : Nat := 0
deriving DecidableEq, Repr

/-- The world-kernel descriptor (R47). -/
structure KernelDesc where
  magic : Nat := 0x574B4E4C
  reserved : Nat := 0
  version : Nat := 1
  grains : Nat := 1
  stepEntry : Nat := 0
  resetEntry : Nat := 0
  stateBytes : Nat := 0
  sharedBytes : Nat := 0
  obsBytes : Nat := 64
  actBytes : Nat := 64
deriving DecidableEq, Repr

structure BrickDecl where
  die : Nat
  brick : Nat
  kbase : Nat := 0
  kernel : List Byte := []
  grains : List GrainDecl := []
  /-- Array stream ports of the brick: port, stream, outbound. -/
  ports : List PortDecl := []
deriving DecidableEq, Repr

/-- A DEV world placed on grains of a brick: its first grain and its slots (R48, R49). -/
structure DevWorldDecl where
  world : Nat
  die : Nat
  brick : Nat
  grain0 : Nat
  obsSlot : Nat
  actSlot : Nat
deriving DecidableEq, Repr

/-- An EXCHANGE or BARRIER station's fields (R285). `src`, `dst` and `landing` are buffers in fixed pools, as
space * 2^44 + offset. `op`: 0 ALL_TO_ALL, 1 ALL_TO_ALL_V, 2 ALL_REDUCE,
3 REDUCE_SCATTER, 4 ALL_GATHER, 5 BROADCAST, 6 BARRIER. `red`: 0 SUM, 1 MIN, 2 MAX, 3 AND, 4 OR.
`path`: 0 AUTO, 1 FABRIC, 2 WHISTLE. `purpose`: 0 plain, 1 cut barrier (R358), 2 placement commit
(R318), 3 adoption vote (R371). -/
structure ExchDecl where
  op : Nat := 0
  group : Nat := 0
  src : Nat := 0
  dst : Nat := 0
  dstBytes : Nat := 0
  block : Nat := 64
  rowBytes : Nat := 64
  countw : Nat := 32
  elem : Elem := .fp32
  red : Nat := 0
  ordered : Bool := true
  path : Nat := 0
  root : Nat := 0
  tree : Option Nat := none
  engine : Nat := 0
  purpose : Nat := 0
  landing : Nat := 0
  /-- The tile store of the engine's staging chunks (R286): die, brick, offset. -/
  stage : Nat × Nat × Nat := (0, 0, 0)
  /-- The expert placement table a commit BARRIER votes on. -/
  table : Nat := 0
deriving DecidableEq, Repr

structure DrawDecl where
  ring : Nat := 0
  priority : Bool := false
  n : Nat := 1
  len : Nat := 1
deriving DecidableEq, Repr

/-- A RECORD station's fields (R208, R209). Its STATS, value and priority rows come over the input streams named here;
its other inputs are the payload, in the order in which the station lists them. -/
structure RecordDecl where
  ring : Nat := 0
  stripe : Nat := 0
  paylen : Nat := 0
  /-- The payload row that is the action. -/
  action : Nat := 0
  stats : Option Nat := none
  value : Option Nat := none
  prio : Option Nat := none
deriving DecidableEq, Repr

/-- ATTEND station settings (R149, R150): mask 0 NONE, 1 CAUSAL, 2 BITMAP, 3 TREE. The query, K and V rows come over the
streams listed, whose columns stand side by side, and the row map over a stream of its own. -/
structure AttDecl where
  qs : List Nat := []
  ks : List Nat := []
  vs : List Nat := []
  map : Nat := 0
  mask : Nat := 0
  maskTable : Nat := 0
  summaryTable : Nat := 0
  qheads : Nat := 1
  inFmt : Nat := 0
  probFmt : Nat := 0
  outFmt : Nat := 0
  scale : Word := 0x3F800000
  acceptSlot : Nat := 0
  /-- Where the count of reused positions goes, as die, brick, offset (R159). -/
  resultAt : Nat × Nat × Nat := (0, 0, 0)
  /-- Operations of one layer of a slice (R125). -/
  layerOps : Nat := 1
  recompute : Bool := false
  /-- Its sequences are rings (R143). -/
  ring : Bool := false
deriving DecidableEq, Repr

/-- A station of the station graph (R106, R107, R114, R117, R169). -/
structure StationDecl where
  idx : Nat
  name : List Nat
  kind : Nat
  priority : Nat := 0
  vstage : Nat := 0
  /-- Rows of one micro-batch at the station (R124), and the tile operations of one slice of it. -/
  rows : Nat := 128
  ops : Nat := 1
  /-- Worlds whose rows pass through the station: 0 all that give the pan a row, 1 DEV, 2 EXT and LIVE (R11). -/
  worlds : Nat := 0
  preds : List Nat := []
  inputs : List Nat := []
  outputs : List Nat := []
  /-- SIEVES of a SAMPLE or DRAW station, as die and sieve. -/
  sieves : List (Nat × Nat) := []
  /-- Tile-store location of the sample descriptor, as die, brick, offset (R170). -/
  descAt : Nat × Nat × Nat := (0, 0, 0)
  /-- Command templates of a MATMUL or CONV station (R64). -/
  templates : List (U64 × U64 × U64 × U64) := []
  live : Bool := false
  ws : Nat := 0
  onCommand : Bool := false
  /-- Tile-store location of the check block (R188), as die, brick, offset. -/
  checkAt : Nat × Nat × Nat := (0, 0, 0)
  exch : Option ExchDecl := none
  draw : Option DrawDecl := none
  record : Option RecordDecl := none
  att : Option AttDecl := none
  /-- The PORT station's source: the SAMPLE station, discrete or continuous. -/
  discrete : Bool := false
  /-- Reads the BASE weight set of its adapter (R194). -/
  readsBase : Bool := false
  /-- The placement table whose shadow the station writes (R318). -/
  shadowTable : Option Nat := none
  off : Nat := 16
deriving DecidableEq, Repr

/-- A stream (R108). `perRow` is the ROW granularity. -/
structure StreamDecl where
  idx : Nat
  producer : Nat
  consumers : List Nat
  perRow : Bool := true
  depth : Nat := 1
  fmt : Nat := 0
  width : Nat := 128
  off : Nat := 16
deriving DecidableEq, Repr

/-- A prefetch schedule entry (R249). `cls`: 0 weight tile of the latched slot, 1 KV page, 2 buffer. -/
structure PrefetchDecl where
  cls : Nat
  die : Nat
  /-- Source: byte offset in the slot; packed page name; buffer index. -/
  src : Nat
  seq : Nat := 0
  layer : Nat := 0
  bytes : Nat := 0
  /-- Destination tile-store slot as brick and offset, for transit data. -/
  dstBrick : Nat := 0
  dstOff : Nat := 0
  /-- Destination tier of a move; 0 for transit. -/
  dstTier : Nat := 0
  /-- The tile goes on from its slot to the background set of the brick's array, in format `fmt` (R63). -/
  bg : Bool := false
  fmt : Nat := 0
  window : Nat := 1
  /-- The station whose operations consume the entry. -/
  station : Nat := 0
  /-- Data marked as not written in the step (R120). -/
  early : Bool := true
deriving DecidableEq, Repr

structure PanDecl where
  pan : Nat
  job : Nat
  bricks : List (Nat × Nat)
  adoptProv : Bool := false
  perfUser : Bool := false
  quotas : List (Nat × Nat) := []
  seqLo : Nat := 0
  seqHi : Nat := 0
  /-- Pool capacities in frames or pages of T1, T2, T3. -/
  pool1 : Nat := 0
  pool2 : Nat := 0
  pool3 : Nat := 0
  poolBase1 : Nat := 0
  poolBase2 : Nat := 0
  poolBase3 : Nat := 0
  /-- Bytes of a pool frame. -/
  frame : Nat := 65536
  /-- Records that the recompute list holds, and its HBM offset (R154). -/
  recompCap : Nat := 0
  recompBase : Nat := 0
  ws : Nat := 0
  worlds : List DevWorldDecl := []
  leadNs : Nat := 0
  /-- Micro-batches of one step. -/
  mbs : Nat := 1
  stations : List StationDecl := []
  streams : List StreamDecl := []
  prefetch : List PrefetchDecl := []
  /-- Tile-store slots marked PERSIST: die, brick, offset, bytes (R361). -/
  persist : List (Nat × Nat × Nat × Nat) := []
  off : Nat := 16
deriving DecidableEq, Repr

/-- A weight set (R178). kind 0 FULL, 1 BASE, 2 ADAPTER. Slot bases are HBM offsets (interleaved view
or local view as given). -/
structure WsDecl where
  ws : Nat
  kind : Nat := 0
  base : Nat := 0
  log2ent : Nat := 6
  /-- HBM offset of the epoch table (R181). -/
  tableBase : Nat := 0
  /-- Rank of an ADAPTER's pairs (R194). -/
  rank : Nat := 1
  layout : List Byte := []
  tiles : Nat := 1
  payload : Nat := 0
  slot0 : Nat := 0
  slot1 : Nat := 0
  targets : List Nat := []
  /-- Devices beside the targets that hold replay records of the set, and so a copy of its table (R181). -/
  copies : List Nat := []
  trained : Bool := false
  masters : Nat := 0
  mastersBytes : Nat := 0
  off : Nat := 16
deriving DecidableEq, Repr

/-- A stripe: its writing pan, which stands on another device when one is named (R210). -/
structure StripeDecl where
  pan : Nat
  device : Option Nat := none
  cap : Nat
  worlds : Nat
  stride : Nat := 1
deriving DecidableEq, Repr

/-- A ring (R210). -/
structure RingDecl where
  ring : Nat
  /-- The device that holds the ring, when it is another: this one only writes its own stripes to it (R210). -/
  host : Option Nat := none
  tier : Nat
  home : Nat
  log2cap : Nat
  slot : Nat
  dataBase : Nat := 0
  indexBase : Nat := 0
  mapBase : Nat := 0
  treeBase : Nat := 0
  stageBase : Nat := 0
  stageBlocks : Nat := 0
  /-- HBM offset of the state words of a T3 ring's staging positions (R214). -/
  stateBase : Nat := 0
  stripes : List StripeDecl := []
  saveData : Bool := false
  off : Nat := 16
deriving DecidableEq, Repr

structure GroupDecl where
  group : Nat
  devices : List Nat
  wgroup : Nat := 0
  /-- The whistle group map (R296, R299): for each level the group spans, the positions that take part in this
  device's ring; a group on one level-0 ring lists them in rank order. -/
  maps : List (List Nat) := []
  /-- For a group that spans levels: level, position and device of the members that this device meets on its rings. -/
  ringMap : List (Nat × Nat × Nat) := []
  expectClass : Nat := 3
  off : Nat := 16
deriving DecidableEq, Repr

/-- The cut map's STAGE, HEAD and EXPERT divisions (R311 to R313); 0 in a count marks an absent cut. -/
structure CutDecl where
  layers : Nat := 0
  stageDevices : Nat := 0
  stageV : Nat := 1
  heads : Nat := 0
  headDevices : Nat := 0
  experts : Nat := 0
  expertDevices : Nat := 0
  /-- Further replicas that weight sets declare: rank, expert, local slot (R316). -/
  replicas : List (Nat × Nat × Nat) := []
  /-- HBM offsets of the committed and shadow copies of each placement table (R316): table, committed, shadow. -/
  tables : List (Nat × Nat × Nat) := []
deriving DecidableEq, Repr

/-- A shard of the job on this device (R361). kind 1h to Ah; `index` is the pan, ring or weight set. -/
structure ShardDecl where
  kind : Nat
  index : Nat
  tier : Nat := 1
  base : Nat := 0
  bytes : Nat := 0
  /-- Offsets of COPY 0 and COPY 1 in a region (R363, R364). -/
  copyAt : Nat × Nat := (0, 0)
deriving DecidableEq, Repr

structure JobDecl where
  job : Nat
  rank : Nat := 0
  weightSets : List WsDecl := []
  rings : List RingDecl := []
  groups : List GroupDecl := []
  cut : CutDecl := {}
  anchor : Option Nat := none
  cutGroup : Nat := 0
  buddyRank : Nat := 0
  /-- Ranks whose buddy copies this device holds (R364). -/
  heldRanks : List Nat := []
  shards : List ShardDecl := []
  /-- Bases of the home region and of the region of the buddy, in T2, and of the flash region (R364, R368); offsets of the two
  manifests in a region; bytes of a durable checkpoint. -/
  homeBase : Nat := 0
  buddyBase : Nat := 0
  flashBase : Nat := 0
  manifestAt : Nat × Nat := (0, 0)
  durableBytes : Nat := 0
  /-- Fixed pools open to other devices of the job (R261): space, base, bytes. -/
  grants : List (Nat × Nat × Nat) := []
  cutBufMib : Nat := 0
  off : Nat := 16
deriving DecidableEq, Repr

/-- Tier policies, device-wide part (R227, R229, R247, R388, R421). -/
structure TierDecl where
  hbmInterleaved : Nat := 0
  /-- HBM offset of the sequence descriptors (R136). -/
  seqBase : Nat := 0
  lpdInterleaved : Nat := 0
  auditMib : Nat := 0
  /-- Trace ring of each die: die, base, records. -/
  trace : List (Nat × Nat × Nat) := []
  /-- ENCRYPT places (R199): tiers in which plaintext weights are placed. -/
  weightTiers : List Nat := []
  systemDevices : Nat := 1
  /-- Slots F of this device's whistle rings by level (R294). -/
  slots : List Nat := []
deriving DecidableEq, Repr

/-- A world schedule (R322) as written in the image, before clamping. -/
structure WorldSched where
  sched : Nat
  job : Nat := 0
  live : Bool := false
  period : Nat := 50000
  phase : Nat := 0
  obsOpen : Int := 0
  obsClose : Int := 0
  deadline : Nat := 10000
  age : Nat := 0
  fallback : Nat := 0
  table : List (List Byte) := []
  rest : List Byte := []
  ramp : Nat := 1
  actFmt : Nat := 0
  obsBytes : Nat := 64
  actBytes : Nat := 64
  port : Nat := 0
  mac : Nat := 0
  pcp : Nat := 0
  off : Nat := 16
deriving DecidableEq, Repr

/-- A gate control list of one device port (R319, R321): cycle length, and windows open for queue 7 as
start and length in ns. -/
structure GateDecl where
  port : Nat
  cycle : Nat
  windows : List (Nat × Nat)
  jumbo : Bool := false
  entries : Nat := 0
deriving DecidableEq, Repr

structure SecDecl where
  encrypt : Option Bool := none
  signed : Option Bool := none
  testEnable : Option Bool := none
  managers : List Nat := []
  spares : List Nat := []
  /-- Roster public keys: device and 97-byte key (R389 PEER). -/
  rosterKeys : List (Nat × List Byte) := []
deriving DecidableEq, Repr

/-- The content of an image by section; a section that is absent is empty or none. -/
structure Content where
  jobs : List JobDecl := []
  pans : List PanDecl := []
  bricks : List BrickDecl := []
  vcWeights : Option (List Nat) := none
  tiers : Option TierDecl := none
  scheds : List WorldSched := []
  gates : List GateDecl := []
  grandmaster : Bool := false
  security : Option SecDecl := none
  locks : List Nat := []
deriving DecidableEq, Repr

/-- A Dolward image as read from host memory: its header section, its sections' bytes, its content. -/
structure Image where
  header : List Byte
  /-- Bytes of each section entry, in entry order. -/
  sections : List (List Byte)
  content : Content
deriving DecidableEq, Repr

/-- A host command as it waits for its effect (R341): the queue pair and CID that name it. -/
structure CmdRef where
  pair : Nat
  cid : Nat
deriving DecidableEq, Repr

/-- Training outcome of a port (R263): good data lanes of 8 and the spare, peer, round trips. -/
structure PortTraining where
  goodLanes : List Bool
  spareGood : Bool
  peer : Nat
  peerPort : Nat
  rtts : List Nat
deriving DecidableEq, Repr

/-- Outcome of memory training at a reset (R243, R244). HBM stacks: failed, lanes repaired; LPDDR
interfaces: trained, rate code, two ranks, GiB; ONFI channels of FD0, then FD1: trained, slow, targets, raw GiB. -/
structure Training where
  hbm : List (Bool × Nat) := []
  lpd : List (Bool × Nat × Bool × Nat) := []
  onfi : List (Bool × Bool × Nat × Nat) := []
  /-- Factory-marked flash blocks, found when the flash is formatted: fabric die, block. -/
  factory : List (Nat × Nat) := []
deriving DecidableEq, Repr

/-- What a bring-up finds at its steps (R404). -/
structure BootIn where
  vin48 : Bool := true
  firmwareOk : Bool := true
  fwDigest : List Byte := []
  training : Training := {}
  /-- Units that fail the self-test of step 7, as BLOCK values of R425. -/
  bistFailed : List Nat := []
  /-- Lanes that mortar training replaces, by die * 4 + port (R131). -/
  mortarRepaired : List Nat := []
  /-- The device's whistle ports of levels 1 and 2 are cabled into rings (R293). -/
  bridge1 : Bool := false
  bridge2 : Bool := false
  /-- Levels of I3C_ADDR0 to 2 at step 1 (R441). -/
  i3cAddr : Nat := 0
deriving DecidableEq, Repr

end Sys2Proof

namespace Sys2Proof.Machine

/-! ## Tables that a cut holds (R181, R212, R361) -/

/-- States of an epoch (R181). -/
inductive EpochRun where
  | free | draft | provisional | confirmed | retracted | retired
deriving DecidableEq, Repr

/-- An epoch-table entry (R181). `holders` and `records` are this device's; `remote` keeps those that other devices have
reported, by device. -/
structure EpochEntry where
  epoch : Nat := 0
  st : EpochRun := .free
  cause : Nat := 0
  holders : Nat := 0
  records : Nat := 0
  step : Nat := 0
  remote : AMap (Nat × Nat) := []
  /-- This device's publisher issued the number. -/
  own : Bool := true
  /-- An IMAGE_LOAD writes it. -/
  image : Bool := false
  /-- Bytes of another device's stream written into the slot here. -/
  written : Nat := 0
deriving DecidableEq, Repr

/-- What writes a DRAFT epoch into the next slots (R185, R187). -/
structure PubWriter where
  image : Bool
  epoch : Nat
  pan : Nat := 0
  station : Nat := 0
  step : Nat := 0
  chunks : Nat := 0
  /-- Die and scoreboard entry that stage 6 holds. -/
  entry : Option (Nat × Nat) := none
  /-- Chunks acknowledged, as target and chunk, and failures counted. -/
  acked : List (Nat × Nat) := []
  fails : List (Nat × Nat) := []
deriving DecidableEq, Repr

/-- A PROVISIONAL epoch that waits for its checks (R188). -/
structure PendCheck where
  epoch : Nat
  step : Nat
  pan : Nat
  station : Nat
  poisoned : Bool := false
  /-- The learner boundary has fallen, and with it the poison flag is known. -/
  boundary : Bool := false
deriving DecidableEq, Repr

/-- A state change of an epoch, as its message carries it (R183). -/
structure EpochChange where
  epoch : Nat
  /-- STATE of R181. -/
  st : Nat
  cause : Nat := 0
  step : Nat := 0
  image : Bool := false
deriving DecidableEq, Repr

/-- A weight set (R178 to R194). -/
structure WSet where
  decl : WsDecl
  job : Nat
  table : AMap EpochEntry := []
  /-- The next number to issue (R179). -/
  next : Nat := 1
  lastConf : Nat := 0
  cause : Nat := 0
  keep : Nat := 0
  /-- Epoch numbers in slots 0 and 1, 0 when none; the BASE region uses slot 0. -/
  slot0 : Nat := 0
  slot1 : Nat := 0
  writer : Option PubWriter := none
  check : Option PendCheck := none
  snaps : Nat := 0
  /-- Changes that wait for those of lower numbers (R183). -/
  changes : List EpochChange := []
deriving DecidableEq, Repr

inductive BlockRun where
  | empty | writing | committed | dead
deriving DecidableEq, Repr

/-- A block-map entry (R212) and the records it holds. -/
structure BlockEntry where
  epoch : Nat := 0
  stepLo : Nat := 0
  block : Nat := 0
  st : BlockRun := .empty
  ws : Nat := 0
  count : Nat := 0
  /-- The block is not stored anywhere (R214). -/
  dropped : Bool := false
deriving DecidableEq, Repr

/-- An index entry (R212). -/
structure IdxEntry where
  wgen : Nat := 0
  flags : Nat := 0
  prio : Nat := 0
  /-- The entry's leaf in the priority tree. -/
  leaf : Int := 0
deriving DecidableEq, Repr

/-- A ring (R210 to R222). -/
structure RingSt where
  decl : RingDecl
  job : Nat
  /-- Keyed by stripe * 2^40 + block slot. -/
  blocks : AMap BlockEntry := []
  /-- Keyed by the record's place in the data region, O_s + i. -/
  index : AMap IdxEntry := []
  /-- Next absolute block number by stripe. -/
  nextK : AMap Nat := []
  /-- The open block of each stripe: k and the step that wrote it. -/
  openK : AMap (Nat × Nat) := []
  committedTotal : Nat := 0
  drawn : Nat := 0
  /-- Staging positions held, keyed by stripe * 2^40 + position: the block k (R214). -/
  staged : AMap Nat := []
  /-- Blocks carried to flash, keyed as blocks. -/
  onFlash : List Nat := []
  /-- Extents of the staging region that have been carried of a held position, keyed as `staged` (R214). -/
  carried : AMap (List Nat) := []
  /-- Records of strided stripes that await completion: stripe, world (R215). -/
  partials : List (Nat × Nat) := []
  /-- Headers of such records of a ring that another device holds, by place. -/
  heads : AMap (List Byte) := []
  /-- The claim of a staging position of a T3 ring that another device holds, by stripe: the block k, and 0 no answer yet,
  1 claimed, 2 still held (R214). -/
  claims : AMap (Nat × Nat) := []
deriving DecidableEq, Repr

/-- A shard copy's manifest entry (R363). -/
structure ShardCopy where
  kind : Nat
  index : Nat
  copy : Nat := 0
  bytes : Nat := 0
  written : Nat := 0
  digest : List Byte := []
  /-- The plaintext, for a shard whose bytes do not all stand in tiers. -/
  form : List Byte := []
deriving DecidableEq, Repr

/-- Bytes of a tier that a shard holds: the shard's number in the job's list, the place, the bytes. -/
structure ShardMem where
  shard : Nat
  space : Nat
  off : Nat
  data : List Byte
deriving DecidableEq, Repr

/-- A cut's part of one pan (R360): the step that follows the recorded one, the current slot with its epoch, the
slice rows, DEV worlds' episode counts, lane positions. -/
structure CutPart where
  pan : Nat
  next : Nat
  epoch : Nat
  slot : Nat
  split : Nat
  worlds : List (Nat × Nat)
  lanes : List (Nat × Nat)
deriving DecidableEq, Repr

/-- A cut of a job on this device (R360 to R363). -/
structure Cut where
  step : Nat
  time : Nat := 0
  seed : U64 := 0
  parts : List CutPart := []
  sets : List (Nat × WSet) := []
  rings : List (Nat × RingSt) := []
  mem : List ShardMem := []
  entries : List ShardCopy := []
  /-- Shards still to acknowledge. -/
  unacked : List Nat := []
  full : Bool := false
  /-- The manifest written with it (R363), which of the two places it has, and which durable checkpoint it is. -/
  manifest : List Byte := []
  place : Nat := 0
  durable : Nat := 0
  /-- The loaded content of the job at the cut, as the CONFIG shard holds it. -/
  config : Content := {}
deriving DecidableEq, Repr

/-- The whistle maps of a group, rebuilt for a new list of devices (R299, R371). -/
structure RingMaps where
  group : Nat
  maps : List (List Nat)
  ringMap : List (Nat × Nat × Nat)
deriving DecidableEq, Repr

/-- What an adopting spare reads: the manifest and roster that answer FIND, CONFIG, the buddy copy's contents,
and whether every digest agreed (R371). -/
structure CutFound where
  manifest : List Byte
  roster : List Nat
  image : Image
  digestsOk : Bool
  cut : Cut
  /-- Weight sets and the highest number of each that a surviving device reports (R180). -/
  newest : List (Nat × Nat) := []
  /-- The whistle maps of the groups with the spare in them (R371). -/
  maps : List RingMaps := []
deriving DecidableEq, Repr

end Sys2Proof.Machine

namespace Sys2Proof

/-- The 198 commands, in the order of spec/opcode_table.json. Grain commands name die, brick, grain;
register-write commands carry the whole 64-bit value written. -/
inductive Instr where
  /-- R30; `cyc` is the GCLK cycles the instruction takes, `ecc` what its accesses to local memory and registers
  met (R52): 0 no error, 1 a corrected one, 2 an uncorrectable one. The Xsliver rows have both too. -/
  | grainInstruction (die brick grain cyc ecc : Nat)
  /-- R31. -/
  | ecall (die brick grain : Nat)
  /-- R31. -/
  | ebreak (die brick grain : Nat)
  /-- R39. -/
  | slRld (die brick grain rd rs1 rs2 cyc ecc : Nat)
  /-- R39. -/
  | slRst (die brick grain rd rs1 rs2 cyc ecc : Nat)
  /-- R41; `fn` is funct7. -/
  | slRred (die brick grain rd rs1 rs2 fn cyc ecc : Nat)
  /-- R39. -/
  | slPush (die brick grain rd rs1 rs2 cyc ecc : Nat)
  /-- R39. -/
  | slPop (die brick grain rd rs1 rs2 cyc ecc : Nat)
  /-- R39. -/
  | slCred (die brick grain rd rs1 rs2 cyc ecc : Nat)
  /-- R39. -/
  | slDraw (die brick grain rd rs1 rs2 cyc ecc : Nat)
  /-- R39. -/
  | slDrawf (die brick grain rd rs1 rs2 cyc ecc : Nat)
  /-- R39. -/
  | slWaitb (die brick grain rd rs1 rs2 cyc ecc : Nat)
  /-- R40. -/
  | slFma2 (die brick grain rd rs1 rs2 rs3 rm cyc ecc : Nat)
  /-- R40. -/
  | slBfma4 (die brick grain rd rs1 rs2 rs3 rm cyc ecc : Nat)
  /-- R49. -/
  | sentinelReturn (die brick grain : Nat)
  /-- R46. -/
  | watchdog (die brick grain : Nat)
  /-- R31. -/
  | brkDbgResume (origin : Origin) (die brick : Nat) (value : U64)
  /-- R54. -/
  | brkFaultClear (origin : Origin) (die brick : Nat) (value : U64)
  /-- R64. -/
  | mxaCommand (die brick : Nat) (w0 w1 w2 w3 : U64)
  /-- R61; `cycles` is how long the swap has waited since it was last presented. -/
  | swap (die brick cycles : Nat)
  /-- R63; `parity` marks a stationary parity error found in the set (R78). -/
  | backgroundLoadDone (die brick : Nat) (parity : Bool)
  /-- R56; `accError` is 0 none, 1 a corrected, 2 an uncorrectable error of the accumulator row, `parity` a parity
  error of the foreground set (R78); in ELASTIC mode `segs` are the row's segments that arrive in the cycle and `groups`
  the column groups whose drain is ready, one bit each (R75). -/
  | rowAccept (die brick accError : Nat) (parity : Bool) (segs groups : Nat)
  /-- R76. -/
  | mxaModeWrite (origin : Origin) (die brick : Nat) (value : U64)
  /-- R94; `reg` is 0 or 1, `coincident` the flags set in the same cycle. -/
  | mxaFlagsClear (origin : Origin) (die brick reg : Nat) (value coincident : U64)
  /-- R83. -/
  | mxaErrClear (origin : Origin) (die brick : Nat) (value : U64)
  /-- R114; `waited` is the NCLK cycles since the operation was last presented. -/
  | tileOpIssue (die pan station mb slice waited : Nat) (work : OpWork)
  /-- R116; `optag` is the completion's tag, `cause` a poison the operation created (0 none). -/
  | tileOpRetire (optag cause : Nat)
  /-- R119. -/
  | localBoundary (die pan : Nat)
  /-- R119; `ns` is the time from the last DONE to RELEASE. -/
  | done (pan die step ns : Nat)
  /-- R45. -/
  | stepRelease (die pan step : Nat)
  /-- R123. -/
  | boundaryLate (pan : Nat)
  /-- R126. -/
  | schSplitWrite (origin : Origin) (die pan : Nat) (value : U64)
  /-- R132; the tiles in flight as pan, stream and position in the stream of a row of each, packets rerouted since last
  presented, flits recovered by UCIe retry. -/
  | d2dRetrain (die port : Nat) (inFlight : List (Nat × Nat × Nat)) (rerouted retries : Nat)
  /-- R132. -/
  | d2dRetrainDone (die port rerouted : Nat)
  /-- R132. -/
  | d2dRetrainTimeout (die port rerouted : Nat)
  /-- R135; the descriptor's fields, and the world the sequence is for. -/
  | seqOpen (pan : Nat) (world : Option Nat)
      (layers kvheads headdim fmt mode entries table : Nat)
  /-- R137. -/
  | seqQuarantineExpiry (seq : Nat)
  /-- R145. -/
  | walk (die walker seq gen layer page : Nat)
  /-- R152; `tier` is the tier whose pool is above its watermark, 1 or 2. -/
  | spill (pan tier : Nat)
  /-- R155. -/
  | attPmodeWrite (origin : Origin) (die pan : Nat) (value : U64)
  /-- R172. -/
  | discreteDraw (pan station : Nat)
  /-- R173. -/
  | continuousDraw (pan station : Nat)
  /-- R21. -/
  | adoptionPoint (pan : Nat)
  /-- R185; the learner pan and its PUBLISH station, and µs waited since last presented. -/
  | publishBegin (pan station waitedUs : Nat)
  /-- R187. -/
  | publishChunkAck (ws target chunk : Nat) (answer : ChunkAnswer)
  /-- R188; check blocks of the other learner devices. -/
  | publishChecks (ws : Nat) (others : List CheckBlock)
  /-- R183. -/
  | epochChangeMessage (ws epoch state cause step : Nat)
  /-- R200; the chunk's bytes as read, and its 16-byte tag when encrypted. -/
  | imageChunk (ws : Nat) (data tag : List Byte)
  /-- R211. -/
  | recordWrite (pan station : Nat)
  /-- R214; the number of a 1 MiB extent of the ring's staging region. -/
  | stagingEviction (ring extent : Nat)
  /-- R218; µs waited since last presented. -/
  | drawIssue (pan station waitedUs : Nat)
  /-- R222. -/
  | priorityUpdate (ring : Nat) (pos : U64) (prio : Word)
  /-- R234. -/
  | moveStart (die engine : Nat) (obj : MovObj) (dstTier : Nat)
  /-- R234. -/
  | moveCopyDone (move : Nat) (result : CopyResult)
  /-- R235. -/
  | moveDrained (move : Nat)
  /-- R235. -/
  | stubAccess (move : Nat) (access : Access)
  /-- R251. -/
  | tierResponse (req : Nat) (result : MediumResult)
  /-- R251. -/
  | tierTimeout (req : Nat)
  /-- R240; a global space and offset, and the operand bytes. -/
  | memorySideOp (space offset : Nat) (op : MsOp) (elem : Elem) (data cmp : List Byte)
  /-- R238; errors corrected in the pass. -/
  | patrolScrub (die corrected : Nat)
  /-- R249. -/
  | ladlePrefetch (pan : Nat)
  /-- R252. -/
  | bufferAllocate (pan tier bytes : Nat) (movable : Bool)
  /-- R253, R254; the requesting pan, the handle, and the MOVE station that asks, when one does. -/
  | bufferFree (pan : Nat) (handle : U64) (station : Option Nat)
  /-- R253. -/
  | bufferQuarantineExpiry (buffer : Nat)
  /-- R247; the fabric die and the block. -/
  | flashRelocate (fd block : Nat)
  /-- R247. -/
  | flashProgramFail (fd block : Nat)
  /-- R264. -/
  | fabPctlEnable (origin : Origin) (fd port : Nat) (value : U64)
  /-- R263. -/
  | portTrained (port : Nat) (training : PortTraining)
  /-- R264. -/
  | portRetrain (port : Nat)
  /-- R264. -/
  | retrainTimeout (port : Nat)
  /-- R269; the frame's bytes with its CRC, and whether the partner held a credit. -/
  | frameReceive (port : Nat) (bytes : List Byte) (credit : Bool)
  /-- R269. -/
  | replayTimeout (port : Nat)
  /-- R269; the SEQ acknowledged. -/
  | ack (port seq preempted : Nat)
  /-- R280; the SEQ named, the reason, and the refused request's TAG for end-to-end refusals. -/
  | nak (port seq reason tagIdx tagGen : Nat)
  /-- R274. -/
  | read (p : Packet)
  /-- R275. -/
  | write (p : Packet)
  /-- R266. -/
  | msop (p : Packet)
  /-- R273. -/
  | atomic (p : Packet)
  /-- R275. -/
  | fence (p : Packet)
  /-- R266. -/
  | epoch (p : Packet)
  /-- R266. -/
  | telem (p : Packet)
  /-- R261. -/
  | mgmt (p : Packet)
  /-- R270. -/
  | readRsp (p : Packet)
  /-- R275. -/
  | writeAck (p : Packet)
  /-- R270. -/
  | atomicRsp (p : Packet)
  /-- R275. -/
  | fenceAck (p : Packet)
  /-- R272. -/
  | requestResend (tagIdx : Nat)
  /-- R282. -/
  | routeSdataWrite (origin : Origin) (fd : Nat) (value : U64)
  /-- R278. -/
  | routeSdone (origin : Origin) (fd : Nat) (value : U64)
  /-- R278. -/
  | routeFlip (origin : Origin) (fd : Nat) (value : U64)
  /-- R284. -/
  | allToAll (pan station : Nat)
  /-- R290. -/
  | allToAllV (pan station : Nat) (counts : List Nat)
  /-- R288. -/
  | allReduce (pan station : Nat)
  /-- R289. -/
  | reduceScatter (pan station : Nat)
  /-- R284. -/
  | allGather (pan station : Nat)
  /-- R284. -/
  | broadcast (pan station : Nat)
  /-- R297; the member's own contribution. -/
  | barrier (pan station : Nat) (bit : Bool)
  /-- R287. -/
  | collDone (p : Packet)
  /-- R294. -/
  | frameStart (level : Nat)
  /-- R302; the 44 cell bytes, the slot they came in, and the start offset in ps. -/
  | cellReceive (level slot : Nat) (bytes : List Byte) (offsetPs : Int)
  /-- R301. -/
  | whistleDeadTimeout (level pos : Nat)
  /-- R301. -/
  | masterElection (level : Nat)
  /-- R304. -/
  | ringTrainingTimeout (level : Nat)
  /-- R304. -/
  | ringFallback (level : Nat)
  /-- R304; whether the retraining succeeds. -/
  | ringRetrainTimer (level : Nat) (success : Bool)
  /-- R306. -/
  | whistleFb (level : Nat) (p : Packet)
  /-- R303. -/
  | llpRejoin (origin : Origin) (level : Nat) (value : U64)
  /-- R304. -/
  | llpRetrain (origin : Origin) (level : Nat) (value : U64)
  /-- R323; the device port, arrival TIME of the frame, and the frame. -/
  | obs (port time : Nat) (frame : WpFrame)
  /-- R323. -/
  | obsWindowClose (world tick : Nat)
  /-- R328. -/
  | hello (port time : Nat) (frame : WpFrame)
  /-- R328. -/
  | helloTimer (world : Nat)
  /-- R328. -/
  | attachTimeout (world : Nat)
  /-- R328. -/
  | partnerStop (port time : Nat) (frame : WpFrame)
  /-- R333. -/
  | partnerSync (port time : Nat) (frame : WpFrame)
  /-- R325; the TIME at which the pan's PORT station takes the world's row. -/
  | actionVerdict (pan world time : Nat)
  /-- R326. -/
  | frameLatch (world tick : Nat)
  /-- R326. -/
  | sendTime (port time : Nat)
  /-- R328. -/
  | missLimit (world : Nat)
  /-- R328. -/
  | holdLimit (world : Nat)
  /-- R328. -/
  | silenceLimit (world : Nat)
  /-- R329. -/
  | rampEnd (world : Nat)
  /-- R328. -/
  | worldQuarantineExpiry (world : Nat)
  /-- R320; the measured offset of TIME from the grandmaster. -/
  | gptpSync (hd : Nat) (offsetNs : Int)
  /-- R320. -/
  | timeHoldover (hd : Nat)
  /-- R319; up with preemption verified or not, or down. -/
  | worldPortLink (port : Nat) (up preempt : Bool)
  /-- R340. -/
  | submissionDoorbell (pair value : Nat)
  /-- R340. -/
  | completionDoorbell (pair value : Nat)
  /-- R341; the 64 bytes of the submission entry at the head of the pair the steward turns to. -/
  | commandTake (pair : Nat) (entry : List Byte) (forwardable : Bool)
  /-- R345. -/
  | commandTimeout (cmd : CmdRef)
  /-- R378. -/
  | wholeLoad (cmd : CmdRef) (image : Image)
  /-- R378. -/
  | perPanLoad (cmd : CmdRef) (image : Image)
  /-- R352. -/
  | resize (cmd : CmdRef) (image : Image)
  /-- R200; the 512 header bytes as read. -/
  | imageLoad (cmd : CmdRef) (header : List Byte)
  /-- R389; the blob as read. -/
  | keyLoad (cmd : CmdRef) (blob : List Byte)
  /-- R349. -/
  | jobCreate (cmd : CmdRef)
  /-- R348. -/
  | jobStart (cmd : CmdRef)
  /-- R348. -/
  | jobStop (cmd : CmdRef)
  /-- R348. -/
  | jobDestroy (cmd : CmdRef)
  /-- R347, R349; a job's index, else a pan's. -/
  | indexQuarantineExpiry (isJob : Bool) (idx : Nat)
  /-- R328. -/
  | worldAttach (cmd : CmdRef)
  /-- R328. -/
  | worldStop (cmd : CmdRef)
  /-- R328. -/
  | worldDetach (cmd : CmdRef)
  /-- R346. -/
  | publish (cmd : CmdRef)
  /-- R182. -/
  | retract (cmd : CmdRef)
  /-- R202. -/
  | snapshot (cmd : CmdRef)
  /-- R368. -/
  | checkpointDurable (cmd : CmdRef)
  /-- R368. -/
  | checkpointEnable (cmd : CmdRef)
  /-- R368. -/
  | checkpointDisable (cmd : CmdRef)
  /-- R372; whether a durable SOURCE is present on every device of the job; weight sets and the NEWEST that surviving
  devices report (R180). -/
  | restore (cmd : CmdRef) (presentEverywhere : Bool) (newest : List (Nat × Nat))
  /-- R371; what the spare read, once FIND is answered. -/
  | spareAdopt (cmd : CmdRef) (found : Option Machine.CutFound)
  /-- R138. -/
  | seqCancel (cmd : CmdRef)
  /-- R354. -/
  | summary (cmd : CmdRef)
  /-- R388. -/
  | logRead (cmd : CmdRef)
  /-- R425. -/
  | bistRun (cmd : CmdRef)
  /-- R426; the MISR the patterns leave. -/
  | bistComplete (die : Nat) (misr : U64)
  /-- R427; the fenced unit's die, an internal requester or a host command. -/
  | fencedRequest (die requester : Nat) (cmd : Option CmdRef)
  /-- R384. -/
  | lock (cmd : CmdRef)
  /-- R362; the job, the shard and the 64 KiB extent. -/
  | protectedWrite (job shard extent : Nat)
  /-- R365; the digest the buddy computed. -/
  | shardAck (job shard : Nat) (digest : List Byte)
  /-- R369. -/
  | durableWrite (job : Nat)
  /-- R371; the failed device, job and rank named, and the spare that asks. -/
  | find (src failed job rank : Nat)
  /-- R371; the failed device, the failed rank, and the local job it concerns. -/
  | adopt (src job failed rank : Nat) (newest : List (Nat × Nat)) (maps : List Machine.RingMaps)
  /-- R374. -/
  | straggler (job rank : Nat)
  /-- R398. -/
  | renew (hd : Nat)
  /-- R399; a RENEW or a witness view of `term` reaches host die `hd`. -/
  | renewReceive (hd term : Nat)
  /-- R399. -/
  | leaseTimeout (hd : Nat) (healthy : Bool)
  /-- R400; the host dies whose claims arrive in this SCLK cycle. -/
  | witnessCas (claims : List Nat)
  /-- R399. -/
  | aonYield (origin : Origin) (hd : Nat) (value : U64)
  /-- R399. -/
  | stewardWatchdog (hd : Nat)
  /-- R403. -/
  | coldReset (boot : BootIn)
  /-- R403; `byPin` is RESET_N, otherwise AON_RST.WARM. -/
  | warmReset (byPin : Bool) (boot : BootIn)
  /-- R404. -/
  | bootStepTimeout
  /-- R436. -/
  | vin48Arrival (boot : BootIn)
  /-- R405. -/
  | aonDevnumWrite (origin : Origin) (value : U64) (boot : BootIn)
  /-- R406. -/
  | perstRelease (hd : Nat)
  /-- R437; mV and how long in µs. -/
  | vin48Fault (milliVolts us : Nat)
  /-- R437. -/
  | vsb33Fault (us : Nat)
  /-- R402. -/
  | hostDieLost
  /-- R409; measured module power in W. -/
  | powerCompare (watts : Nat)
  /-- R410; the die and its hottest sensor in 1/16 °C, and the die's mean power. -/
  | thermalSample (die : Nat) (temp : Int) (watts : Nat)
  /-- R408. -/
  | dieOpWrite (origin : Origin) (die : Nat) (value : U64)
  /-- R396; the master's TIME and half the measured round trip. -/
  | fabricTime (src time halfRtt : Nat)
  /-- R387. -/
  | auditStagingAccept (die : Nat) (waitedUs : Nat)
  /-- R388. -/
  | auditAckWrite (origin : Origin) (value : U64)
  /-- R414; a selection register named by its CSR offset. -/
  | perfSelectWrite (origin : Origin) (csr : Nat) (value : U64)
  /-- R419. -/
  | traceSample (die : Nat)
  /-- R431. -/
  | alarmRelease (origin : Origin) (value : U64)
  /-- R428. -/
  | scanEnable (die : Nat)
  /-- R6; a register named by its CSR offset. -/
  | readClear (origin : Origin) (csr : Nat)
  /-- R383; a register named by its CSR offset. -/
  | registerWrite (origin : Origin) (csr : Nat) (value : U64)
  /-- R371. -/
  | findTimeout
  /-- R371; the rank that has not voted. -/
  | adoptionVoteTimeout (job rank : Nat)
  /-- R427; the die whose unit answered. -/
  | busyTestReissue (die requester : Nat)
  /-- R269. -/
  | ackDelayExpiry (port : Nat)
  /-- R441. -/
  | ppsPulse
  /-- R338; the trained rate, width and flit mode, or down; error counts seen. -/
  | pcieLinkTraining (hd : Nat) (up : Bool) (gen width : Nat) (flit : Bool)
      (corr nonfatal fatal : Nat)
  /-- R319. -/
  | worldPortForeignFrame (port : Nat) (kind : ForeignFrame)
deriving DecidableEq, Repr

end Sys2Proof
end

