-- ==== Sys2Proof/Config.lean ====
section
/-!
DEFINITION. What an RGX-20 has fixed at production and what the manual leaves open: constants without a
body, so that nothing can be proved of their values.
-/

namespace Sys2Proof.Config

/-- Free values, by the number drawn before (R51, R77, R426). Log 1. -/
opaque freeWord : Nat → BitVec 64

/-- A choice among the floats within 1 ulp of a function's value, by function and argument code
(R149, R172, R173). Log 2. -/
opaque ulpChoice : Nat → Nat → Bool

/-- The choice that fuses the physical position of a logical brick, by die and brick (R26): it picks among the
positions that the bricks below leave free. Log 3. -/
opaque phys : Nat → Nat → Nat

/-- Whether a brick has a detour (R55). Log 3. -/
opaque detour : Nat → Nat → Bool

/-- The choice that puts a compute die in its place of the 4 × 4 grid: it picks among the places that the dies below leave
free. Log 3. -/
opaque gridPlace : Nat → Nat

/-- The host or fabric die that a port at the grid's edge faces, by die and port, less 16; 4 or more when it faces none
(R131). Log 3. -/
opaque edgePeer : Nat → Nat → Nat

/-- The fused device secret, 48 bytes (R389). Log 4. -/
opaque deviceSecret : List Byte

/-- The derivation of a P-384 private scalar from HKDF output (R389). Log 4. -/
opaque scalarOf : List Byte → Nat

/-- Nonce of an ECDSA signature, by message digest and count (R202, R392). Log 4. -/
opaque ecdsaNonce : List Byte → Nat

/-- The AES-256 keys and IVs the device draws for snapshots, by count (R202). Log 4. -/
opaque freshBytes : Nat → List Byte

/-- Additional data under which a stream key's blob was wrapped, by the blob's first 8 bytes (R389). Log 4. -/
opaque blobAad : List Byte → List Byte

/-- Byte `i` of a slot's contents as stage 6 converts master weights to them: by layout digest, bytes of the master weights,
epoch number (R187). Log 131. -/
opaque converted : List Byte → List Byte → Nat → Nat → Byte

/-- The stored self-test signature of a unit, by block and unit (R426). Log 5. -/
opaque signature : Nat → Nat → BitVec 64

/-- The numbers by which audit records and SUMMARY name the states of R348 and R347. Log 6. -/
opaque jobStateCode : Nat → Nat
opaque panStateCode : Nat → Nat

end Sys2Proof.Config
end

