-- ==== Sys2Proof/Machine/Maps.lean ====
section
/-!
DEFINITION. Finite maps kept as lists with rising keys, the byte map of the memory tiers, and the small
list and number helpers the other files share.
-/

namespace Sys2Proof.Machine

/-- The value at key `k`. -/
def mget {V : Type} : AMap V → Nat → Option V
  | [], _ => none
  | (j, v) :: r, k => if j = k then some v else mget r k

/-- Sets key `k`, keeping the keys in rising order. -/
def mput {V : Type} : AMap V → Nat → V → AMap V
  | [], k, v => [(k, v)]
  | (j, w) :: r, k, v =>
    if k < j then (k, v) :: (j, w) :: r
    else if k = j then (k, v) :: r
    else (j, w) :: mput r k v

/-- Removes key `k`. -/
def mdel {V : Type} : AMap V → Nat → AMap V
  | [], _ => []
  | (j, w) :: r, k => if j = k then mdel r k else (j, w) :: mdel r k

/-- The value at key `k`, or `d` where none is listed. -/
def mgetD {V : Type} (m : AMap V) (k : Nat) (d : V) : V := (mget m k).getD d

/-- Sets key `k` in a map whose unlisted keys read as `d`: writing `d` removes the entry. -/
def mset {V : Type} [DecidableEq V] (m : AMap V) (k : Nat) (d v : V) : AMap V :=
  if v = d then mdel m k else mput m k v

/-- Changes every value. -/
def mapVals {V : Type} (m : AMap V) (f : V → V) : AMap V := m.map (fun p => (p.1, f p.2))

/-- Changes the value at key `k`, where one is listed. -/
def mmod {V : Type} (m : AMap V) (k : Nat) (f : V → V) : AMap V :=
  match mget m k with
  | some v => mput m k (f v)
  | none => m

/-- The entries with keys outside the `n` keys from `a` up. -/
def mcut {V : Type} (m : AMap V) (a n : Nat) : AMap V :=
  m.filter (fun p => decide (p.1 < a) || decide (a + n ≤ p.1))

/-- The entries of a map that differ from an older one's. -/
def mdiff {V : Type} [DecidableEq V] (old new : AMap V) : AMap V := new.filter (fun p => mget old p.1 ≠ some p.2)

/-- Some key among the `n` from `a` up is listed. -/
def many {V : Type} (m : AMap V) (a n : Nat) : Bool := m.any (fun p => decide (a ≤ p.1) && decide (p.1 < a + n))

/-- Keys strictly above `lo` and strictly rising. -/
def mrising {V : Type} : Nat → AMap V → Bool
  | _, [] => true
  | lo, (j, _) :: r => decide (lo ≤ j) && mrising (j + 1) r

/-- The canonical form: keys strictly rising. -/
def mwf {V : Type} (m : AMap V) : Bool := mrising 0 m

/-- The canonical form of a map with default `d`: rising keys and no entry equal to `d`. -/
def mwfD {V : Type} [DecidableEq V] (d : V) (m : AMap V) : Bool :=
  mwf m && m.all (fun p => decide (p.2 ≠ d))

/-! ## Memory bytes -/

/-- What a byte that nothing has written reads as. DESIGN CHOICE (log 10): zero. -/
def Memory.fill : Byte := 0

/-- The canonical form of the tiers' byte map. -/
def Memory.wf (m : AMap Byte) : Bool := mwfD Memory.fill m

/-- One byte. -/
def Memory.byte (m : AMap Byte) (a : Nat) : Byte := mgetD m a Memory.fill

/-- `n` bytes from `a` up. -/
def Memory.read (m : AMap Byte) (a : Nat) : Nat → List Byte
  | 0 => []
  | n + 1 => Memory.byte m a :: Memory.read m (a + 1) n

/-- Writes bytes from `a` up. -/
def Memory.write (m : AMap Byte) (a : Nat) : List Byte → AMap Byte
  | [] => m
  | b :: r => Memory.write (mset m a Memory.fill b) (a + 1) r

/-- Fills `n` bytes from `a` up with the unlisted value: drops the entries in range. -/
def Memory.clear (m : AMap Byte) (a n : Nat) : AMap Byte :=
  m.filter (fun p => decide (p.1 < a) || decide (a + n ≤ p.1))

/-! ## Numbers and bytes -/

/-- Little-endian value of bytes (00_scope, Notation). -/
def leNat : List Byte → Nat
  | [] => 0
  | b :: r => b.toNat + 256 * leNat r

/-- `n` little-endian bytes of `v`. -/
def toLe : Nat → Nat → List Byte
  | 0, _ => []
  | n + 1, v => BitVec.ofNat 8 v :: toLe n (v / 256)

/-- Big-endian value of bytes. -/
def beNat (l : List Byte) : Nat := l.foldl (fun a b => a * 256 + b.toNat) 0

/-- `n` big-endian bytes of `v`. -/
def toBe (n v : Nat) : List Byte := (toLe n v).reverse

/-- Bits [hi:lo] of `v`. -/
def bits (v hi lo : Nat) : Nat := v / 2 ^ lo % 2 ^ (hi + 1 - lo)

/-- Bit `i` of `v`. -/
def bit (v i : Nat) : Bool := v.testBit i

/-- A field at byte offset `o` of `n` little-endian bytes. -/
def fieldAt (l : List Byte) (o n : Nat) : Nat := leNat ((l.drop o).take n)

/-- `v` held between `lo` and `hi`. -/
def clampN (lo hi v : Nat) : Nat := if v < lo then lo else if hi < v then hi else v

/-- Two's complement value of the low `w` bits. -/
def sInt (w v : Nat) : Int :=
  if v % 2 ^ w < 2 ^ (w - 1) then ((v % 2 ^ w : Nat) : Int) else ((v % 2 ^ w : Nat) : Int) - (2 ^ w : Nat)

/-- The low `w` bits of an integer. -/
def uInt (w : Nat) (v : Int) : Nat := (v % ((2 ^ w : Nat) : Int)).toNat

/-- 1 for true. -/
def b2n (b : Bool) : Nat := if b then 1 else 0

/-- Pads with zero bytes, or cuts, to `n`. -/
def fitTo (n : Nat) (l : List Byte) : List Byte := l.take n ++ List.replicate (n - l.length) 0

/-- `a / b` rounded up. -/
def ceilDiv (a b : Nat) : Nat := (a + b - 1) / b

/-- The element at `i`, or a default. -/
def nth {V : Type} (l : List V) (i : Nat) (d : V) : V := (l[i]?).getD d

/-- Replaces the element at `i`. -/
def setNth {V : Type} (l : List V) (i : Nat) (v : V) : List V := l.set i v

/-- The lowest natural below `n` with `p`. -/
def lowest (n : Nat) (p : Nat → Bool) : Option Nat := (List.range n).find? p

/-- Splits into pieces of `n` bytes; `fuel` bounds the pieces. -/
def chunks {V : Type} (n : Nat) : Nat → List V → List (List V)
  | 0, _ => []
  | f + 1, l => if l.isEmpty then [] else l.take n :: chunks n f (l.drop n)

/-- The sum of a number over a list. -/
def sumBy {V : Type} (l : List V) (f : V → Nat) : Nat := (l.map f).foldl (· + ·) 0

/-- Applies a function to a state once per element. -/
def forEach {S V : Type} (l : List V) (s : S) (f : S → V → S) : S := l.foldl f s

/-- Puts `x` before the first element that does not come before it. -/
def insertBy {V : Type} (le : V → V → Bool) (x : V) : List V → List V
  | [] => [x]
  | y :: r => if le x y then x :: y :: r else y :: insertBy le x r

/-- The list in order; elements of equal rank keep their order. -/
def sortBy {V : Type} (le : V → V → Bool) (l : List V) : List V := l.foldr (insertBy le) []

end Sys2Proof.Machine
end

