-- ==== Sys2Proof/Machine/Hash.lean ====
section
/-!
DEFINITION. The checks and digests of the manual: CRC-32 and CRC-16 (R445), SHA-256 and SHA-384
(FIPS 180-4), HMAC and HKDF (R198, R389).
-/

namespace Sys2Proof.Machine

/-! ## CRC (R445) -/

/-- One bit of the reflected CRC-32. -/
def crc32Bit (r : BitVec 32) : BitVec 32 :=
  if r.getLsbD 0 then (r >>> 1) ^^^ 0xEDB88320 else r >>> 1

def iterN {V : Type} (f : V → V) : Nat → V → V
  | 0, v => v
  | n + 1, v => iterN f n (f v)

def crc32Byte (r : BitVec 32) (b : Byte) : BitVec 32 := iterN crc32Bit 8 (r ^^^ b.setWidth 32)

/-- CRC-32, polynomial 04C11DB7h, in the IEEE 802.3 form. -/
def crc32 (l : List Byte) : BitVec 32 := (l.foldl crc32Byte 0xFFFFFFFF) ^^^ 0xFFFFFFFF

def crc16Bit (r : BitVec 16) : BitVec 16 :=
  if r.getLsbD 15 then (r <<< 1) ^^^ 0x1021 else r <<< 1

def crc16Byte (r : BitVec 16) (b : Byte) : BitVec 16 :=
  iterN crc16Bit 8 (r ^^^ (b.setWidth 16 <<< 8))

/-- CRC-16, polynomial 1021h, non-reflected, initial value FFFFh, no final XOR. -/
def crc16 (l : List Byte) : BitVec 16 := l.foldl crc16Byte 0xFFFF

/-! ## SHA-2 -/

/-- The words of `w` bits of numbers that hold eight each, the first in the highest bits. -/
def eights (w : Nat) (l : List Nat) : List (BitVec w) :=
  l.flatMap (fun x => (List.range 8).map (fun i => BitVec.ofNat w (x >>> (w * (7 - i)))))

/-- Round constants of SHA-256. -/
def sha256K : List (BitVec 32) := eights 32 [
  0x428a2f9871374491b5c0fbcfe9b5dba53956c25b59f111f1923f82a4ab1c5ed5,
  0xd807aa9812835b01243185be550c7dc372be5d7480deb1fe9bdc06a7c19bf174,
  0xe49b69c1efbe47860fc19dc6240ca1cc2de92c6f4a7484aa5cb0a9dc76f988da,
  0x983e5152a831c66db00327c8bf597fc7c6e00bf3d5a7914706ca635114292967,
  0x27b70a852e1b21384d2c6dfc53380d13650a7354766a0abb81c2c92e92722c85,
  0xa2bfe8a1a81a664bc24b8b70c76c51a3d192e819d6990624f40e3585106aa070,
  0x19a4c1161e376c082748774c34b0bcb5391c0cb34ed8aa4a5b9cca4f682e6ff3,
  0x748f82ee78a5636f84c878148cc7020890befffaa4506cebbef9a3f7c67178f2]

/-- Initial digest of SHA-256. -/
def sha256H : List (BitVec 32) := eights 32 [0x6a09e667bb67ae853c6ef372a54ff53a510e527f9b05688c1f83d9ab5be0cd19]

/-- Round constants of SHA-384. -/
def sha512K : List (BitVec 64) := eights 64 [
  0x428a2f98d728ae227137449123ef65cdb5c0fbcfec4d3b2fe9b5dba58189dbbc3956c25bf348b53859f111f1b605d019923f82a4af194f9bab1c5ed5da6d8118,
  0xd807aa98a303024212835b0145706fbe243185be4ee4b28c550c7dc3d5ffb4e272be5d74f27b896f80deb1fe3b1696b19bdc06a725c71235c19bf174cf692694,
  0xe49b69c19ef14ad2efbe4786384f25e30fc19dc68b8cd5b5240ca1cc77ac9c652de92c6f592b02754a7484aa6ea6e4835cb0a9dcbd41fbd476f988da831153b5,
  0x983e5152ee66dfaba831c66d2db43210b00327c898fb213fbf597fc7beef0ee4c6e00bf33da88fc2d5a79147930aa72506ca6351e003826f142929670a0e6e70,
  0x27b70a8546d22ffc2e1b21385c26c9264d2c6dfc5ac42aed53380d139d95b3df650a73548baf63de766a0abb3c77b2a881c2c92e47edaee692722c851482353b,
  0xa2bfe8a14cf10364a81a664bbc423001c24b8b70d0f89791c76c51a30654be30d192e819d6ef5218d69906245565a910f40e35855771202a106aa07032bbd1b8,
  0x19a4c116b8d2d0c81e376c085141ab532748774cdf8eeb9934b0bcb5e19b48a8391c0cb3c5c95a634ed8aa4ae3418acb5b9cca4f7763e373682e6ff3d6b2b8a3,
  0x748f82ee5defb2fc78a5636f43172f6084c87814a1f0ab728cc702081a6439ec90befffa23631e28a4506cebde82bde9bef9a3f7b2c67915c67178f2e372532b,
  0xca273eceea26619cd186b8c721c0c207eada7dd6cde0eb1ef57d4f7fee6ed17806f067aa72176fba0a637dc5a2c898a6113f9804bef90dae1b710b35131c471b,
  0x28db77f523047d8432caab7b40c724933c9ebe0a15c9bebc431d67c49c100d4c4cc5d4becb3e42b6597f299cfc657e2a5fcb6fab3ad6faec6c44198c4a475817]

/-- Initial digest of SHA-384. -/
def sha384H : List (BitVec 64) := eights 64 [
  0xcbbb9d5dc1059ed8629a292a367cd5079159015a3070dd17152fecd8f70e593967332667ffc00b318eb44a8768581511db0c2e0d64f98fa747b5481dbefa4fa4]

/-- The rotations of a SHA-2 variant: Σ0, Σ1 (three rotations), σ0, σ1 (two rotations and a shift). -/
structure ShaRot where
  a : Nat × Nat × Nat
  b : Nat × Nat × Nat
  c : Nat × Nat × Nat
  d : Nat × Nat × Nat

def rot256 : ShaRot := ⟨(2, 13, 22), (6, 11, 25), (7, 18, 3), (17, 19, 10)⟩
def rot512 : ShaRot := ⟨(28, 34, 39), (14, 18, 41), (1, 8, 7), (19, 61, 6)⟩

def big {w : Nat} (r : Nat × Nat × Nat) (x : BitVec w) : BitVec w :=
  x.rotateRight r.1 ^^^ x.rotateRight r.2.1 ^^^ x.rotateRight r.2.2

def small {w : Nat} (r : Nat × Nat × Nat) (x : BitVec w) : BitVec w :=
  x.rotateRight r.1 ^^^ x.rotateRight r.2.1 ^^^ (x >>> r.2.2)

/-- Extends the message schedule by `n` words; the list holds the newest word first. -/
def shaSchedule {w : Nat} (r : ShaRot) : Nat → List (BitVec w) → List (BitVec w)
  | 0, l => l
  | n + 1, l =>
    let x := small r.d (nth l 1 0) + nth l 6 0 + small r.c (nth l 14 0) + nth l 15 0
    shaSchedule r n (x :: l)

/-- Bits of `y` where `x` has ones, of `z` elsewhere. -/
def pickBits {w : Nat} (x y z : BitVec w) : BitVec w := z ^^^ (x &&& (y ^^^ z))

/-- Bits that two of three words agree on. -/
def twoOf {w : Nat} (x y z : BitVec w) : BitVec w := (x &&& (y ||| z)) ||| (y &&& z)

/-- One round: the eight working words, the oldest last in each half, with the round's constant and schedule word. -/
def shaRound {w : Nat} (r : ShaRot) (v : List (BitVec w)) (kw : BitVec w × BitVec w) : List (BitVec w) :=
  let at_ (i : Nat) : BitVec w := nth v i 0
  let t := kw.1 + kw.2 + at_ 7 + big r.b (at_ 4) + pickBits (at_ 4) (at_ 5) (at_ 6)
  let u := big r.a (at_ 0) + twoOf (at_ 0) (at_ 1) (at_ 2)
  (t + u) :: v.take 3 ++ (at_ 3 + t) :: (v.drop 4).take 3

/-- One block. -/
def shaBlock {w : Nat} (r : ShaRot) (ks : List (BitVec w)) (h : List (BitVec w)) (block : List Byte) :
    List (BitVec w) :=
  let m := (chunks (w / 8) 16 block).map (fun b => BitVec.ofNat w (beNat b))
  let ws := (shaSchedule r (ks.length - 16) m.reverse).reverse
  let v := (ks.zip ws).foldl (shaRound r) h
  (h.zip v).map (fun p => p.1 + p.2)

/-- Pads a message to whole blocks of `bl` bytes with its bit length in `ll` bytes. -/
def shaPad (bl ll : Nat) (m : List Byte) : List Byte :=
  let n := m.length + 1 + ll
  let z := (bl - n % bl) % bl
  m ++ [0x80] ++ List.replicate z 0 ++ toBe ll (8 * m.length)

def sha256 (m : List Byte) : List Byte :=
  let p := shaPad 64 8 m
  ((chunks 64 (p.length / 64) p).foldl (shaBlock rot256 sha256K) sha256H).flatMap
    (fun x => toBe 4 x.toNat)

def sha384 (m : List Byte) : List Byte :=
  let p := shaPad 128 16 m
  (((chunks 128 (p.length / 128) p).foldl (shaBlock rot512 sha512K) sha384H).take 6).flatMap
    (fun x => toBe 8 x.toNat)

/-- HMAC-SHA-384. -/
def hmac384 (key msg : List Byte) : List Byte :=
  let k := fitTo 128 (if 128 < key.length then sha384 key else key)
  sha384 (k.map (· ^^^ 0x5C) ++ sha384 (k.map (· ^^^ 0x36) ++ msg))

/-- HKDF expansion, block by block. -/
def hkdfExpand (prk info : List Byte) : Nat → Nat → List Byte → List Byte
  | 0, _, _ => []
  | n + 1, i, t =>
    let t' := hmac384 prk (t ++ info ++ [BitVec.ofNat 8 i])
    t' ++ hkdfExpand prk info n (i + 1) t'

/-- HKDF-SHA-384 of `n` bytes; an empty salt is 48 zero bytes. -/
def hkdf384 (salt ikm info : List Byte) (n : Nat) : List Byte :=
  let prk := hmac384 (if salt.isEmpty then List.replicate 48 0 else salt) ikm
  (hkdfExpand prk info (ceilDiv n 48) 1 []).take n

end Sys2Proof.Machine
end

