-- ==== Sys2Proof/Machine/Crypto.lean ====
section
/-!
DEFINITION. The ciphers of the manual: AES-256-GCM (R198, R202), and ECDH and ECDSA on P-384 (R198, R202,
R389). The manual names their standards (log 105).
-/

namespace Sys2Proof.Machine

/-! ## AES-256 -/

/-- Multiplication by x in the AES field. -/
def xtime (b : Byte) : Byte := if b.getLsbD 7 then (b <<< 1) ^^^ 0x1B else b <<< 1

/-- Product in the AES field, `n` bits of the second factor. -/
def gmulFrom : Nat → Byte → Byte → Byte
  | 0, _, _ => 0
  | n + 1, a, b => (if b.getLsbD 0 then a else 0) ^^^ gmulFrom n (xtime a) (b >>> 1)

def gmul (a b : Byte) : Byte := gmulFrom 8 a b

/-- The inverse in the AES field, x^254; 0 for 0. -/
def ginv (x : Byte) : Byte :=
  let x2 := gmul x x
  let x4 := gmul x2 x2
  let x8 := gmul x4 x4
  let x16 := gmul x8 x8
  let x32 := gmul x16 x16
  let x64 := gmul x32 x32
  let x128 := gmul x64 x64
  gmul x128 (gmul x64 (gmul x32 (gmul x16 (gmul x8 (gmul x4 x2)))))

def sbox (x : Byte) : Byte :=
  let i := ginv x
  i ^^^ i.rotateLeft 1 ^^^ i.rotateLeft 2 ^^^ i.rotateLeft 3 ^^^ i.rotateLeft 4 ^^^ 0x63

def xorBytes (a b : List Byte) : List Byte := (a.zip b).map (fun p => p.1 ^^^ p.2)

/-- Extends the key schedule word by word; words in order. -/
def aesExpand : Nat → Nat → Byte → List (List Byte) → List (List Byte)
  | 0, _, _, ws => ws
  | n + 1, i, rc, ws =>
    let prev := nth ws (i - 1) []
    let t := if i % 8 = 0 then xorBytes ((prev.drop 1 ++ prev.take 1).map sbox) [rc, 0, 0, 0]
      else if i % 8 = 4 then prev.map sbox else prev
    aesExpand n (i + 1) (if i % 8 = 0 then xtime rc else rc) (ws ++ [xorBytes (nth ws (i - 8) []) t])

/-- The 15 round keys of 16 bytes. -/
def aesKeys (key : List Byte) : List (List Byte) :=
  chunks 16 15 (aesExpand 52 8 1 (chunks 4 8 (fitTo 32 key))).flatten

/-- ShiftRows on 16 bytes in column order. -/
def shiftRows (b : List Byte) : List Byte :=
  (List.range 16).map (fun i => nth b ((i + 4 * (i % 4)) % 16) 0)

def mixColumn (c : List Byte) : List Byte :=
  (List.range 4).map (fun i => gmul 2 (nth c i 0) ^^^ gmul 3 (nth c ((i + 1) % 4) 0)
    ^^^ nth c ((i + 2) % 4) 0 ^^^ nth c ((i + 3) % 4) 0)

def aesRound (last : Bool) (b k : List Byte) : List Byte :=
  let t := shiftRows (b.map sbox)
  xorBytes (if last then t else (chunks 4 4 t).flatMap mixColumn) k

/-- AES-256 of one block under expanded keys. -/
def aesBlock (keys : List (List Byte)) (b : List Byte) : List Byte :=
  match keys with
  | [] => b
  | k0 :: rest =>
    aesRound true ((rest.take 13).foldl (aesRound false) (xorBytes b k0)) (nth rest 13 [])

/-! ## GCM -/

/-- Product in GF(2^128) as GCM orders bits: bit 127 of the number is the block's first bit. -/
def ghashMulFrom (x : Nat) : Nat → Nat → Nat → Nat
  | 0, _, z => z
  | n + 1, v, z =>
    let z' := if x.testBit n then z ^^^ v else z
    let v' := if v.testBit 0 then (v / 2) ^^^ (0xE1 * 2 ^ 120) else v / 2
    ghashMulFrom x n v' z'

def ghashMul (x y : Nat) : Nat := ghashMulFrom x 128 y 0

def pad16 (l : List Byte) : List Byte := l ++ List.replicate ((16 - l.length % 16) % 16) 0

def ghash (h : Nat) (l : List Byte) : Nat :=
  (chunks 16 (l.length / 16 + 1) l).foldl (fun y b => ghashMul (y ^^^ beNat b) h) 0

/-- Counter-mode key stream over `l`, from block counter `c`. -/
def ctr (keys : List (List Byte)) (iv : List Byte) (c : Nat) (l : List Byte) : List Byte :=
  let bs := chunks 16 (l.length / 16 + 1) l
  (bs.zip (List.range bs.length)).flatMap
    (fun p => xorBytes p.1 (aesBlock keys (iv ++ toBe 4 (c + p.2))))

/-- The tag of a GCM ciphertext, for a 12-byte IV. -/
def gcmTag (key iv aad ct : List Byte) : List Byte :=
  let keys := aesKeys key
  let h := beNat (aesBlock keys (List.replicate 16 0))
  let s := ghash h (pad16 aad ++ pad16 ct ++ toBe 8 (8 * aad.length) ++ toBe 8 (8 * ct.length))
  xorBytes (toBe 16 s) (aesBlock keys (iv ++ toBe 4 1))

/-- AES-256-GCM encryption: ciphertext and tag. -/
def gcmSeal (key iv aad pt : List Byte) : List Byte × List Byte :=
  let ct := ctr (aesKeys key) iv 2 pt
  (ct, gcmTag key iv aad ct)

/-- AES-256-GCM decryption; none when the tag does not match. -/
def gcmOpen (key iv aad ct tag : List Byte) : Option (List Byte) :=
  if gcmTag key iv aad ct = tag then some (ctr (aesKeys key) iv 2 ct) else none

/-! ## P-384 -/

namespace P384

def p : Nat := 2 ^ 384 - 2 ^ 128 - 2 ^ 96 + 2 ^ 32 - 1
def b : Nat := 0xb3312fa7e23ee7e4988e056be3f82d19181d9c6efe8141120314088f5013875ac656398d8a2ed19d2a85c8edd3ec2aef
def n : Nat := 0xffffffffffffffffffffffffffffffffffffffffffffffffc7634d81f4372ddf581a0db248b0a77aecec196accc52973

/-- A point in Jacobian coordinates; `z = 0` is the point at infinity. -/
structure Pt where
  x : Nat
  y : Nat
  z : Nat

def G : Pt :=
  ⟨0xaa87ca22be8b05378eb1c71ef320ad746e1d3b628ba79b9859f741e082542a385502f25dbf55296c3a545e3872760ab7,
   0x3617de4a96262c6f5d9e98bf9292dc29f8f41dbd289a147ce9da3113b5f0b8c00a60b1ce1d7e819d7a431d7c90ea0e5f, 1⟩

/-- `a - c` modulo `p`. -/
def sub (a c : Nat) : Nat := (a + (p - c % p)) % p

/-- `a ^ e` modulo `m`, over the low `k` bits of `e`. -/
def powMod (m : Nat) : Nat → Nat → Nat → Nat
  | 0, _, _ => 1 % m
  | k + 1, a, e =>
    let r := powMod m k (a * a % m) (e / 2)
    if e % 2 = 1 then a * r % m else r

def inv (m a : Nat) : Nat := powMod m 384 (a % m) (m - 2)

def dbl (q : Pt) : Pt :=
  let s := 4 * q.x * (q.y * q.y % p) % p
  let z2 := q.z * q.z % p
  let m := 3 * (sub q.x z2 * ((q.x + z2) % p) % p) % p
  let x' := sub (m * m % p) (2 * s)
  let y4 := (q.y * q.y % p) * (q.y * q.y % p) % p
  ⟨x', sub (m * sub s x' % p) (8 * y4), 2 * q.y * q.z % p⟩

def add (a c : Pt) : Pt :=
  if a.z = 0 then c
  else if c.z = 0 then a
  else
    let za := a.z * a.z % p
    let zc := c.z * c.z % p
    let u1 := a.x * zc % p
    let u2 := c.x * za % p
    let s1 := a.y * (zc * c.z % p) % p
    let s2 := c.y * (za * a.z % p) % p
    if u1 = u2 then (if s1 = s2 then dbl a else ⟨1, 1, 0⟩)
    else
      let h := sub u2 u1
      let r := sub s2 s1
      let h2 := h * h % p
      let h3 := h * h2 % p
      let x' := sub (sub (r * r % p) h3) (2 * (u1 * h2 % p))
      ⟨x', sub (r * sub (u1 * h2 % p) x' % p) (s1 * h3 % p), h * (a.z * c.z % p) % p⟩

/-- Scalar multiple over the low `k` bits. -/
def mulBits : Nat → Nat → Pt → Pt
  | 0, _, _ => ⟨1, 1, 0⟩
  | k + 1, e, q =>
    let r := mulBits k (e / 2) (dbl q)
    if e % 2 = 1 then add q r else r

def mul (e : Nat) (q : Pt) : Pt := mulBits 384 (e % n) q

/-- Affine coordinates of a point other than infinity. -/
def affine (q : Pt) : Nat × Nat :=
  let i := inv p q.z
  let i2 := i * i % p
  (q.x * i2 % p, q.y * (i2 * i % p) % p)

def onCurve (x y : Nat) : Bool :=
  x < p && y < p && y * y % p == (x * x % p * x + (p - 3) * x + b) % p

/-- Reads a 97-byte uncompressed public key. -/
def ofBytes (l : List Byte) : Option Pt :=
  let x := beNat ((l.drop 1).take 48)
  let y := beNat ((l.drop 49).take 48)
  if l.length = 97 ∧ nth l 0 0 = 4 ∧ onCurve x y = true then some ⟨x, y, 1⟩ else none

def toBytes (q : Pt) : List Byte :=
  let a := affine q
  4 :: (toBe 48 a.1 ++ toBe 48 a.2)

/-- The public key of a private scalar. -/
def pub (d : Nat) : List Byte := toBytes (mul d G)

/-- The ECDH shared secret: the x coordinate, 48 bytes; none for a bad key. -/
def ecdh (d : Nat) (key : List Byte) : Option (List Byte) :=
  match ofBytes key with
  | none => none
  | some q =>
    let r := mul d q
    if r.z = 0 then none else some (toBe 48 (affine r).1)

/-- Verifies an ECDSA signature r ‖ s of 96 bytes over a SHA-384 digest. -/
def verify (key digest sig : List Byte) : Bool :=
  let r := beNat (sig.take 48)
  let t := beNat ((sig.drop 48).take 48)
  match ofBytes key with
  | none => false
  | some q =>
    if sig.length = 96 ∧ 0 < r ∧ r < n ∧ 0 < t ∧ t < n then
      let w := inv n t
      let m := add (mul (beNat digest * w % n) G) (mul (r * w % n) q)
      m.z != 0 && (affine m).1 % n == r
    else false

/-- An ECDSA signature r ‖ s under private scalar `d` and nonce `k`. -/
def sign (d k : Nat) (digest : List Byte) : List Byte :=
  let r := (affine (mul k G)).1 % n
  toBe 48 r ++ toBe 48 (inv n k * ((beNat digest + r * d) % n) % n)

end P384

/-- The identity of a public key: the first 8 bytes of the SHA-384 of its 97 bytes (R389). -/
def keyIdentity (key : List Byte) : List Byte := (sha384 key).take 8

/-! ## The device's keys (R389) -/

/-- The bytes of an ASCII text. -/
def ascii (t : String) : List Byte := t.toList.map (fun c => BitVec.ofNat 8 c.toNat)

/-- The device's private scalars, derived from the fused secret. -/
def agreeScalar : Nat := Config.scalarOf (hkdf384 [] Config.deviceSecret (ascii "RGX20-AGREE") 48)
def signScalar : Nat := Config.scalarOf (hkdf384 [] Config.deviceSecret (ascii "RGX20-SIGN") 48)
def agreePub : List Byte := P384.pub agreeScalar
def signPub : List Byte := P384.pub signScalar

end Sys2Proof.Machine
end

