-- ==== Sys2Proof/Machine/RegTable.lean ====
section
/-!
DEFINITION. The register fields of the RGX-20, one definition for each field of the register tables of
spec/02 to spec/19 (R55, R83, R84, R105, R133, R134, R161, R177, R205, R206, R224, R256 to R259, R281, R282,
R307, R308, R336, R356, R357, R375, R390 to R392, R411 to R413, R430 to R432), and the blocks of R4.
-/

namespace Sys2Proof.Machine

/-- Register blocks (R4). `brick` stands for the brick windows 80h to FFh; `epcC` and `epcH` are the EPC
blocks of compute and host dies. -/
inductive Blk where
  | die | sch | mxa | att | smp | hbm | mov | col | exp | epcC | perf | tst | d2d
  | hcx | pcie | wpt | lpd | cfg | audit | sec | aon | ckp | epcH | clk
  | fab | route | llp | nvt | brick
deriving DecidableEq, Repr

/-- Access codes (R6). -/
inductive Acc where
  | rw | ro | w1c | w1s | sc | rc | wo1 | lk
deriving DecidableEq, Repr

/-- A register field: its block, register offset (with the stride and count of per-instance registers),
bits, access, reset value, whether it saturates (1) or wraps (2) as a count field, and its event index
within the block (R415; 0 when it is no count field). -/
structure Fld where
  blk : Blk
  off : Nat
  stride : Nat := 0
  count : Nat := 1
  lsb : Nat := 0
  w : Nat
  acc : Acc := .ro
  reset : Nat := 0
  kind : Nat := 0
  evt : Nat := 0
  /-- Range to which a written value is clamped; `hi` is 0 when there is none (R383). -/
  lo : Nat := 0
  hi : Nat := 0
  /-- 0 is permitted below `lo`. -/
  zero : Bool := false
deriving DecidableEq, Repr

namespace R

/-! Block `brick` (R105, R430, R55, R83). -/

def BRK_ID_LOGICAL : Fld :=
  { blk := .brick, off := 0x0000, w := 7 }
def BRK_ID_PHYS : Fld :=
  { blk := .brick, off := 0x0000, lsb := 8, w := 8 }
def BRK_ID_COURSE : Fld :=
  { blk := .brick, off := 0x0000, lsb := 16, w := 3 }
def BRK_OWNER_PAN : Fld :=
  { blk := .brick, off := 0x0008, w := 8 }
def BRK_OWNER_PANGEN : Fld :=
  { blk := .brick, off := 0x0008, lsb := 8, w := 32 }
def BRK_OWNER_OWNED : Fld :=
  { blk := .brick, off := 0x0008, lsb := 40, w := 1 }
def BRK_ROLES_WORLD : Fld :=
  { blk := .brick, off := 0x0010, w := 10 }
def BRK_ROLES_SLIVER : Fld :=
  { blk := .brick, off := 0x0010, lsb := 16, w := 10 }
def BRK_ROLES_IDLE : Fld :=
  { blk := .brick, off := 0x0010, lsb := 32, w := 10, reset := 512 }
def BRK_KAREA_BASE : Fld :=
  { blk := .brick, off := 0x0018, w := 21 }
def BRK_KAREA_SIZE : Fld :=
  { blk := .brick, off := 0x0018, lsb := 32, w := 21 }
def BRK_WDOG_CYCLES : Fld :=
  { blk := .brick, off := 0x0020, w := 32, acc := .rw, reset := 100000000, lo := 10000, hi := 4294967295, zero := true }
def BRK_FAULT_VALID : Fld :=
  { blk := .brick, off := 0x0028, w := 1, acc := .w1c }
def BRK_FAULT_KIND : Fld :=
  { blk := .brick, off := 0x0028, lsb := 1, w := 4 }
def BRK_FAULT_GRAIN : Fld :=
  { blk := .brick, off := 0x0028, lsb := 5, w := 9 }
def BRK_FAULTPC_PC : Fld :=
  { blk := .brick, off := 0x0030, w := 32 }
def BRK_FAULTPC_INSN : Fld :=
  { blk := .brick, off := 0x0030, lsb := 32, w := 32 }
def BRK_FAULTADDR_ADDR : Fld :=
  { blk := .brick, off := 0x0038, w := 32 }
def BRK_FAULTADDR_COUNT : Fld :=
  { blk := .brick, off := 0x0038, lsb := 32, w := 16, kind := 1, evt := 1 }
def BRK_DBG_EN : Fld :=
  { blk := .brick, off := 0x0040, w := 1, acc := .lk }
def BRK_DBG_RESUME : Fld :=
  { blk := .brick, off := 0x0040, lsb := 1, w := 1, acc := .sc }
def BRK_STAT_AVAIL : Fld :=
  { blk := .brick, off := 0x0048, w := 1, reset := 1 }
def BRK_STAT_DETOUR : Fld :=
  { blk := .brick, off := 0x0048, lsb := 1, w := 1 }
def BRK_STAT_ECCFIX : Fld :=
  { blk := .brick, off := 0x0048, lsb := 32, w := 16, acc := .rc, kind := 1, evt := 2 }
def GRN_STATE_ROLE : Fld :=
  { blk := .brick, off := 0x1000, stride := 0x20, count := 512, w := 2 }
def GRN_STATE_STATE : Fld :=
  { blk := .brick, off := 0x1000, stride := 0x20, count := 512, lsb := 2, w := 3 }
def GRN_STATE_PC : Fld :=
  { blk := .brick, off := 0x1000, stride := 0x20, count := 512, lsb := 32, w := 32 }
def GRN_WIN0_BASE : Fld :=
  { blk := .brick, off := 0x1008, stride := 0x20, count := 512, w := 21 }
def GRN_WIN0_LIMIT : Fld :=
  { blk := .brick, off := 0x1008, stride := 0x20, count := 512, lsb := 32, w := 21 }
def GRN_WIN0_RD : Fld :=
  { blk := .brick, off := 0x1008, stride := 0x20, count := 512, lsb := 56, w := 1 }
def GRN_WIN0_WR : Fld :=
  { blk := .brick, off := 0x1008, stride := 0x20, count := 512, lsb := 57, w := 1 }
def GRN_WIN1_BASE : Fld :=
  { blk := .brick, off := 0x1010, stride := 0x20, count := 512, w := 21 }
def GRN_WIN1_LIMIT : Fld :=
  { blk := .brick, off := 0x1010, stride := 0x20, count := 512, lsb := 32, w := 21 }
def GRN_WIN1_RD : Fld :=
  { blk := .brick, off := 0x1010, stride := 0x20, count := 512, lsb := 56, w := 1 }
def GRN_WIN1_WR : Fld :=
  { blk := .brick, off := 0x1010, stride := 0x20, count := 512, lsb := 57, w := 1 }
def GRN_PORTS_BOUND : Fld :=
  { blk := .brick, off := 0x1018, stride := 0x20, count := 512, w := 8 }
def GRN_PORTS_OUT : Fld :=
  { blk := .brick, off := 0x1018, stride := 0x20, count := 512, lsb := 8, w := 8 }
def MXA_MODE_ELASTIC : Fld :=
  { blk := .brick, off := 0x5000, w := 1, acc := .rw, reset := 1 }
def MXA_MODE_PENDING : Fld :=
  { blk := .brick, off := 0x5000, lsb := 1, w := 1 }
def MXA_MODE_EFFECTIVE : Fld :=
  { blk := .brick, off := 0x5000, lsb := 8, w := 1, reset := 1 }
def MXA_STATUS_FG : Fld :=
  { blk := .brick, off := 0x5008, w := 1 }
def MXA_STATUS_BG_VALID : Fld :=
  { blk := .brick, off := 0x5008, lsb := 1, w := 1 }
def MXA_STATUS_BUSY : Fld :=
  { blk := .brick, off := 0x5008, lsb := 2, w := 1 }
def MXA_STATUS_FGPOISON : Fld :=
  { blk := .brick, off := 0x5008, lsb := 3, w := 1 }
def MXA_STATUS_INFLIGHT : Fld :=
  { blk := .brick, off := 0x5008, lsb := 4, w := 5 }
def MXA_STATUS_REMAIN : Fld :=
  { blk := .brick, off := 0x5008, lsb := 32, w := 32 }
def MXA_CMDCNT_CMDS : Fld :=
  { blk := .brick, off := 0x5010, w := 32, kind := 2, evt := 3 }
def MXA_CMDCNT_SWAPS : Fld :=
  { blk := .brick, off := 0x5010, lsb := 32, w := 32, kind := 2, evt := 4 }
def MXA_ROWCNT_ROWS : Fld :=
  { blk := .brick, off := 0x5018, w := 48, kind := 2, evt := 5 }
def MXA_BUBBLE_FEED : Fld :=
  { blk := .brick, off := 0x5020, w := 32, acc := .rc, kind := 1, evt := 6 }
def MXA_BUBBLE_DRAIN : Fld :=
  { blk := .brick, off := 0x5020, lsb := 32, w := 32, acc := .rc, kind := 1, evt := 7 }
def MXA_WAIT_SWAPWAIT : Fld :=
  { blk := .brick, off := 0x5028, w := 32, acc := .rc, kind := 1, evt := 8 }
def MXA_WAIT_STALL : Fld :=
  { blk := .brick, off := 0x5028, lsb := 32, w := 32, acc := .rc, kind := 1, evt := 9 }
def MXA_ERR_VALID : Fld :=
  { blk := .brick, off := 0x5030, w := 1, acc := .w1c }
def MXA_ERR_KIND : Fld :=
  { blk := .brick, off := 0x5030, lsb := 1, w := 3 }
def MXA_ERR_COUNT : Fld :=
  { blk := .brick, off := 0x5030, lsb := 4, w := 12, kind := 1, evt := 10 }
def MXA_ERR_OPTAG : Fld :=
  { blk := .brick, off := 0x5030, lsb := 32, w := 32 }
def MXA_ECC_ACCFIX : Fld :=
  { blk := .brick, off := 0x5038, w := 16, acc := .rc, kind := 1, evt := 11 }
def MXA_ECC_PARITY : Fld :=
  { blk := .brick, off := 0x5038, lsb := 16, w := 16, acc := .rc, kind := 1, evt := 12 }
def MXA_GATE_VK : Fld :=
  { blk := .brick, off := 0x5040, w := 9 }
def MXA_GATE_VN : Fld :=
  { blk := .brick, off := 0x5040, lsb := 16, w := 8 }
def MXA_DCLAMP_COUNT : Fld :=
  { blk := .brick, off := 0x5048, w := 32, acc := .rc, kind := 1, evt := 13 }
def MXA_FLAGS0_BANKS : Fld :=
  { blk := .brick, off := 0x5050, w := 64, acc := .w1c }
def MXA_FLAGS1_BANKS : Fld :=
  { blk := .brick, off := 0x5058, w := 64, acc := .w1c }
def PERF_BSEL_EVENT : Fld :=
  { blk := .brick, off := 0x6000, stride := 0x10, count := 8, w := 8, acc := .rw }
def PERF_BCNT_VALUE : Fld :=
  { blk := .brick, off := 0x6008, stride := 0x10, count := 8, w := 48, kind := 2, evt := 14 }
def PERF_BCNT_STAMP : Fld :=
  { blk := .brick, off := 0x6008, stride := 0x10, count := 8, lsb := 48, w := 16 }

/-! Block `mxa` (R84). -/

def MXA_ERRMAP0_BRICKS : Fld :=
  { blk := .mxa, off := 0x0000, w := 64 }
def MXA_ERRMAP1_BRICKS : Fld :=
  { blk := .mxa, off := 0x0008, w := 64 }
def MXA_MODEMAP0_BRICKS : Fld :=
  { blk := .mxa, off := 0x0010, w := 64, reset := 18446744073709551615 }
def MXA_MODEMAP1_BRICKS : Fld :=
  { blk := .mxa, off := 0x0018, w := 64, reset := 18446744073709551615 }

/-! Block `sch` (R133). -/

def SCH_STATUS_INFLIGHT : Fld :=
  { blk := .sch, off := 0x0000, w := 13 }
def SCH_STATUS_PEAK : Fld :=
  { blk := .sch, off := 0x0000, lsb := 16, w := 13, acc := .rc }
def SCH_FULL_CYCLES : Fld :=
  { blk := .sch, off := 0x0008, w := 32, acc := .rc, kind := 1, evt := 1 }
def SCH_FULL_STALE : Fld :=
  { blk := .sch, off := 0x0008, lsb := 32, w := 32, acc := .rc, kind := 1, evt := 2 }
def SCH_ORPHAN_COUNT : Fld :=
  { blk := .sch, off := 0x0010, w := 32, acc := .rc, kind := 1, evt := 3 }
def SCH_BNDLIM_US : Fld :=
  { blk := .sch, off := 0x0018, w := 32, acc := .rw, reset := 100000 }
def SCH_POISON_COUNT : Fld :=
  { blk := .sch, off := 0x0020, w := 32, acc := .rc, kind := 1, evt := 4 }
def SCH_POISON_CAUSE : Fld :=
  { blk := .sch, off := 0x0020, lsb := 32, w := 8 }
def SCH_PSTEP_STEP : Fld :=
  { blk := .sch, off := 0x1000, stride := 0x20, count := 256, w := 64 }
def SCH_SPLIT_ROWS : Fld :=
  { blk := .sch, off := 0x1008, stride := 0x20, count := 256, w := 17, acc := .rw, reset := 4096, lo := 128, hi := 65536 }
def SCH_SPLIT_PENDING : Fld :=
  { blk := .sch, off := 0x1008, stride := 0x20, count := 256, lsb := 24, w := 1 }
def SCH_PQUOTA_RESERVED : Fld :=
  { blk := .sch, off := 0x1010, stride := 0x20, count := 256, w := 13 }
def SCH_PQUOTA_INFLIGHT : Fld :=
  { blk := .sch, off := 0x1010, stride := 0x20, count := 256, lsb := 16, w := 13 }
def SCH_PQUOTA_MASTER : Fld :=
  { blk := .sch, off := 0x1010, stride := 0x20, count := 256, lsb := 32, w := 4 }
def SCH_PBND_LAST_NS : Fld :=
  { blk := .sch, off := 0x1018, stride := 0x20, count := 256, w := 32, kind := 1, evt := 5 }
def SCH_PBND_TCOMMIT : Fld :=
  { blk := .sch, off := 0x1018, stride := 0x20, count := 256, lsb := 32, w := 3 }
def SCH_PBND_POISONED : Fld :=
  { blk := .sch, off := 0x1018, stride := 0x20, count := 256, lsb := 48, w := 1 }
def SCH_PBND_LATE : Fld :=
  { blk := .sch, off := 0x1018, stride := 0x20, count := 256, lsb := 49, w := 1 }

/-! Block `d2d` (R134). -/

def D2D_LSTAT_STATE : Fld :=
  { blk := .d2d, off := 0x0000, stride := 0x40, count := 4, w := 3 }
def D2D_LSTAT_PEER : Fld :=
  { blk := .d2d, off := 0x0000, stride := 0x40, count := 4, lsb := 3, w := 5 }
def D2D_LSTAT_REPAIRED : Fld :=
  { blk := .d2d, off := 0x0000, stride := 0x40, count := 4, lsb := 8, w := 8 }
def D2D_LSTAT_DEGRADED : Fld :=
  { blk := .d2d, off := 0x0000, stride := 0x40, count := 4, lsb := 16, w := 1 }
def D2D_LERR_RETRY : Fld :=
  { blk := .d2d, off := 0x0008, stride := 0x40, count := 4, w := 32, acc := .rc, kind := 1, evt := 1 }
def D2D_LERR_RETRAINS : Fld :=
  { blk := .d2d, off := 0x0008, stride := 0x40, count := 4, lsb := 32, w := 16, acc := .rc, kind := 1, evt := 2 }
def D2D_LERR_POISONED : Fld :=
  { blk := .d2d, off := 0x0008, stride := 0x40, count := 4, lsb := 48, w := 16, acc := .rc, kind := 1, evt := 3 }
def D2D_REROUTE_PACKETS : Fld :=
  { blk := .d2d, off := 0x0010, stride := 0x40, count := 4, w := 48, acc := .rc, kind := 1, evt := 4 }

/-! Block `att` (R161). -/

def ATT_STATUS_WBUSY : Fld :=
  { blk := .att, off := 0x0000, w := 8 }
def ATT_LAB_HITS : Fld :=
  { blk := .att, off := 0x0008, w := 32, acc := .rc, kind := 1, evt := 1 }
def ATT_LAB_MISSES : Fld :=
  { blk := .att, off := 0x0008, lsb := 32, w := 32, acc := .rc, kind := 1, evt := 2 }
def ATT_WALK_WALKS : Fld :=
  { blk := .att, off := 0x0010, w := 32, acc := .rc, kind := 1, evt := 3 }
def ATT_WALK_STALE : Fld :=
  { blk := .att, off := 0x0010, lsb := 32, w := 16, acc := .rc, kind := 1, evt := 4 }
def ATT_WALK_TRAILER : Fld :=
  { blk := .att, off := 0x0010, lsb := 48, w := 16, acc := .rc, kind := 1, evt := 5 }
def ATT_STUB_REDIRECT : Fld :=
  { blk := .att, off := 0x0018, w := 32, acc := .rc, kind := 1, evt := 6 }
def ATT_PMODE_DROP : Fld :=
  { blk := .att, off := 0x1000, stride := 0x40, count := 256, w := 1, acc := .rw }
def ATT_PMODE_PENDING : Fld :=
  { blk := .att, off := 0x1000, stride := 0x40, count := 256, lsb := 1, w := 1 }
def ATT_PMODE_EFFECTIVE : Fld :=
  { blk := .att, off := 0x1000, stride := 0x40, count := 256, lsb := 8, w := 1 }
def ATT_PMODE_HIGH1 : Fld :=
  { blk := .att, off := 0x1000, stride := 0x40, count := 256, lsb := 16, w := 8, acc := .rw, reset := 90, lo := 50, hi := 99 }
def ATT_PMODE_LOW1 : Fld :=
  { blk := .att, off := 0x1000, stride := 0x40, count := 256, lsb := 24, w := 8, acc := .rw, reset := 80 }
def ATT_PMODE_HIGH2 : Fld :=
  { blk := .att, off := 0x1000, stride := 0x40, count := 256, lsb := 32, w := 8, acc := .rw, reset := 90, lo := 50, hi := 99 }
def ATT_PMODE_LOW2 : Fld :=
  { blk := .att, off := 0x1000, stride := 0x40, count := 256, lsb := 40, w := 8, acc := .rw, reset := 80 }
def ATT_PSEQ_LIVE : Fld :=
  { blk := .att, off := 0x1008, stride := 0x40, count := 256, w := 17 }
def ATT_PSEQ_QUAR : Fld :=
  { blk := .att, off := 0x1008, stride := 0x40, count := 256, lsb := 32, w := 17 }
def ATT_PSEQ_WAITS : Fld :=
  { blk := .att, off := 0x1008, stride := 0x40, count := 256, lsb := 49, w := 15, acc := .rc, kind := 1, evt := 7 }
def ATT_PPAGE_T1 : Fld :=
  { blk := .att, off := 0x1010, stride := 0x40, count := 256, w := 32 }
def ATT_PPAGE_T2 : Fld :=
  { blk := .att, off := 0x1010, stride := 0x40, count := 256, lsb := 32, w := 32 }
def ATT_PT3_T3 : Fld :=
  { blk := .att, off := 0x1018, stride := 0x40, count := 256, w := 32 }
def ATT_PT3_EMPTYROW : Fld :=
  { blk := .att, off := 0x1018, stride := 0x40, count := 256, lsb := 32, w := 16, acc := .rc, kind := 1, evt := 8 }
def ATT_PT3_RECLOST : Fld :=
  { blk := .att, off := 0x1018, stride := 0x40, count := 256, lsb := 48, w := 16, acc := .rc, kind := 1, evt := 9 }
def ATT_PSPILL_SPILLED : Fld :=
  { blk := .att, off := 0x1020, stride := 0x40, count := 256, w := 32, acc := .rc, kind := 1, evt := 10 }
def ATT_PSPILL_FETCHED : Fld :=
  { blk := .att, off := 0x1020, stride := 0x40, count := 256, lsb := 32, w := 32, acc := .rc, kind := 1, evt := 11 }
def ATT_PDROP_DROPPED : Fld :=
  { blk := .att, off := 0x1028, stride := 0x40, count := 256, w := 32, acc := .rc, kind := 1, evt := 12 }
def ATT_PDROP_EXHAUST : Fld :=
  { blk := .att, off := 0x1028, stride := 0x40, count := 256, lsb := 32, w := 16, acc := .rc, kind := 1, evt := 13 }
def ATT_PDROP_OVERRUN : Fld :=
  { blk := .att, off := 0x1028, stride := 0x40, count := 256, lsb := 48, w := 16, acc := .rc, kind := 1, evt := 14 }
def ATT_PSPEC_ACCEPTED : Fld :=
  { blk := .att, off := 0x1030, stride := 0x40, count := 256, w := 32, acc := .rc, kind := 1, evt := 15 }
def ATT_PSPEC_REJECTED : Fld :=
  { blk := .att, off := 0x1030, stride := 0x40, count := 256, lsb := 32, w := 32, acc := .rc, kind := 1, evt := 16 }
def ATT_PPFX_REUSED : Fld :=
  { blk := .att, off := 0x1038, stride := 0x40, count := 256, w := 32, acc := .rc, kind := 1, evt := 17 }
def ATT_PPFX_CONFIRMFAIL : Fld :=
  { blk := .att, off := 0x1038, stride := 0x40, count := 256, lsb := 32, w := 16, acc := .rc, kind := 1, evt := 18 }
def ATT_PPFX_SHAREDWR : Fld :=
  { blk := .att, off := 0x1038, stride := 0x40, count := 256, lsb := 48, w := 16, acc := .rc, kind := 1, evt := 19 }

/-! Block `smp` (R177). -/

def SMP_STATUS_BUSY : Fld :=
  { blk := .smp, off := 0x0000, w := 4 }
def SMP_STATUS_BOUND : Fld :=
  { blk := .smp, off := 0x0000, lsb := 8, w := 4 }
def SMP_DRAWS_DISCRETE : Fld :=
  { blk := .smp, off := 0x0008, w := 32, acc := .rc, kind := 1, evt := 1 }
def SMP_DRAWS_CONTINUOUS : Fld :=
  { blk := .smp, off := 0x0008, lsb := 32, w := 32, acc := .rc, kind := 1, evt := 2 }
def SMP_CLAMP_TEMP : Fld :=
  { blk := .smp, off := 0x0010, w := 16, acc := .rc, kind := 1, evt := 3 }
def SMP_CLAMP_TOPK : Fld :=
  { blk := .smp, off := 0x0010, lsb := 16, w := 16, acc := .rc, kind := 1, evt := 4 }
def SMP_CLAMP_TOPP : Fld :=
  { blk := .smp, off := 0x0010, lsb := 32, w := 16, acc := .rc, kind := 1, evt := 5 }
def SMP_CLAMP_OTHER : Fld :=
  { blk := .smp, off := 0x0010, lsb := 48, w := 16, acc := .rc, kind := 1, evt := 6 }
def SMP_NOADMIT_ROWS : Fld :=
  { blk := .smp, off := 0x0018, w := 32, acc := .rc, kind := 1, evt := 7 }
def SMP_NOADMIT_NANSCORE : Fld :=
  { blk := .smp, off := 0x0018, lsb := 32, w := 32, acc := .rc, kind := 1, evt := 8 }
def SMP_LSEL_LANE : Fld :=
  { blk := .smp, off := 0x0020, w := 21, acc := .rw, lo := 0, hi := 1058815 }
def SMP_LPOS_POS : Fld :=
  { blk := .smp, off := 0x0028, w := 64 }
def SMP_LJOB_JOB : Fld :=
  { blk := .smp, off := 0x0030, w := 8 }
def SMP_LJOB_VALID : Fld :=
  { blk := .smp, off := 0x0030, lsb := 8, w := 1 }

/-! Block `epcH` (R205). -/

def EPC_POLICY_ENCRYPT : Fld :=
  { blk := .epcH, off := 0x0000, w := 1, acc := .wo1 }
def EPC_LIMIT_GNORM : Fld :=
  { blk := .epcH, off := 0x0008, w := 32, acc := .rw, reset := 2139095040 }
def EPC_PUB_WS : Fld :=
  { blk := .epcH, off := 0x0010, w := 8 }
def EPC_PUB_BUSY : Fld :=
  { blk := .epcH, off := 0x0010, lsb := 8, w := 1 }
def EPC_PUB_WAITPROV : Fld :=
  { blk := .epcH, off := 0x0010, lsb := 9, w := 1 }
def EPC_PUB_WAITSLOT : Fld :=
  { blk := .epcH, off := 0x0010, lsb := 10, w := 1 }
def EPC_PUB_WAITTABLE : Fld :=
  { blk := .epcH, off := 0x0010, lsb := 11, w := 1 }
def EPC_PUB_EPOCH : Fld :=
  { blk := .epcH, off := 0x0010, lsb := 32, w := 32 }
def EPC_IMG_BUSY : Fld :=
  { blk := .epcH, off := 0x0018, w := 1 }
def EPC_IMG_REASON : Fld :=
  { blk := .epcH, off := 0x0018, lsb := 4, w := 4 }
def EPC_IMG_CHUNKS : Fld :=
  { blk := .epcH, off := 0x0018, lsb := 32, w := 32 }
def EPC_COUNT_CONFIRMED : Fld :=
  { blk := .epcH, off := 0x0020, w := 32, acc := .rc, kind := 1, evt := 1 }
def EPC_COUNT_RETRACTED : Fld :=
  { blk := .epcH, off := 0x0020, lsb := 32, w := 32, acc := .rc, kind := 1, evt := 2 }
def EPC_WAITS_PUBWAIT : Fld :=
  { blk := .epcH, off := 0x0028, w := 32, acc := .rc, kind := 1, evt := 3 }
def EPC_WSCFG_JOB : Fld :=
  { blk := .epcH, off := 0x1000, stride := 0x20, count := 256, w := 8 }
def EPC_WSCFG_VALID : Fld :=
  { blk := .epcH, off := 0x1000, stride := 0x20, count := 256, lsb := 8, w := 1 }
def EPC_WSCFG_KIND : Fld :=
  { blk := .epcH, off := 0x1000, stride := 0x20, count := 256, lsb := 9, w := 2 }
def EPC_WSCFG_BASE : Fld :=
  { blk := .epcH, off := 0x1000, stride := 0x20, count := 256, lsb := 11, w := 8 }
def EPC_WSCFG_LOG2ENT : Fld :=
  { blk := .epcH, off := 0x1000, stride := 0x20, count := 256, lsb := 32, w := 5 }
def EPC_WSEPOCH_LASTCONF : Fld :=
  { blk := .epcH, off := 0x1008, stride := 0x20, count := 256, w := 32 }
def EPC_WSEPOCH_NEWEST : Fld :=
  { blk := .epcH, off := 0x1008, stride := 0x20, count := 256, lsb := 32, w := 32 }
def EPC_WSSTATE_STATE : Fld :=
  { blk := .epcH, off := 0x1010, stride := 0x20, count := 256, w := 3 }
def EPC_WSSTATE_CAUSE : Fld :=
  { blk := .epcH, off := 0x1010, stride := 0x20, count := 256, lsb := 4, w := 4 }
def EPC_WSSTATE_INUSE : Fld :=
  { blk := .epcH, off := 0x1010, stride := 0x20, count := 256, lsb := 16, w := 16 }
def EPC_WSSTATE_FORCED : Fld :=
  { blk := .epcH, off := 0x1010, stride := 0x20, count := 256, lsb := 32, w := 32, acc := .rc, kind := 1, evt := 4 }
def EPC_WSSLOT_KEEP : Fld :=
  { blk := .epcH, off := 0x1018, stride := 0x20, count := 256, w := 1 }
def EPC_WSSLOT_HOLD0 : Fld :=
  { blk := .epcH, off := 0x1018, stride := 0x20, count := 256, lsb := 16, w := 16 }
def EPC_WSSLOT_HOLD1 : Fld :=
  { blk := .epcH, off := 0x1018, stride := 0x20, count := 256, lsb := 32, w := 16 }

/-! Block `epcC` (R206). -/

def EPC_DSTREAM_CHUNKS : Fld :=
  { blk := .epcC, off := 0x0000, w := 32, acc := .rc, kind := 1, evt := 1 }
def EPC_DSTREAM_TAGFAIL : Fld :=
  { blk := .epcC, off := 0x0000, lsb := 32, w := 16, acc := .rc, kind := 1, evt := 2 }
def EPC_PEPOCH_CURRENT : Fld :=
  { blk := .epcC, off := 0x1000, stride := 0x20, count := 256, w := 32 }
def EPC_PEPOCH_LATCHED : Fld :=
  { blk := .epcC, off := 0x1000, stride := 0x20, count := 256, lsb := 32, w := 32 }
def EPC_PATTR_ADOPT_PROV : Fld :=
  { blk := .epcC, off := 0x1008, stride := 0x20, count := 256, w := 1 }
def EPC_PATTR_LIVE : Fld :=
  { blk := .epcC, off := 0x1008, stride := 0x20, count := 256, lsb := 1, w := 1 }
def EPC_PATTR_SLOT : Fld :=
  { blk := .epcC, off := 0x1008, stride := 0x20, count := 256, lsb := 2, w := 1 }
def EPC_PATTR_WS : Fld :=
  { blk := .epcC, off := 0x1008, stride := 0x20, count := 256, lsb := 8, w := 8 }
def EPC_PATTR_ADOPTS : Fld :=
  { blk := .epcC, off := 0x1008, stride := 0x20, count := 256, lsb := 32, w := 32, acc := .rc, kind := 1, evt := 3 }
def EPC_PREFETCH_REFETCH : Fld :=
  { blk := .epcC, off := 0x1010, stride := 0x20, count := 256, w := 32, acc := .rc, kind := 1, evt := 4 }
def EPC_PREFETCH_REVERTS : Fld :=
  { blk := .epcC, off := 0x1010, stride := 0x20, count := 256, lsb := 32, w := 32, acc := .rc, kind := 1, evt := 5 }

/-! Block `exp` (R224). -/

def EXP_STATUS_WBUSY : Fld :=
  { blk := .exp, off := 0x0000, w := 4 }
def EXP_STATUS_DBUSY : Fld :=
  { blk := .exp, off := 0x0000, lsb := 8, w := 1 }
def EXP_WCOUNT_RECORDS : Fld :=
  { blk := .exp, off := 0x0008, w := 48, kind := 2, evt := 1 }
def EXP_WPOISON_COUNT : Fld :=
  { blk := .exp, off := 0x0010, w := 32, acc := .rc, kind := 1, evt := 2 }
def EXP_RCFG_TIER : Fld :=
  { blk := .exp, off := 0x1000, stride := 0x40, count := 64, w := 2 }
def EXP_RCFG_STRIPES : Fld :=
  { blk := .exp, off := 0x1000, stride := 0x40, count := 64, lsb := 4, w := 4 }
def EXP_RCFG_LOG2CAP : Fld :=
  { blk := .exp, off := 0x1000, stride := 0x40, count := 64, lsb := 8, w := 6 }
def EXP_RCFG_SLOT : Fld :=
  { blk := .exp, off := 0x1000, stride := 0x40, count := 64, lsb := 16, w := 16 }
def EXP_RCFG_JOB : Fld :=
  { blk := .exp, off := 0x1000, stride := 0x40, count := 64, lsb := 32, w := 8 }
def EXP_RCFG_VALID : Fld :=
  { blk := .exp, off := 0x1000, stride := 0x40, count := 64, lsb := 40, w := 1 }
def EXP_RFILL_COMMITTED : Fld :=
  { blk := .exp, off := 0x1008, stride := 0x40, count := 64, w := 32, kind := 1, evt := 3 }
def EXP_RFILL_DEAD : Fld :=
  { blk := .exp, off := 0x1008, stride := 0x40, count := 64, lsb := 32, w := 32, kind := 1, evt := 4 }
def EXP_RLIM_MINFILL : Fld :=
  { blk := .exp, off := 0x1010, stride := 0x40, count := 64, w := 32, acc := .rw }
def EXP_RLIM_RATIO : Fld :=
  { blk := .exp, off := 0x1010, stride := 0x40, count := 64, lsb := 32, w := 16, acc := .rw, lo := 16, hi := 65535, zero := true }
def EXP_RPRIO_DEFAULT : Fld :=
  { blk := .exp, off := 0x1018, stride := 0x40, count := 64, w := 32, acc := .rw, reset := 65536, lo := 1, hi := 4294967295 }
def EXP_RDRAW_SEGS : Fld :=
  { blk := .exp, off := 0x1020, stride := 0x40, count := 64, w := 32, acc := .rc, kind := 1, evt := 5 }
def EXP_RDRAW_MASKED : Fld :=
  { blk := .exp, off := 0x1020, stride := 0x40, count := 64, lsb := 32, w := 32, acc := .rc, kind := 1, evt := 6 }
def EXP_RMISS_MISS : Fld :=
  { blk := .exp, off := 0x1028, stride := 0x40, count := 64, w := 16, acc := .rc, kind := 1, evt := 7 }
def EXP_RMISS_RACE : Fld :=
  { blk := .exp, off := 0x1028, stride := 0x40, count := 64, lsb := 16, w := 16, acc := .rc, kind := 1, evt := 8 }
def EXP_RMISS_STALEPRIO : Fld :=
  { blk := .exp, off := 0x1028, stride := 0x40, count := 64, lsb := 32, w := 16, acc := .rc, kind := 1, evt := 9 }
def EXP_RMISS_BADPRIO : Fld :=
  { blk := .exp, off := 0x1028, stride := 0x40, count := 64, lsb := 48, w := 16, acc := .rc, kind := 1, evt := 10 }
def EXP_RWAIT_US : Fld :=
  { blk := .exp, off := 0x1030, stride := 0x40, count := 64, w := 32, acc := .rc, kind := 1, evt := 11 }
def EXP_RWAIT_DROPS : Fld :=
  { blk := .exp, off := 0x1030, stride := 0x40, count := 64, lsb := 32, w := 32, acc := .rc, kind := 1, evt := 12 }

/-! Block `mov` (R256). -/

def MOV_LIMIT_TIMEOUT : Fld :=
  { blk := .mov, off := 0x0000, w := 32, acc := .rw, reset := 5000, lo := 10, hi := 10000000 }
def MOV_STATUS_ENG0 : Fld :=
  { blk := .mov, off := 0x0008, w := 3 }
def MOV_STATUS_ENG1 : Fld :=
  { blk := .mov, off := 0x0008, lsb := 4, w := 3 }
def MOV_STATUS_STUBS : Fld :=
  { blk := .mov, off := 0x0008, lsb := 16, w := 11 }
def MOV_STATUS_PEAK : Fld :=
  { blk := .mov, off := 0x0008, lsb := 32, w := 11, acc := .rc }
def MOV_COUNT_DONE : Fld :=
  { blk := .mov, off := 0x0010, w := 32, acc := .rc, kind := 1, evt := 1 }
def MOV_COUNT_FAILED : Fld :=
  { blk := .mov, off := 0x0010, lsb := 32, w := 16, acc := .rc, kind := 1, evt := 2 }
def MOV_COUNT_STUBWAIT : Fld :=
  { blk := .mov, off := 0x0010, lsb := 48, w := 16, acc := .rc, kind := 1, evt := 3 }
def MOV_ERR_TIMEOUT : Fld :=
  { blk := .mov, off := 0x0018, w := 16, acc := .rc, kind := 1, evt := 4 }
def MOV_ERR_ECC : Fld :=
  { blk := .mov, off := 0x0018, lsb := 16, w := 16, acc := .rc, kind := 1, evt := 5 }
def MOV_ERR_LATE : Fld :=
  { blk := .mov, off := 0x0018, lsb := 32, w := 16, acc := .rc, kind := 1, evt := 6 }
def MOV_ERR_UNMAPPED : Fld :=
  { blk := .mov, off := 0x0018, lsb := 48, w := 16, acc := .rc, kind := 1, evt := 7 }
def MOV_FWD_QUEUED : Fld :=
  { blk := .mov, off := 0x0020, w := 32, acc := .rc, kind := 1, evt := 8 }
def MOV_FWD_REDIRECT : Fld :=
  { blk := .mov, off := 0x0020, lsb := 32, w := 32, acc := .rc, kind := 1, evt := 9 }
def MOV_PLEAD_LEAD_NS : Fld :=
  { blk := .mov, off := 0x1000, stride := 0x20, count := 256, w := 32 }
def MOV_PLEAD_EXPECT_NS : Fld :=
  { blk := .mov, off := 0x1000, stride := 0x20, count := 256, lsb := 32, w := 32, kind := 1, evt := 10 }
def MOV_PLADLE_ISSUED : Fld :=
  { blk := .mov, off := 0x1008, stride := 0x20, count := 256, w := 32, acc := .rc, kind := 1, evt := 11 }
def MOV_PLADLE_LATE : Fld :=
  { blk := .mov, off := 0x1008, stride := 0x20, count := 256, lsb := 32, w := 32, acc := .rc, kind := 1, evt := 12 }
def MOV_PBUF_ALLOC : Fld :=
  { blk := .mov, off := 0x1010, stride := 0x20, count := 256, w := 20 }
def MOV_PBUF_FREEREF : Fld :=
  { blk := .mov, off := 0x1010, stride := 0x20, count := 256, lsb := 32, w := 16, acc := .rc, kind := 1, evt := 13 }
def MOV_PBUF_ALLOCWAIT : Fld :=
  { blk := .mov, off := 0x1010, stride := 0x20, count := 256, lsb := 48, w := 16, acc := .rc, kind := 1, evt := 14 }

/-! Block `hbm` (R257). -/

def HBM_TRAIN_STATE : Fld :=
  { blk := .hbm, off := 0x0000, w := 2 }
def HBM_TRAIN_REPAIRED : Fld :=
  { blk := .hbm, off := 0x0000, lsb := 8, w := 8 }
def HBM_ECC_CORR : Fld :=
  { blk := .hbm, off := 0x0008, w := 32, acc := .rc, kind := 1, evt := 1 }
def HBM_ECC_UNCORR : Fld :=
  { blk := .hbm, off := 0x0008, lsb := 32, w := 16, acc := .rc, kind := 1, evt := 2 }
def HBM_ECC_RETRY : Fld :=
  { blk := .hbm, off := 0x0008, lsb := 48, w := 16, acc := .rc, kind := 1, evt := 3 }
def HBM_DIMAP_RANGES : Fld :=
  { blk := .hbm, off := 0x0010, w := 48 }
def HBM_OPS_MSOP : Fld :=
  { blk := .hbm, off := 0x0018, w := 32, acc := .rc, kind := 1, evt := 4 }
def HBM_OPS_NARROW : Fld :=
  { blk := .hbm, off := 0x0018, lsb := 32, w := 32, acc := .rc, kind := 1, evt := 5 }
def HBM_SCRUB_HOURS : Fld :=
  { blk := .hbm, off := 0x0020, w := 16, acc := .rw, reset := 24, lo := 1, hi := 720 }
def HBM_SCRUB_PASSES : Fld :=
  { blk := .hbm, off := 0x0020, lsb := 32, w := 16, kind := 2, evt := 6 }

/-! Block `lpd` (R258). -/

def LPD_CFG_PRESENT : Fld :=
  { blk := .lpd, off := 0x0000, stride := 0x20, count := 8, w := 1 }
def LPD_CFG_RATE : Fld :=
  { blk := .lpd, off := 0x0000, stride := 0x20, count := 8, lsb := 1, w := 2 }
def LPD_CFG_RANKS2 : Fld :=
  { blk := .lpd, off := 0x0000, stride := 0x20, count := 8, lsb := 3, w := 1 }
def LPD_CFG_GIB : Fld :=
  { blk := .lpd, off := 0x0000, stride := 0x20, count := 8, lsb := 8, w := 8 }
def LPD_STAT_STATE : Fld :=
  { blk := .lpd, off := 0x0008, stride := 0x20, count := 8, w := 2 }
def LPD_STAT_LINKFIX : Fld :=
  { blk := .lpd, off := 0x0008, stride := 0x20, count := 8, lsb := 16, w := 16, acc := .rc, kind := 1, evt := 1 }
def LPD_STAT_RETRY : Fld :=
  { blk := .lpd, off := 0x0008, stride := 0x20, count := 8, lsb := 32, w := 16, acc := .rc, kind := 1, evt := 2 }
def LPD_STAT_UNCORR : Fld :=
  { blk := .lpd, off := 0x0008, stride := 0x20, count := 8, lsb := 48, w := 16, acc := .rc, kind := 1, evt := 3 }
def LPD_VIEW_DI : Fld :=
  { blk := .lpd, off := 0x0100, w := 1 }

/-! Block `nvt` (R259). -/

def NVT_SPACE_LOGICAL_GIB : Fld :=
  { blk := .nvt, off := 0x0000, w := 32 }
def NVT_SPACE_SPARE_PM : Fld :=
  { blk := .nvt, off := 0x0000, lsb := 32, w := 16 }
def NVT_SPACE_READONLY : Fld :=
  { blk := .nvt, off := 0x0000, lsb := 48, w := 1 }
def NVT_WEAR_MINEC : Fld :=
  { blk := .nvt, off := 0x0008, w := 16 }
def NVT_WEAR_MAXEC : Fld :=
  { blk := .nvt, off := 0x0008, lsb := 16, w := 16 }
def NVT_WEAR_SPREAD : Fld :=
  { blk := .nvt, off := 0x0008, lsb := 32, w := 16, acc := .rw, reset := 500, lo := 50, hi := 10000 }
def NVT_DISTURB_READS : Fld :=
  { blk := .nvt, off := 0x0010, w := 32, acc := .rw, reset := 100000, lo := 1000, hi := 10000000 }
def NVT_ECC_CORR : Fld :=
  { blk := .nvt, off := 0x0018, w := 32, acc := .rc, kind := 1, evt := 1 }
def NVT_ECC_RETRY : Fld :=
  { blk := .nvt, off := 0x0018, lsb := 32, w := 16, acc := .rc, kind := 1, evt := 2 }
def NVT_ECC_UNCORR : Fld :=
  { blk := .nvt, off := 0x0018, lsb := 48, w := 16, acc := .rc, kind := 1, evt := 3 }
def NVT_WAF_HOSTW : Fld :=
  { blk := .nvt, off := 0x0020, w := 32, kind := 2, evt := 4 }
def NVT_WAF_NANDW : Fld :=
  { blk := .nvt, off := 0x0020, lsb := 32, w := 32, kind := 2, evt := 5 }
def NVT_BAD_FACTORY : Fld :=
  { blk := .nvt, off := 0x0028, w := 32 }
def NVT_BAD_GROWN : Fld :=
  { blk := .nvt, off := 0x0028, lsb := 32, w := 32 }
def NVT_CHSTAT_STATE : Fld :=
  { blk := .nvt, off := 0x1000, stride := 0x20, count := 8, w := 2 }
def NVT_CHSTAT_SLOW : Fld :=
  { blk := .nvt, off := 0x1000, stride := 0x20, count := 8, lsb := 2, w := 1 }
def NVT_CHSTAT_TARGETS : Fld :=
  { blk := .nvt, off := 0x1000, stride := 0x20, count := 8, lsb := 3, w := 4 }
def NVT_CHSTAT_RAW_GIB : Fld :=
  { blk := .nvt, off := 0x1000, stride := 0x20, count := 8, lsb := 32, w := 16 }

/-! Block `fab` (R281). -/

def FAB_ID_DEVICE : Fld :=
  { blk := .fab, off := 0x0000, w := 16, acc := .wo1 }
def FAB_ID_BOOT : Fld :=
  { blk := .fab, off := 0x0000, lsb := 16, w := 16 }
def FAB_LIMIT_RETRY_US : Fld :=
  { blk := .fab, off := 0x0008, w := 16, acc := .rw, reset := 100, lo := 10, hi := 10000 }
def FAB_LIMIT_RCACHE_MS : Fld :=
  { blk := .fab, off := 0x0008, lsb := 16, w := 16, acc := .rw, reset := 10, lo := 2, hi := 1000 }
def FAB_QUAR_THRESH : Fld :=
  { blk := .fab, off := 0x0010, w := 16, acc := .rw, reset := 64, lo := 1, hi := 65535 }
def FAB_QUAR_WINDOW_MS : Fld :=
  { blk := .fab, off := 0x0010, lsb := 16, w := 16, acc := .rw, reset := 1000, lo := 1, hi := 60000 }
def FAB_STALE_JOBGEN : Fld :=
  { blk := .fab, off := 0x0018, w := 32, acc := .rc, kind := 1, evt := 1 }
def FAB_STALE_TAG : Fld :=
  { blk := .fab, off := 0x0018, lsb := 32, w := 16, acc := .rc, kind := 1, evt := 2 }
def FAB_STALE_BOOT : Fld :=
  { blk := .fab, off := 0x0018, lsb := 48, w := 16, acc := .rc, kind := 1, evt := 3 }
def FAB_RCACHE_USED : Fld :=
  { blk := .fab, off := 0x0020, w := 16 }
def FAB_RCACHE_BUSY : Fld :=
  { blk := .fab, off := 0x0020, lsb := 32, w := 16, acc := .rc, kind := 1, evt := 4 }
def FAB_ORDER_HELD : Fld :=
  { blk := .fab, off := 0x0028, w := 13 }
def FAB_ORDER_DUP : Fld :=
  { blk := .fab, off := 0x0028, lsb := 32, w := 16, acc := .rc, kind := 1, evt := 5 }
def FAB_PSTAT_STATE : Fld :=
  { blk := .fab, off := 0x1000, stride := 0x40, count := 16, w := 3 }
def FAB_PSTAT_LANES : Fld :=
  { blk := .fab, off := 0x1000, stride := 0x40, count := 16, lsb := 3, w := 4 }
def FAB_PSTAT_SPAREUSED : Fld :=
  { blk := .fab, off := 0x1000, stride := 0x40, count := 16, lsb := 7, w := 1 }
def FAB_PSTAT_LCLASS : Fld :=
  { blk := .fab, off := 0x1000, stride := 0x40, count := 16, lsb := 8, w := 2 }
def FAB_PSTAT_PEER : Fld :=
  { blk := .fab, off := 0x1000, stride := 0x40, count := 16, lsb := 16, w := 16 }
def FAB_PSTAT_RTT_NS : Fld :=
  { blk := .fab, off := 0x1000, stride := 0x40, count := 16, lsb := 32, w := 16, kind := 1, evt := 6 }
def FAB_PSTAT_PEERPORT : Fld :=
  { blk := .fab, off := 0x1000, stride := 0x40, count := 16, lsb := 48, w := 5 }
def FAB_PCTL_ENABLE : Fld :=
  { blk := .fab, off := 0x1008, stride := 0x40, count := 16, w := 1, acc := .sc }
def FAB_PLINK_REPLAYS : Fld :=
  { blk := .fab, off := 0x1010, stride := 0x40, count := 16, w := 32, acc := .rc, kind := 1, evt := 7 }
def FAB_PLINK_CRCERR : Fld :=
  { blk := .fab, off := 0x1010, stride := 0x40, count := 16, lsb := 32, w := 16, acc := .rc, kind := 1, evt := 8 }
def FAB_PLINK_RETRAINS : Fld :=
  { blk := .fab, off := 0x1010, stride := 0x40, count := 16, lsb := 48, w := 16, acc := .rc, kind := 1, evt := 9 }
def FAB_PVIOL_COUNT : Fld :=
  { blk := .fab, off := 0x1018, stride := 0x40, count := 16, w := 16 }
def FAB_PVIOL_TOTAL : Fld :=
  { blk := .fab, off := 0x1018, stride := 0x40, count := 16, lsb := 16, w := 16, acc := .rc, kind := 1, evt := 10 }
def FAB_PVIOL_LAST : Fld :=
  { blk := .fab, off := 0x1018, stride := 0x40, count := 16, lsb := 32, w := 4 }
def FAB_PVIOL_QUARS : Fld :=
  { blk := .fab, off := 0x1018, stride := 0x40, count := 16, lsb := 40, w := 8, acc := .rc, kind := 1, evt := 11 }
def FAB_PXFER_PREEMPT : Fld :=
  { blk := .fab, off := 0x1020, stride := 0x40, count := 16, w := 32, acc := .rc, kind := 1, evt := 12 }
def FAB_PXFER_TTLDROP : Fld :=
  { blk := .fab, off := 0x1020, stride := 0x40, count := 16, lsb := 32, w := 32, acc := .rc, kind := 1, evt := 13 }

/-! Block `route` (R282). -/

def ROUTE_SEL_ACTIVE : Fld :=
  { blk := .route, off := 0x0000, w := 1, acc := .rw }
def ROUTE_SEL_SHADOWOK : Fld :=
  { blk := .route, off := 0x0000, lsb := 1, w := 1 }
def ROUTE_SEL_FLIPS : Fld :=
  { blk := .route, off := 0x0000, lsb := 32, w := 16, acc := .rc, kind := 1, evt := 1 }
def ROUTE_SADDR_DEST : Fld :=
  { blk := .route, off := 0x0008, w := 16, acc := .rw }
def ROUTE_SADDR_TREE : Fld :=
  { blk := .route, off := 0x0008, lsb := 24, w := 1, acc := .rw }
def ROUTE_SDATA_ALT0 : Fld :=
  { blk := .route, off := 0x0010, w := 5, acc := .rw }
def ROUTE_SDATA_ALT1 : Fld :=
  { blk := .route, off := 0x0010, lsb := 8, w := 5, acc := .rw }
def ROUTE_SDATA_ALT2 : Fld :=
  { blk := .route, off := 0x0010, lsb := 16, w := 5, acc := .rw }
def ROUTE_SDATA_ALT3 : Fld :=
  { blk := .route, off := 0x0010, lsb := 24, w := 5, acc := .rw }
def ROUTE_SDATA_V0 : Fld :=
  { blk := .route, off := 0x0010, lsb := 5, w := 1, acc := .rw }
def ROUTE_SDATA_V1 : Fld :=
  { blk := .route, off := 0x0010, lsb := 13, w := 1, acc := .rw }
def ROUTE_SDATA_V2 : Fld :=
  { blk := .route, off := 0x0010, lsb := 21, w := 1, acc := .rw }
def ROUTE_SDATA_V3 : Fld :=
  { blk := .route, off := 0x0010, lsb := 29, w := 1, acc := .rw }
def ROUTE_SDONE_DONE : Fld :=
  { blk := .route, off := 0x0018, w := 1, acc := .w1s }
def ROUTE_VCW_W1 : Fld :=
  { blk := .route, off := 0x0020, w := 8 }
def ROUTE_VCW_W2 : Fld :=
  { blk := .route, off := 0x0020, lsb := 8, w := 8 }
def ROUTE_VCW_W3 : Fld :=
  { blk := .route, off := 0x0020, lsb := 16, w := 8 }
def ROUTE_VCW_W4 : Fld :=
  { blk := .route, off := 0x0020, lsb := 24, w := 8 }
def ROUTE_VCW_W5 : Fld :=
  { blk := .route, off := 0x0020, lsb := 32, w := 8 }
def ROUTE_VCW_W6 : Fld :=
  { blk := .route, off := 0x0020, lsb := 40, w := 8 }

/-! Block `col` (R307). -/

def COL_STATUS_BUSY : Fld :=
  { blk := .col, off := 0x0000, w := 2 }
def COL_STATUS_STAGED0 : Fld :=
  { blk := .col, off := 0x0000, lsb := 4, w := 3 }
def COL_STATUS_STAGED1 : Fld :=
  { blk := .col, off := 0x0000, lsb := 8, w := 3 }
def COL_CHUNKS_SENT : Fld :=
  { blk := .col, off := 0x0008, w := 32, acc := .rc, kind := 1, evt := 1 }
def COL_CHUNKS_DONE : Fld :=
  { blk := .col, off := 0x0008, lsb := 32, w := 32, acc := .rc, kind := 1, evt := 2 }
def COL_COUNTS_WHISTLE : Fld :=
  { blk := .col, off := 0x0010, w := 32, acc := .rc, kind := 1, evt := 3 }
def COL_COUNTS_PREPHASE : Fld :=
  { blk := .col, off := 0x0010, lsb := 32, w := 32, acc := .rc, kind := 1, evt := 4 }
def COL_ERR_TRUNCROWS : Fld :=
  { blk := .col, off := 0x0018, w := 32, acc := .rc, kind := 1, evt := 5 }
def COL_ERR_POISONED : Fld :=
  { blk := .col, off := 0x0018, lsb := 32, w := 16, acc := .rc, kind := 1, evt := 6 }
def COL_ERR_PEERDEAD : Fld :=
  { blk := .col, off := 0x0018, lsb := 48, w := 16, acc := .rc, kind := 1, evt := 7 }
def COL_ORDER_ORDERED : Fld :=
  { blk := .col, off := 0x0020, w := 32, acc := .rc, kind := 1, evt := 8 }
def COL_ORDER_ARRIVAL : Fld :=
  { blk := .col, off := 0x0020, lsb := 32, w := 32, acc := .rc, kind := 1, evt := 9 }
def COL_GCFG_MEMBERS : Fld :=
  { blk := .col, off := 0x1000, stride := 0x10, count := 64, w := 16 }
def COL_GCFG_RANK : Fld :=
  { blk := .col, off := 0x1000, stride := 0x10, count := 64, lsb := 16, w := 16 }
def COL_GCFG_JOB : Fld :=
  { blk := .col, off := 0x1000, stride := 0x10, count := 64, lsb := 32, w := 8 }
def COL_GCFG_VALID : Fld :=
  { blk := .col, off := 0x1000, stride := 0x10, count := 64, lsb := 40, w := 1 }
def COL_GCFG_ONERING : Fld :=
  { blk := .col, off := 0x1000, stride := 0x10, count := 64, lsb := 41, w := 1 }
def COL_GCFG_WGROUP : Fld :=
  { blk := .col, off := 0x1000, stride := 0x10, count := 64, lsb := 48, w := 6 }
def COL_GOP_OPNUM : Fld :=
  { blk := .col, off := 0x1008, stride := 0x10, count := 64, w := 16 }

/-! Block `llp` (R308). -/

def LLP_ID_POS0 : Fld :=
  { blk := .llp, off := 0x0000, w := 6 }
def LLP_ID_POS1 : Fld :=
  { blk := .llp, off := 0x0000, lsb := 8, w := 6 }
def LLP_ID_POS2 : Fld :=
  { blk := .llp, off := 0x0000, lsb := 16, w := 6 }
def LLP_ID_BRIDGE1 : Fld :=
  { blk := .llp, off := 0x0000, lsb := 24, w := 1 }
def LLP_ID_BRIDGE2 : Fld :=
  { blk := .llp, off := 0x0000, lsb := 25, w := 1 }
def LLP_FB_SENT : Fld :=
  { blk := .llp, off := 0x0008, w := 32, acc := .rc, kind := 1, evt := 1 }
def LLP_FB_RECEIVED : Fld :=
  { blk := .llp, off := 0x0008, lsb := 32, w := 32, acc := .rc, kind := 1, evt := 2 }
def LLP_RSTAT_STATE : Fld :=
  { blk := .llp, off := 0x1000, stride := 0x40, count := 3, w := 3 }
def LLP_RSTAT_MEMBERS : Fld :=
  { blk := .llp, off := 0x1000, stride := 0x40, count := 3, lsb := 3, w := 7 }
def LLP_RSTAT_SLOTS : Fld :=
  { blk := .llp, off := 0x1000, stride := 0x40, count := 3, lsb := 10, w := 7 }
def LLP_RSTAT_MASTER : Fld :=
  { blk := .llp, off := 0x1000, stride := 0x40, count := 3, lsb := 17, w := 6 }
def LLP_RSTAT_TERM : Fld :=
  { blk := .llp, off := 0x1000, stride := 0x40, count := 3, lsb := 32, w := 32 }
def LLP_BYPASS_POSITIONS : Fld :=
  { blk := .llp, off := 0x1008, stride := 0x40, count := 3, w := 64 }
def LLP_DEAD_POSITIONS : Fld :=
  { blk := .llp, off := 0x1010, stride := 0x40, count := 3, w := 64 }
def LLP_EDGE_LATE_EDGE : Fld :=
  { blk := .llp, off := 0x1018, stride := 0x40, count := 3, w := 32, acc := .rc, kind := 1, evt := 3 }
def LLP_EDGE_LOST : Fld :=
  { blk := .llp, off := 0x1018, stride := 0x40, count := 3, lsb := 32, w := 16, acc := .rc, kind := 1, evt := 4 }
def LLP_EDGE_RESYNC : Fld :=
  { blk := .llp, off := 0x1018, stride := 0x40, count := 3, lsb := 48, w := 16, acc := .rc, kind := 1, evt := 5 }
def LLP_OPS_DONE : Fld :=
  { blk := .llp, off := 0x1020, stride := 0x40, count := 3, w := 32, acc := .rc, kind := 1, evt := 6 }
def LLP_OPS_REPEATS : Fld :=
  { blk := .llp, off := 0x1020, stride := 0x40, count := 3, lsb := 32, w := 16, acc := .rc, kind := 1, evt := 7 }
def LLP_OPS_FALLBACK : Fld :=
  { blk := .llp, off := 0x1020, stride := 0x40, count := 3, lsb := 48, w := 16, acc := .rc, kind := 1, evt := 8 }
def LLP_SKEW_LAST_PS : Fld :=
  { blk := .llp, off := 0x1028, stride := 0x40, count := 3, w := 16 }
def LLP_SKEW_MAX_PS : Fld :=
  { blk := .llp, off := 0x1028, stride := 0x40, count := 3, lsb := 16, w := 16, acc := .rc, kind := 1, evt := 9 }
def LLP_RCTL_REJOIN : Fld :=
  { blk := .llp, off := 0x1030, stride := 0x40, count := 3, w := 1, acc := .sc }
def LLP_RCTL_RETRAIN : Fld :=
  { blk := .llp, off := 0x1030, stride := 0x40, count := 3, lsb := 1, w := 1, acc := .sc }

/-! Block `wpt` (R336). -/

def WPT_STATUS_PORTUP : Fld :=
  { blk := .wpt, off := 0x0000, w := 4 }
def WPT_STATUS_WORLDS : Fld :=
  { blk := .wpt, off := 0x0000, lsb := 16, w := 14 }
def WPT_TSYNC_GM : Fld :=
  { blk := .wpt, off := 0x0008, w := 1 }
def WPT_TSYNC_LOCKED : Fld :=
  { blk := .wpt, off := 0x0008, lsb := 1, w := 1 }
def WPT_TSYNC_HOLDOVER : Fld :=
  { blk := .wpt, off := 0x0008, lsb := 2, w := 1 }
def WPT_TSYNC_OFFSET_NS : Fld :=
  { blk := .wpt, off := 0x0008, lsb := 32, w := 32 }
def WPT_LIMIT_MISSLIM : Fld :=
  { blk := .wpt, off := 0x0010, w := 16, acc := .rw, reset := 20, lo := 1, hi := 65535 }
def WPT_LIMIT_HOLDLIM : Fld :=
  { blk := .wpt, off := 0x0010, lsb := 16, w := 16, acc := .rw, reset := 1000, lo := 1, hi := 65535 }
def WPT_LIMIT_SILENCE : Fld :=
  { blk := .wpt, off := 0x0010, lsb := 32, w := 16, acc := .rw, reset := 100, lo := 1, hi := 65535 }
def WPT_WSEL_WORLD : Fld :=
  { blk := .wpt, off := 0x0018, w := 14, acc := .rw }
def WPT_WSTATE_STATE : Fld :=
  { blk := .wpt, off := 0x0020, w := 3 }
def WPT_WSTATE_CLASS : Fld :=
  { blk := .wpt, off := 0x0020, lsb := 3, w := 2 }
def WPT_WSTATE_PORT : Fld :=
  { blk := .wpt, off := 0x0020, lsb := 5, w := 3 }
def WPT_WSTATE_PAN : Fld :=
  { blk := .wpt, off := 0x0020, lsb := 8, w := 8 }
def WPT_WSTATE_VALID : Fld :=
  { blk := .wpt, off := 0x0020, lsb := 16, w := 1 }
def WPT_WSTATE_WGEN : Fld :=
  { blk := .wpt, off := 0x0020, lsb := 32, w := 32 }
def WPT_WTICK_TICK : Fld :=
  { blk := .wpt, off := 0x0028, w := 64 }
def WPT_WMISS_MISSES : Fld :=
  { blk := .wpt, off := 0x0030, w := 32, acc := .rc, kind := 1, evt := 1 }
def WPT_WMISS_CONSEC : Fld :=
  { blk := .wpt, off := 0x0030, lsb := 32, w := 16 }
def WPT_WMISS_STALE : Fld :=
  { blk := .wpt, off := 0x0030, lsb := 48, w := 16, acc := .rc, kind := 1, evt := 2 }
def WPT_WPART_LATE : Fld :=
  { blk := .wpt, off := 0x0038, w := 16, acc := .rc, kind := 1, evt := 3 }
def WPT_WPART_DUP : Fld :=
  { blk := .wpt, off := 0x0038, lsb := 16, w := 16, acc := .rc, kind := 1, evt := 4 }
def WPT_WPART_ORDER : Fld :=
  { blk := .wpt, off := 0x0038, lsb := 32, w := 16, acc := .rc, kind := 1, evt := 5 }
def WPT_WPART_GAP : Fld :=
  { blk := .wpt, off := 0x0038, lsb := 48, w := 16, acc := .rc, kind := 1, evt := 6 }
def WPT_WSEQ_RXSEQ : Fld :=
  { blk := .wpt, off := 0x0040, w := 32 }
def WPT_WSEQ_TXSEQ : Fld :=
  { blk := .wpt, off := 0x0040, lsb := 32, w := 32 }
def WPT_PSTAT_STATE : Fld :=
  { blk := .wpt, off := 0x1000, stride := 0x40, count := 4, w := 2 }
def WPT_PSTAT_PREEMPT : Fld :=
  { blk := .wpt, off := 0x1000, stride := 0x40, count := 4, lsb := 2, w := 1 }
def WPT_PSTAT_JUMBO : Fld :=
  { blk := .wpt, off := 0x1000, stride := 0x40, count := 4, lsb := 3, w := 1 }
def WPT_PSTAT_GCLEN : Fld :=
  { blk := .wpt, off := 0x1000, stride := 0x40, count := 4, lsb := 8, w := 8 }
def WPT_PCNT_TX : Fld :=
  { blk := .wpt, off := 0x1008, stride := 0x40, count := 4, w := 32, acc := .rc, kind := 1, evt := 7 }
def WPT_PCNT_RX : Fld :=
  { blk := .wpt, off := 0x1008, stride := 0x40, count := 4, lsb := 32, w := 32, acc := .rc, kind := 1, evt := 8 }
def WPT_PERR_FCS : Fld :=
  { blk := .wpt, off := 0x1010, stride := 0x40, count := 4, w := 16, acc := .rc, kind := 1, evt := 9 }
def WPT_PERR_PAUSE : Fld :=
  { blk := .wpt, off := 0x1010, stride := 0x40, count := 4, lsb := 16, w := 16, acc := .rc, kind := 1, evt := 10 }
def WPT_PERR_OTHERTYPE : Fld :=
  { blk := .wpt, off := 0x1010, stride := 0x40, count := 4, lsb := 32, w := 16, acc := .rc, kind := 1, evt := 11 }
def WPT_PERR_PREEMPTED : Fld :=
  { blk := .wpt, off := 0x1010, stride := 0x40, count := 4, lsb := 48, w := 16, acc := .rc, kind := 1, evt := 12 }

/-! Block `hcx` (R356). -/

def HCX_STATUS_KEEPER : Fld :=
  { blk := .hcx, off := 0x0000, w := 1 }
def HCX_STATUS_JOBS : Fld :=
  { blk := .hcx, off := 0x0000, lsb := 16, w := 9 }
def HCX_STATUS_TAKEN : Fld :=
  { blk := .hcx, off := 0x0000, lsb := 32, w := 32, acc := .rc, kind := 1, evt := 1 }
def HCX_CMDLIM_MS : Fld :=
  { blk := .hcx, off := 0x0008, w := 32, acc := .rw, reset := 10000, lo := 1, hi := 3600000 }
def HCX_YIELD_COUNT : Fld :=
  { blk := .hcx, off := 0x0010, w := 32, acc := .rc, kind := 1, evt := 2 }
def HCX_YIELD_LAST : Fld :=
  { blk := .hcx, off := 0x0010, lsb := 32, w := 4 }
def HCX_QSQ_BASE : Fld :=
  { blk := .hcx, off := 0x1000, stride := 0x20, count := 32, lsb := 12, w := 52, acc := .rw }
def HCX_QCQ_BASE : Fld :=
  { blk := .hcx, off := 0x1008, stride := 0x20, count := 32, lsb := 12, w := 52, acc := .rw }
def HCX_QCFG_ENABLE : Fld :=
  { blk := .hcx, off := 0x1010, stride := 0x20, count := 32, w := 1, acc := .rw }
def HCX_QCFG_LOG2DEPTH : Fld :=
  { blk := .hcx, off := 0x1010, stride := 0x20, count := 32, lsb := 1, w := 5, acc := .rw, reset := 1, lo := 1, hi := 16 }
def HCX_QCFG_VECTOR : Fld :=
  { blk := .hcx, off := 0x1010, stride := 0x20, count := 32, lsb := 8, w := 5, acc := .rw }
def HCX_QCFG_CLIENT : Fld :=
  { blk := .hcx, off := 0x1010, stride := 0x20, count := 32, lsb := 16, w := 6, acc := .lk }
def HCX_QSTAT_SQHEAD : Fld :=
  { blk := .hcx, off := 0x1018, stride := 0x20, count := 32, w := 16 }
def HCX_QSTAT_CQTAIL : Fld :=
  { blk := .hcx, off := 0x1018, stride := 0x20, count := 32, lsb := 16, w := 16 }
def HCX_QSTAT_BADDB : Fld :=
  { blk := .hcx, off := 0x1018, stride := 0x20, count := 32, lsb := 32, w := 16, acc := .rc, kind := 1, evt := 3 }
def HCX_QSTAT_INFLIGHT : Fld :=
  { blk := .hcx, off := 0x1018, stride := 0x20, count := 32, lsb := 48, w := 16 }
def HCX_CLIENT_MAXJOBS : Fld :=
  { blk := .hcx, off := 0x2000, stride := 0x8, count := 64, w := 9, acc := .lk, reset := 256, lo := 1, hi := 256 }
def HCX_CLIENT_JOBS : Fld :=
  { blk := .hcx, off := 0x2000, stride := 0x8, count := 64, lsb := 16, w := 9 }

/-! Block `pcie` (R357). -/

def PCIE_LINK_UP : Fld :=
  { blk := .pcie, off := 0x0000, w := 1 }
def PCIE_LINK_GEN : Fld :=
  { blk := .pcie, off := 0x0000, lsb := 1, w := 3 }
def PCIE_LINK_WIDTH : Fld :=
  { blk := .pcie, off := 0x0000, lsb := 4, w := 5 }
def PCIE_LINK_FLIT : Fld :=
  { blk := .pcie, off := 0x0000, lsb := 9, w := 1 }
def PCIE_ERR_CORR : Fld :=
  { blk := .pcie, off := 0x0008, w := 16, acc := .rc, kind := 1, evt := 1 }
def PCIE_ERR_NONFATAL : Fld :=
  { blk := .pcie, off := 0x0008, lsb := 16, w := 16, acc := .rc, kind := 1, evt := 2 }
def PCIE_ERR_FATAL : Fld :=
  { blk := .pcie, off := 0x0008, lsb := 32, w := 16, acc := .rc, kind := 1, evt := 3 }
def PCIE_ERR_RETRAINS : Fld :=
  { blk := .pcie, off := 0x0008, lsb := 48, w := 16, acc := .rc, kind := 1, evt := 4 }
def PCIE_MSIX_PENDING : Fld :=
  { blk := .pcie, off := 0x0010, w := 32 }

/-! Block `ckp` (R375). -/

def CKP_CFG_SPARE : Fld :=
  { blk := .ckp, off := 0x0000, w := 1, acc := .lk }
def CKP_CFG_STRAG_MS : Fld :=
  { blk := .ckp, off := 0x0000, lsb := 16, w := 16, acc := .rw, reset := 1000, lo := 10, hi := 60000 }
def CKP_STATE_STATE : Fld :=
  { blk := .ckp, off := 0x0008, w := 2 }
def CKP_STATE_ADOPTJOB : Fld :=
  { blk := .ckp, off := 0x0008, lsb := 8, w := 8 }
def CKP_STATE_ADOPT_MS : Fld :=
  { blk := .ckp, off := 0x0008, lsb := 32, w := 32 }
def CKP_BUF_USED_MIB : Fld :=
  { blk := .ckp, off := 0x0010, w := 32 }
def CKP_BUF_SIZE_MIB : Fld :=
  { blk := .ckp, off := 0x0010, lsb := 32, w := 32 }
def CKP_BUDDY_RXMIB : Fld :=
  { blk := .ckp, off := 0x0018, w := 32, acc := .rc, kind := 1, evt := 1 }
def CKP_BUDDY_HELD : Fld :=
  { blk := .ckp, off := 0x0018, lsb := 32, w := 8 }
def CKP_JCFG_BUDDY : Fld :=
  { blk := .ckp, off := 0x1000, stride := 0x40, count := 256, w := 1 }
def CKP_JCFG_DURABLE_K : Fld :=
  { blk := .ckp, off := 0x1000, stride := 0x40, count := 256, lsb := 16, w := 16, acc := .rw }
def CKP_JCFG_BUDDYRANK : Fld :=
  { blk := .ckp, off := 0x1000, stride := 0x40, count := 256, lsb := 32, w := 16 }
def CKP_JCFG_RANK : Fld :=
  { blk := .ckp, off := 0x1000, stride := 0x40, count := 256, lsb := 48, w := 16 }
def CKP_JCUT_LASTCUT : Fld :=
  { blk := .ckp, off := 0x1008, stride := 0x40, count := 256, w := 64 }
def CKP_JWHOLE_LASTWHOLE : Fld :=
  { blk := .ckp, off := 0x1010, stride := 0x40, count := 256, w := 64 }
def CKP_JDUR_LASTDURABLE : Fld :=
  { blk := .ckp, off := 0x1018, stride := 0x40, count := 256, w := 64 }
def CKP_JCNT_SKIPPED : Fld :=
  { blk := .ckp, off := 0x1020, stride := 0x40, count := 256, w := 16, acc := .rc, kind := 1, evt := 2 }
def CKP_JCNT_RESENT : Fld :=
  { blk := .ckp, off := 0x1020, stride := 0x40, count := 256, lsb := 16, w := 16, acc := .rc, kind := 1, evt := 3 }
def CKP_JCNT_PROTWAIT : Fld :=
  { blk := .ckp, off := 0x1020, stride := 0x40, count := 256, lsb := 32, w := 16, acc := .rc, kind := 1, evt := 4 }
def CKP_JCNT_DURSKIP : Fld :=
  { blk := .ckp, off := 0x1020, stride := 0x40, count := 256, lsb := 48, w := 16, acc := .rc, kind := 1, evt := 5 }
def CKP_JSTREAM_BYTES : Fld :=
  { blk := .ckp, off := 0x1028, stride := 0x40, count := 256, w := 40 }

/-! Block `cfg` (R390). -/

def CFG_STATUS_BUSY : Fld :=
  { blk := .cfg, off := 0x0000, w := 1 }
def CFG_STATUS_SCOPE : Fld :=
  { blk := .cfg, off := 0x0000, lsb := 1, w := 1 }
def CFG_STATUS_PAN : Fld :=
  { blk := .cfg, off := 0x0000, lsb := 8, w := 8 }
def CFG_STATUS_JOB : Fld :=
  { blk := .cfg, off := 0x0000, lsb := 16, w := 8 }
def CFG_LOAD_REASON : Fld :=
  { blk := .cfg, off := 0x0008, w := 4 }
def CFG_LOAD_KIND : Fld :=
  { blk := .cfg, off := 0x0008, lsb := 4, w := 4 }
def CFG_LOAD_OFFSET : Fld :=
  { blk := .cfg, off := 0x0008, lsb := 8, w := 56 }
def CFG_COUNT_LOADS : Fld :=
  { blk := .cfg, off := 0x0010, w := 32, acc := .rc, kind := 1, evt := 1 }
def CFG_COUNT_REFUSED : Fld :=
  { blk := .cfg, off := 0x0010, lsb := 32, w := 32, acc := .rc, kind := 1, evt := 2 }
def CFG_DIGEST_BSDIGEST : Fld :=
  { blk := .cfg, off := 0x0018, stride := 0x8, count := 4, w := 64 }
def CFG_LOCK_LOCKS : Fld :=
  { blk := .cfg, off := 0x0040, stride := 0x8, count := 5, w := 64 }

/-! Block `audit` (R391). -/

def AUDIT_NEXT_SEQ : Fld :=
  { blk := .audit, off := 0x0000, w := 64 }
def AUDIT_OLDEST_SEQ : Fld :=
  { blk := .audit, off := 0x0008, w := 64 }
def AUDIT_ACK_SEQ : Fld :=
  { blk := .audit, off := 0x0010, w := 64, acc := .rw }
def AUDIT_SIZE_RECORDS : Fld :=
  { blk := .audit, off := 0x0018, w := 32, reset := 262144 }
def AUDIT_WAIT_EVENTS : Fld :=
  { blk := .audit, off := 0x0020, w := 32, acc := .rc, kind := 1, evt := 1 }
def AUDIT_WAIT_US : Fld :=
  { blk := .audit, off := 0x0020, lsb := 32, w := 32, acc := .rc, kind := 1, evt := 2 }

/-! Block `sec` (R392). -/

def SEC_POLICY_SIGNED : Fld :=
  { blk := .sec, off := 0x0000, w := 1, acc := .wo1 }
def SEC_AGREEID_ID : Fld :=
  { blk := .sec, off := 0x0008, w := 64 }
def SEC_SIGNID_ID : Fld :=
  { blk := .sec, off := 0x0010, w := 64 }
def SEC_KEYS_USED : Fld :=
  { blk := .sec, off := 0x0018, w := 9 }
def SEC_KEYS_FAILS : Fld :=
  { blk := .sec, off := 0x0018, lsb := 32, w := 16, acc := .rc, kind := 1, evt := 1 }
def SEC_AGREEPUB_BYTES : Fld :=
  { blk := .sec, off := 0x1000, stride := 0x8, count := 13, w := 64 }
def SEC_SIGNPUB_BYTES : Fld :=
  { blk := .sec, off := 0x1080, stride := 0x8, count := 13, w := 64 }

/-! Block `die` (R411). -/

def DIE_ID_DIE : Fld :=
  { blk := .die, off := 0x0000, w := 5 }
def DIE_ID_TYPE : Fld :=
  { blk := .die, off := 0x0000, lsb := 5, w := 3 }
def DIE_ID_STEPPING : Fld :=
  { blk := .die, off := 0x0000, lsb := 8, w := 8, reset := 177 }
def DIE_BOOT_STEP : Fld :=
  { blk := .die, off := 0x0008, w := 4 }
def DIE_BOOT_FAIL : Fld :=
  { blk := .die, off := 0x0008, lsb := 4, w := 1 }
def DIE_BOOT_CODE : Fld :=
  { blk := .die, off := 0x0008, lsb := 8, w := 8 }
def DIE_OP_OP : Fld :=
  { blk := .die, off := 0x0010, w := 3, acc := .rw, reset := 7, lo := 4, hi := 7 }
def DIE_OP_EFFECTIVE : Fld :=
  { blk := .die, off := 0x0010, lsb := 8, w := 3, reset := 7 }
def DIE_TEMP_NOW : Fld :=
  { blk := .die, off := 0x0018, w := 16 }
def DIE_TEMP_PEAK : Fld :=
  { blk := .die, off := 0x0018, lsb := 16, w := 16, acc := .rc }
def DIE_POWER_WATTS : Fld :=
  { blk := .die, off := 0x0020, w := 16 }
def DIE_TIME_TIME : Fld :=
  { blk := .die, off := 0x0028, w := 64 }

/-! Block `aon` (R412). -/

def AON_LEASE_TERM : Fld :=
  { blk := .aon, off := 0x0000, w := 32 }
def AON_LEASE_KEEPER : Fld :=
  { blk := .aon, off := 0x0000, lsb := 32, w := 1 }
def AON_LEASE_PEERALIVE : Fld :=
  { blk := .aon, off := 0x0000, lsb := 33, w := 1 }
def AON_LEASE_FENCED : Fld :=
  { blk := .aon, off := 0x0000, lsb := 34, w := 1 }
def AON_LCTL_YIELD : Fld :=
  { blk := .aon, off := 0x0008, w := 1, acc := .sc }
def AON_LCNT_TAKEOVERS : Fld :=
  { blk := .aon, off := 0x0010, w := 16, acc := .rc, kind := 1, evt := 1 }
def AON_LCNT_CONFLICTS : Fld :=
  { blk := .aon, off := 0x0010, lsb := 16, w := 16, acc := .rc, kind := 1, evt := 2 }
def AON_RST_WARM : Fld :=
  { blk := .aon, off := 0x0018, w := 1, acc := .sc }
def AON_RST_BIST : Fld :=
  { blk := .aon, off := 0x0018, lsb := 1, w := 1, acc := .rw }
def AON_RST_CAUSE : Fld :=
  { blk := .aon, off := 0x0018, lsb := 8, w := 8, reset := 1 }
def AON_BOOTCNT_BOOT : Fld :=
  { blk := .aon, off := 0x0020, w := 64 }
def AON_DEVNUM_DEVICE : Fld :=
  { blk := .aon, off := 0x0028, w := 16, acc := .rw }
def AON_DEVNUM_VALID : Fld :=
  { blk := .aon, off := 0x0028, lsb := 16, w := 1 }

/-! Block `clk` (R413). -/

def CLK_TSRC_SRC : Fld :=
  { blk := .clk, off := 0x0000, w := 2, acc := .lk }
def CLK_TSRC_MASTER : Fld :=
  { blk := .clk, off := 0x0000, lsb := 16, w := 16, acc := .lk }
def CLK_TSTAT_LOCKED : Fld :=
  { blk := .clk, off := 0x0008, w := 1 }
def CLK_TSTAT_OFFSET_NS : Fld :=
  { blk := .clk, off := 0x0008, lsb := 32, w := 32 }
def CLK_CAP_WATTS : Fld :=
  { blk := .clk, off := 0x0010, w := 14, acc := .lk, reset := 8000, lo := 2000, hi := 8000 }
def CLK_CAP_MEASURED : Fld :=
  { blk := .clk, off := 0x0010, lsb := 16, w := 14 }
def CLK_THERM_WARN : Fld :=
  { blk := .clk, off := 0x0018, w := 8, acc := .rw, reset := 95, lo := 70, hi := 100 }
def CLK_THR_STEPS : Fld :=
  { blk := .clk, off := 0x0020, w := 32, acc := .rc, kind := 1, evt := 1 }
def CLK_THR_UNMET : Fld :=
  { blk := .clk, off := 0x0020, lsb := 32, w := 32, acc := .rc, kind := 1, evt := 2 }
def CLK_PDUTY_DUTY : Fld :=
  { blk := .clk, off := 0x1000, stride := 0x8, count := 256, w := 5, reset := 16 }
def CLK_PDUTY_RESERVE : Fld :=
  { blk := .clk, off := 0x1000, stride := 0x8, count := 256, lsb := 8, w := 5, acc := .rw, reset := 16, lo := 1, hi := 16 }

/-! Block `perf` (R431). -/

def PERF_DSEL_EVENT : Fld :=
  { blk := .perf, off := 0x0000, stride := 0x10, count := 64, w := 16, acc := .rw }
def PERF_DSEL_INST : Fld :=
  { blk := .perf, off := 0x0000, stride := 0x10, count := 64, lsb := 16, w := 16, acc := .rw, reset := 65535 }
def PERF_DSEL_ENABLE : Fld :=
  { blk := .perf, off := 0x0000, stride := 0x10, count := 64, lsb := 32, w := 1, acc := .rw }
def PERF_DCNT_VALUE : Fld :=
  { blk := .perf, off := 0x0008, stride := 0x10, count := 64, w := 48, kind := 2, evt := 1 }
def PERF_DCNT_STAMP : Fld :=
  { blk := .perf, off := 0x0008, stride := 0x10, count := 64, lsb := 48, w := 16 }
def PERF_TRCTL_RUN : Fld :=
  { blk := .perf, off := 0x0800, w := 1, acc := .rw }
def PERF_TRCTL_HALTED : Fld :=
  { blk := .perf, off := 0x0800, lsb := 1, w := 1 }
def PERF_TRCTL_PERIOD : Fld :=
  { blk := .perf, off := 0x0800, lsb := 16, w := 16, acc := .rw, reset := 1024, lo := 64, hi := 65535 }
def PERF_TRSTAT_RECORDS : Fld :=
  { blk := .perf, off := 0x0808, w := 32, acc := .rc, kind := 1, evt := 2 }
def PERF_TRSTAT_DROPS : Fld :=
  { blk := .perf, off := 0x0808, lsb := 32, w := 32, acc := .rc, kind := 1, evt := 3 }
def PERF_TRG_CNT : Fld :=
  { blk := .perf, off := 0x0900, stride := 0x10, count := 4, w := 6, acc := .rw }
def PERF_TRG_ENABLE : Fld :=
  { blk := .perf, off := 0x0900, stride := 0x10, count := 4, lsb := 8, w := 1, acc := .rw }
def PERF_TRG_ACTIONS : Fld :=
  { blk := .perf, off := 0x0900, stride := 0x10, count := 4, lsb := 9, w := 3, acc := .rw }
def PERF_TRG_THRESH : Fld :=
  { blk := .perf, off := 0x0900, stride := 0x10, count := 4, lsb := 16, w := 48, acc := .rw }
def PERF_TRGCNT_COUNT : Fld :=
  { blk := .perf, off := 0x0908, stride := 0x10, count := 4, w := 32, acc := .rc, kind := 1, evt := 4 }
def PERF_ALSEL_ENTRY : Fld :=
  { blk := .perf, off := 0x0A00, w := 10, acc := .rw }
def PERF_ALSEL_RELEASE : Fld :=
  { blk := .perf, off := 0x0A00, lsb := 16, w := 1, acc := .sc }
def PERF_ALDATA_BYTES : Fld :=
  { blk := .perf, off := 0x0A08, stride := 0x8, count := 4, w := 64 }
def PERF_ALSTAT_USED : Fld :=
  { blk := .perf, off := 0x0A28, w := 11 }
def PERF_ALSTAT_OVERFLOW : Fld :=
  { blk := .perf, off := 0x0A28, lsb := 16, w := 16, acc := .rc, kind := 1, evt := 5 }
def PERF_ALSTAT_VECTOR : Fld :=
  { blk := .perf, off := 0x0A28, lsb := 32, w := 5, acc := .rw }

/-! Block `tst` (R432). -/

def TST_MODE_ENABLE : Fld :=
  { blk := .tst, off := 0x0000, w := 1, acc := .wo1, reset := 1 }
def TST_MODE_SCAN : Fld :=
  { blk := .tst, off := 0x0000, lsb := 1, w := 1 }
def TST_HOLD_DEPTH : Fld :=
  { blk := .tst, off := 0x0008, w := 13, acc := .lk, reset := 64, lo := 0, hi := 4096 }
def TST_STATUS_BUSY : Fld :=
  { blk := .tst, off := 0x0010, w := 1 }
def TST_STATUS_TARGET : Fld :=
  { blk := .tst, off := 0x0010, lsb := 1, w := 24 }
def TST_STATUS_REMAIN_US : Fld :=
  { blk := .tst, off := 0x0010, lsb := 32, w := 32 }
def TST_RESULT_OUTCOME : Fld :=
  { blk := .tst, off := 0x0018, w := 2 }
def TST_MISR_MISR : Fld :=
  { blk := .tst, off := 0x0020, w := 64 }
def TST_COUNT_HELD : Fld :=
  { blk := .tst, off := 0x0028, w := 32, acc := .rc, kind := 1, evt := 1 }
def TST_COUNT_BUSYTEST : Fld :=
  { blk := .tst, off := 0x0028, lsb := 32, w := 32, acc := .rc, kind := 1, evt := 2 }
def TST_PERT0_DCQDELAY : Fld :=
  { blk := .tst, off := 0x0030, w := 4, acc := .rw }
def TST_PERT0_READYDROP : Fld :=
  { blk := .tst, off := 0x0030, lsb := 8, w := 8, acc := .rw }
def TST_PERT0_STRETCH_NS : Fld :=
  { blk := .tst, off := 0x0030, lsb := 16, w := 16, acc := .rw, lo := 0, hi := 10000 }
def TST_PERT1_LATEONE : Fld :=
  { blk := .tst, off := 0x0038, w := 16, acc := .rw }
def TST_PERT1_ECCONE : Fld :=
  { blk := .tst, off := 0x0038, lsb := 16, w := 16, acc := .rw }
def TST_PERT1_ECCDOUBLE : Fld :=
  { blk := .tst, off := 0x0038, lsb := 32, w := 1, acc := .rw }
def TST_PERT1_PAN : Fld :=
  { blk := .tst, off := 0x0038, lsb := 40, w := 8, acc := .rw }

def brickFields0 : List Fld :=
  [BRK_ID_LOGICAL, BRK_ID_PHYS, BRK_ID_COURSE, BRK_OWNER_PAN, BRK_OWNER_PANGEN, BRK_OWNER_OWNED,
   BRK_ROLES_WORLD, BRK_ROLES_SLIVER, BRK_ROLES_IDLE, BRK_KAREA_BASE, BRK_KAREA_SIZE,
   BRK_WDOG_CYCLES, BRK_FAULT_VALID, BRK_FAULT_KIND, BRK_FAULT_GRAIN, BRK_FAULTPC_PC,
   BRK_FAULTPC_INSN, BRK_FAULTADDR_ADDR, BRK_FAULTADDR_COUNT, BRK_DBG_EN, BRK_DBG_RESUME,
   BRK_STAT_AVAIL, BRK_STAT_DETOUR, BRK_STAT_ECCFIX]
def brickFields1 : List Fld :=
  [GRN_STATE_ROLE, GRN_STATE_STATE, GRN_STATE_PC, GRN_WIN0_BASE, GRN_WIN0_LIMIT, GRN_WIN0_RD,
   GRN_WIN0_WR, GRN_WIN1_BASE, GRN_WIN1_LIMIT, GRN_WIN1_RD, GRN_WIN1_WR, GRN_PORTS_BOUND,
   GRN_PORTS_OUT, MXA_MODE_ELASTIC, MXA_MODE_PENDING, MXA_MODE_EFFECTIVE, MXA_STATUS_FG,
   MXA_STATUS_BG_VALID, MXA_STATUS_BUSY, MXA_STATUS_FGPOISON, MXA_STATUS_INFLIGHT,
   MXA_STATUS_REMAIN, MXA_CMDCNT_CMDS, MXA_CMDCNT_SWAPS]
def brickFields2 : List Fld :=
  [MXA_ROWCNT_ROWS, MXA_BUBBLE_FEED, MXA_BUBBLE_DRAIN, MXA_WAIT_SWAPWAIT, MXA_WAIT_STALL,
   MXA_ERR_VALID, MXA_ERR_KIND, MXA_ERR_COUNT, MXA_ERR_OPTAG, MXA_ECC_ACCFIX, MXA_ECC_PARITY,
   MXA_GATE_VK, MXA_GATE_VN, MXA_DCLAMP_COUNT, MXA_FLAGS0_BANKS, MXA_FLAGS1_BANKS,
   PERF_BSEL_EVENT, PERF_BCNT_VALUE, PERF_BCNT_STAMP]
/-- Every field of block `brick`. -/
def brickFields : List Fld := brickFields0 ++ brickFields1 ++ brickFields2

def mxaFields0 : List Fld :=
  [MXA_ERRMAP0_BRICKS, MXA_ERRMAP1_BRICKS, MXA_MODEMAP0_BRICKS, MXA_MODEMAP1_BRICKS]
/-- Every field of block `mxa`. -/
def mxaFields : List Fld := mxaFields0

def schFields0 : List Fld :=
  [SCH_STATUS_INFLIGHT, SCH_STATUS_PEAK, SCH_FULL_CYCLES, SCH_FULL_STALE, SCH_ORPHAN_COUNT,
   SCH_BNDLIM_US, SCH_POISON_COUNT, SCH_POISON_CAUSE, SCH_PSTEP_STEP, SCH_SPLIT_ROWS,
   SCH_SPLIT_PENDING, SCH_PQUOTA_RESERVED, SCH_PQUOTA_INFLIGHT, SCH_PQUOTA_MASTER,
   SCH_PBND_LAST_NS, SCH_PBND_TCOMMIT, SCH_PBND_POISONED, SCH_PBND_LATE]
/-- Every field of block `sch`. -/
def schFields : List Fld := schFields0

def d2dFields0 : List Fld :=
  [D2D_LSTAT_STATE, D2D_LSTAT_PEER, D2D_LSTAT_REPAIRED, D2D_LSTAT_DEGRADED, D2D_LERR_RETRY,
   D2D_LERR_RETRAINS, D2D_LERR_POISONED, D2D_REROUTE_PACKETS]
/-- Every field of block `d2d`. -/
def d2dFields : List Fld := d2dFields0

def attFields0 : List Fld :=
  [ATT_STATUS_WBUSY, ATT_LAB_HITS, ATT_LAB_MISSES, ATT_WALK_WALKS, ATT_WALK_STALE,
   ATT_WALK_TRAILER, ATT_STUB_REDIRECT, ATT_PMODE_DROP, ATT_PMODE_PENDING, ATT_PMODE_EFFECTIVE,
   ATT_PMODE_HIGH1, ATT_PMODE_LOW1, ATT_PMODE_HIGH2, ATT_PMODE_LOW2, ATT_PSEQ_LIVE,
   ATT_PSEQ_QUAR, ATT_PSEQ_WAITS, ATT_PPAGE_T1, ATT_PPAGE_T2, ATT_PT3_T3, ATT_PT3_EMPTYROW,
   ATT_PT3_RECLOST, ATT_PSPILL_SPILLED, ATT_PSPILL_FETCHED]
def attFields1 : List Fld :=
  [ATT_PDROP_DROPPED, ATT_PDROP_EXHAUST, ATT_PDROP_OVERRUN, ATT_PSPEC_ACCEPTED,
   ATT_PSPEC_REJECTED, ATT_PPFX_REUSED, ATT_PPFX_CONFIRMFAIL, ATT_PPFX_SHAREDWR]
/-- Every field of block `att`. -/
def attFields : List Fld := attFields0 ++ attFields1

def smpFields0 : List Fld :=
  [SMP_STATUS_BUSY, SMP_STATUS_BOUND, SMP_DRAWS_DISCRETE, SMP_DRAWS_CONTINUOUS, SMP_CLAMP_TEMP,
   SMP_CLAMP_TOPK, SMP_CLAMP_TOPP, SMP_CLAMP_OTHER, SMP_NOADMIT_ROWS, SMP_NOADMIT_NANSCORE,
   SMP_LSEL_LANE, SMP_LPOS_POS, SMP_LJOB_JOB, SMP_LJOB_VALID]
/-- Every field of block `smp`. -/
def smpFields : List Fld := smpFields0

def epcHFields0 : List Fld :=
  [EPC_POLICY_ENCRYPT, EPC_LIMIT_GNORM, EPC_PUB_WS, EPC_PUB_BUSY, EPC_PUB_WAITPROV,
   EPC_PUB_WAITSLOT, EPC_PUB_WAITTABLE, EPC_PUB_EPOCH, EPC_IMG_BUSY, EPC_IMG_REASON,
   EPC_IMG_CHUNKS, EPC_COUNT_CONFIRMED, EPC_COUNT_RETRACTED, EPC_WAITS_PUBWAIT, EPC_WSCFG_JOB,
   EPC_WSCFG_VALID, EPC_WSCFG_KIND, EPC_WSCFG_BASE, EPC_WSCFG_LOG2ENT, EPC_WSEPOCH_LASTCONF,
   EPC_WSEPOCH_NEWEST, EPC_WSSTATE_STATE, EPC_WSSTATE_CAUSE, EPC_WSSTATE_INUSE]
def epcHFields1 : List Fld :=
  [EPC_WSSTATE_FORCED, EPC_WSSLOT_KEEP, EPC_WSSLOT_HOLD0, EPC_WSSLOT_HOLD1]
/-- Every field of block `epcH`. -/
def epcHFields : List Fld := epcHFields0 ++ epcHFields1

def epcCFields0 : List Fld :=
  [EPC_DSTREAM_CHUNKS, EPC_DSTREAM_TAGFAIL, EPC_PEPOCH_CURRENT, EPC_PEPOCH_LATCHED,
   EPC_PATTR_ADOPT_PROV, EPC_PATTR_LIVE, EPC_PATTR_SLOT, EPC_PATTR_WS, EPC_PATTR_ADOPTS,
   EPC_PREFETCH_REFETCH, EPC_PREFETCH_REVERTS]
/-- Every field of block `epcC`. -/
def epcCFields : List Fld := epcCFields0

def expFields0 : List Fld :=
  [EXP_STATUS_WBUSY, EXP_STATUS_DBUSY, EXP_WCOUNT_RECORDS, EXP_WPOISON_COUNT, EXP_RCFG_TIER,
   EXP_RCFG_STRIPES, EXP_RCFG_LOG2CAP, EXP_RCFG_SLOT, EXP_RCFG_JOB, EXP_RCFG_VALID,
   EXP_RFILL_COMMITTED, EXP_RFILL_DEAD, EXP_RLIM_MINFILL, EXP_RLIM_RATIO, EXP_RPRIO_DEFAULT,
   EXP_RDRAW_SEGS, EXP_RDRAW_MASKED, EXP_RMISS_MISS, EXP_RMISS_RACE, EXP_RMISS_STALEPRIO,
   EXP_RMISS_BADPRIO, EXP_RWAIT_US, EXP_RWAIT_DROPS]
/-- Every field of block `exp`. -/
def expFields : List Fld := expFields0

def movFields0 : List Fld :=
  [MOV_LIMIT_TIMEOUT, MOV_STATUS_ENG0, MOV_STATUS_ENG1, MOV_STATUS_STUBS, MOV_STATUS_PEAK,
   MOV_COUNT_DONE, MOV_COUNT_FAILED, MOV_COUNT_STUBWAIT, MOV_ERR_TIMEOUT, MOV_ERR_ECC,
   MOV_ERR_LATE, MOV_ERR_UNMAPPED, MOV_FWD_QUEUED, MOV_FWD_REDIRECT, MOV_PLEAD_LEAD_NS,
   MOV_PLEAD_EXPECT_NS, MOV_PLADLE_ISSUED, MOV_PLADLE_LATE, MOV_PBUF_ALLOC, MOV_PBUF_FREEREF,
   MOV_PBUF_ALLOCWAIT]
/-- Every field of block `mov`. -/
def movFields : List Fld := movFields0

def hbmFields0 : List Fld :=
  [HBM_TRAIN_STATE, HBM_TRAIN_REPAIRED, HBM_ECC_CORR, HBM_ECC_UNCORR, HBM_ECC_RETRY,
   HBM_DIMAP_RANGES, HBM_OPS_MSOP, HBM_OPS_NARROW, HBM_SCRUB_HOURS, HBM_SCRUB_PASSES]
/-- Every field of block `hbm`. -/
def hbmFields : List Fld := hbmFields0

def lpdFields0 : List Fld :=
  [LPD_CFG_PRESENT, LPD_CFG_RATE, LPD_CFG_RANKS2, LPD_CFG_GIB, LPD_STAT_STATE, LPD_STAT_LINKFIX,
   LPD_STAT_RETRY, LPD_STAT_UNCORR, LPD_VIEW_DI]
/-- Every field of block `lpd`. -/
def lpdFields : List Fld := lpdFields0

def nvtFields0 : List Fld :=
  [NVT_SPACE_LOGICAL_GIB, NVT_SPACE_SPARE_PM, NVT_SPACE_READONLY, NVT_WEAR_MINEC, NVT_WEAR_MAXEC,
   NVT_WEAR_SPREAD, NVT_DISTURB_READS, NVT_ECC_CORR, NVT_ECC_RETRY, NVT_ECC_UNCORR,
   NVT_WAF_HOSTW, NVT_WAF_NANDW, NVT_BAD_FACTORY, NVT_BAD_GROWN, NVT_CHSTAT_STATE,
   NVT_CHSTAT_SLOW, NVT_CHSTAT_TARGETS, NVT_CHSTAT_RAW_GIB]
/-- Every field of block `nvt`. -/
def nvtFields : List Fld := nvtFields0

def fabFields0 : List Fld :=
  [FAB_ID_DEVICE, FAB_ID_BOOT, FAB_LIMIT_RETRY_US, FAB_LIMIT_RCACHE_MS, FAB_QUAR_THRESH,
   FAB_QUAR_WINDOW_MS, FAB_STALE_JOBGEN, FAB_STALE_TAG, FAB_STALE_BOOT, FAB_RCACHE_USED,
   FAB_RCACHE_BUSY, FAB_ORDER_HELD, FAB_ORDER_DUP, FAB_PSTAT_STATE, FAB_PSTAT_LANES,
   FAB_PSTAT_SPAREUSED, FAB_PSTAT_LCLASS, FAB_PSTAT_PEER, FAB_PSTAT_RTT_NS, FAB_PSTAT_PEERPORT,
   FAB_PCTL_ENABLE, FAB_PLINK_REPLAYS, FAB_PLINK_CRCERR, FAB_PLINK_RETRAINS]
def fabFields1 : List Fld :=
  [FAB_PVIOL_COUNT, FAB_PVIOL_TOTAL, FAB_PVIOL_LAST, FAB_PVIOL_QUARS, FAB_PXFER_PREEMPT,
   FAB_PXFER_TTLDROP]
/-- Every field of block `fab`. -/
def fabFields : List Fld := fabFields0 ++ fabFields1

def routeFields0 : List Fld :=
  [ROUTE_SEL_ACTIVE, ROUTE_SEL_SHADOWOK, ROUTE_SEL_FLIPS, ROUTE_SADDR_DEST, ROUTE_SADDR_TREE,
   ROUTE_SDATA_ALT0, ROUTE_SDATA_ALT1, ROUTE_SDATA_ALT2, ROUTE_SDATA_ALT3, ROUTE_SDATA_V0,
   ROUTE_SDATA_V1, ROUTE_SDATA_V2, ROUTE_SDATA_V3, ROUTE_SDONE_DONE, ROUTE_VCW_W1, ROUTE_VCW_W2,
   ROUTE_VCW_W3, ROUTE_VCW_W4, ROUTE_VCW_W5, ROUTE_VCW_W6]
/-- Every field of block `route`. -/
def routeFields : List Fld := routeFields0

def colFields0 : List Fld :=
  [COL_STATUS_BUSY, COL_STATUS_STAGED0, COL_STATUS_STAGED1, COL_CHUNKS_SENT, COL_CHUNKS_DONE,
   COL_COUNTS_WHISTLE, COL_COUNTS_PREPHASE, COL_ERR_TRUNCROWS, COL_ERR_POISONED,
   COL_ERR_PEERDEAD, COL_ORDER_ORDERED, COL_ORDER_ARRIVAL, COL_GCFG_MEMBERS, COL_GCFG_RANK,
   COL_GCFG_JOB, COL_GCFG_VALID, COL_GCFG_ONERING, COL_GCFG_WGROUP, COL_GOP_OPNUM]
/-- Every field of block `col`. -/
def colFields : List Fld := colFields0

def llpFields0 : List Fld :=
  [LLP_ID_POS0, LLP_ID_POS1, LLP_ID_POS2, LLP_ID_BRIDGE1, LLP_ID_BRIDGE2, LLP_FB_SENT,
   LLP_FB_RECEIVED, LLP_RSTAT_STATE, LLP_RSTAT_MEMBERS, LLP_RSTAT_SLOTS, LLP_RSTAT_MASTER,
   LLP_RSTAT_TERM, LLP_BYPASS_POSITIONS, LLP_DEAD_POSITIONS, LLP_EDGE_LATE_EDGE, LLP_EDGE_LOST,
   LLP_EDGE_RESYNC, LLP_OPS_DONE, LLP_OPS_REPEATS, LLP_OPS_FALLBACK, LLP_SKEW_LAST_PS,
   LLP_SKEW_MAX_PS, LLP_RCTL_REJOIN, LLP_RCTL_RETRAIN]
/-- Every field of block `llp`. -/
def llpFields : List Fld := llpFields0

def wptFields0 : List Fld :=
  [WPT_STATUS_PORTUP, WPT_STATUS_WORLDS, WPT_TSYNC_GM, WPT_TSYNC_LOCKED, WPT_TSYNC_HOLDOVER,
   WPT_TSYNC_OFFSET_NS, WPT_LIMIT_MISSLIM, WPT_LIMIT_HOLDLIM, WPT_LIMIT_SILENCE, WPT_WSEL_WORLD,
   WPT_WSTATE_STATE, WPT_WSTATE_CLASS, WPT_WSTATE_PORT, WPT_WSTATE_PAN, WPT_WSTATE_VALID,
   WPT_WSTATE_WGEN, WPT_WTICK_TICK, WPT_WMISS_MISSES, WPT_WMISS_CONSEC, WPT_WMISS_STALE,
   WPT_WPART_LATE, WPT_WPART_DUP, WPT_WPART_ORDER, WPT_WPART_GAP]
def wptFields1 : List Fld :=
  [WPT_WSEQ_RXSEQ, WPT_WSEQ_TXSEQ, WPT_PSTAT_STATE, WPT_PSTAT_PREEMPT, WPT_PSTAT_JUMBO,
   WPT_PSTAT_GCLEN, WPT_PCNT_TX, WPT_PCNT_RX, WPT_PERR_FCS, WPT_PERR_PAUSE, WPT_PERR_OTHERTYPE,
   WPT_PERR_PREEMPTED]
/-- Every field of block `wpt`. -/
def wptFields : List Fld := wptFields0 ++ wptFields1

def hcxFields0 : List Fld :=
  [HCX_STATUS_KEEPER, HCX_STATUS_JOBS, HCX_STATUS_TAKEN, HCX_CMDLIM_MS, HCX_YIELD_COUNT,
   HCX_YIELD_LAST, HCX_QSQ_BASE, HCX_QCQ_BASE, HCX_QCFG_ENABLE, HCX_QCFG_LOG2DEPTH,
   HCX_QCFG_VECTOR, HCX_QCFG_CLIENT, HCX_QSTAT_SQHEAD, HCX_QSTAT_CQTAIL, HCX_QSTAT_BADDB,
   HCX_QSTAT_INFLIGHT, HCX_CLIENT_MAXJOBS, HCX_CLIENT_JOBS]
/-- Every field of block `hcx`. -/
def hcxFields : List Fld := hcxFields0

def pcieFields0 : List Fld :=
  [PCIE_LINK_UP, PCIE_LINK_GEN, PCIE_LINK_WIDTH, PCIE_LINK_FLIT, PCIE_ERR_CORR,
   PCIE_ERR_NONFATAL, PCIE_ERR_FATAL, PCIE_ERR_RETRAINS, PCIE_MSIX_PENDING]
/-- Every field of block `pcie`. -/
def pcieFields : List Fld := pcieFields0

def ckpFields0 : List Fld :=
  [CKP_CFG_SPARE, CKP_CFG_STRAG_MS, CKP_STATE_STATE, CKP_STATE_ADOPTJOB, CKP_STATE_ADOPT_MS,
   CKP_BUF_USED_MIB, CKP_BUF_SIZE_MIB, CKP_BUDDY_RXMIB, CKP_BUDDY_HELD, CKP_JCFG_BUDDY,
   CKP_JCFG_DURABLE_K, CKP_JCFG_BUDDYRANK, CKP_JCFG_RANK, CKP_JCUT_LASTCUT, CKP_JWHOLE_LASTWHOLE,
   CKP_JDUR_LASTDURABLE, CKP_JCNT_SKIPPED, CKP_JCNT_RESENT, CKP_JCNT_PROTWAIT, CKP_JCNT_DURSKIP,
   CKP_JSTREAM_BYTES]
/-- Every field of block `ckp`. -/
def ckpFields : List Fld := ckpFields0

def cfgFields0 : List Fld :=
  [CFG_STATUS_BUSY, CFG_STATUS_SCOPE, CFG_STATUS_PAN, CFG_STATUS_JOB, CFG_LOAD_REASON,
   CFG_LOAD_KIND, CFG_LOAD_OFFSET, CFG_COUNT_LOADS, CFG_COUNT_REFUSED, CFG_DIGEST_BSDIGEST,
   CFG_LOCK_LOCKS]
/-- Every field of block `cfg`. -/
def cfgFields : List Fld := cfgFields0

def auditFields0 : List Fld :=
  [AUDIT_NEXT_SEQ, AUDIT_OLDEST_SEQ, AUDIT_ACK_SEQ, AUDIT_SIZE_RECORDS, AUDIT_WAIT_EVENTS,
   AUDIT_WAIT_US]
/-- Every field of block `audit`. -/
def auditFields : List Fld := auditFields0

def secFields0 : List Fld :=
  [SEC_POLICY_SIGNED, SEC_AGREEID_ID, SEC_SIGNID_ID, SEC_KEYS_USED, SEC_KEYS_FAILS,
   SEC_AGREEPUB_BYTES, SEC_SIGNPUB_BYTES]
/-- Every field of block `sec`. -/
def secFields : List Fld := secFields0

def dieFields0 : List Fld :=
  [DIE_ID_DIE, DIE_ID_TYPE, DIE_ID_STEPPING, DIE_BOOT_STEP, DIE_BOOT_FAIL, DIE_BOOT_CODE,
   DIE_OP_OP, DIE_OP_EFFECTIVE, DIE_TEMP_NOW, DIE_TEMP_PEAK, DIE_POWER_WATTS, DIE_TIME_TIME]
/-- Every field of block `die`. -/
def dieFields : List Fld := dieFields0

def aonFields0 : List Fld :=
  [AON_LEASE_TERM, AON_LEASE_KEEPER, AON_LEASE_PEERALIVE, AON_LEASE_FENCED, AON_LCTL_YIELD,
   AON_LCNT_TAKEOVERS, AON_LCNT_CONFLICTS, AON_RST_WARM, AON_RST_BIST, AON_RST_CAUSE,
   AON_BOOTCNT_BOOT, AON_DEVNUM_DEVICE, AON_DEVNUM_VALID]
/-- Every field of block `aon`. -/
def aonFields : List Fld := aonFields0

def clkFields0 : List Fld :=
  [CLK_TSRC_SRC, CLK_TSRC_MASTER, CLK_TSTAT_LOCKED, CLK_TSTAT_OFFSET_NS, CLK_CAP_WATTS,
   CLK_CAP_MEASURED, CLK_THERM_WARN, CLK_THR_STEPS, CLK_THR_UNMET, CLK_PDUTY_DUTY,
   CLK_PDUTY_RESERVE]
/-- Every field of block `clk`. -/
def clkFields : List Fld := clkFields0

def perfFields0 : List Fld :=
  [PERF_DSEL_EVENT, PERF_DSEL_INST, PERF_DSEL_ENABLE, PERF_DCNT_VALUE, PERF_DCNT_STAMP,
   PERF_TRCTL_RUN, PERF_TRCTL_HALTED, PERF_TRCTL_PERIOD, PERF_TRSTAT_RECORDS, PERF_TRSTAT_DROPS,
   PERF_TRG_CNT, PERF_TRG_ENABLE, PERF_TRG_ACTIONS, PERF_TRG_THRESH, PERF_TRGCNT_COUNT,
   PERF_ALSEL_ENTRY, PERF_ALSEL_RELEASE, PERF_ALDATA_BYTES, PERF_ALSTAT_USED,
   PERF_ALSTAT_OVERFLOW, PERF_ALSTAT_VECTOR]
/-- Every field of block `perf`. -/
def perfFields : List Fld := perfFields0

def tstFields0 : List Fld :=
  [TST_MODE_ENABLE, TST_MODE_SCAN, TST_HOLD_DEPTH, TST_STATUS_BUSY, TST_STATUS_TARGET,
   TST_STATUS_REMAIN_US, TST_RESULT_OUTCOME, TST_MISR_MISR, TST_COUNT_HELD, TST_COUNT_BUSYTEST,
   TST_PERT0_DCQDELAY, TST_PERT0_READYDROP, TST_PERT0_STRETCH_NS, TST_PERT1_LATEONE,
   TST_PERT1_ECCONE, TST_PERT1_ECCDOUBLE, TST_PERT1_PAN]
/-- Every field of block `tst`. -/
def tstFields : List Fld := tstFields0

end R

/-- The fields of a block, in table order. -/
def Blk.fields : Blk → List Fld
  | .die => R.dieFields
  | .sch => R.schFields
  | .mxa => R.mxaFields
  | .att => R.attFields
  | .smp => R.smpFields
  | .hbm => R.hbmFields
  | .mov => R.movFields
  | .col => R.colFields
  | .exp => R.expFields
  | .epcC => R.epcCFields
  | .perf => R.perfFields
  | .tst => R.tstFields
  | .d2d => R.d2dFields
  | .hcx => R.hcxFields
  | .pcie => R.pcieFields
  | .wpt => R.wptFields
  | .lpd => R.lpdFields
  | .cfg => R.cfgFields
  | .audit => R.auditFields
  | .sec => R.secFields
  | .aon => R.aonFields
  | .ckp => R.ckpFields
  | .epcH => R.epcHFields
  | .clk => R.clkFields
  | .fab => R.fabFields
  | .route => R.routeFields
  | .llp => R.llpFields
  | .nvt => R.nvtFields
  | .brick => R.brickFields

end Sys2Proof.Machine
end

