-- ==== Sys2Proof/Machine/State.lean ====
section
/-!
DEFINITION. The state of the RGX-20 as plain data, its faults and refusals, and the state after reset.
Register fields live in `csr`, memory bytes in `mem`, and what the spec describes as tables, queues and
machines stands in structures grouped by subsystem.
-/

namespace Sys2Proof.Machine

/-- Faults of the model. The RGX-20 has no fault that stops the device as a whole at a command: grain
faults, poison, refusals and NAKs are next states. Nothing raises this constructor. Safe. -/
inductive Fault where
  /-- Raised by no command. Safe. -/
  | none
deriving DecidableEq, Repr

/-- Refusals of the model. -/
inductive Refusal where
  /-- Raised by the dispatcher for a row that has no meaning yet. Safe. -/
  | notModelled (mnemonic : String)
  /-- Raised by a command that names a die, brick, grain, pan, port, level or register block that the
  device does not have (R1, R3, R25). Safe: the hardware has no such event. -/
  | noSuchUnit (unit : String)
deriving DecidableEq, Repr

/-! ## Grains and bricks -/

/-- GRN_STATE.STATE (R55). -/
inductive GrainRun where
  | gated | run | waitStream | waitBoundary | halted | faulted
deriving DecidableEq, Repr

/-- A grain (R28 to R46). -/
structure Grain where
  /-- 0 IDLE, 1 WORLD, 2 SLIVER (R28). -/
  role : Nat := 0
  run : GrainRun := .gated
  /-- Program counter (R55). -/
  pc : Word := 0
  /-- x1 to x31 by number; x0 is hard-wired (R30). -/
  x : AMap Word := []
  /-- f0 to f31 by number (R30). -/
  f : AMap Word := []
  /-- fflags: NX 0, UF 1, OF 2, DZ 3, NV 4 (R38). -/
  fflags : BitVec 5 := 0
  /-- frm (R38). -/
  frm : BitVec 3 := 0
  /-- SLFMT (R38). -/
  slfmt : Word := 0x00800000
  /-- GCLK cycles since the role began (R38). -/
  cycle : Nat := 0
  /-- Instructions retired (R38). -/
  instret : Nat := 0
  /-- Counted cycles since the last release (R46). -/
  wdog : Nat := 0
  win0 : WinDecl := {}
  win1 : WinDecl := {}
  /-- Bound stream ports by number (R42). -/
  ports : AMap PortDecl := []
  /-- World index in the pan and grain within world (R38). -/
  world : Nat := 0
  inWorld : Nat := 0
  /-- The grain has ended its part of stage 1 of the step (R45, R49). -/
  ended : Bool := false
  /-- The reset entry is running (R50). -/
  inReset : Bool := false
  /-- The register that takes STEPLO at the release (R39). -/
  waitRd : Nat := 0
  /-- EPOCH of the row that the grain popped last in the step (R111). -/
  epoch : Nat := 0
  /-- Registers x and f that hold data which descends from a poisoned row (R43). -/
  tx : AMap Bool := []
  tf : AMap Bool := []
deriving DecidableEq, Repr

/-- What the bit-stream fixed for a brick: its kernel descriptor and its array's stream ports. -/
structure Brick where
  desc : Option KernelDesc := none
  ports : AMap PortDecl := []
  /-- Grants of PERF_USER to the owning pan (R417). -/
  perfUser : Bool := false
deriving DecidableEq, Repr

/-! ## Matrix arrays -/

/-- A stationary set (R59, R72, R77): codes of element (i, j) at i * 128 + j, the second tile of a
paired set from 16,384 on; scales by column and block. -/
structure MxSet where
  fmt : Nat := 0
  paired : Bool := false
  vk : Nat := 0
  vn : Nat := 0
  /-- Poison cause of the set, 0 when it is not poisoned (R77). -/
  poison : Nat := 0
  /-- EPOCH of the tile's header. -/
  epoch : Nat := 0
  codes : List Nat := []
  scales : List Nat := []
deriving DecidableEq, Repr

/-- A converter block with its columns, as read at issue (R95, R96). -/
structure Conv where
  scale : Word := 0x3F800000
  colscale : List Word := []
  bias : List Word := []
  lo : Word := 0
  hi : Word := 0
  statsBase : Nat := 0
  unit : Int := 0
  margin : Nat := 0
deriving DecidableEq, Repr

/-- A convolution descriptor after clamping (R79, R81). -/
structure ConvDesc where
  inBase : Nat
  h : Nat
  w : Nat
  pixPitch : Nat
  linePitch : Nat
  outH : Nat
  outW : Nat
  kh : Nat
  kw : Nat
  tapR : Nat
  tapS : Nat
  strideH : Nat
  strideW : Nat
  dilH : Nat
  dilW : Nat
  padT : Nat
  padL : Nat
  padB : Nat
  padR : Nat
  images : Nat
  imgPitch : Nat
deriving DecidableEq, Repr

/-- A command's own statistics (R101): the sum of squares is exact, sumM * 2 ^ sumE. -/
structure CmdStats where
  amax : Word := 0
  sumM : Nat := 0
  sumE : Int := 0
  nonfin : Nat := 0
  clips : Nat := 0
  flags : BitVec 4 := 0
  rows : Nat := 0
deriving DecidableEq, Repr

/-- An array command (R64): its four words, what it read at issue, its progress. -/
structure MxCmd where
  w0 : U64
  w1 : U64
  w2 : U64
  w3 : U64
  conv : Conv := {}
  desc : Option ConvDesc := none
  /-- The next row to accept. -/
  row : Nat := 0
  stats : CmdStats := {}
deriving DecidableEq, Repr

/-- An output row that waits for the drain (R74, R75): its port, the row, and the column groups that have given their
part of it, one bit each. -/
structure DrainRow where
  port : Nat
  row : Row
  sent : Nat := 255
deriving DecidableEq, Repr

/-- A matrix array (R56 to R83). Accumulator words stand at row * 128 + column. -/
structure ArraySt where
  setA : MxSet := {}
  setB : MxSet := {}
  fgB : Bool := false
  bgValid : Bool := false
  /-- A load of the background set in progress: BG_ADDR, W_FMT and OPTAG of its command. -/
  loading : Option (Nat × Nat × Nat) := none
  /-- The current command waits for its swap (R63). -/
  swapPending : Bool := false
  cur : Option MxCmd := none
  queue : List MxCmd := []
  acc : AMap Word := []
  accPoison : List Nat := []
  /-- Output rows that wait for the drain (R74, R75). -/
  drain : List DrainRow := []
  /-- Segments of the next row that have arrived in ELASTIC mode, one bit each (R75). -/
  arrived : Nat := 0
deriving DecidableEq, Repr

/-! ## Schedulers, streams, pans -/

/-- A scoreboard entry (R113). -/
structure ScoreEntry where
  gen : Nat := 0
  busy : Bool := false
  pan : Nat := 0
  step : Nat := 0
  station : Nat := 0
  mb : Nat := 0
  slice : Nat := 0
  brick : Nat := 0
  isArray : Bool := false
  /-- What the operation is among those of its station: the layer plus 1 of an ATTEND operation (R125), 65,536 for stage
  5 of a world, else 0. -/
  layer : Nat := 0
  /-- Grains of a sliver invocation. -/
  grains : List Nat := []
  /-- The object of a MOVE station's transfer. -/
  obj : Option MovObj := none
deriving DecidableEq, Repr

/-- An operation presented to a tile scheduler and not issued yet (R117). -/
structure Offer where
  die : Nat
  pan : Nat
  station : Nat
  mb : Nat
  slice : Nat
  work : OpWork
deriving DecidableEq, Repr

/-- A row in a stream and the consumers that have taken it (R108). -/
structure StreamRow where
  row : Row
  taken : List Nat := []
deriving DecidableEq, Repr

/-- States of a pan (R347). -/
inductive PanRun where
  | free | loading | fenced | running | quiescing | faulted
deriving DecidableEq, Repr

/-- A DEV world placed in a pan (R49, R50). -/
structure DevWorld where
  decl : DevWorldDecl
  gen : Nat := 0
  episode : Nat := 0
  /-- Attached by a load and not yet run (R50). -/
  fresh : Bool := true
  /-- The world's result of the step (R49). -/
  done : Bool := false
  trunc : Bool := false
  reward : Word := 0
  /-- The action slot holds a fallback (R16). -/
  fallback : Bool := false
  /-- The step's observation opens an episode (R208). -/
  first : Bool := false
  seq : Option Nat := none
deriving DecidableEq, Repr

/-- The prefetch entries of one step of a pan (R249): the next to issue, the first not consumed, those whose data is
present, those that were missed when consumed, and weight entries to fetch again (R22). -/
structure Ladle where
  next : Nat := 0
  consumed : Nat := 0
  present : List Nat := []
  late : List Nat := []
  again : List Nat := []
deriving DecidableEq, Repr

/-- A pan (R345 to R352, R119). -/
structure Pan where
  st : PanRun := .free
  gen : Nat := 0
  job : Nat := 0
  cfg : PanDecl := { pan := 0, job := 0, bricks := [] }
  step : Nat := 0
  released : Bool := false
  /-- Dies that RELEASE of the current step has reached. -/
  woken : List Nat := []
  relTime : Nat := 0
  lastDone : Nat := 0
  lens : List Nat := []
  /-- Dies that have sent DONE, and dies whose DONE the master holds. -/
  sent : List Nat := []
  dones : List Nat := []
  /-- Retired operations of the step: station, micro-batch, slice, layer (R114, R125). -/
  retired : List (Nat × Nat × Nat × Nat) := []
  /-- Array commands issued in the step: station, micro-batch, slice, brick key (R69). -/
  issued : List (Nat × Nat × Nat × Nat) := []
  /-- The worlds that give the pan a row in the step, ascending: row r of the micro-batch is the r-th one's (R11). -/
  rowWorlds : List Nat := []
  worlds : List DevWorld := []
  epoch : Nat := 0
  slot : Nat := 0
  latched : Option Nat := none
  /-- The epoch latched at the last adoption point (R206). -/
  lastLatch : Nat := 0
  /-- Prefetches of the step, and from the adoption point on those of the step after it (R120, R250). -/
  fetch : Ladle := {}
  ahead : Option Ladle := none
  /-- The resize waiting for the boundary (R352). -/
  resize : Option (CmdRef × Content) := none
  quarAt : Nat := 0
  /-- Results of the placement commit barriers of the step by table (R318), and of a cut barrier (R359). -/
  placeVotes : List (Nat × Bool) := []
  cutVote : Option Bool := none
  /-- Micro-batches that stage 6 of a learner released (R346 ON_COMMAND). -/
  pubReleased : Bool := false
  /-- PUBLISH stations whose stage 6 has ended in the step (R18). -/
  pubDone : List Nat := []
  /-- Rows of a continuation slice in force (R126). -/
  split : Nat := 4096
deriving DecidableEq, Repr

/-- An expert placement table (R316, R318): the entries as N, SLOT and RANK0 to RANK3, committed and shadow, with
their versions, and whether the shadow is complete. -/
structure PlaceTab where
  entries : List (Nat × Nat × List Nat) := []
  version : Nat := 0
  shadow : List (Nat × Nat × List Nat) := []
  shadowVersion : Nat := 0
  complete : Bool := true
deriving DecidableEq, Repr

/-- Schedulers, streams, pans, placement tables. -/
structure SchedSt where
  boards : AMap ScoreEntry := []
  streams : AMap (List StreamRow) := []
  /-- Rows emitted in the step by stream, micro-batch and slice (R111). -/
  pushed : AMap Nat := []
  /-- Rows that wait for a credit of their stream, oldest first, by stream (R108). -/
  outq : AMap (List Row) := []
  /-- Operations presented and not issued yet (R117). -/
  offers : List Offer := []
  pans : AMap Pan := []
  /-- Expert placement tables by job * 256 + table: committed and shadow, with completeness. -/
  place : AMap PlaceTab := []
  /-- TIME at which a link entered RETRAIN, by die * 4 + port (R132). -/
  d2dSince : AMap Nat := []
  /-- Last routed row: its destination rank. -/
  routed : Nat := 0
deriving DecidableEq, Repr

/-! ## Attention -/

inductive SeqRun where
  | free | opened | cancelPending | quarantine
deriving DecidableEq, Repr

/-- A sequence descriptor (R136). -/
structure Seq where
  gen : Nat := 0
  pan : Nat := 0
  st : SeqRun := .free
  layers : Nat := 1
  kvheads : Nat := 1
  headdim : Nat := 16
  fmt : Nat := 1
  ring : Bool := false
  pinned : Bool := false
  entries : Nat := 1
  table : Nat := 0
  len : Nat := 0
  opened : Nat := 0
  pangen : Nat := 0
  /-- Candidates in flight (R156): LEN before the step, and the parents. -/
  len0 : Nat := 0
  parents : List Nat := []
  acceptAt : Nat := 0
  quarAt : Nat := 0
  /-- Storage positions appended by layer, so that LEN advances once per row (R149). -/
  layerLen : AMap Nat := []
  /-- The token row supplied for prefix reuse (R158). -/
  tokens : List Nat := []
deriving DecidableEq, Repr

/-- A page-table entry (R142). -/
structure Pte where
  tier : Nat := 0
  present : Bool := false
  moving : Bool := false
  recomp : Bool := false
  shared : Bool := false
  poison : Bool := false
  addr : Nat := 0
  gen : Nat := 0
  page : Nat := 0
deriving DecidableEq, Repr

/-- A page: its identity block (R141), the step of the latest write (R152), its geometry, the poison causes of its
tiles. The block's POISON is set while some tile has a cause. -/
structure Ident where
  seqgen : Nat := 0
  seq : Nat := 0
  layer : Nat := 0
  shared : Bool := false
  mixed : Bool := false
  spec : Bool := false
  /-- Poison cause by tile (R111, R144). -/
  causes : AMap Nat := []
  page : Nat := 0
  epoch : Nat := 0
  sharers : Nat := 0
  live : BitVec 128 := 0
  specmask : BitVec 128 := 0
  rewritten : BitVec 128 := 0
  lastStep : Nat := 0
  kvheads : Nat := 1
  headdim : Nat := 16
  fmt : Nat := 1
  /-- The pan whose pool holds the frame, and the frame's number there. -/
  pan : Nat := 0
  frame : Nat := 0
deriving DecidableEq, Repr

/-- A look-aside entry (R145). -/
structure LabEntry where
  seq : Nat
  gen : Nat
  layer : Nat
  page : Nat
  tier : Nat
  addr : Nat
  pan : Nat
deriving DecidableEq, Repr

/-- A walker's buffer: committed and shadow, most recently used first. -/
structure Lab where
  committed : List LabEntry := []
  shadow : List LabEntry := []
  /-- Entries that an insertion replaced, with the pan whose insertion it was. -/
  evicted : List (Nat × LabEntry) := []
  /-- A translation the last walk gave: tier and address. -/
  last : Option (Nat × Nat) := none
deriving DecidableEq, Repr

/-- A prefix-index entry (R159). -/
structure PfxEntry where
  /-- The entry's own number, and that of the entry of block k − 1. -/
  id : Nat
  prev : Option Nat
  hash : List Byte
  ws : Nat
  epoch : Nat
  tokens : List Nat
  /-- One page per layer: tier and address. -/
  pages : List (Nat × Nat)
  /-- Its epoch was retracted: it leaves at the next boundary commit (R191). -/
  gone : Bool := false
deriving DecidableEq, Repr

/-- An opening that waits for a FREE index of its pan (R135): the pan, the world, and the descriptor's fields. -/
structure SeqWait where
  pan : Nat
  world : Option Nat
  layers : Nat
  kvheads : Nat
  headdim : Nat
  fmt : Nat
  mode : Nat
  entries : Nat
  table : Nat
deriving DecidableEq, Repr

structure AttSt where
  seqs : AMap Seq := []
  ptes : AMap Pte := []
  idents : AMap Ident := []
  labs : AMap Lab := []
  /-- Prefix index by job: committed and shadow. -/
  pfx : AMap (List PfxEntry × List PfxEntry) := []
  /-- Recompute lists by pan: index, generation, layer, page (R154). -/
  recomp : AMap (List (Nat × Nat × Nat × Nat)) := []
  /-- Openings that wait for an index, oldest first (R135). -/
  waits : List SeqWait := []
  /-- The number of the next prefix-index entry. -/
  nextPfx : Nat := 0
deriving DecidableEq, Repr

/-! ## Epochs -/

/-- An IMAGE_LOAD past its header checks (R200). -/
structure ImgLoad where
  cmd : CmdRef
  ws : Nat
  epoch : Nat
  header : List Byte
  key : List Byte := []
  done : Nat := 0
  plain : List Byte := []
deriving DecidableEq, Repr

structure EpcSt where
  sets : AMap WSet := []
  img : Option ImgLoad := none
  /-- Chunks of other devices' streams that arrive, by weight set, epoch and chunk: the bytes so far (R187). -/
  rx : AMap (List Byte) := []
deriving DecidableEq, Repr

/-! ## Tiers -/

inductive MoveRun where
  | copying | draining | redirect
deriving DecidableEq, Repr

/-- A move and its stub (R234 to R237). -/
structure Move where
  die : Nat
  engine : Nat
  obj : MovObj
  pan : Nat
  srcTier : Nat
  srcAddr : Nat
  dstTier : Nat
  dstAddr : Nat
  srcFrame : Nat
  dstFrame : Nat
  bytes : Nat
  st : MoveRun := .copying
  /-- TIME at which the stub was installed. -/
  started : Nat := 0
  queue : List Access := []
  /-- Accesses that reach the new home directly before the DRAINED marker (R235). -/
  held : List Access := []
  /-- The object was released or freed while it moved (R236). -/
  release : Bool := false
  /-- Boundaries of pans that must fall before the stub goes (R237). -/
  waitPans : List Nat := []
deriving DecidableEq, Repr

inductive BufRun where
  | free | allocated | quarantine
deriving DecidableEq, Repr

/-- A buffer (R252, R253). -/
structure Buffer where
  st : BufRun := .free
  gen : Nat := 0
  pan : Nat := 0
  tier : Nat := 0
  addr : Nat := 0
  frame : Nat := 0
  bytes : Nat := 0
  movable : Bool := false
  poison : Nat := 0
  /-- Poison cause by tile (R234). -/
  causes : AMap Nat := []
  quarAt : Nat := 0
deriving DecidableEq, Repr

/-- A move that waits for a stub, an engine or a frame (R237, R248). -/
structure MoveWait where
  die : Nat
  engine : Nat
  obj : MovObj
  dst : Nat
deriving DecidableEq, Repr

/-- An allocation that waits for its pool (R252). -/
structure BufWait where
  pan : Nat
  tier : Nat
  bytes : Nat
  movable : Bool
deriving DecidableEq, Repr

/-- What a tier request serves (R251). -/
inductive ReqFor where
  /-- A prefetch entry of a pan's step: transit to a tile-store slot. -/
  | prefetch (pan step entry brickKey off : Nat)
  /-- A write to a buffer, page or record. -/
  | buffer (idx : Nat)
  | page (tier addr : Nat)
  | record (ring stripe k w : Nat)
  /-- A remote request by its TAG index. -/
  | remote (tagIdx : Nat)
deriving DecidableEq, Repr

/-- An outstanding tier request. -/
structure TierReq where
  die : Nat
  pan : Nat
  space : Nat
  offset : Nat
  len : Nat
  write : Bool := false
  data : List Byte := []
  issued : Nat := 0
  dest : ReqFor
  ended : Bool := false
deriving DecidableEq, Repr

/-- A flash block of a fabric die (R247). -/
structure FlashBlock where
  erase : Nat := 0
  reads : Nat := 0
  retries : Nat := 0
  retired : Bool := false
  factory : Bool := false
  /-- Pages programmed since the erase, and the logical units of those that are valid, by page. -/
  next : Nat := 0
  units : AMap Nat := []
  /-- The ring whose data the block holds and nothing else. -/
  ring : Option Nat := none
deriving DecidableEq, Repr

/-- The translation layer of a fabric die (R247). -/
structure Flash where
  /-- Physical blocks that hold data, have been erased, or are marked, by number. -/
  blocks : AMap FlashBlock := []
  /-- Physical blocks of the die's channels, and logical capacity in blocks as formatted. -/
  raw : Nat := 0
  logical : Nat := 0
  /-- The map: physical block of a logical unit; the rebuilt segments that are not committed yet; the copy that the
  segment directory selects, by segment (R128). -/
  map : AMap Nat := []
  shadow : AMap Nat := []
  select : AMap Nat := []
  /-- Write sequence: pages programmed; and pages written by the mover. -/
  seq : Nat := 0
  hostPages : Nat := 0
deriving DecidableEq, Repr

structure TierSt where
  /-- The tier policies of the loaded bit-stream (R227, R229, R388, R421). -/
  policy : TierDecl := {}
  moves : AMap Move := []
  nextMove : Nat := 0
  failed : List MovObj := []
  /-- Moves and allocations that wait, oldest first. -/
  waits : List MoveWait := []
  bufWaits : List BufWait := []
  /-- Memory-side operations that wait for their object to come from T3 to T2 (R242). -/
  lifts : List (MovObj × Access) := []
  buffers : AMap Buffer := []
  reqs : AMap TierReq := []
  nextReq : Nat := 0
  flash : AMap Flash := []
  /-- Frames in use by pan * 4 + tier. -/
  frames : AMap (List Nat) := []
  /-- Results returned by the last accesses: tag and bytes. -/
  results : List (Nat × List Byte) := []
deriving DecidableEq, Repr

/-! ## Fabric -/

/-- A fabric port's link state beside its registers (R264, R269). -/
structure FPort where
  txNext : Nat := 0
  tx : List (Nat × Packet) := []
  rxNext : Nat := 0
  unacked : Nat := 0
  replays : Nat := 0
  violAt : List Nat := []
  quarAt : List Nat := []
  since : Nat := 0
deriving DecidableEq, Repr

/-- What an outstanding request of this device serves (R270): a packet of an EXCHANGE's chunk, a write of a pan's step
(R119), or another. -/
inductive ReqUse where
  | coll (key chunk : Nat)
  | write (pan : Nat)
  | claim (pan ring stripe k : Nat)
  | other
deriving DecidableEq, Repr

/-- An outstanding request (R270, R272). -/
structure OutReq where
  pkt : Packet
  first : Nat
  last : Nat
  use : ReqUse
deriving DecidableEq, Repr

/-- A destination stream (R274): packets held in the reorder buffer with the port they came through. -/
structure OrdSt where
  next : Nat := 0
  held : List (Nat × Packet) := []
deriving DecidableEq, Repr

/-- An atomic result (R273). -/
structure RcEntry where
  src : Nat
  boot : Nat
  tagIdx : Nat
  tagGen : Nat
  value : List Byte
  stored : Nat
deriving DecidableEq, Repr

/-- A packet given to a port, or to none when no alternative was ACTIVE (R276, R277). -/
structure Sent where
  port : Option Nat
  pkt : Packet
deriving DecidableEq, Repr

/-- A broadcast packet that waits for its children's acknowledgements (R279): the port of its parent, none at
its source, and the devices still to answer. -/
structure Relay where
  parent : Option Nat
  pkt : Packet
  children : List Nat
deriving DecidableEq, Repr

structure FabSt where
  ports : AMap FPort := []
  /-- Destination streams by source * 8 + VC. -/
  streams : AMap OrdSt := []
  boots : AMap Nat := []
  /-- Outstanding requests by TAG index; the next generation of each index; ORD by destination * 8 + VC. -/
  reqs : AMap OutReq := []
  tagGen : AMap Nat := []
  ordNext : AMap Nat := []
  /-- Requests that wait for a TAG index, and packets that wait for credit. -/
  blocked : List (Packet × ReqUse) := []
  noCredit : List (Nat × Packet) := []
  rcache : List RcEntry := []
  /-- Both copies of the route tables and trees, by fabric die * 2^18 + copy * 2^17 + tree * 2^16 + entry. -/
  routes : AMap (BitVec 32) := []
  /-- Packets accepted for this device, with the port they came through. -/
  inbox : List (Nat × Packet) := []
  outbox : List Sent := []
  relays : List Relay := []
  managers : List Nat := []
  spares : List Nat := []
  telem : List Packet := []
  /-- FENCEs that wait. -/
  fences : List Packet := []
deriving DecidableEq, Repr

/-! ## Collectives and the whistle -/

structure GroupSt where
  decl : GroupDecl
  job : Nat
  devices : List Nat
  rank : Nat := 0
deriving DecidableEq, Repr

/-- A chunk of an EXCHANGE (R286): destination rank, source and destination as space * 2^44 + offset, bytes,
whether it goes as MSOP packets, and the broadcast tree it goes down. -/
structure Chunk where
  rank : Nat
  src : Nat
  dst : Nat
  bytes : Nat
  reduce : Bool := false
  tree : Option Nat := none
  /-- OPTAG of the tile operation that sends it (R286). -/
  tag : Nat := 0
deriving DecidableEq, Repr

/-- An EXCHANGE (R286 to R292), kept by pan * 65,536 + station. -/
structure Exch where
  pan : Nat
  station : Nat
  decl : ExchDecl
  job : Nat
  rank : Nat
  devices : List Nat
  step : Nat
  /-- 0 waits for the count exchange, 1 sends, 2 gathers an ALL_REDUCE. -/
  phase : Nat := 1
  todo : List Chunk := []
  /-- Chunks not acknowledged: number, chunk, packets left. -/
  inFlight : List (Nat × Chunk × Nat) := []
  /-- Chunks sent so far. -/
  sent : Nat := 0
  /-- DONE packets held and sent, as phase and rank. -/
  doneFrom : List (Nat × Nat) := []
  doneSent : List (Nat × Nat) := []
  /-- Ranks folded into each 2,048-byte piece of this member's segment, by offset in the vector (R289). -/
  folded : AMap Nat := []
  /-- The count matrix by source rank, and this member's own counts before clamping (R290). -/
  counts : AMap (List Nat) := []
  own : List Nat := []
  received : List Nat := []
  /-- Ranks declared dead while it ran (R292). -/
  dead : List Nat := []
  /-- 0 running, 1 OK, 2 PEER_DEAD. -/
  status : Nat := 0
deriving DecidableEq, Repr

/-- A landing area (R289): arrivals at each of its offsets, and contributions not yet folded as rank, offset in
the vector, bytes. -/
structure Landing where
  hits : AMap Nat := []
  waiting : List (Nat × Nat × List Byte) := []
deriving DecidableEq, Repr

/-- A whistle operation at this member (R296, R299). -/
structure WOp where
  level : Nat
  wgroup : Nat
  opnum : Nat
  type : Nat
  opc : Nat
  group : Nat
  /-- Cells held by position: payload, or none when EMPTY. -/
  cells : AMap (Option (List Byte)) := []
  own : Option (List Byte) := none
  nacks : Nat := 0
  /-- Its result comes from the master over VC7 (R306). -/
  fallback : Bool := false
  /-- Positions that contributed over VC7, at the master. -/
  fbFrom : List Nat := []
  /-- 0 BARRIER, 1 cut, 2 placement commit, 3 adoption vote, 4 counts, 5 ALL_REDUCE, 6 BROADCAST. -/
  purpose : Nat := 0
  job : Nat := 0
  pan : Nat := 0
  station : Nat := 0
  dst : Nat := 0
  bytes : Nat := 0
  /-- OPTAG of the station's operation (R113). -/
  tag : Option Nat := none
deriving DecidableEq, Repr

/-- A whistle ring at this device (R293 to R304); registers hold STATE, n, F, MASTER, TERM. -/
structure WRing where
  /-- Cells this member still has to write, and those it writes for bypassed members (R306). -/
  toSend : List Cell := []
  fb : List Cell := []
  edge : Bool := false
  /-- Positions whose cells were discarded in the frame. -/
  lost : List Nat := []
  /-- Positions heard in the frame and in the one before (R304). -/
  heard : List Nat := []
  before : List Nat := []
  cleanFrames : Nat := 0
  /-- EDGE reports in a row by reporting position, and those of the frame, at the master. -/
  edgeRun : AMap Nat := []
  reports : List Nat := []
  /-- Frames since RESYNC by upstream position, at the master. -/
  sinceResync : AMap Nat := []
  /-- RESYNC bits of the next CTRL, and whether one is due. -/
  resync : Nat := 0
  ctrlDue : Bool := false
  /-- This member realigns at the next frame start; it waits to rejoin. -/
  realign : Bool := false
  rejoin : Bool := false
  lastHeard : AMap Nat := []
  lastFrame : Nat := 0
  lastSent : Nat := 0
deriving DecidableEq, Repr

structure ColSt where
  groups : AMap GroupSt := []
  exchs : AMap Exch := []
  landings : AMap Landing := []
  /-- DONE packets that came before their EXCHANGE: job, group, station, phase, rank; and count rows. -/
  early : List (Nat × Nat × Nat × Nat × Nat) := []
  earlyCounts : List (Nat × Nat × Nat × Nat × List Nat) := []
  ops : List WOp := []
  rings : AMap WRing := []
  /-- Next OPNUM by whistle group. -/
  opnums : AMap Nat := []
  /-- Cells of operations not yet issued, by level. -/
  cells : List (Nat × Cell) := []
  /-- Own cell and result of the last completed operation, by level * 64 + whistle group. -/
  lastOwn : AMap Cell := []
  lastResult : AMap (Nat × List Byte) := []
  /-- Results by pan * 65,536 + station: 1 OK or 2 PEER_DEAD, and the bytes. -/
  results : AMap (Nat × List Byte) := []
  sentCells : List (Nat × Cell) := []
deriving DecidableEq, Repr

/-! ## World port -/

/-- States of an EXT or LIVE world (R328). -/
inductive WorldRun where
  | detached | attaching | running | holding | spindown | stopped
deriving DecidableEq, Repr

/-- An observation being assembled (R323, R332). -/
structure ObsPart where
  seq : Nat
  tick : Nat
  aux : Nat
  ref : Word
  frags : List (Nat × List Byte)
  total : Option Nat := none
  bad : Bool := false
  /-- Arrival TIME of the latest fragment. -/
  last : Nat := 0
deriving DecidableEq, Repr

/-- An admitted observation (R324). -/
structure ObsGood where
  seq : Nat
  tick : Nat
  aux : Nat
  reward : Word
  data : List Byte
deriving DecidableEq, Repr

/-- The action of an ACCEPTED row (R325). -/
structure ActPend where
  kobs : Nat
  obsSeq : Nat
  data : List Byte
deriving DecidableEq, Repr

/-- A frame the port latched (R326). -/
structure Latched where
  tick : Nat
  /-- 3 ACT, 4 HOLD, 5 STOP. -/
  type : Nat
  data : List Byte
  ramp : Bool := false
  fallback : Bool := false
  ref : Nat := 0
  /-- The SEQ of the observation a policy action was computed from. -/
  src : Option Nat := none
  latchedAt : Nat := 0
  sent : Bool := false
deriving DecidableEq, Repr

/-- A verdict as the RECORD station takes it (R325). -/
structure Verdict where
  /-- 0 ACCEPTED, 1 STALE, 2 BLOCKED, 3 POISONED. -/
  code : Nat
  payload : List Byte := []
deriving DecidableEq, Repr

/-- An EXT or LIVE world (R322 to R334). -/
structure World where
  st : WorldRun := .detached
  gen : Nat := 0
  sched : WorldSched := { sched := 0 }
  job : Nat := 0
  pan : Nat := 0
  cmd : Option CmdRef := none
  stopCmds : List CmdRef := []
  attachAt : Nat := 0
  quarAt : Nat := 0
  /-- First tick of the world's RUNNING time and ticks sent since (R333). -/
  firstTick : Nat := 0
  syncCount : Nat := 0
  parts : List ObsPart := []
  good : Option ObsGood := none
  /-- The world gives the pan a row in the step, and the observation the row holds (R324). -/
  row : Bool := false
  given : Option ObsGood := none
  anyAdmitted : Bool := false
  lastAdmitTick : Nat := 0
  pendingAct : Option ActPend := none
  /-- The action last sent in any frame, with its observation's SEQ when it came from the policy (R326,
  R332). -/
  lastSent : Option (List Byte × Option Nat) := none
  /-- Frames latched since the attach, newest first (R325, R326). -/
  latched : List Latched := []
  lastFrame : Option WpFrame := none
  /-- A repeat that is due, and the send time in whose window it goes (R334). -/
  again : Option (WpFrame × Nat) := none
  /-- The job that owns the world has been torn down (R328). -/
  orphan : Bool := false
  holdTicks : Nat := 0
  silence : Nat := 0
  rampFrom : List Byte := []
  rampTick : Nat := 0
  txSeq : Nat := 0
  misses : Nat := 0
  consec : Nat := 0
  stale : Nat := 0
  late : Nat := 0
  dup : Nat := 0
  order : Nat := 0
  gap : Nat := 0
  verdict : Option Verdict := none
  /-- World index in its pan, for records (R207), and episode count. -/
  inPan : Nat := 0
  episode : Nat := 0
deriving DecidableEq, Repr

structure WptSt where
  worlds : AMap World := []
  /-- World schedules after clamping, by job * 65,536 + schedule. -/
  scheds : AMap WorldSched := []
  gates : AMap GateDecl := []
  /-- Frames sent, as device port and frame, newest last. -/
  sent : List (Nat × WpFrame) := []
  syncCount : Nat := 0
  pps : Nat := 0
deriving DecidableEq, Repr

/-! ## Host interface, jobs -/

/-- A command the steward has taken (R341, R342). -/
structure Cmd where
  ref : CmdRef
  op : Nat
  fence : Bool
  job : Nat
  jobgen : Nat
  params : List Byte
  client : Nat
  takenAt : Nat
  /-- Submission head after it was taken (R342). -/
  sqHead : Nat := 0
  /-- Its effect has begun and it waits for its end. -/
  begun : Bool := false
  seq : Nat := 0
  clamped : Bool := false
  /-- Stages reached (R401). -/
  stage : Nat := 0
deriving DecidableEq, Repr

/-- A completion entry (R342). -/
structure Completion where
  cid : Nat
  sqHead : Nat
  status : Nat
  phase : Bool
  clamped : Bool
  queue : Nat
  result0 : Nat
  result1 : Nat
  auditSeq : Nat
deriving DecidableEq, Repr

/-- A queue pair's pointers (R340). -/
structure Queue where
  sqTail : Nat := 0
  cqHead : Nat := 0
  phase : Bool := true
deriving DecidableEq, Repr

/-- States of a job (R348). -/
inductive JobRun where
  | none | created | loading | stepHold | running | restoring | faulted | destroyed
deriving DecidableEq, Repr

/-- A job (R348 to R350). -/
structure Job where
  st : JobRun := .none
  gen : Nat := 0
  client : Nat := 0
  seed : U64 := 0
  share : Bool := false
  rank : Nat := 0
  faultKind : Nat := 0
  faultUnit : Nat := 0
  quarAt : Nat := 0
  decl : Option JobDecl := none
  /-- What loads have placed for the job, with its pans, bricks and schedules (R361 CONFIG). -/
  content : Content := {}
  cutSlow : Nat := 0
  placeVer : Nat := 0
  placeCommits : Nat := 0
  placeRefused : Nat := 0
  rowsImb : Nat := 0
  destroyCmd : Option CmdRef := none
  stopCmd : Option CmdRef := none
deriving DecidableEq, Repr

structure HcxSt where
  queues : AMap Queue := []
  waiting : List Cmd := []
  /-- Completions that wait for room in their queue, oldest first. -/
  heldComps : List Completion := []
  /-- Completions written, as pair and entry, newest last. -/
  comps : List (Nat × Completion) := []
  /-- MSI-X signals, as host die and vector. -/
  msix : List (Nat × Nat) := []
  /-- Bytes the device wrote to host memory, as address and bytes. -/
  dma : List (Nat × List Byte) := []
  jobs : AMap Job := []
  /-- The pair after which the round robin goes on. -/
  turn : Nat := 63
  /-- BSDIGEST of the last whole load (R376, R390). -/
  bsDigest : List Byte := []
deriving DecidableEq, Repr

/-! ## Checkpoints -/

/-- A job's checkpoint state (R358 to R374). -/
structure Ckp where
  /-- The last taken cut, until it is whole; the last whole cut; durable ones, newest first. -/
  cut : Option Cut := none
  whole : Option Cut := none
  durable : List Cut := []
  /-- CHECKPOINT with MODE 0 has marked the next whole cut, for these commands. -/
  durableDue : Bool := false
  durableCmds : List CmdRef := []
  /-- A durable write in progress and the commands that wait for it. -/
  durableBusy : Option Cut := none
  durableRun : List CmdRef := []
  wholeCount : Nat := 0
  /-- Buddy cuts were enabled and no barrier has completed since. -/
  firstBarrier : Bool := false
  /-- The next cut streams every shard; the CONFIG shard has changed. -/
  fullNext : Bool := false
  configChanged : Bool := false
  buddyLost : Bool := false
  /-- Digest mismatches by shard. -/
  mismatches : AMap Nat := []
  /-- Extents copied into the cut buffer and not yet streamed: shard, extent. -/
  prot : List (Nat × Nat) := []
  /-- Pans whose part of the cut has still to be taken. -/
  partsDue : List Nat := []
  /-- An adoption replaces a device, and this member has voted (R371). -/
  adopting : Bool := false
  voted : Bool := false
deriving DecidableEq, Repr

/-- An adoption in progress on this device as a spare (R371). -/
structure Adoption where
  cmd : CmdRef
  job : Nat
  rank : Nat
  failed : Nat
  started : Nat
  /-- The job created for it, once FIND is answered. -/
  own : Option Nat := none
deriving DecidableEq, Repr

structure CkpSt where
  jobs : AMap Ckp := []
  adopting : Option Adoption := none
  /-- Bytes of buddy data received beyond the whole MiB counted (R375). -/
  rx : Nat := 0
  /-- Messages sent: kind (0 FIND, 1 ADOPT, 2 answer), destination (65,536 for broadcast), words, bytes. -/
  msgs : List (Nat × Nat × List Nat × List Byte) := []
deriving DecidableEq, Repr

/-! ## Audit, security -/

/-- An audit record (R386). -/
structure AuditRec where
  seq : Nat
  time : Nat
  origin : Nat
  kind : Nat
  origid : Nat
  job : Nat
  pan : Nat
  flags : Nat
  addr : Nat
  written : Nat
  old : Nat
  eff : Nat
  aux : Nat := 0
deriving DecidableEq, Repr

/-- A register change that waits for room in its staging queue (R388). -/
structure WaitWrite where
  origin : Origin
  die : Nat
  csr : Nat
  value : U64
  at_ : Nat
deriving DecidableEq, Repr

structure AuditSt where
  /-- The ring, oldest first. -/
  ring : List AuditRec := []
  /-- Records a staging queue has accepted and the sequencer has not, oldest first, by die. -/
  staging : List (Nat × AuditRec) := []
  waiting : List WaitWrite := []
  /-- Other changes that wait for room, as kind and number, with the TIME since which they wait (R388): 0 a command by its
  record's SEQ, 1 a transition of an epoch of a weight set, 2 of a pan, 3 of a job, 4 a doorbell of a pair. -/
  held : List ((Nat × Nat) × Nat) := []
  next : Nat := 0
deriving DecidableEq, Repr

/-- A key slot (R389). -/
structure KeySlot where
  /-- The slot's number, 0 to 255. -/
  slot : Nat := 0
  kind : Nat
  identity : List Byte
  key : List Byte
  job : Nat := 0
  device : Nat := 0
deriving DecidableEq, Repr

/-! ## Clocks, reset, lease -/

/-- A host die's part in the lease (R399). -/
inductive LeaseRun where
  | follower | claiming | keeper
deriving DecidableEq, Repr

structure ClkSt where
  /-- Roles of HD0 and HD1. -/
  role0 : LeaseRun := .follower
  role1 : LeaseRun := .follower
  /-- The last RENEW sent: host die, term, TIME (R398). -/
  sentRenew : Option (Nat × Nat × Nat) := none
  lastRenew0 : Nat := 0
  lastRenew1 : Nat := 0
  /-- When HD0 and HD1 last saw a RENEW or a claim of the other (R412). -/
  seen0 : Option Nat := none
  seen1 : Option Nat := none
  /-- The witness: TERM and HOLDER (16 or 17). -/
  witTerm : Nat := 0
  witHolder : Nat := 16
  /-- Offset of TIME still to be slewed, ns, and the slewing remainder in units of 10^-6 ns. -/
  slew : Int := 0
  slewRem : Nat := 0
  /-- READY has been reached, and the bring-up step the device stands in. -/
  ready : Bool := false
  bootStep : Nat := 0
  /-- 0 none, 1 waits for VIN48, 2 waits for the device number. -/
  bootWait : Nat := 0
  /-- What the steps after the wait for the device number meet. -/
  bootIn : BootIn := {}
  bootFail : Bool := false
  bootCode : Nat := 0
  fwDigest : List Byte := []
  /-- The static I3C address, sampled at step 1. -/
  i3cAddr : Nat := 0
  /-- Pins: READY and THERMTRIP_N as levels; PERST_N released by host die. -/
  pinReady : Bool := false
  pinTherm : Bool := true
  perst0 : Bool := false
  perst1 : Bool := false
  vin48 : Bool := false
  vsb33 : Bool := true
  /-- Dies without main power. -/
  off : List Nat := []
  hd0Lost : Bool := false
  /-- µs for which power has stayed below 95 % of the cap. -/
  lowUs : Nat := 0
  /-- TIME until which PPS pins are high. -/
  ppsUntil : Nat := 0
  pps : Nat := 0
  /-- Dies above WARN and not yet 3 °C below it (R410). -/
  hot : List Nat := []
deriving DecidableEq, Repr

/-! ## Observation and test -/

/-- An alarm entry (R423). -/
structure Alarm where
  kind : Nat
  job : Nat
  count : Nat
  first : Nat
  last : Nat
  key : Nat
deriving DecidableEq, Repr

/-- A self-test in progress on a die (R426). -/
structure Bist where
  cmd : CmdRef
  /-- Block code of the target, its unit index. -/
  block : Nat
  unit : Nat
  arrayOnly : Bool
  /-- The fence waits for the pan's next boundary or for the moves in flight (R425). -/
  waiting : Bool := false
  /-- The sets A and B of an owned brick and BG_VALID, as the loads that the scheduler repeats left them (R425). -/
  sets : Option (MxSet × MxSet × Bool) := none
deriving DecidableEq, Repr

structure ObsSt where
  alarms : AMap Alarm := []
  /-- Alarms by kind since reset: count and last TIME. -/
  totals : AMap (Nat × Nat) := []
  /-- Trace rings by die: T1 offset and bytes; records written to each since reset (R421). -/
  traceCfg : AMap (Nat × Nat) := []
  trace : AMap Nat := []
  /-- Counter values at the previous sample, by die * 64 + counter. -/
  prev : AMap Nat := []
  /-- Records dropped and not yet reported by a DROP record. -/
  dropped : AMap Nat := []
  bists : AMap Bist := []
  /-- Units disabled by a failed test until reset, as BLOCK values. -/
  disabled : List Nat := []
  /-- Requests held at a fenced unit, by die, in arrival order. -/
  held : AMap (List Nat) := []
  /-- Requesters answered BUSY_TEST, as die, requester and the TIME at which it reissues. -/
  reissue : List (Nat × Nat × Nat) := []
  /-- Reads and responses of tier data counted by die for TST_PERT1 (R429). -/
  pertReads : AMap Nat := []
  pertLate : AMap Nat := []
deriving DecidableEq, Repr

/-! ## The whole state -/

/-- The state of the device. -/
structure State where
  /-- Commands that wait, first in first out. -/
  pending : List Instr := []
  /-- Device TIME in ns (R396). -/
  time : Nat := 0
  /-- The model's own counter of free values drawn. -/
  free : Nat := 0
  /-- Register fields that differ from their reset values, keyed by CSR offset * 64 + lowest bit. -/
  csr : AMap Nat := []
  /-- WO1 fields that have taken their write (R382), by register-file key. -/
  wo1 : List Nat := []
  /-- Bytes of the tiers that differ from 0, keyed by space * 2^44 + canonical offset. -/
  mem : List Host.Cell := []
  /-- Bytes of local memories and tile stores that hold data which descends from a poisoned row (R43), keyed as
  `mem`. -/
  tainted : AMap Bool := []
  grains : AMap Grain := []
  bricks : AMap Brick := []
  arrays : AMap ArraySt := []
  sch : SchedSt := {}
  att : AttSt := {}
  /-- Positions n of the whisk lanes by local lane number, where not 0 (R163 to R166). -/
  lanes : AMap Nat := []
  epc : EpcSt := {}
  rings : AMap RingSt := []
  tier : TierSt := {}
  fab : FabSt := {}
  col : ColSt := {}
  wpt : WptSt := {}
  hcx : HcxSt := {}
  ckp : CkpSt := {}
  audit : AuditSt := {}
  keys : List KeySlot := []
  clk : ClkSt := {}
  obsv : ObsSt := {}
deriving DecidableEq, Repr

/-- The state right after a cold reset has begun: every register field at its reset value, nothing
placed, memory with nothing listed, bring-up not started. -/
def State.reset : State := {}

end Sys2Proof.Machine
end

