-- ==== Sys2Proof/Machine/Ops.lean ====
section
/-!
DEFINITION. The named operations on the state that every family uses: register fields and their event
counting, memory bytes, free values, time, MSI-X and alarms, the audit log, pans, jobs and grains.
-/

namespace Sys2Proof.Machine

/-- The outcome of a command. -/
abbrev Out := Host.Outcome State Fault Refusal

/-- Refuses a command that names a unit the device does not have. -/
def need (ok : Bool) (unit : String) (t : Out) : Out :=
  if ok then t else .refused (.noSuchUnit unit)

/-- An outcome, or the state as it is when what the row names does not stand in it: nothing happens then (log 12). -/
def whenThere (ok : Bool) (s : State) (t : Out) : Out :=
  if ok then t else .next s

/-! ## Units of the device (R1, R3) -/

def isCompute (die : Nat) : Bool := die < 16
def isHost (die : Nat) : Bool := 16 ≤ die && die < 18
def isFabric (die : Nat) : Bool := 18 ≤ die && die < 20
def isBrick (die brick : Nat) : Bool := die < 16 && brick < 128
def isGrain (die brick grain : Nat) : Bool := die < 16 && brick < 128 && grain < 512

def brickKey (die brick : Nat) : Nat := die * 128 + brick
def grainKey (die brick grain : Nat) : Nat := brickKey die brick * 512 + grain

/-- A position among 0 to `m` - 1: the `n`-th of those that are left free. -/
def freeAt (m : Nat) (used : List Nat) (n : Nat) : Nat :=
  let l := (List.range m).filter (fun x => !used.contains x)
  nth l (n % max 1 l.length) 0

/-- Physical positions of the first `n` logical bricks of a die, each one of its own (R26). -/
def physOf (die : Nat) : Nat → List Nat
  | 0 => []
  | n + 1 =>
    let l := physOf die n
    l ++ [freeAt 132 l (Config.phys die n)]

/-- Places of the first `n` compute dies in the 4 × 4 grid, row by row from the north-west (R1). -/
def gridOf : Nat → List Nat
  | 0 => []
  | n + 1 =>
    let l := gridOf n
    l ++ [freeAt 16 l (Config.gridPlace n)]

/-- The die that a compute die's port faces: ports 0 to 3 look north, east, south and west (R131). -/
def mortarPeer (die port : Nat) : Option Nat :=
  let l := gridOf 16
  let p := nth l die 0
  let inside (b : Bool) (q : Nat) : Option Nat :=
    if b then some (l.idxOf q)
    else if Config.edgePeer die port < 4 then some (16 + Config.edgePeer die port) else none
  match port with
  | 0 => inside (decide (4 ≤ p)) (p - 4)
  | 1 => inside (decide (p % 4 < 3)) (p + 1)
  | 2 => inside (decide (p < 12)) (p + 4)
  | _ => inside (decide (0 < p % 4)) (p - 1)

/-- A world-kernel descriptor as the first 32 bytes of a kernel area spell it (R47). -/
def readKernel (b : List Byte) : KernelDesc :=
  { magic := fieldAt b 0 4, version := fieldAt b 4 2, grains := fieldAt b 6 2, stepEntry := fieldAt b 8 4
    resetEntry := fieldAt b 12 4, stateBytes := fieldAt b 16 2, reserved := fieldAt b 18 2
    sharedBytes := fieldAt b 20 4, obsBytes := fieldAt b 24 4, actBytes := fieldAt b 28 4 }

/-! ## Register fields -/

/-- Where a register field stands: die, brick (0 outside brick windows), instance. -/
structure Loc where
  die : Nat
  unit : Nat := 0
  idx : Nat := 0
deriving DecidableEq, Repr

def lDie (die : Nat) : Loc := { die := die }
def lIdx (die i : Nat) : Loc := { die := die, idx := i }
def lBrick (die b : Nat) : Loc := { die := die, unit := b }
def lBrickI (die b i : Nat) : Loc := { die := die, unit := b, idx := i }
/-- Keeper-live registers have one home in the register file, under die 16 (R390, R399). -/
def lKeep : Loc := { die := 16 }
def lKeepI (i : Nat) : Loc := { die := 16, idx := i }

/-- The block code on a die (R4). -/
def Blk.code (b : Blk) (die : Nat) : Nat :=
  match b with
  | .die => 0x00 | .sch => 0x08 | .mxa => 0x10 | .att => 0x18 | .smp => 0x20 | .hbm => 0x28
  | .mov => 0x30 | .col => 0x38 | .exp => 0x40 | .epcC => 0x48 | .d2d => 0x60
  | .perf => if isHost die then 0x58 else 0x50
  | .tst => if isHost die then 0x60 else 0x58
  | .hcx => 0x08 | .pcie => 0x10 | .wpt => 0x18 | .lpd => 0x20 | .cfg => 0x28 | .audit => 0x30
  | .sec => 0x38 | .aon => 0x40 | .ckp => 0x48 | .epcH => 0x50 | .clk => 0x68
  | .fab => 0x08 | .route => 0x10 | .llp => 0x18 | .nvt => 0x20
  | .brick => 0x80

/-- The key of a field in the register file: its CSR offset (R3) times 64 plus its lowest bit. -/
def Fld.key (f : Fld) (a : Loc) : Nat :=
  ((a.die * 256 + f.blk.code a.die + a.unit) * 65536 + f.off + a.idx * f.stride) * 64 + f.lsb

/-- The value of a register field. -/
def State.getF (s : State) (f : Fld) (a : Loc) : Nat := mgetD s.csr (f.key a) f.reset

/-- The register file with a field set. -/
def csrSet (m : AMap Nat) (f : Fld) (a : Loc) (v : Nat) : AMap Nat :=
  mset m (f.key a) f.reset (v % 2 ^ f.w)

/-- Sets a register field. -/
def State.setF (s : State) (f : Fld) (a : Loc) (v : Nat) : State :=
  { s with csr := csrSet s.csr f a v }

/-- Sets a one-bit field. -/
def State.setB (s : State) (f : Fld) (a : Loc) (v : Bool) : State := s.setF f a (b2n v)

/-- A one-bit field. -/
def State.getB (s : State) (f : Fld) (a : Loc) : Bool := s.getF f a != 0

/-- A count field after `n` more increments: saturating or wrapping (R415). -/
def Fld.plus (f : Fld) (old n : Nat) : Nat :=
  if f.kind = 2 then (old + n) % 2 ^ f.w else min (old + n) (2 ^ f.w - 1)

/-- One brick counter takes `n` increments of event `evt` when it selects it (R414, R415). -/
def countBrick (m : AMap Nat) (a : Loc) (evt n i : Nat) : AMap Nat :=
  let c : Loc := { a with idx := i }
  if mgetD m (R.PERF_BSEL_EVENT.key c) 0 = evt then
    csrSet m R.PERF_BCNT_VALUE c (mgetD m (R.PERF_BCNT_VALUE.key c) 0 + n)
  else m

/-- One die counter takes `n` increments of an event, when it is enabled and selects the event and the
instance (R414 to R416). -/
def countDie (m : AMap Nat) (die event inst n i : Nat) : AMap Nat :=
  let c := lIdx die i
  let want := mgetD m (R.PERF_DSEL_INST.key c) 0xFFFF
  if mgetD m (R.PERF_DSEL_EVENT.key c) 0 = event ∧ mgetD m (R.PERF_DSEL_ENABLE.key c) 0 = 1
      ∧ (want = 0xFFFF ∨ want = inst) then
    csrSet m R.PERF_DCNT_VALUE c (mgetD m (R.PERF_DCNT_VALUE.key c) 0 + n)
  else m

/-- Event counters take the increments of a count field (R415). -/
def countEvent (m : AMap Nat) (f : Fld) (a : Loc) (n : Nat) : AMap Nat :=
  if f.evt = 0 then m
  else if f.blk = .brick then
    let m := forEach (List.range 8) m (fun m i => countBrick m a f.evt n i)
    forEach (List.range 64) m (fun m i => countDie m a.die ((0x80 + a.unit) * 256 + f.evt) 0xFFFF n i)
  else forEach (List.range 64) m
    (fun m i => countDie m a.die (f.blk.code a.die * 256 + f.evt) a.idx n i)

/-- Adds `n` to a count field. -/
def State.bump (s : State) (f : Fld) (a : Loc) (n : Nat := 1) : State :=
  if n = 0 then s
  else { s with csr := countEvent (csrSet s.csr f a (f.plus (s.getF f a) n)) f a n }

/-- Raises a field to `v` when it stands lower. -/
def State.peak (s : State) (f : Fld) (a : Loc) (v : Nat) : State :=
  if s.getF f a < v then s.setF f a v else s

/-! ## Memory of the tiers (R225): key = space * 2^44 + canonical offset -/

def spaceBase (space : Nat) : Nat := space * 2 ^ 44

/-- SRAM address of a byte of a brick (R226). -/
def sramAddr (die brick off : Nat) : Nat := die * 2 ^ 30 + brick * 2 ^ 23 + off

def State.rdMem (s : State) (space off n : Nat) : List Byte :=
  Memory.read s.mem (spaceBase space + off) n

/-- Writes bytes; what is written does not descend from a poisoned row unless the writer marks it so (R43). -/
def State.wrMem (s : State) (space off : Nat) (bs : List Byte) : State :=
  { s with
    mem := Memory.write s.mem (spaceBase space + off) bs
    tainted := mcut s.tainted (spaceBase space + off) bs.length }

def State.clrMem (s : State) (space off n : Nat) : State :=
  { s with
    mem := Memory.clear s.mem (spaceBase space + off) n
    tainted := mcut s.tainted (spaceBase space + off) n }

/-- Bytes of a brick's window, by brick-local offset. -/
def State.rdBrick (s : State) (die brick off n : Nat) : List Byte :=
  s.rdMem 0 (sramAddr die brick off) n

def State.wrBrick (s : State) (die brick off : Nat) (bs : List Byte) : State :=
  s.wrMem 0 (sramAddr die brick off) bs

/-- Some of `n` bytes of a brick's window descends from a poisoned row (R43). -/
def State.descends (s : State) (die brick off n : Nat) : Bool :=
  many s.tainted (spaceBase 0 + sramAddr die brick off) n

/-- Marks `n` bytes of a brick's window as descending from a poisoned row, when `b` holds. -/
def State.taint (s : State) (die brick off n : Nat) (b : Bool) : State :=
  if b then
    let k := spaceBase 0 + sramAddr die brick off
    { s with tainted := (List.range n).foldl (fun m i => mput m (k + i) true) s.tainted }
  else s

/-- Offset of grain `g`'s local memory in its brick (R226). -/
def localBase (g : Nat) : Nat := 0x200000 + g * 0x2000

/-! ## Free values and time -/

/-- Draws a free value of `w` bits. -/
def State.draw (s : State) (w : Nat) : Nat × State :=
  ((Config.freeWord s.free).toNat % 2 ^ w, { s with free := s.free + 1 })

/-- Draws `n` free bytes. -/
def State.drawBytes (s : State) : Nat → List Byte × State
  | 0 => ([], s)
  | n + 1 =>
    let (v, s) := s.draw 8
    let (l, s) := s.drawBytes n
    (BitVec.ofNat 8 v :: l, s)

/-- A timer's event does not happen before it is due: TIME moves forward to `t` when it is behind. -/
def State.until (s : State) (t : Nat) : State := { s with time := max s.time t }

/-! ## Keeper and lease (R398, R399) -/

/-- The term of a host die's view of the lease. -/
def State.term (s : State) (hd : Nat) : Nat := s.getF R.AON_LEASE_TERM (lDie (16 + hd))

/-- The keeper's host die, 0 or 1; a die that has not yet seen a higher term does not count. -/
def State.keeper (s : State) : Option Nat :=
  if s.clk.role0 = .keeper then
    (if s.clk.role1 = .keeper ∧ s.term 0 < s.term 1 then some 1 else some 0)
  else if s.clk.role1 = .keeper then some 1 else none

def State.isKeeper (s : State) (hd : Nat) : Bool := s.keeper == some hd

/-! ## MSI-X and alarms (R423, R424) -/

/-- A vector is signalled; while the host die's link is down it is pending (R357). -/
def State.msix (s : State) (hd vector : Nat) : State :=
  let l := lDie (16 + hd)
  if s.getB R.PCIE_LINK_UP l then { s with hcx := { s.hcx with msix := s.hcx.msix ++ [(hd, vector)] } }
  else s.setF R.PCIE_MSIX_PENDING l (s.getF R.PCIE_MSIX_PENDING l ||| 2 ^ (vector % 32))

namespace Kind
def grainFault := 0x01
def boundaryLate := 0x02
def tableCommitRefused := 0x03
def seqPoolWait := 0x04
def seqFull := 0x05
def kvExhausted := 0x06
def epochExhausted := 0x07
def epochRetracted := 0x08
def epochTableFull := 0x09
def epochBlocked := 0x0A
def freeRefused := 0x0B
def tierPoolWait := 0x0C
def flashSpareLow := 0x0D
def portQuarantined := 0x0E
def deviceDead := 0x0F
def cutLinkSlow := 0x10
def timeHoldover := 0x11
def deadlineMiss := 0x12
def worldPartner := 0x13
def guaranteeYield := 0x14
def buddyLost := 0x15
def straggler := 0x16
def auditFull := 0x17
def timeSlew := 0x18
def hostDieLost := 0x19
def powerCapUnmet := 0x1A
def bistFail := 0x1B
end Kind

/-- KEY: die or device in [63:48], the object the raising rule names in [47:0]. -/
def alarmKey (unit obj : Nat) : Nat := unit % 65536 * 2 ^ 48 + obj % 2 ^ 48

/-- Counts an alarm in the per-kind totals of SUMMARY section 7. -/
def ObsSt.total (o : ObsSt) (kind time : Nat) : ObsSt :=
  { o with totals := mput o.totals kind ((mgetD o.totals kind (0, 0)).1 + 1, time) }

/-- Raises an alarm (R423); `job` is FFh for none. -/
def State.alarm (s : State) (kind job key : Nat) : State :=
  let o := s.obsv.total kind s.time
  match o.alarms.find? (fun p => p.2.kind = kind ∧ p.2.job = job ∧ p.2.key = key) with
  | some (i, a) =>
    let a' := { a with count := min (a.count + 1) (2 ^ 32 - 1), last := s.time }
    { s with obsv := { o with alarms := mput o.alarms i a' } }
  | none =>
    match lowest 1024 (fun i => (mget o.alarms i).isNone) with
    | some i =>
      let a : Alarm := { kind, job, count := 1, first := s.time, last := s.time, key }
      let v := s.getF R.PERF_ALSTAT_VECTOR lKeep
      ({ s with obsv := { o with alarms := mput o.alarms i a } } |>.msix 0 v).msix 1 v
    | none => ({ s with obsv := o }).bump R.PERF_ALSTAT_OVERFLOW lKeep

/-- Level of ALERT_N: low while an alarm entry is open (R441). -/
def State.pinAlert (s : State) : Bool := s.obsv.alarms.isEmpty

/-! ## The audit log (R386 to R388) -/

/-- Whether the ring takes another record: it has room, or its oldest record is acknowledged. -/
def State.ringRoom (s : State) : Bool :=
  match s.audit.ring with
  | [] => true
  | r :: _ => s.audit.next - r.seq < s.getF R.AUDIT_SIZE_RECORDS (lDie 16)
      || r.seq < s.getF R.AUDIT_ACK_SEQ (lDie 16)

/-- Whether a change on `die` can have its record accepted (R387, R388, R402). -/
def State.auditRoom (s : State) (die : Nat) : Bool :=
  !s.clk.hd0Lost && (s.ringRoom && s.audit.staging.isEmpty ||
    decide ((s.audit.staging.filter (fun p => p.1 = die)).length < 1024))

/-- The sequencer stores a record in the ring, over an acknowledged one when the ring is full. -/
def AuditSt.store (a : AuditSt) (size : Nat) (r : AuditRec) : AuditSt :=
  let ring := match a.ring with
    | [] => []
    | o :: rest => if a.next - o.seq < size then o :: rest else rest
  { a with ring := ring ++ [{ r with seq := a.next }], next := a.next + 1 }

/-- AUDIT_FULL while the ring is full of records not acknowledged. -/
def State.auditAlarm (s : State) : State :=
  if s.ringRoom then s else s.alarm Kind.auditFull 0xFF (alarmKey 16 0)

/-- Appends a record of `die`: to the ring, or to the staging queue while the ring takes none. -/
def State.audit1 (s : State) (die : Nat) (r : AuditRec) : State :=
  if s.ringRoom && s.audit.staging.isEmpty then
    ({ s with audit := s.audit.store (s.getF R.AUDIT_SIZE_RECORDS (lDie 16)) r }).auditAlarm
  else ({ s with audit := { s.audit with staging := s.audit.staging ++ [(die, r)] } }).auditAlarm

/-- A change that makes a record of some dies waits while a staging queue is full: it is counted once, with the time it
waits (R388). -/
def State.whenRoom (s : State) (dies : List Nat) (key : Nat × Nat) (f : State → State) : State :=
  let since := s.audit.held.find? (fun h => h.1 = key)
  if dies.all s.auditRoom then
    match since with
    | none => f s
    | some h => f (({ s with audit := { s.audit with held := s.audit.held.erase h } }).bump R.AUDIT_WAIT_US (lDie 16)
        ((s.time - h.2) / 1000))
  else if since.isSome then s
  else ({ s with audit := { s.audit with held := s.audit.held ++ [(key, s.time)] } }).bump R.AUDIT_WAIT_EVENTS (lDie 16)

/-- The sequencer empties the staging queues while the ring takes records. -/
def drainStaging : List (Nat × AuditRec) → State → State
  | [], s => { s with audit := { s.audit with staging := [] } }
  | p :: rest, s =>
    if s.ringRoom then
      drainStaging rest { s with audit := s.audit.store (s.getF R.AUDIT_SIZE_RECORDS (lDie 16)) p.2 }
    else { s with audit := { s.audit with staging := p :: rest } }

/-- The SEQ that the next record appended will bear. -/
def State.nextSeq (s : State) : Nat := s.audit.next + s.audit.staging.length

/-- ORIGIN of a record. -/
def originCode : Origin → Nat
  | .internal => 0
  | .bar0 _ => 1
  | .queue _ => 1
  | .hostCore _ _ => 2
  | .fabric _ => 3
  | .testPort => 4
  | .selfTest => 5

/-- ORIGID of a record. -/
def originId : Origin → Nat
  | .bar0 _ => 0xFF
  | .queue p => p
  | .hostCore hd c => (16 + hd) * 32 + c
  | .fabric d => d
  | _ => 0

/-- The die whose staging queue takes an origin's records; `die` for the device's own changes. -/
def originDie (o : Origin) (die : Nat) : Nat :=
  match o with
  | .bar0 hd => 16 + hd
  | .queue p => 16 + p / 32
  | .hostCore hd _ => 16 + hd
  | .fabric _ => 18
  | .testPort => 16
  | _ => die

/-- A record with the common fields. -/
def State.mkRec (s : State) (kind : Nat) (o : Origin := .internal) (job pan : Nat := 0xFF)
    (addr written old eff aux : Nat := 0) (clamped : Bool := false) : AuditRec :=
  { seq := 0, time := s.time, origin := originCode o, kind := kind, origid := originId o, job, pan,
    flags := b2n clamped + 2 * b2n (!s.clk.ready), addr, written, old, eff, aux }

/-- The number that audit records and SUMMARY give a job's state (R348); open in the manual. -/
def JobRun.code (r : JobRun) : Nat :=
  Config.jobStateCode (match r with
    | .none => 0 | .created => 1 | .loading => 2 | .stepHold => 3 | .running => 4
    | .restoring => 5 | .faulted => 6 | .destroyed => 7)

/-- The number that audit records and SUMMARY give a pan's state (R347); open in the manual. -/
def PanRun.code (r : PanRun) : Nat :=
  Config.panStateCode (match r with
    | .free => 0 | .loading => 1 | .fenced => 2 | .running => 3 | .quiescing => 4 | .faulted => 5)

def EpochRun.code : EpochRun → Nat
  | .free => 0 | .draft => 1 | .provisional => 2 | .confirmed => 3 | .retracted => 4 | .retired => 5

/-! ## Pans, jobs, grains -/

def State.pan (s : State) (p : Nat) : Pan := mgetD s.sch.pans p {}
def State.setPan (s : State) (p : Nat) (v : Pan) : State :=
  { s with sch := { s.sch with pans := mput s.sch.pans p v } }
def State.modPan (s : State) (p : Nat) (f : Pan → Pan) : State := s.setPan p (f (s.pan p))

def State.job (s : State) (j : Nat) : Job := mgetD s.hcx.jobs j {}
def State.setJob (s : State) (j : Nat) (v : Job) : State :=
  { s with hcx := { s.hcx with jobs := mput s.hcx.jobs j v } }
def State.modJob (s : State) (j : Nat) (f : Job → Job) : State := s.setJob j (f (s.job j))

/-- Port worlds that run hold from the next send time (R328). -/
def State.holdWorlds (s : State) (p : World → Bool) : State :=
  { s with wpt := { s.wpt with worlds := s.wpt.worlds.map (fun x =>
      if p x.2 ∧ x.2.st = .running then (x.1, { x.2 with st := .holding, holdTicks := 0 }) else x) } }

/-- A job's state changes, and the change is audited (KIND 09h); in STEP_HOLD and RESTORING its worlds hold. -/
def State.jobTo (s : State) (j : Nat) (t : JobRun) : State :=
  let b := s.job j
  let s := if t = .stepHold ∨ t = .restoring then s.holdWorlds (fun w => decide (w.job = j)) else s
  if b.st = t then s
  else (s.audit1 16 (s.mkRec 0x09 (job := j) (addr := j) (written := b.gen) (old := b.st.code)
    (eff := t.code))).modJob j (fun b => { b with st := t })

/-- The requested operating point of a die comes into force while no pan on it is RUNNING (R408). -/
def State.settlePoint (s : State) (die : Nat) : State :=
  if s.sch.pans.any (fun p => p.2.st = .running ∧ p.2.cfg.bricks.any (fun b => b.1 = die)) then s
  else s.setF R.DIE_OP_EFFECTIVE (lDie die) (s.getF R.DIE_OP_OP (lDie die))

/-- A pan's state changes, and the change is audited (KIND 08h); its worlds hold unless it runs. -/
def State.panTo (s : State) (p : Nat) (t : PanRun) : State :=
  let b := s.pan p
  let s := if t = .running then s else s.holdWorlds (fun w => decide (w.pan = p) && decide (w.job = b.job))
  if b.st = t then s
  else
    let s := (s.audit1 16 (s.mkRec 0x08 (job := b.job) (pan := p) (addr := p) (written := b.gen)
      (old := b.st.code) (eff := t.code))).modPan p (fun b => { b with st := t })
    forEach ((List.range 16).filter (fun d => b.cfg.bricks.any (fun x => x.1 = d))) s State.settlePoint

def State.grain (s : State) (die brick g : Nat) : Grain := mgetD s.grains (grainKey die brick g) {}
def State.setGrain (s : State) (die brick g : Nat) (v : Grain) : State :=
  { s with grains := mput s.grains (grainKey die brick g) v }
def State.modGrain (s : State) (die brick g : Nat) (f : Grain → Grain) : State :=
  s.setGrain die brick g (f (s.grain die brick g))

def State.array (s : State) (die brick : Nat) : ArraySt := mgetD s.arrays (brickKey die brick) {}
def State.setArray (s : State) (die brick : Nat) (v : ArraySt) : State :=
  { s with arrays := mput s.arrays (brickKey die brick) v }

/-- The brick's owner: its pan while BRK_OWNER.OWNED is 1. -/
def State.owner (s : State) (die brick : Nat) : Option Nat :=
  if s.getB R.BRK_OWNER_OWNED (lBrick die brick) then
    some (s.getF R.BRK_OWNER_PAN (lBrick die brick)) else none

/-- The boundary master die of a pan: the lowest-numbered die that holds a brick of it (R119). -/
def Pan.master (p : Pan) : Nat := (p.cfg.bricks.map (·.1)).foldl min 15

/-- The dies that hold bricks of a pan, ascending. -/
def Pan.dies (p : Pan) : List Nat := (List.range 16).filter (fun d => p.cfg.bricks.any (fun b => b.1 = d))

/-- Per-pan registers are live on the boundary master of a pan that is not FREE (R133, R381). -/
def State.panLoc (s : State) (p : Nat) : Loc := lIdx (s.pan p).master p

/-- Adds to a per-pan count field, which a FREE pan does not have (R381). -/
def State.bumpPan (s : State) (f : Fld) (p : Nat) (n : Nat := 1) : State :=
  if (s.pan p).st = .free then s else s.bump f (s.panLoc p) n

/-- The lock of a block (R384): bit 16 × (die mod 4) + code ÷ 8 of CFG_LOCK register die ÷ 4. -/
def State.lockedBlk (s : State) (die code : Nat) : Bool :=
  bit (s.getF R.CFG_LOCK_LOCKS (lKeepI (die / 4))) (16 * (die % 4) + code / 8)

/-- A brick's counters and their selections return to reset when its owner changes (R416). -/
def State.wipeCounters (s : State) (die b : Nat) : State :=
  forEach (List.range 8) s (fun s i =>
    (s.setF R.PERF_BSEL_EVENT (lBrickI die b i) 0).setF R.PERF_BCNT_VALUE (lBrickI die b i) 0)

/-! ## Self-test (R425, R426) -/

/-- BLOCK of a unit, without ARRAY_ONLY. -/
def unitBlock (die code unit : Nat) : Nat := code + die * 256 + unit * 65536

/-- A unit is under self-test. -/
def State.testing (s : State) (die code unit : Nat) : Bool :=
  match mget s.obsv.bists die with
  | some b => !b.waiting && b.block == code && b.unit == unit
  | none => false

/-- A unit gives no service: it is under self-test, or DISABLED by a failed one. -/
def State.unitOut (s : State) (die code unit : Nat) : Bool :=
  s.testing die code unit || s.obsv.disabled.contains (unitBlock die code unit)

/-- A brick's array is under self-test. -/
def State.bistOn (s : State) (die brick : Nat) : Bool := s.testing die (0x80 + brick) 0

/-- The test of a die begins: its unit is fenced, a brick's array zeroed and in ELASTIC mode (R76). -/
def State.bistBegin (s : State) (die : Nat) (b : Bist) : State :=
  let l := lDie die
  let (us, s) := s.draw 32
  let s := ((s.setF R.TST_STATUS_BUSY l 1).setF R.TST_STATUS_TARGET l
    (unitBlock die b.block b.unit)).setF R.TST_STATUS_REMAIN_US l us
  let put (s : State) (b : Bist) : State := { s with obsv := { s.obsv with bists := mput s.obsv.bists die b } }
  if b.block < 0x80 then put s { b with waiting := false }
  else
    let k := b.block - 0x80
    let a := s.array die k
    let s := put s { b with waiting := false, sets := (s.owner die k).map (fun _ => (a.setA, a.setB, a.bgValid)) }
    (s.setArray die k { a with setA := {}, setB := {}, bgValid := false, acc := [], accPoison := [] }).setF
      R.MXA_MODE_EFFECTIVE (lBrick die k) 1

/-- A mover engine's test begins once no stub of it is left. -/
def State.bistMover (s : State) (die : Nat) : State :=
  match mget s.obsv.bists die with
  | some b =>
    if b.waiting ∧ b.block = 0x30 ∧ !s.tier.moves.any (fun m => m.2.die = die ∧ m.2.engine = b.unit) then
      s.bistBegin die b
    else s
  | none => s

/-- A test that waits for the boundary of its brick's pan begins when the brick leaves the pan. -/
def State.bistReleased (s : State) (die brick : Nat) : State :=
  match mget s.obsv.bists die with
  | some b => if b.waiting ∧ b.block = 0x80 + brick then s.bistBegin die b else s
  | none => s

/-- The test of an owned brick's array begins at its pan's boundary. -/
def State.bistBoundary (s : State) (p : Nat) : State :=
  forEach s.obsv.bists s (fun s (d : Nat × Bist) =>
    if d.2.waiting ∧ (s.pan p).cfg.bricks.contains (d.1, d.2.block - 0x80) then s.bistBegin d.1 d.2 else s)

end Sys2Proof.Machine
end

