-- ==== Sys2Proof/Machine/Cmds.lean ====
section
/-!
DEFINITION. Queues, doorbells, taking and completing host commands (R337 to R346).
-/

namespace Sys2Proof.Machine

/-! ## Status codes (R343) -/

namespace Status
def ok := 0x00
def invalid := 0x01
def noResource := 0x02
def stale := 0x03
def notKeeper := 0x04
def busyTest := 0x05
def refused := 0x06
def freeRefused := 0x07
def timeout := 0x08
def faulted := 0x09
end Status

/-! ## Queue pairs (R339, R340) -/

/-- Registers of a pair. -/
def pairLoc (pair : Nat) : Loc := lIdx (16 + pair / 32) (pair % 32)

def State.queueOf (s : State) (pair : Nat) : Queue := mgetD s.hcx.queues pair {}
def State.setQueue (s : State) (pair : Nat) (q : Queue) : State :=
  { s with hcx := { s.hcx with queues := mput s.hcx.queues pair q } }

/-- Entries of a pair's queues. -/
def State.qDepth (s : State) (pair : Nat) : Nat := 2 ^ s.getF R.HCX_QCFG_LOG2DEPTH (pairLoc pair)

def State.sqHead (s : State) (pair : Nat) : Nat := s.getF R.HCX_QSTAT_SQHEAD (pairLoc pair)

/-- An enabled pair whose submission queue holds an entry. -/
def State.pairReady (s : State) (pair : Nat) : Bool :=
  s.getB R.HCX_QCFG_ENABLE (pairLoc pair) && decide (s.sqHead pair ≠ (s.queueOf pair).sqTail)

/-- The pair the round robin turns to next (R341). -/
def State.nextPair (s : State) : Option Nat :=
  ((List.range 64).map (fun i => (s.hcx.turn + 1 + i) % 64)).find? s.pairReady

/-- An out-of-range doorbell value: ignored, counted, audited (KIND 0Ch). -/
def State.badDoorbell (s : State) (pair offset value cur : Nat) : State :=
  (s.audit1 (16 + pair / 32) (s.mkRec 0x0C (.bar0 (pair / 32)) (addr := offset) (written := value)
    (old := cur) (eff := cur))).bump R.HCX_QSTAT_BADDB (pairLoc pair)

/-! ## Completions (R340, R342) -/

/-- Writes AUX of the record with a sequence number, in the ring or still staged. -/
def State.setAux (s : State) (seq aux : Nat) : State :=
  { s with audit := { s.audit with
      ring := s.audit.ring.map (fun r => if r.seq = seq then { r with aux := aux } else r)
      staging := s.audit.staging.zipIdx.map (fun p =>
        if s.audit.next + p.2 = seq then (p.1.1, { p.1.2 with aux := aux }) else p.1) } }

def completionBytes (c : Completion) : List Byte :=
  toLe 2 c.cid ++ toLe 2 c.sqHead ++ toLe 1 c.status ++ toLe 1 (b2n c.phase + 2 * b2n c.clamped)
    ++ toLe 2 c.queue ++ toLe 8 c.result0 ++ toLe 8 c.result1 ++ toLe 4 c.auditSeq ++ toLe 4 0

/-- Bytes that the device writes to host memory. -/
def State.hostWrite (s : State) (addr : Nat) (b : List Byte) : State :=
  { s with hcx := { s.hcx with dma := s.hcx.dma ++ [(addr, b)] } }

/-- Writes a completion entry: one command fewer in flight, the pair's vector signalled. -/
def State.postNow (s : State) (c : Completion) : State :=
  let l := pairLoc c.queue
  let q := s.queueOf c.queue
  let c := { c with phase := q.phase }
  let t := s.getF R.HCX_QSTAT_CQTAIL l
  let s := s.hostWrite (s.getF R.HCX_QCQ_BASE l * 4096 + t * 32) (completionBytes c)
  let n := (t + 1) % s.qDepth c.queue
  let s := s.setF R.HCX_QSTAT_INFLIGHT l (s.getF R.HCX_QSTAT_INFLIGHT l - 1)
  let s := (s.setF R.HCX_QSTAT_CQTAIL l n).setQueue c.queue { q with phase := q.phase != (n == 0) }
  { s with hcx := { s.hcx with comps := s.hcx.comps ++ [(c.queue, c)] } }.msix (c.queue / 32)
    (s.getF R.HCX_QCFG_VECTOR l)

/-- One more entry would bring the tail onto the host's completion head. -/
def State.cqFull (s : State) (pair : Nat) : Bool :=
  decide ((s.getF R.HCX_QSTAT_CQTAIL (pairLoc pair) + 1) % s.qDepth pair = (s.queueOf pair).cqHead)

/-- Posts a completion, or holds it while its queue has no room or an earlier one is held. -/
def State.post (s : State) (c : Completion) : State :=
  if s.cqFull c.queue || s.hcx.heldComps.any (fun x => decide (x.queue = c.queue)) then
    { s with hcx := { s.hcx with heldComps := s.hcx.heldComps ++ [c] } }
  else s.postNow c

/-- Posts the held completions that find room. -/
def State.flushComps (s : State) : State :=
  let l := s.hcx.heldComps
  forEach l { s with hcx := { s.hcx with heldComps := [] } } State.post

/-- SUBMISSION_DOORBELL (R340). -/
def execSubmissionDoorbell (pair value : Nat) (s : State) : Out :=
  need (decide (pair < 64)) "queue pair" (.next (
    let q := s.queueOf pair
    if value < s.qDepth pair then s.setQueue pair { q with sqTail := value }
    else s.whenRoom [16 + pair / 32] (4, pair) (fun s => s.badDoorbell pair (pair % 32 * 16) value q.sqTail)))

/-- COMPLETION_DOORBELL (R340). -/
def execCompletionDoorbell (pair value : Nat) (s : State) : Out :=
  need (decide (pair < 64)) "queue pair" (.next (
    let q := s.queueOf pair
    if value < s.qDepth pair then (s.setQueue pair { q with cqHead := value }).flushComps
    else s.whenRoom [16 + pair / 32] (4, pair) (fun s => s.badDoorbell pair (pair % 32 * 16 + 8) value q.cqHead)))

/-- A command completes: its record's AUX, its entry. -/
def State.finish (s : State) (c : Cmd) (status r0 r1 : Nat) : State :=
  let s := s.setAux c.seq status
  let s := { s with hcx := { s.hcx with waiting := s.hcx.waiting.filter (fun x => x.seq ≠ c.seq) } }
  s.post { cid := c.ref.cid, sqHead := c.sqHead, status := status, phase := false, clamped := c.clamped
           queue := c.ref.pair, result0 := r0 % 2 ^ 64, result1 := r1 % 2 ^ 64, auditSeq := c.seq % 2 ^ 32 }

/-- A command that the steward has taken and that has not completed. -/
def State.cmdOf (s : State) (r : CmdRef) : Option Cmd := s.hcx.waiting.find? (fun c => c.ref = r)

/-- Completes the command that a reference names. -/
def State.finishRef (s : State) (r : CmdRef) (status r0 r1 : Nat) : State :=
  match s.cmdOf r with
  | some c => s.finish c status r0 r1
  | none => s

def State.setCmd (s : State) (c : Cmd) : State :=
  { s with hcx := { s.hcx with waiting := s.hcx.waiting.map (fun x => if x.seq = c.seq then c else x) } }

/-- The effect of a command has begun and goes on. -/
def State.beginCmd (s : State) (c : Cmd) : State := s.setCmd { c with begun := true }

/-- What a command's effect is on: a job (0), world (1), sequence (2) or weight set (3), by number (R341). -/
def Cmd.object (c : Cmd) : Option (Nat × Nat) :=
  match c.op with
  | 0x01 => if fieldAt c.params 16 1 = 0xFF then none else some (0, c.job)
  | 0x02 => some (3, fieldAt c.params 16 1)
  | 0x05 => some (0, c.job)
  | 0x06 => some (0, c.job)
  | 0x07 => some (0, c.job)
  | 0x09 => some (1, fieldAt c.params 0 2)
  | 0x0A => some (1, fieldAt c.params 0 2)
  | 0x0B => some (3, fieldAt c.params 0 1)
  | 0x0C => some (3, fieldAt c.params 0 1)
  | 0x0D => some (3, fieldAt c.params 0 1)
  | 0x0E => some (0, c.job)
  | 0x0F => some (0, c.job)
  | 0x11 => some (2, fieldAt c.params 0 2)
  | _ => none

/-- Whether a command taken earlier on the same object has not begun: effects apply in the order of taking (R341). -/
def State.outOfTurn (s : State) (c : Cmd) : Bool :=
  c.object.isSome && (s.hcx.waiting.takeWhile (fun e => e.seq != c.seq)).any (fun e => !e.begun && e.object == c.object)

/-- Dies whose staging queues take a command's records: HD0's, and its own; SUMMARY and LOG_READ make none. -/
def Cmd.auditDies (c : Cmd) : List Nat := if c.op = 0x12 ∨ c.op = 0x13 then [] else [16, 16 + c.ref.pair / 32]

/-- Runs the effect of a taken command of one opcode that has not begun, in its turn and with room for its records. -/
def State.onCmd (s : State) (r : CmdRef) (op : Nat) (f : Cmd → State → State) : State :=
  match s.cmdOf r with
  | some c => if c.op = op ∧ !c.begun ∧ !s.outOfTurn c then s.whenRoom c.auditDies (0, c.seq) (f c) else s
  | none => s

/-- Records the clamp of a command's field and marks the command CLAMPED (R344). -/
def State.clampCmd (s : State) (c : Cmd) (off written eff : Nat) : Cmd × State :=
  if written = eff then (c, s)
  else
    let c' := { c with clamped := true }
    (c', (s.audit1 (16 + c.ref.pair / 32) (s.mkRec 0x03 (.queue c.ref.pair) (job := c.job)
      (addr := c.op + off * 256) (written := written) (old := written) (eff := eff) (clamped := true))).setCmd c')

/-! ## Taking a command (R341, R344, R345) -/

/-- A command's field of flags, or of bits in which some are defined: its place in PARAMS, its bytes, and the bits
defined (R346, R384). -/
def definedBits (op : Nat) : Option (Nat × Nat × Nat) :=
  match op with
  | 0x01 => some (17, 1, 1)
  | 0x04 => some (8, 1, 1)
  | 0x15 => some (0, 4, 0x80001FFF)
  | _ => none

/-- Bits that no rule defines are clamped to 0, which is recorded (R344). -/
def State.clampBits (s : State) (c : Cmd) : State :=
  match definedBits c.op with
  | none => s
  | some (o, n, m) =>
    let w := fieldAt c.params o n
    let ps := c.params.take o ++ toLe n (w &&& m) ++ c.params.drop (o + n)
    (s.clampCmd { c with params := ps } (16 + o) w (w &&& m)).2

/-- Device-scoped commands (R345). -/
def deviceScoped (op : Nat) (params : List Byte) : Bool :=
  (op == 0x01 && fieldAt params 16 1 == 0xFF) || op == 0x03 || op == 0x10 || op == 0x14 || op == 0x15

/-- Commands that name a job in their JOB field. -/
def namesJob (op : Nat) (params : List Byte) : Bool :=
  !(deviceScoped op params || op == 0x04 || op == 0x12 || op == 0x13)

/-- Malformed structure (R344). -/
def malformed (e : List Byte) : Bool :=
  let op := fieldAt e 0 1
  op == 0 || decide (0x15 < op) || decide (1 < fieldAt e 1 1) || fieldAt e 5 3 != 0 || fieldAt e 12 4 != 0

/-- The status with which a taken command completes at once, when one does. -/
def State.takeStatus (s : State) (c : Cmd) (e : List Byte) (forwarded : Bool) : Option Nat :=
  let j := s.job c.job
  if !forwarded then some Status.notKeeper
  else if malformed e then some Status.invalid
  else if !s.clk.ready && !(c.op == 0x12 || c.op == 0x13 || c.op == 0x14) then some Status.refused
  else if deviceScoped c.op c.params && c.client != 0 then some Status.refused
  else if namesJob c.op c.params then
    if j.st = .none ∨ j.st = .destroyed ∨ j.gen ≠ c.jobgen ∨ j.client ≠ c.client then some Status.stale
    else if j.st = .faulted ∧ c.op ≠ 0x07 ∧ c.op ≠ 0x0F then some Status.faulted
    else none
  else none

/-- The command that an entry spells. -/
def State.readCmd64 (s : State) (pair head : Nat) (e : List Byte) : Cmd :=
  { ref := { pair := pair, cid := fieldAt e 2 2 }, op := fieldAt e 0 1, fence := bit (fieldAt e 1 1) 0
    job := fieldAt e 4 1, jobgen := fieldAt e 8 4, params := (e.drop 16).take 48
    client := s.getF R.HCX_QCFG_CLIENT (pairLoc pair), takenAt := s.time, sqHead := head
    seq := s.nextSeq }

/-- The steward takes the entry at the head of a pair. -/
def State.take (s : State) (pair : Nat) (e : List Byte) (forwarded : Bool) : State :=
  let l := pairLoc pair
  let head := (s.sqHead pair + 1) % s.qDepth pair
  let c := s.readCmd64 pair head e
  let s := s.audit1 (16 + pair / 32) (s.mkRec 0x04 (.queue pair)
    (job := if namesJob c.op c.params then c.job else 0xFF) (addr := c.op + c.ref.cid * 256))
  let s := (s.setF R.HCX_QSTAT_SQHEAD l head).setF R.HCX_QSTAT_INFLIGHT l (s.getF R.HCX_QSTAT_INFLIGHT l + 1)
  let s := s.bump R.HCX_STATUS_TAKEN (lDie (16 + pair / 32))
  let s := { s with hcx := { s.hcx with waiting := s.hcx.waiting ++ [c], turn := pair } }
  match s.takeStatus c e forwarded with
  | some st => s.finish c st 0 0
  | none => s.clampBits c

/-- The steward firmware runs from the end of step 4 of a bring-up (R404). -/
def State.stewardUp (s : State) : Bool := s.clk.ready || decide (4 < s.clk.bootStep)

/-- COMMAND_TAKE (R341): round robin; a FENCE command waits for the earlier ones of its queue; a full staging
queue holds the command. -/
def execCommandTake (pair : Nat) (entry : List Byte) (forwardable : Bool) (s : State) : Out :=
  need (decide (pair < 64)) "queue pair" (.next (
    let hd := pair / 32
    if s.nextPair ≠ some pair ∨ !s.auditRoom (16 + hd) ∨ !s.stewardUp then s
    else if bit (fieldAt entry 1 1) 0 ∧ s.getF R.HCX_QSTAT_INFLIGHT (pairLoc pair) ≠ 0 then
      { s with hcx := { s.hcx with turn := pair } }
    else s.take pair (fitTo 64 entry) (s.isKeeper hd || (forwardable && s.keeper.isSome))))

/-- COMMAND_TIMEOUT (R345). -/
def execCommandTimeout (cmd : CmdRef) (s : State) : Out :=
  .next (
    match s.cmdOf cmd with
    | some c =>
      if c.begun then s
      else (s.until (c.takenAt + s.getF R.HCX_CMDLIM_MS (lDie (16 + c.ref.pair / 32)) * 1000000)).finish c Status.timeout 0 0
    | none => s)

end Sys2Proof.Machine
end

