-- ==== Sys2Proof/Machine/Fp.lean ====
section
/-!
DEFINITION. Number formats: decoding and encoding of element codes (R85, R89, R99), exact dyadic values,
rounding (R90, R97, R98), and the F extension's operations on FP32 (R32).
-/

namespace Sys2Proof.Machine

/-- A decoded value: `fin neg m e` is (−1)^neg × m × 2^e. -/
inductive FV where
  | nan
  | inf (neg : Bool)
  | fin (neg : Bool) (m : Nat) (e : Int)
deriving DecidableEq, Repr

/-- A floating-point element format (R85). `nans` is 0 for IEEE infinities and NaNs, 1 for E4M3's, 2 for
formats without either; `kept` marks kept subnormals. -/
structure Fmt where
  eb : Nat
  mb : Nat
  bias : Nat
  nans : Nat
  kept : Bool
  canon : Nat
deriving DecidableEq, Repr

def fp32 : Fmt := ⟨8, 23, 127, 0, false, 0x7FC00000⟩
def bf16 : Fmt := ⟨8, 7, 127, 0, false, 0x7FC0⟩
def fp16 : Fmt := ⟨5, 10, 15, 0, false, 0x7E00⟩
def e5m2 : Fmt := ⟨5, 2, 15, 0, false, 0x7E⟩
def e4m3 : Fmt := ⟨4, 3, 7, 1, false, 0x7F⟩
def e3m2 : Fmt := ⟨3, 2, 3, 2, true, 0⟩
def e2m3 : Fmt := ⟨2, 3, 1, 2, true, 0⟩
def e2m1 : Fmt := ⟨2, 1, 1, 2, true, 0⟩

/-- Exception flags, at the bits of fflags (R38). -/
def fNX : Nat := 1
def fUF : Nat := 2
def fOF : Nat := 4
def fDZ : Nat := 8
def fNV : Nat := 16

/-- The flags at the bits of the sticky banks and statistics: NV 0, OF 1, UF 2, NX 3 (R101, R105). -/
def bankFlags (f : Nat) : Nat :=
  b2n (bit f 4) + 2 * b2n (bit f 2) + 4 * b2n (bit f 1) + 8 * b2n (bit f 0)

/-- The value of `m × 2^e` as an integer mantissa at exponent `e0 ≤ e`. -/
def alignTo (e0 : Int) (m : Nat) (e : Int) : Nat := m * 2 ^ (e - e0).toNat

/-- Decodes a code of a format; `sub` keeps subnormals whatever the format. The second part is true
when a nonzero code was flushed to zero (R89). -/
def Fmt.decode (f : Fmt) (sub : Bool) (code : Nat) : FV × Bool :=
  let neg := bit code (f.eb + f.mb)
  let ex := bits code (f.eb + f.mb - 1) f.mb
  let man := code % 2 ^ f.mb
  let top := 2 ^ f.eb - 1
  if f.nans = 0 ∧ ex = top then (if man = 0 then .inf neg else .nan, false)
  else if f.nans = 1 ∧ ex = top ∧ man = 2 ^ f.mb - 1 then (.nan, false)
  else if ex = 0 then
    if man = 0 then (.fin neg 0 0, false)
    else if f.kept || sub then (.fin neg man (1 - (f.bias : Int) - f.mb), false)
    else (.fin neg 0 0, true)
  else (.fin neg (2 ^ f.mb + man) ((ex : Int) - f.bias - f.mb), false)

/-- The largest finite value of a format, as mantissa and exponent. -/
def Fmt.maxFin (f : Fmt) : Nat × Int :=
  if f.nans = 0 then (2 ^ (f.mb + 1) - 1, (2 ^ f.eb - 2 : Nat) - (f.bias : Int) - f.mb)
  else if f.nans = 1 then (2 ^ (f.mb + 1) - 2, (2 ^ f.eb - 1 : Nat) - (f.bias : Int) - f.mb)
  else (2 ^ (f.mb + 1) - 1, (2 ^ f.eb - 1 : Nat) - (f.bias : Int) - f.mb)

/-- Code of the largest finite value, without its sign. -/
def Fmt.maxCode (f : Fmt) : Nat :=
  if f.nans = 0 then (2 ^ f.eb - 1) * 2 ^ f.mb - 1
  else if f.nans = 1 then 2 ^ (f.eb + f.mb) - 2
  else 2 ^ (f.eb + f.mb) - 1

/-- The sign bit of a format. -/
def Fmt.signBit (f : Fmt) (neg : Bool) : Nat := if neg then 2 ^ (f.eb + f.mb) else 0

/-! ## Rounding -/

/-- Rounding modes: the five of the F extension, and stochastic with 16 random bits (R98). -/
inductive RMode where
  | rne | rtz | rdn | rup | rmm
  | stoch (r : Nat)
deriving DecidableEq, Repr

/-- Whether a magnitude `n + rem / 2^k` is rounded up in magnitude. -/
def roundsUp (mode : RMode) (neg : Bool) (n rem k : Nat) : Bool :=
  match mode with
  | .rne => decide (2 ^ (k - 1) < rem) || (decide (rem = 2 ^ (k - 1)) && decide (n % 2 = 1))
  | .rtz => false
  | .rdn => neg && decide (rem ≠ 0)
  | .rup => !neg && decide (rem ≠ 0)
  | .rmm => decide (2 ^ (k - 1) ≤ rem)
  | .stoch r => decide (r < rem * 2 ^ 16 / 2 ^ k)

/-- Rounds `m × 2^e` to the unit 2^q: the count of units, and whether it is inexact. -/
def roundUnit (mode : RMode) (neg : Bool) (m : Nat) (e q : Int) : Nat × Bool :=
  if q ≤ e then (m * 2 ^ (e - q).toNat, false)
  else
    let k := (q - e).toNat
    let n := m / 2 ^ k
    let rem := m % 2 ^ k
    (if roundsUp mode neg n rem k then n + 1 else n, decide (rem ≠ 0))

/-- Exponent of the leading 1 of `m × 2^e`, for `m ≠ 0`. -/
def leadPos (m : Nat) (e : Int) : Int := (Nat.log2 m : Int) + e

/-- The unit in the last place of `m × 2^e` at `p` significant bits, not below 2^qmin. -/
def ulpExp (p : Nat) (qmin : Option Int) (m : Nat) (e : Int) : Int :=
  let q := leadPos m e - (p - 1 : Nat)
  match qmin with
  | some l => if q < l then l else q
  | none => q

/-- Rounds `m × 2^e`, `m ≠ 0`, to `p` significant bits: units, unit exponent, inexact. -/
def roundSig (mode : RMode) (p : Nat) (qmin : Option Int) (neg : Bool) (m : Nat) (e : Int) :
    Nat × Int × Bool :=
  let q := ulpExp p qmin m e
  let r := roundUnit mode neg m e q
  (r.1, q, r.2)

/-- Whether `m × 2^e ≤ n × 2^d`. -/
def magLe (m : Nat) (e : Int) (n : Nat) (d : Int) : Bool :=
  let z := min e d
  decide (alignTo z m e ≤ alignTo z n d)

/-- Encodes a nonzero magnitude `n × 2^q` that has at most `mb + 1` significant bits and is a normal or
kept subnormal of the format. -/
def Fmt.pack (f : Fmt) (n : Nat) (q : Int) : Nat :=
  if n = 0 then 0
  else
    let emin := 1 - (f.bias : Int) - f.mb
    let q' := if leadPos n q - f.mb < emin then emin else leadPos n q - f.mb
    let n' := if q' ≤ q then n * 2 ^ (q - q').toNat else n / 2 ^ (q' - q).toNat
    if n' < 2 ^ f.mb then n'
    else (q' - emin + 1).toNat * 2 ^ f.mb + (n' - 2 ^ f.mb)

/-- Rounds and encodes an exact value into a flushed format with unbounded-exponent rounding, as a merge
ends (R90) and as grains' BF16 and FP32 lanes do (R32): overflow gives infinity, underflow zero. -/
def Fmt.encodeFlush (f : Fmt) (mode : RMode) (neg : Bool) (m : Nat) (e : Int) : Nat × Nat :=
  if m = 0 then (f.signBit neg, 0)
  else
    let (n, q, ix) := roundSig mode (f.mb + 1) none neg m e
    let nx := if ix then fNX else 0
    let (xm, xe) := f.maxFin
    if !magLe n q xm xe then (f.signBit neg + (2 ^ f.eb - 1) * 2 ^ f.mb, fOF ||| fNX)
    else if n = 0 ∨ leadPos n q < 1 - (f.bias : Int) then (f.signBit neg, fUF ||| fNX)
    else (f.signBit neg + f.pack n q, nx)

/-! ## Exact values -/

def FV.neg : FV → FV
  | .nan => .nan
  | .inf s => .inf (!s)
  | .fin s m e => .fin (!s) m e

def FV.isZero : FV → Bool
  | .fin _ m _ => m == 0
  | _ => false

def FV.isNan : FV → Bool
  | .nan => true
  | _ => false

def FV.isInf : FV → Bool
  | .inf _ => true
  | _ => false

def FV.sign : FV → Bool
  | .nan => false
  | .inf s => s
  | .fin s _ _ => s

/-- The exact product; NaN for an infinity times zero. -/
def FV.mul : FV → FV → FV
  | .nan, _ => .nan
  | _, .nan => .nan
  | .inf s, .inf t => .inf (s != t)
  | .inf s, .fin t m _ => if m = 0 then .nan else .inf (s != t)
  | .fin s m _, .inf t => if m = 0 then .nan else .inf (s != t)
  | .fin s m e, .fin t n d => .fin (s != t) (m * n) (e + d)

/-- The signed mantissa of a finite value. -/
def signed (neg : Bool) (m : Nat) : Int := if neg then -(m : Int) else (m : Int)

/-- The exact sum; NaN for infinities of opposite sign. A zero sum of zeros is −0 only when both are;
an exact cancellation is −0 only when rounding down. -/
def FV.add (down : Bool) : FV → FV → FV
  | .nan, _ => .nan
  | _, .nan => .nan
  | .inf s, .inf t => if s = t then .inf s else .nan
  | .inf s, .fin _ _ _ => .inf s
  | .fin _ _ _, .inf t => .inf t
  | .fin s m e, .fin t n d =>
    if m = 0 ∧ n = 0 then .fin (if s = t then s else down) 0 0
    else
      let z := min e d
      let v := signed s (alignTo z m e) + signed t (alignTo z n d)
      if v = 0 then .fin down 0 0 else .fin (decide (v < 0)) v.natAbs z

/-- Order of two values that are not NaN; zeros of either sign are equal. -/
def FV.lt (a b : FV) : Bool :=
  match a, b with
  | .nan, _ => false
  | _, .nan => false
  | .inf s, .inf t => s && !t
  | .inf s, .fin _ _ _ => s
  | .fin _ _ _, .inf t => !t
  | .fin s m e, .fin t n d =>
    let z := min e d
    decide (signed s (alignTo z m e) < signed t (alignTo z n d))

def FV.eqv (a b : FV) : Bool := !a.isNan && !b.isNan && !a.lt b && !b.lt a

/-! ## FP32 of the F extension (R32): subnormals kept, canonical NaN -/

/-- The value of an FP32 code, subnormals kept. -/
def f32 (w : Word) : FV := (fp32.decode true w.toNat).1

/-- The value of an FP32 code, subnormals flushed. -/
def f32z (w : Word) : FV := (fp32.decode false w.toNat).1

/-- Whether a code is a signalling NaN. -/
def isSnan (w : Word) : Bool := (f32 w).isNan && !bit w.toNat 22

def nan32 : Word := 0x7FC00000

/-- Whether an overflow in this mode gives the largest finite value, as in the F extension. -/
def RMode.toMax (mode : RMode) (neg : Bool) : Bool :=
  match mode with
  | .rtz => true
  | .rdn => !neg
  | .rup => neg
  | _ => false

/-- Rounds and encodes an exact value as FP32 with subnormals; tininess is detected after rounding. -/
def packF32 (mode : RMode) : FV → Word × Nat
  | .nan => (nan32, 0)
  | .inf s => (BitVec.ofNat 32 (fp32.signBit s + 0x7F800000), 0)
  | .fin s m e =>
    if m = 0 then (BitVec.ofNat 32 (fp32.signBit s), 0)
    else
      let (n, q, ix) := roundSig mode 24 (some (-149)) s m e
      let (xm, xe) := fp32.maxFin
      if !magLe n q xm xe then
        (BitVec.ofNat 32 (fp32.signBit s + (if mode.toMax s then 0x7F7FFFFF else 0x7F800000)), fOF ||| fNX)
      else
        let (n1, q1, _) := roundSig mode 24 none s m e
        let tiny := decide (leadPos n1 q1 < -126)
        (BitVec.ofNat 32 (fp32.signBit s + fp32.pack n q),
          if ix then (if tiny then fUF ||| fNX else fNX) else 0)

/-- NV of an operation: a signalling operand, or a NaN made of operands that are not NaN. -/
def nvOf (ws : List Word) (r : FV) : Nat :=
  if ws.any isSnan || (r.isNan && ws.all (fun w => !(f32 w).isNan)) then fNV else 0

def f32Add (mode : RMode) (a b : Word) : Word × Nat :=
  let r := FV.add (mode == .rdn) (f32 a) (f32 b)
  let (w, fl) := packF32 mode r
  (w, fl ||| nvOf [a, b] r)

def f32Neg (a : Word) : Word := a ^^^ 0x80000000

def f32Sub (mode : RMode) (a b : Word) : Word × Nat :=
  let r := FV.add (mode == .rdn) (f32 a) (f32 b).neg
  let (w, fl) := packF32 mode r
  (w, fl ||| nvOf [a, b] r)

def f32Mul (mode : RMode) (a b : Word) : Word × Nat :=
  let r := (f32 a).mul (f32 b)
  let (w, fl) := packF32 mode r
  (w, fl ||| nvOf [a, b] r)

/-- Fused `a × b + c`, with signs of the product and addend chosen by the instruction. An infinity times
zero is invalid even when `c` is a NaN. -/
def f32Fma (mode : RMode) (negProd negAdd : Bool) (a b c : Word) : Word × Nat :=
  let p := (f32 a).mul (f32 b)
  let p := if negProd then p.neg else p
  let z := if negAdd then (f32 c).neg else f32 c
  let r := FV.add (mode == .rdn) p z
  let (w, fl) := packF32 mode r
  let bad := ((f32 a).mul (f32 b)).isNan && !(f32 a).isNan && !(f32 b).isNan
  (w, fl ||| nvOf [a, b, c] r ||| (if bad then fNV else 0))

/-- The quotient with enough bits and a sticky bit. -/
def divMag (m : Nat) (e : Int) (n : Nat) (d : Int) : Nat × Int :=
  let k := 30 + Nat.log2 n
  let q := m * 2 ^ k / n
  let r := m * 2 ^ k % n
  (2 * q + b2n (r ≠ 0), e - d - k - 1)

def f32Div (mode : RMode) (a b : Word) : Word × Nat :=
  match f32 a, f32 b with
  | .fin s m e, .fin t n d =>
    if n = 0 then
      if m = 0 then (nan32, fNV)
      else (BitVec.ofNat 32 (fp32.signBit (s != t) + 0x7F800000), fDZ)
    else
      let (q, x) := divMag m e n d
      packF32 mode (.fin (s != t) (if m = 0 then 0 else q) x)
  | .inf s, .fin t _ _ => (BitVec.ofNat 32 (fp32.signBit (s != t) + 0x7F800000), 0)
  | .fin s _ _, .inf t => (BitVec.ofNat 32 (fp32.signBit (s != t)), 0)
  | .inf _, .inf _ => (nan32, fNV)
  | _, _ => (nan32, if isSnan a || isSnan b then fNV else 0)

/-- The integer square root of `v`, built from bit `n - 1` down. -/
def isqrtFrom (v : Nat) : Nat → Nat → Nat
  | 0, r => r
  | n + 1, r => isqrtFrom v n (if (r + 2 ^ n) * (r + 2 ^ n) ≤ v then r + 2 ^ n else r)

def isqrt (v n : Nat) : Nat := isqrtFrom v n 0

/-- The square root of `m × 2^e` with enough bits and a sticky bit. -/
def sqrtMag (m : Nat) (e : Int) : Nat × Int :=
  let k : Nat := 64 + (if (e - 64) % 2 = 0 then 0 else 1)
  let v := m * 2 ^ k
  let r := isqrt v 48
  (2 * r + b2n (r * r ≠ v), (e - k) / 2 - 1)

def f32Sqrt (mode : RMode) (a : Word) : Word × Nat :=
  match f32 a with
  | .nan => (nan32, if isSnan a then fNV else 0)
  | .inf s => if s then (nan32, fNV) else (a, 0)
  | .fin s m e =>
    if m = 0 then (a, 0)
    else if s then (nan32, fNV)
    else
      let (r, x) := sqrtMag m e
      packF32 mode (.fin false r x)

/-- FMIN.S and FMAX.S: −0 lies below +0, a NaN yields to a number. -/
def f32MinMax (max : Bool) (a b : Word) : Word × Nat :=
  let fl := if isSnan a || isSnan b then fNV else 0
  let x := f32 a
  let y := f32 b
  if x.isNan && y.isNan then (nan32, fl)
  else if x.isNan then (b, fl)
  else if y.isNan then (a, fl)
  else
    let aLow := x.lt y || (x.eqv y && x.sign)
    (if aLow != max then a else b, fl)

def f32Eq (a b : Word) : Bool × Nat :=
  ((f32 a).eqv (f32 b), if isSnan a || isSnan b then fNV else 0)
def f32Lt (a b : Word) : Bool × Nat :=
  ((f32 a).lt (f32 b), if (f32 a).isNan || (f32 b).isNan then fNV else 0)
def f32Le (a b : Word) : Bool × Nat :=
  ((f32 a).lt (f32 b) || (f32 a).eqv (f32 b), if (f32 a).isNan || (f32 b).isNan then fNV else 0)

/-- FCVT.W.S and FCVT.WU.S: out of range and NaN give the nearer bound, NaN the highest, with NV. -/
def f32ToInt (mode : RMode) (sgnd : Bool) (a : Word) : Word × Nat :=
  let hi : Int := if sgnd then 2 ^ 31 - 1 else 2 ^ 32 - 1
  let lo : Int := if sgnd then -(2 ^ 31) else 0
  match f32 a with
  | .nan => (BitVec.ofInt 32 hi, fNV)
  | .inf s => (BitVec.ofInt 32 (if s then lo else hi), fNV)
  | .fin s m e =>
    let (n, ix) := roundUnit mode s m e 0
    let v := signed s n
    if v < lo then (BitVec.ofInt 32 lo, fNV)
    else if hi < v then (BitVec.ofInt 32 hi, fNV)
    else (BitVec.ofInt 32 v, if ix then fNX else 0)

def intToF32 (mode : RMode) (sgnd : Bool) (a : Word) : Word × Nat :=
  let v : Int := if sgnd then a.toInt else a.toNat
  packF32 mode (.fin (decide (v < 0)) v.natAbs 0)

/-- FCLASS.S. -/
def f32Class (a : Word) : Word :=
  match f32 a with
  | .nan => if isSnan a then 0x100 else 0x200
  | .inf s => if s then 0x001 else 0x080
  | .fin s m _ =>
    let sub := decide (bits a.toNat 30 23 = 0)
    if m = 0 then (if s then 0x008 else 0x010)
    else if sub then (if s then 0x004 else 0x020)
    else if s then 0x002 else 0x040

/-! ## Xsliver lanes (R32, R41): flushed FP32 and BF16 -/

/-- NaN-aware flushed encoding of a value into a format; overflow follows the rounding mode. -/
def Fmt.encodeLane (f : Fmt) (mode : RMode) : FV → Nat × Nat
  | .nan => (f.canon, 0)
  | .inf s => (f.signBit s + (2 ^ f.eb - 1) * 2 ^ f.mb, 0)
  | .fin s m e =>
    let (c, fl) := f.encodeFlush mode s m e
    if bit fl 2 && mode.toMax s then (f.signBit s + f.maxCode, fl) else (c, fl)

/-- One fused lane `a × b + c` with subnormal inputs and outputs flushed; UF for a flushed operand, NV for
an invalid operation. Quiet and signalling NaNs are not distinguished (R88). -/
def Fmt.fmaLane (f : Fmt) (mode : RMode) (a b c : Nat) : Nat × Nat :=
  let (x, fx) := f.decode false a
  let (y, fy) := f.decode false b
  let (z, fz) := f.decode false c
  let r := FV.add (mode == .rdn) (x.mul y) z
  let bad := r.isNan && !x.isNan && !y.isNan && !z.isNan || (x.mul y).isNan && !x.isNan && !y.isNan
  let (w, fl) := f.encodeLane mode r
  (w, fl ||| (if fx || fy || fz then fUF else 0) ||| (if bad then fNV else 0))

/-! ## Output encoding (R99) -/

/-- Element formats of outputs that are not MX: the five float formats and the two integer formats. -/
inductive OutFmt where
  | flt (f : Fmt)
  | int (w : Nat)
deriving DecidableEq, Repr

/-- What encoding one value gives: the code, its flags, and whether clipping or saturation changed it. -/
structure Enc where
  code : Nat
  flags : Nat
  clipped : Bool
deriving DecidableEq, Repr

/-- The two's complement code of an integer in `w` bits. -/
def intCode (w : Nat) (v : Int) : Nat := uInt w v

/-- Rounds an exact value once into an output format and encodes it (R97 step 3, R99). -/
def encodeOut (o : OutFmt) (clip : Bool) (mode : RMode) (v : FV) : Enc :=
  match o, v with
  | .flt f, .nan => ⟨f.canon, fNV, false⟩
  | .flt f, .inf s =>
    if clip then ⟨f.signBit s + f.maxCode, 0, true⟩
    else if f.nans = 1 then ⟨f.canon, fNV, false⟩
    else ⟨f.signBit s + (2 ^ f.eb - 1) * 2 ^ f.mb, 0, false⟩
  | .flt f, .fin s m e =>
    if m = 0 then ⟨f.signBit s, 0, false⟩
    else
      let (n, q, ix) := roundSig mode (f.mb + 1) none s m e
      let nx := if ix then fNX else 0
      let (xm, xe) := f.maxFin
      if !magLe n q xm xe then
        if clip then ⟨f.signBit s + f.maxCode, fOF ||| fNX, true⟩
        else if f.nans = 1 then ⟨f.canon, fNV ||| fOF ||| fNX, false⟩
        else ⟨f.signBit s + (2 ^ f.eb - 1) * 2 ^ f.mb, fOF ||| fNX, false⟩
      else if n = 0 ∨ leadPos n q < 1 - (f.bias : Int) then ⟨f.signBit s, fUF ||| fNX, false⟩
      else ⟨f.signBit s + f.pack n q, nx, false⟩
  | .int _, .nan => ⟨0, fNV, false⟩
  | .int w, .inf s =>
    ⟨intCode w (if s then -(2 ^ (w - 1) : Nat) else (2 ^ (w - 1) : Nat) - 1), 0, true⟩
  | .int w, .fin s m e =>
    let (n, ix) := roundUnit mode s m e 0
    let v := signed s n
    let lo : Int := -(2 ^ (w - 1) : Nat)
    let hi : Int := (2 ^ (w - 1) : Nat) - 1
    if v < lo then ⟨intCode w lo, fOF ||| fNX, true⟩
    else if hi < v then ⟨intCode w hi, fOF ||| fNX, true⟩
    else ⟨intCode w v, if ix then fNX else 0, false⟩

end Sys2Proof.Machine
end

