-- ==== Sys2Proof/Machine/Operands.lean ====
section
/-!
DEFINITION. Operand forms over memory: tier addresses in their views (R225 to R231), reads and writes of a
tier, and the memory-side operations on elements (R240).
-/

namespace Sys2Proof.Machine

/-! ## Addresses -/

/-- The XOR of the 4-bit groups of a number (R227), over its low `4 n` bits. -/
def fold4 : Nat → Nat → Nat
  | 0, _ => 0
  | n + 1, x => (x % 16) ^^^ fold4 n (x / 16)

/-- Stack, or interface, and offset of pool byte `p` of an interleaved view (R227, R229). -/
def deinterleave (p : Nat) : Nat × Nat :=
  let g := p / 256
  ((g % 16) ^^^ fold4 9 (g / 16), g / 16 * 256 + p % 256)

/-- The canonical SRAM offset (R226). -/
def sramHome (off : Nat) : Option Nat :=
  if off < 2 ^ 34 ∧ off % 2 ^ 23 < 0x600000 then some off else none

/-- The canonical HBM location stack × 2^36 + stack offset of an HBM offset (R227). -/
def State.hbmHome (s : State) (off : Nat) : Option Nat :=
  let di := bit off 43
  let (st, o) := if di then deinterleave (off % 2 ^ 40) else (bits off 39 36, off % 2 ^ 36)
  if off < 2 ^ 44 ∧ bits off 42 40 = 0 ∧ o < 48 * 2 ^ 30 ∧ (!di || decide (off % 2 ^ 40 < 768 * 2 ^ 30))
      ∧ bit (s.getF R.HBM_DIMAP_RANGES (lDie 0)) (o / 2 ^ 30) = di then
    some (st * 2 ^ 36 + o)
  else none

/-- Die and interface of LPDDR interface `i` of the device (R229). -/
def lpdLoc (i : Nat) : Loc := lIdx (16 + i / 8) (i % 8)

/-- Capacity of an LPDDR interface in bytes; 0 when it is not enabled. -/
def State.lpdBytes (s : State) (i : Nat) : Nat :=
  if s.getB R.LPD_CFG_PRESENT (lpdLoc i) then s.getF R.LPD_CFG_GIB (lpdLoc i) * 2 ^ 30 else 0

/-- The canonical LPDDR location interface × 2^36 + byte of an LPDDR offset (R229). -/
def State.lpdHome (s : State) (off : Nat) : Option Nat :=
  let di := bit off 43
  let (i, o) := if di then deinterleave (off % 2 ^ 40) else (bits off 39 36, off % 2 ^ 36)
  if off < 2 ^ 44 ∧ bits off 42 40 = 0 ∧ o < s.lpdBytes i ∧ (!di || s.getB R.LPD_VIEW_DI (lDie 16))
      ∧ bit s.tier.policy.lpdInterleaved (o / 2 ^ 30) = di then
    some (i * 2 ^ 36 + o)
  else none

/-- The home of a tier address that units other than the mover reach; none when it is unmapped (R230,
R231). -/
def State.home (s : State) (space off : Nat) : Option Nat :=
  match space with
  | 0 => sramHome off
  | 1 => s.hbmHome off
  | 2 => s.lpdHome off
  | _ => none

/-- The home of an address as the mover reaches it: flash too, by logical byte. -/
def State.moverHome (s : State) (space off : Nat) : Option Nat :=
  if space = 3 then (if off < 2 ^ 44 then some off else none) else s.home space off

/-- The memory key of a mapped byte. -/
def State.byteKey (s : State) (space off : Nat) : Option Nat :=
  (s.moverHome space off).map (fun h => spaceBase space + h)

/-- Whether every byte of a range is mapped for units other than the mover. -/
def State.mapped (s : State) (space off n : Nat) : Bool :=
  (List.range n).all (fun i => (s.home space (off + i)).isSome)

/-- `n` bytes of a tier; an unmapped byte reads as zero here, and callers test `mapped` first. -/
def State.rdTier (s : State) (space off n : Nat) : List Byte :=
  (List.range n).map (fun i =>
    match s.byteKey space (off + i) with
    | some k => Memory.byte s.mem k
    | none => 0)

/-- Writes bytes to a tier; unmapped bytes are discarded (R231). -/
def wrTierFrom (s : State) (space : Nat) : Nat → List Byte → AMap Byte → AMap Byte
  | _, [], m => m
  | off, b :: rest, m =>
    wrTierFrom s space (off + 1) rest
      (match s.byteKey space off with
       | some k => mset m k Memory.fill b
       | none => m)

def State.wrTier (s : State) (space off : Nat) (bs : List Byte) : State :=
  { s with
    mem := wrTierFrom s space off bs s.mem
    tainted := if space = 0 then mcut s.tainted off bs.length else s.tainted }

/-- Zeroes `n` bytes of a tier. -/
def State.zeroTier (s : State) (space off n : Nat) : State :=
  s.wrTier space off (List.replicate n 0)

/-- Narrow accesses of 32 bytes to `n` bytes of T1, counted on the stack that holds each (R239). -/
def State.narrow (s : State) (off n : Nat) : State :=
  forEach (List.range ((off + n - 1) / 32 + 1 - off / 32)) s (fun s i =>
    match s.hbmHome ((off / 32 + i) * 32) with
    | some h => s.bump R.HBM_OPS_NARROW (lDie (h / 2 ^ 36))
    | none => s)

/-! ## Tier requests (R251) -/

def State.setReqs (s : State) (m : AMap TierReq) : State := { s with tier := { s.tier with reqs := m } }

/-- A request enters a tier. -/
def State.request (s : State) (r : TierReq) : State :=
  { s with tier := { s.tier with reqs := mput s.tier.reqs s.tier.nextReq { r with issued := s.time }
                                 nextReq := s.tier.nextReq + 1 } }

/-- A write whose data has been taken waits for its acknowledgement (R119, R251). -/
def State.wrote (s : State) (die pan space off len : Nat) (dest : ReqFor) : State :=
  s.request { die, pan, space, offset := off, len, write := true, dest }

/-! ## Memory-side operations (R240) -/

/-- Bytes of an element. -/
def elemBytes : Elem → Nat
  | .fp32 => 4 | .bf16 => 2 | .int32 => 4 | .int64 => 8

def elemFmt : Elem → Option Fmt
  | .fp32 => some fp32
  | .bf16 => some bf16
  | _ => none

/-- ADD of two elements: one rounding to nearest even, subnormals flushed; integers wrap. -/
def elemAdd (e : Elem) (a b : Nat) : Nat :=
  match elemFmt e with
  | some f => (f.encodeLane .rne (FV.add false (f.decode false a).1 (f.decode false b).1)).1
  | none => (a + b) % 2 ^ (8 * elemBytes e)

/-- MIN or MAX of two elements: NaN gives the canonical NaN, +0 is greater than −0. -/
def elemMinMax (mx : Bool) (e : Elem) (a b : Nat) : Nat :=
  match elemFmt e with
  | some f =>
    let x := (f.decode false a).1
    let y := (f.decode false b).1
    if x.isNan || y.isNan then f.canon
    else
      let aLow := x.lt y || (x.eqv y && x.sign)
      (f.encodeLane .rne (if aLow != mx then x else y)).1
  | none =>
    let w := 8 * elemBytes e
    let aLow := decide (sInt w a < sInt w b)
    if aLow != mx then a else b

/-- One element after an operation. -/
def elemOp (op : MsOp) (e : Elem) (old data : Nat) : Nat :=
  match op with
  | .add => elemAdd e old data
  | .fetchAdd => (old + data) % 2 ^ (8 * elemBytes e)
  | .min => elemMinMax false e old data
  | .max => elemMinMax true e old data
  | .cas => data

/-- An operation on a run of elements; CAS compares and writes its 4 or 8 bytes as one. -/
def msRun (op : MsOp) (e : Elem) (old data cmp : List Byte) : List Byte :=
  match op with
  | .cas => if old = cmp then data else old
  | _ =>
    let n := elemBytes e
    (List.range (ceilDiv data.length n)).flatMap (fun i =>
      toLe n (elemOp op e (fieldAt old (i * n) n) (fieldAt data (i * n) n)))

/-- Which operations and element types the units perform, with natural alignment: one element, or a 32-byte
vector for ADD, MIN and MAX. -/
def msLegal (op : MsOp) (e : Elem) (off len : Nat) : Bool :=
  let one := len == elemBytes e && off % elemBytes e == 0
  let vec := len == 32 && off % 32 == 0
  match op with
  | .add => one || vec
  | .min | .max => (one || vec) && e != .bf16
  | .fetchAdd => one && (e == .int32 || e == .int64)
  | .cas => (len == 4 || len == 8) && off % len == 0

end Sys2Proof.Machine
end

