-- ==== Sys2Proof/Machine/Fabric.lean ====
section
/-!
DEFINITION. The global fabric's ports, links, routing and outstanding requests (R262 to R272, R276 to R282).
-/

namespace Sys2Proof.Machine

/-! ## Packets (R265, R266) -/

def packetFlags (p : Packet) : Nat := p.vc + 8 * b2n p.bcast + 16 * b2n p.poison + 32 * b2n p.rep

/-- The 32 header bytes. -/
def packetHeader (p : Packet) : List Byte :=
  toLe 8 (p.device * 2 ^ 48 + p.space * 2 ^ 44 + p.offset) ++ toLe 2 p.src ++ toLe 1 p.type ++ toLe 1 (packetFlags p)
    ++ toLe 2 p.len ++ toLe 1 p.job ++ toLe 1 p.op ++ toLe 4 (p.tagIdx + p.tagGen * 2 ^ 14) ++ toLe 4 p.jobgen
    ++ toLe 3 p.seq ++ toLe 1 p.hops ++ toLe 2 p.ord ++ toLe 2 p.boot

def packetBytes (p : Packet) : List Byte :=
  let b := packetHeader p ++ p.payload
  b ++ toLe 4 (crc32 b).toNat

/-- Whether the last four bytes of a frame are the CRC of the others. -/
def frameCrcOk (l : List Byte) : Bool :=
  let n := l.length - 4
  decide (36 ≤ l.length) && decide ((crc32 (l.take n)).toNat = fieldAt l n 4)

/-- The packet a frame spells. -/
def readPacket (l : List Byte) : Packet :=
  let f := fieldAt l 11 1
  let t := fieldAt l 16 4
  { device := fieldAt l 6 2, space := fieldAt l 5 1 / 16, offset := fieldAt l 0 6 % 2 ^ 44, src := fieldAt l 8 2
    type := fieldAt l 10 1, vc := f % 8, bcast := bit f 3, poison := bit f 4, rep := bit f 5
    len := fieldAt l 12 2, job := fieldAt l 14 1, op := fieldAt l 15 1, tagIdx := t % 2 ^ 14, tagGen := t / 2 ^ 14
    jobgen := fieldAt l 20 4, seq := fieldAt l 24 3, hops := fieldAt l 27 1, ord := fieldAt l 28 2
    boot := fieldAt l 30 2, payload := (l.drop 32).take (l.length - 36) }

/-- The VCs on which a type may travel; none for an unknown type. Responses travel on their request's VC. -/
def typeVcs (t : Nat) : List Nat :=
  match t with
  | 0x01 | 0x02 => [0]
  | 0x10 | 0x11 => [1]
  | 0x20 => [2, 3, 4, 5]
  | 0x21 => [2, 3, 4, 5]
  | 0x22 => [2, 3]
  | 0x23 | 0x24 | 0x2E | 0x2F => [2]
  | 0x30 => [3]
  | 0x40 => [4]
  | 0x60 => [6]
  | 0x70 | 0x71 | 0x72 => [7]
  | _ => []

/-- The violation or refusal a frame earns by its form, if any (R280). -/
def packetWrong (p : Packet) (credit : Bool) : Option Nat :=
  if (typeVcs p.type).isEmpty then some 3
  else if 2048 < p.len ∨ (p.vc = 7 ∧ 256 < p.len) ∨ p.payload.length ≠ (if p.type = 0x10 then 0 else p.len) then
    some 4
  else if !(typeVcs p.type).contains p.vc then some 5
  else if p.bcast ∧ !((p.type = 0x20 ∧ 3 ≤ p.vc) ∨ p.type = 0x70) then some 7
  else if !credit then some 8
  else none

/-- Receive-buffer credits that a frame takes, in 64-byte units (R267). -/
def packetUnits (p : Packet) : Nat := ceilDiv (36 + p.payload.length) 64

/-! ## Ports (R262 to R264) -/

/-- Register location of a fabric port 0 to 31. -/
def fabLoc (port : Nat) : Loc := lIdx (18 + port / 16) (port % 16)

namespace PortRun
def down := 0
def training := 1
def active := 2
def retrain := 3
def quarantine := 4
def disabled := 5
end PortRun

def State.port (s : State) (p : Nat) : FPort := mgetD s.fab.ports p {}
def State.setPort (s : State) (p : Nat) (v : FPort) : State :=
  { s with fab := { s.fab with ports := mput s.fab.ports p v } }
def State.portState (s : State) (p : Nat) : Nat := s.getF R.FAB_PSTAT_STATE (fabLoc p)
def State.portTo (s : State) (p st : Nat) : State := s.setF R.FAB_PSTAT_STATE (fabLoc p) st
def State.linkUp (s : State) (p : Nat) : Bool := decide (s.portState p = PortRun.active)

/-- The bytes of a frame on the wire: header, payload and CRC-32 (R265, R445). -/
def Sent.frame (x : Sent) : List Byte := packetBytes x.pkt

/-- Puts a frame or control packet on a port. -/
def State.out (s : State) (port : Option Nat) (p : Packet) : State :=
  { s with fab := { s.fab with outbox := s.fab.outbox ++ [{ port := port, pkt := p }] } }

/-- The device's number (R405). -/
def State.device (s : State) : Nat := s.getF R.FAB_ID_DEVICE (lDie 18)

/-- Low half of the boot generation, as packets carry it. -/
def State.bootLow (s : State) : Nat := s.getF R.AON_BOOTCNT_BOOT (lDie 16) % 2 ^ 16

/-- An ACK or NAK on a link: it carries no SEQ of its own. -/
def State.control (s : State) (port type reason seq tagIdx tagGen : Nat) : State :=
  s.out (some port) { device := s.getF R.FAB_PSTAT_PEER (fabLoc port), src := s.device, type := type, offset := seq
                      op := reason, tagIdx := tagIdx, tagGen := tagGen, boot := s.bootLow }

/-- Acknowledges every frame accepted so far. -/
def State.sendAck (s : State) (port : Nat) : State :=
  let f := s.port port
  (s.control port 1 0 ((f.rxNext + 2 ^ 24 - 1) % 2 ^ 24) 0 0).setPort port { f with unacked := 0 }

/-! ## Routing (R276 to R278) -/

/-- The valid alternatives of a route entry, in order. -/
def routeAlts (e : BitVec 32) : List Nat :=
  ((List.range 4).filter (fun i => bit e.toNat (8 * i + 5))).map (fun i => bits e.toNat (8 * i + 4) (8 * i))

/-- Place of a route or tree entry in a fabric die's committed or shadow copy. -/
def routeKey (fd copy : Nat) (tree : Bool) (dest : Nat) : Nat :=
  fd * 2 ^ 18 + copy * 2 ^ 17 + b2n tree * 2 ^ 16 + dest

/-- The committed route entry of a destination, or tree entry, on a fabric die. -/
def State.route (s : State) (fd dest : Nat) (tree : Bool) : BitVec 32 :=
  mgetD s.fab.routes (routeKey fd (s.getF R.ROUTE_SEL_ACTIVE (lDie fd)) tree dest) 0

/-- Child ports of a broadcast tree. -/
def State.children (s : State) (fd tree : Nat) : List Nat :=
  (List.range 32).filter (fun p => bit (s.route fd tree true).toNat p)

/-- Free credit of a port's VC: the partner's 64 KiB buffer less the frames not acknowledged. -/
def State.credit (s : State) (port vc : Nat) : Nat :=
  1024 - ((s.port port).tx.filter (fun f => f.2.vc = vc)).foldl (fun n f => n + packetUnits f.2) 0

/-- The ACTIVE alternative with the most free credit, the lower port on a tie. -/
def State.bestPort (s : State) (fd dest vc : Nat) : Option Nat :=
  ((routeAlts (s.route fd dest false)).filter s.linkUp).foldl (fun (m : Option Nat) p =>
    match m with
    | none => some p
    | some q => if s.credit q vc < s.credit p vc ∨ (s.credit q vc = s.credit p vc ∧ p < q) then some p else some q)
    none

/-- Sends a frame on a port: numbered, kept for replay. -/
def State.sendOn (s : State) (port : Nat) (p : Packet) : State :=
  let f := s.port port
  let p := { p with seq := f.txNext }
  let since := if f.tx.isEmpty then s.time else f.since
  (s.setPort port { f with txNext := (f.txNext + 1) % 2 ^ 24, tx := f.tx ++ [(f.txNext, p)], since := since }).out
    (some port) p

/-- The sender of a port stops: 2^23 frames are not acknowledged, or the 4 MiB replay buffer is full (R269). -/
def State.replayFull (s : State) (port : Nat) (p : Packet) : Bool :=
  let l := (s.port port).tx
  decide (2 ^ 23 ≤ l.length) || decide (4194304 < sumBy ((0, p) :: l) (fun f => 36 + f.2.payload.length))

/-- Sends on a port, or holds the packet until the partner's buffer and the replay buffer have room. -/
def State.offer (s : State) (port : Nat) (p : Packet) : State :=
  if s.credit port p.vc < packetUnits p ∨ s.replayFull port p then
    { s with fab := { s.fab with noCredit := s.fab.noCredit ++ [(port, p)] } }
  else s.sendOn port p

/-- A packet without an ACTIVE alternative: a relay answers its source with NAK UNREACHABLE when it can reach it;
at the source the request waits for R272. -/
def State.unreachable (s : State) (fd : Nat) (p : Packet) : State :=
  let s := s.out none p
  if p.src = s.device then s
  else
    let n : Packet := { device := p.src, src := s.device, type := 2, op := 0xA, tagIdx := p.tagIdx, tagGen := p.tagGen
                        boot := s.bootLow }
    s.out (s.bestPort fd p.src 0) n

/-- Routes a packet for another device. -/
def State.transmit (s : State) (fd : Nat) (p : Packet) : State :=
  match s.bestPort fd p.device p.vc with
  | some port => s.offer port p
  | none => s.unreachable fd p

/-- The packets that wait for credit are offered again. -/
def State.flushCredit (s : State) : State :=
  let l := s.fab.noCredit
  forEach l { s with fab := { s.fab with noCredit := [] } } (fun s (x : Nat × Packet) =>
    if s.linkUp x.1 then s.offer x.1 x.2 else s.transmit (18 + x.1 / 16) x.2)

/-! ## Port states (R264) -/

/-- A port begins training. -/
def State.trainPort (s : State) (port : Nat) : State :=
  let s := s.setPort port { s.port port with violAt := [], since := s.time }
  (s.portTo port PortRun.training).setF R.FAB_PVIOL_COUNT (fabLoc port) 0

/-- A port is disabled: its frames go back into routing. -/
def State.disablePort (s : State) (port : Nat) : State :=
  let f := s.port port
  let s := (s.setPort port { f with tx := [], replays := 0 }).portTo port PortRun.disabled
  let s := s.setF R.FAB_PSTAT_LANES (fabLoc port) 0
  (forEach f.tx s (fun s (x : Nat × Packet) => s.transmit (18 + port / 16) x.2)).flushCredit

/-- A port leaves ACTIVE for retraining. -/
def State.retrainPort (s : State) (port : Nat) : State :=
  if !s.linkUp port then s
  else
    let s := s.setPort port { s.port port with replays := 0, since := s.time }
    (s.portTo port PortRun.retrain).bump R.FAB_PLINK_RETRAINS (fabLoc port)

/-- A quarantined port without frames in flight trains again. -/
def State.leaveQuarantine (s : State) (port : Nat) : State :=
  if s.portState port = PortRun.quarantine ∧ (s.port port).tx.isEmpty then s.trainPort port else s

/-- The port's violations have reached the threshold. -/
def State.quarantinePort (s : State) (port : Nat) : State :=
  let f := s.port port
  let q := f.quarAt.filter (fun t => s.time < t + 1000000000) ++ [s.time]
  let s := (s.setPort port { f with quarAt := q }).portTo port PortRun.quarantine
  let s := (s.bump R.FAB_PVIOL_QUARS (fabLoc port)).alarm Kind.portQuarantined 0xFF (alarmKey s.device port)
  if 3 ≤ q.length then s.disablePort port else s.leaveQuarantine port

/-- A violation by the partner of a port is counted (R280). -/
def State.violation (s : State) (port reason : Nat) : State :=
  let a := fabLoc port
  let f := s.port port
  let w := s.getF R.FAB_QUAR_WINDOW_MS (lDie a.die) * 1000000
  let v := f.violAt.filter (fun t => s.time < t + w) ++ [s.time]
  let s := (s.setPort port { f with violAt := v }).setF R.FAB_PVIOL_COUNT a (min v.length 65535)
  let s := (s.bump R.FAB_PVIOL_TOTAL a).setF R.FAB_PVIOL_LAST a reason
  if s.linkUp port ∧ s.getF R.FAB_QUAR_THRESH (lDie a.die) ≤ v.length then s.quarantinePort port else s

/-- FAB_PCTL.ENABLE written 1. A port under self-test, or that failed one, stays as it is (R426). -/
def State.enablePort (s : State) (port : Nat) : State :=
  if s.unitOut (18 + port / 16) 0x08 (port % 16) then s
  else if s.portState port = PortRun.down then (s.setPort port { s.port port with txNext := 0, rxNext := 0 }).trainPort port
  else if s.portState port = PortRun.disabled then s.portTo port PortRun.down
  else s

/-- Median of the measured round trips: the mean of the two middle ones of an even number. -/
def median (l : List Nat) : Nat :=
  let m := sortBy (fun a b => decide (a ≤ b)) l
  let n := m.length
  if n % 2 = 1 then nth m (n / 2) 0 else (nth m (n / 2 - 1) 0 + nth m (n / 2) 0) / 2

def linkClass (rtt : Nat) : Nat := if rtt < 200 then 0 else if rtt < 600 then 1 else if rtt < 2000 then 2 else 3

/-- Lane selection: data lanes in use, and whether the spare is one of them. -/
def selectLanes (good : List Bool) (spare : Bool) : Nat × Bool :=
  let g := ((good.take 8).filter id).length
  if g = 8 then (8, false)
  else if g = 7 ∧ spare then (8, true)
  else if 4 ≤ g then (4, false)
  else if g = 3 ∧ spare then (4, true)
  else (0, false)

/-- Replays the frames not acknowledged from position `i` of the buffer. -/
def State.replayFrom (s : State) (port i : Nat) : State :=
  let l := (s.port port).tx.drop i
  let s := forEach l s (fun s (f : Nat × Packet) => s.out (some port) f.2)
  let s := (s.bump R.FAB_PLINK_REPLAYS (fabLoc port) l.length).setPort port { s.port port with since := s.time }
  if i ≠ 0 ∨ l.isEmpty then s
  else
    let f := s.port port
    let s := s.setPort port { f with replays := f.replays + 1 }
    if f.replays + 1 < 8 then s
    else if s.portState port = PortRun.quarantine then
      let s := s.setPort port { s.port port with tx := [], replays := 0 }
      (forEach f.tx s (fun s (x : Nat × Packet) => s.transmit (18 + port / 16) x.2)).leaveQuarantine port
    else s.retrainPort port

/-- Training ends. -/
def State.portTrained (s : State) (port : Nat) (t : PortTraining) : State :=
  let a := fabLoc port
  let (n, sp) := selectLanes t.goodLanes t.spareGood
  let was := s.portState port
  if was ≠ PortRun.training ∧ was ≠ PortRun.retrain then s
  else if n = 0 then s.disablePort port
  else
    let m := median t.rtts
    let s := ((s.setF R.FAB_PSTAT_LANES a n).setB R.FAB_PSTAT_SPAREUSED a sp).setF R.FAB_PSTAT_LCLASS a (linkClass m)
    let s := ((s.setF R.FAB_PSTAT_PEER a t.peer).setF R.FAB_PSTAT_RTT_NS a (min m 65535)).setF R.FAB_PSTAT_PEERPORT a
      t.peerPort
    let s := s.portTo port PortRun.active
    if was = PortRun.retrain then
      let l := (s.port port).tx
      let s := forEach l s (fun s (f : Nat × Packet) => s.out (some port) f.2)
      (s.bump R.FAB_PLINK_REPLAYS a l.length).flushCredit
    else s.flushCredit

/-- PORT_TRAINED (R263, R264). -/
def execPortTrained (port : Nat) (training : PortTraining) (s : State) : Out :=
  need (decide (port < 32)) "fabric port" (.next (s.portTrained port training))

/-- PORT_RETRAIN (R264). -/
def execPortRetrain (port : Nat) (s : State) : Out :=
  need (decide (port < 32)) "fabric port" (.next (s.retrainPort port))

/-- RETRAIN_TIMEOUT (R264): 1 ms after the port left ACTIVE. -/
def execRetrainTimeout (port : Nat) (s : State) : Out :=
  need (decide (port < 32)) "fabric port" (.next (
    if s.portState port = PortRun.retrain then (s.until ((s.port port).since + 1000000)).disablePort port else s))

/-! ## Links (R269) -/

/-- Frames acknowledged up to a SEQ leave the buffer. -/
def State.ackTo (s : State) (port seq : Nat) : State :=
  let f := s.port port
  let keep := f.tx.filter (fun x => (seq + 2 ^ 24 - x.1) % 2 ^ 24 ≥ 2 ^ 23)
  if keep.length = f.tx.length then s
  else ((s.setPort port { f with tx := keep, replays := 0, since := s.time }).flushCredit).leaveQuarantine port

/-- ACK (R269). Frames that express frames have preempted since the last ACK are counted (R268). -/
def execAck (port seq preempted : Nat) (s : State) : Out :=
  need (decide (port < 32)) "fabric port" (.next ((s.bump R.FAB_PXFER_PREEMPT (fabLoc port) preempted).ackTo port seq))

/-- REPLAY_TIMEOUT (R269): 2 µs without acknowledgement. -/
def execReplayTimeout (port : Nat) (s : State) : Out :=
  need (decide (port < 32)) "fabric port" (.next (
    let st := s.portState port
    if (s.port port).tx.isEmpty ∨ (st ≠ PortRun.active ∧ st ≠ PortRun.quarantine) then s
    else (s.until ((s.port port).since + 2000)).replayFrom port 0))

/-- ACK_DELAY_EXPIRY (R269). -/
def execAckDelayExpiry (port : Nat) (s : State) : Out :=
  need (decide (port < 32)) "fabric port" (.next (
    if (s.port port).unacked = 0 then s else s.sendAck port))

/-! ## Outstanding requests (R270, R272) -/

def State.setFab (s : State) (f : FabSt) : State := { s with fab := f }

/-- A packet as its source sends it: TAG, generation, ORD and BOOT in place. -/
def State.stamp (s : State) (p : Packet) (idx : Nat) : Packet × State :=
  let g := mgetD s.fab.tagGen idx 0
  let k := p.device * 8 + p.vc
  let o := mgetD s.fab.ordNext k 0
  let ordered := 1 ≤ p.vc && p.vc ≤ 6 && !p.bcast
  ({ p with src := s.device, tagIdx := idx, tagGen := g, ord := if ordered then o else 0, boot := s.bootLow, hops := 32 },
    s.setFab { s.fab with
      tagGen := mput s.fab.tagGen idx ((g + 1) % 2 ^ 18)
      ordNext := if ordered then mput s.fab.ordNext k ((o + 1) % 65536) else s.fab.ordNext })

/-- Sends a request's packet: down its broadcast tree, or by its route. The source's fabric die is FD0. -/
def State.sendReq (s : State) (p : Packet) : State :=
  if p.bcast then forEach (s.children 18 p.device) s (fun s c => s.offer c p) else s.transmit 18 p

/-- The pan that a request serves. -/
def ReqUse.pan : ReqUse → Option Nat
  | .coll k _ => some (k / 65536)
  | .write p | .claim p _ _ _ => some p
  | .other => none

/-- A request of a pan is a remote tier request too (R251, R292). -/
def State.remoteTier (s : State) (p : Packet) (idx : Nat) (u : ReqUse) : State :=
  match u.pan with
  | some k =>
    s.request { die := (s.pan k).master, pan := k, space := p.space, offset := p.offset, len := p.len
                write := true, dest := .remote idx }
  | none => s

/-- Issues a request; without a free TAG index it waits. -/
def State.issue (s : State) (p : Packet) (u : ReqUse) : State :=
  match lowest 16384 (fun i => (mget s.fab.reqs i).isNone) with
  | none => s.setFab { s.fab with blocked := s.fab.blocked ++ [(p, u)] }
  | some i =>
    let (p, s) := s.stamp p i
    let s := s.setFab { s.fab with
      reqs := mput s.fab.reqs i { pkt := p, first := s.time, last := s.time, use := u } }
    let s := s.remoteTier p i u
    let kids := (s.children 18 p.device).map (fun c => s.getF R.FAB_PSTAT_PEER (fabLoc c))
    let s := if p.bcast then
        s.setFab { s.fab with relays := s.fab.relays ++ [{ parent := none, pkt := p, children := kids }] }
      else s
    s.sendReq p

/-- Requests that waited for a TAG index are issued while one is free. -/
def State.unblock (s : State) : State :=
  match s.fab.blocked with
  | [] => s
  | (p, u) :: rest => (s.setFab { s.fab with blocked := rest }).issue p u

/-- Requests that wait are issued while an index is free. -/
def State.unblockAll (s : State) : State := forEach s.fab.blocked s (fun s _ => s.unblock)

/-- Ends an outstanding request: its index is free, and a waiting request takes one. -/
def State.endReq (s : State) (idx : Nat) : State :=
  let s := s.setReqs (s.tier.reqs.filter (fun r => r.2.ended ∨ r.2.dest ≠ .remote idx))
  (s.setFab { s.fab with reqs := mdel s.fab.reqs idx }).unblock

/-- Sends a request again unchanged except for REPEAT, unless it is too old. -/
def State.resend (s : State) (idx : Nat) : State :=
  match mget s.fab.reqs idx with
  | none => s
  | some r =>
    if r.first + s.getF R.FAB_LIMIT_RCACHE_MS (lDie 18) * 1000000 < s.time + 1000000 then s
    else
      let p := { r.pkt with rep := true }
      (s.setFab { s.fab with reqs := mput s.fab.reqs idx { r with pkt := p, last := s.time } }).sendReq p

/-- REQUEST_RESEND (R272): RETRY_US after the last sending. -/
def execRequestResend (tagIdx : Nat) (s : State) : Out :=
  .next (
    match mget s.fab.reqs tagIdx with
    | none => s
    | some r => (s.until (r.last + s.getF R.FAB_LIMIT_RETRY_US (lDie 18) * 1000)).resend tagIdx)

/-- A NAK: the frames from the refused one are replayed; a request refused BUSY is sent again (R272, R277: one
that found no route waits for its next resend). -/
def State.nakIn (s : State) (port seq reason tagIdx tagGen : Nat) : State :=
  let i := (s.port port).tx.findIdx (fun f => f.1 = seq)
  if i < (s.port port).tx.length ∧ reason ≠ 6 ∧ reason ≠ 9 ∧ reason ≠ 0xA then s.replayFrom port i
  else if reason = 9 then
    match mget s.fab.reqs tagIdx with
    | some r => if r.pkt.tagGen = tagGen then s.resend tagIdx else s
    | none => s
  else s

/-- NAK (R269, R272, R280). -/
def execNak (port seq reason tagIdx tagGen : Nat) (s : State) : Out :=
  need (decide (port < 32)) "fabric port" (.next (s.nakIn port seq reason tagIdx tagGen))

/-! ## Frames in (R269, R276, R280) -/

/-- A packet for another device is relayed. -/
def State.relay (s : State) (port : Nat) (p : Packet) : State :=
  if p.hops ≤ 1 then s.bump R.FAB_PXFER_TTLDROP (fabLoc port)
  else s.transmit (18 + port / 16) { p with hops := p.hops - 1 }

/-- The packet of an accepted frame: kept for this device, or relayed. -/
def State.accept (s : State) (port : Nat) (p : Packet) : State :=
  if p.bcast ∨ p.device = s.device then s.setFab { s.fab with inbox := s.fab.inbox ++ [(port, p)] }
  else if p.type = 2 then s.out (s.bestPort (18 + port / 16) p.device 0) p
  else s.relay port p

/-- A frame with the expected SEQ is accepted; the 64th one not acknowledged is acknowledged at once. -/
def State.acceptFrame (s : State) (port : Nat) (p : Packet) : State :=
  let f := s.port port
  let s := s.setPort port { f with rxNext := (f.rxNext + 1) % 2 ^ 24, unacked := f.unacked + 1 }
  (if 64 ≤ f.unacked + 1 then s.sendAck port else s).accept port p

/-- A frame with a good CRC. An ACK names the SEQ it acknowledges; a NAK for this device is taken at once. -/
def State.goodFrame (s : State) (port : Nat) (p : Packet) (credit : Bool) : State :=
  let f := s.port port
  let d := (p.seq + 2 ^ 24 - f.rxNext) % 2 ^ 24
  if p.type = 1 then s.ackTo port (p.offset % 2 ^ 24)
  else if p.type = 2 ∧ p.device = s.device then s.nakIn port (p.offset % 2 ^ 24) p.op p.tagIdx p.tagGen
  else if p.type = 2 then s.accept port p
  else if d = 0 then
    match packetWrong p credit with
    | some r => (s.control port 2 r p.seq p.tagIdx p.tagGen).violation port r
    | none => s.acceptFrame port p
  else if 2 ^ 23 ≤ d then s.sendAck port
  else s.control port 2 2 f.rxNext 0 0

/-- FRAME_RECEIVE (R269, R280). -/
def execFrameReceive (port : Nat) (bytes : List Byte) (credit : Bool) (s : State) : Out :=
  need (decide (port < 32)) "fabric port" (.next (
    let st := s.portState port
    if st ≠ PortRun.active ∧ st ≠ PortRun.quarantine then s
    else if frameCrcOk bytes then s.goodFrame port (readPacket bytes) credit
    else (s.bump R.FAB_PLINK_CRCERR (fabLoc port)).control port 2 1 (s.port port).rxNext 0 0))

end Sys2Proof.Machine
end

