-- ==== Sys2Proof/Machine/Stream.lean ====
section
/-!
DEFINITION. Formats of rows, tile headers, streams with their credits, and poison (R65, R87, R108 to R112,
R118).
-/

namespace Sys2Proof.Machine

/-! ## Format codes (R65) -/

/-- Bits of an element by format code. -/
def fmtBits (c : Nat) : Nat :=
  match c with
  | 0 => 32 | 1 => 16 | 2 => 16 | 3 => 8 | 4 => 8 | 5 => 8 | 6 => 8 | 7 => 6 | 8 => 6 | 9 => 4
  | 10 => 8 | 11 => 8 | 12 => 32 | _ => 32

/-- MX formats: 5h to Ah. -/
def fmtMx (c : Nat) : Bool := 5 ≤ c && c ≤ 10

/-- Bytes of a row of `n` elements, its scales included. -/
def rowBytes (c n : Nat) : Nat := ceilDiv (n * fmtBits c) 8 + (if fmtMx c then ceilDiv n 32 else 0)

/-- Element `i` of packed codes of `w` bits (R87). -/
def packedAt (w i : Nat) (l : List Byte) : Nat :=
  bits (leNat ((l.drop (i * w / 8)).take 5)) (i * w % 8 + w - 1) (i * w % 8)

/-- Packs codes of `w` bits, little-endian by bits (R87). -/
def packCodes (w : Nat) (cs : List Nat) : List Byte :=
  toLe (ceilDiv (cs.length * w) 8) (cs.foldr (fun c a => c % 2 ^ w + a * 2 ^ w) 0)

/-! ## The tile header (R111) -/

/-- The first 30 bytes of a header. -/
def headerBody (h : TileHdr) : List Byte :=
  toLe 1 (h.fmt % 16)
    ++ toLe 1 (b2n h.poison + 2 * b2n h.lastTile + 4 * b2n h.cont + 8 * b2n h.paired + 16 * b2n h.scales)
    ++ toLe 2 h.vrows ++ toLe 2 h.vcols ++ toLe 1 h.cause ++ toLe 1 h.vstage ++ toLe 4 h.epoch
    ++ toLe 4 h.step ++ toLe 2 h.mb ++ toLe 2 h.slice ++ toLe 4 h.row0 ++ toLe 4 h.optag
    ++ toLe 2 h.stream

/-- The 32 bytes of a header. -/
def headerBytes (h : TileHdr) : List Byte := headerBody h ++ toLe 2 (crc16 (headerBody h)).toNat

/-- Reads a header. Out-of-range VROWS and VCOLS are clamped; a HCHK mismatch poisons the tile with cause
6h (R112). -/
def readHeader (l : List Byte) : TileHdr :=
  let fl := fieldAt l 1 1
  let paired := bit fl 3
  let ok := decide ((crc16 (l.take 30)).toNat = fieldAt l 30 2)
  { fmt := fieldAt l 0 1 % 16, poison := bit fl 0 || !ok, lastTile := bit fl 1, cont := bit fl 2,
    paired := paired, scales := bit fl 4,
    vrows := clampN 1 (if paired then 256 else 128) (fieldAt l 2 2),
    vcols := clampN 0 (if paired then 256 else 128) (fieldAt l 4 2),
    cause := if ok then fieldAt l 6 1 else 6, vstage := fieldAt l 7 1, epoch := fieldAt l 8 4,
    step := fieldAt l 12 4, mb := fieldAt l 16 2, slice := fieldAt l 18 2, row0 := fieldAt l 20 4,
    optag := fieldAt l 24 4, stream := fieldAt l 28 2 }

/-! ## Poison (R118) -/

/-- Poisoned outputs of a pan, made on a die: the step-poison flag, the count and the latest cause. -/
def State.poisonOuts (s : State) (pan die cause n : Nat) : State :=
  let s := (s.bump R.SCH_POISON_COUNT (lDie die) n).setF R.SCH_POISON_CAUSE (lDie die) cause
  if (s.pan pan).st = .free then s else s.setF R.SCH_PBND_POISONED (s.panLoc pan) 1

def State.poisonOut (s : State) (pan die cause : Nat) : State := s.poisonOuts pan die cause 1

/-! ## Streams (R108 to R110) -/

def streamKey (pan i : Nat) : Nat := pan * 16384 + i

def Pan.stream (p : Pan) (i : Nat) : Option StreamDecl := p.cfg.streams.find? (fun d => d.idx = i)
def Pan.station (p : Pan) (i : Nat) : Option StationDecl := p.cfg.stations.find? (fun d => d.idx = i)

def State.rows (s : State) (pan i : Nat) : List StreamRow := mgetD s.sch.streams (streamKey pan i) []

def State.setRows (s : State) (pan i : Nat) (l : List StreamRow) : State :=
  { s with sch := { s.sch with streams := mput s.sch.streams (streamKey pan i) l } }

/-- Tiles of which a stream still holds a row. -/
def tilesOf (l : List StreamRow) : Nat :=
  (l.filter (fun r => r.row.last)).length
    + (match l.getLast? with | some r => b2n (!r.row.last) | none => 0)

/-- Credits of the producer: the depth less the rows, or tiles, outstanding. -/
def streamCredits (d : StreamDecl) (l : List StreamRow) : Nat :=
  d.depth - (if d.perRow then l.length else tilesOf l)

/-- Whether the producer may emit the next row: it holds a credit, or goes on within a tile. -/
def canEmit (d : StreamDecl) (l : List StreamRow) : Bool :=
  decide (0 < streamCredits d l) ||
    (!d.perRow && match l.getLast? with | some r => !r.row.last | none => false)

/-! ### Slices and the place of a row (R11, R111, R124) -/

/-- The pan takes observations from worlds (R11). -/
def Pan.serves (p : Pan) : Bool := p.cfg.stations.any (fun d => d.kind == 0 || d.kind == 1)

/-- Worlds whose rows pass through a station: 0 all, 1 DEV, 2 EXT and LIVE. -/
def worldSet (st : StationDecl) : Nat := if st.kind = 0 then 1 else if st.kind = 1 then 2 else st.worlds

/-- The worlds whose rows pass through a station in the step, ascending (R11). -/
def Pan.rowsOf (p : Pan) (st : StationDecl) : List Nat :=
  p.rowWorlds.filter (fun w => worldSet st == 0 || (worldSet st == 1) == p.worlds.any (fun d => d.decl.world = w))

/-- Rows R of a micro-batch at a station: one per world in a pan that serves worlds, else as declared (log 110). -/
def Pan.mbRows (p : Pan) (st : StationDecl) : Nat := if p.serves then (p.rowsOf st).length else max 1 st.rows

/-- Rows of slice `k` of a micro-batch at a station: R split at S rows. -/
def Pan.sliceRows (p : Pan) (st : StationDecl) (k : Nat) : Nat := min (p.mbRows st - k * p.split) p.split

/-- Slices of a micro-batch at a station. -/
def Pan.slices (p : Pan) (st : StationDecl) : Nat := ceilDiv (p.mbRows st) p.split

/-- Key of a stream's count of rows by micro-batch and slice. -/
def pushKey (pan i mb slice : Nat) : Nat := (streamKey pan i * 65536 + mb % 65536) * 65536 + slice % 65536

/-- Rows of a micro-batch's slice emitted into a stream in the step. -/
def State.pushed (s : State) (pan i mb slice : Nat) : Nat := mgetD s.sch.pushed (pushKey pan i mb slice) 0

/-- A row with its place filled in as row `n` of its slice: ROW0, VROWS, LAST and CONT of its tile, its index in the
tile, the sideband's last row (R111). The producer's station gives the rows of the micro-batch (log 110). -/
def Pan.placeRow (p : Pan) (d : StreamDecl) (n : Nat) (r : Row) : Row :=
  let st := (p.station d.producer).getD { idx := d.producer, name := [], kind := 0 }
  let base := r.hdr.slice * p.split
  let t := n / 128 * 128
  let left := p.sliceRows st r.hdr.slice - t
  let v := if left = 0 then 128 else min 128 left
  { r with
    hdr := { r.hdr with
      step := p.step % 2 ^ 32, stream := d.idx, vstage := st.vstage, row0 := base + t, vrows := v
      lastTile := decide (p.mbRows st ≤ base + t + 128), cont := decide (p.split < p.mbRows st)
      poison := decide (r.cause ≠ 0), cause := r.cause }
    idx := n % 128
    last := decide (n % 128 + 1 = v) }

/-- Emits a row, which takes the next place of its micro-batch's slice in the stream. -/
def State.emit (s : State) (pan i : Nat) (r : Row) : State :=
  let n := s.pushed pan i r.hdr.mb r.hdr.slice
  let r := match (s.pan pan).stream i with
    | some d => (s.pan pan).placeRow d n r
    | none => r
  let s := s.setRows pan i (s.rows pan i ++ [{ row := r }])
  { s with sch := { s.sch with pushed := mput s.sch.pushed (pushKey pan i r.hdr.mb r.hdr.slice) (n + 1) } }

/-! ### Rows that wait for a credit (R108) -/

def State.outq (s : State) (pan i : Nat) : List Row := mgetD s.sch.outq (streamKey pan i) []

/-- Emits waiting rows of a stream while its consumers give credits. -/
def drainOut (pan i : Nat) (d : StreamDecl) : List Row → State → State
  | [], s => { s with sch := { s.sch with outq := mdel s.sch.outq (streamKey pan i) } }
  | r :: rest, s =>
    if canEmit d (s.rows pan i) then drainOut pan i d rest (s.emit pan i r)
    else { s with sch := { s.sch with outq := mput s.sch.outq (streamKey pan i) (r :: rest) } }

/-- A unit gives a row to a stream: the row is emitted when it holds a credit of every consumer and no row waits
before it. -/
def State.give (s : State) (pan i : Nat) (r : Row) : State :=
  match (s.pan pan).stream i with
  | none => s
  | some d => drainOut pan i d (s.outq pan i ++ [r]) s

/-- The next row for a consumer station. -/
def nextRow (l : List StreamRow) (c : Nat) : Option Row :=
  (l.find? (fun r => !r.taken.contains c)).map (·.row)

/-- Rows waiting for a consumer. -/
def waitingRows (l : List StreamRow) (c : Nat) : Nat := (l.filter (fun r => !r.taken.contains c)).length

/-- The row's number in its micro-batch. -/
def rowNum (r : Row) : Nat := r.hdr.row0 + r.idx

/-- A row of a micro-batch's slice. -/
def rowIn (r : Row) (mb slice : Nat) : Bool := r.hdr.mb == mb && r.hdr.slice == slice

/-- The row numbered `n` of a micro-batch that a consumer has not taken. -/
def rowNumbered (l : List StreamRow) (c mb n : Nat) : Option Row :=
  (l.find? (fun r => !r.taken.contains c && r.row.hdr.mb == mb && rowNum r.row == n)).map (·.row)

/-- Rows of a slice that wait for a consumer. -/
def waitingOf (l : List StreamRow) (c mb slice : Nat) : Nat :=
  (l.filter (fun r => !r.taken.contains c && rowIn r.row mb slice)).length

/-- Marks the first row with `f` not taken by `c` as taken. -/
def markTaken (c : Nat) (f : Row → Bool) : List StreamRow → List StreamRow
  | [] => []
  | r :: rest =>
    if r.taken.contains c || !f r.row then r :: markTaken c f rest else { r with taken := c :: r.taken } :: rest

/-- A consumer takes the first row with `f`; an entry leaves when its last consumer has taken it, and a row that waits
for the credit follows. -/
def State.takeThe (s : State) (pan i c : Nat) (d : StreamDecl) (f : Row → Bool) : State :=
  let s := s.setRows pan i ((markTaken c f (s.rows pan i)).filter
    (fun r => d.consumers.any (fun x => !r.taken.contains x)))
  if (s.outq pan i).isEmpty then s else drainOut pan i d (s.outq pan i) s

/-- A consumer takes the next row. -/
def State.takeRow (s : State) (pan i c : Nat) (d : StreamDecl) : State := s.takeThe pan i c d (fun _ => true)

/-- A consumer takes the next `n` rows of a slice. -/
def State.takeSlice (s : State) (pan i c mb slice : Nat) : Nat → List Row × State
  | 0 => ([], s)
  | n + 1 =>
    match (s.pan pan).stream i, (s.rows pan i).find? (fun r => !r.taken.contains c && rowIn r.row mb slice) with
    | some d, some r =>
      let (l, s) := (s.takeThe pan i c d (fun x => rowIn x mb slice)).takeSlice pan i c mb slice n
      (r.row :: l, s)
    | _, _ => ([], s)

/-- A row as a unit makes it: format, elements, data, poison cause, and the operation, micro-batch, slice and epoch it
comes from. Its place is filled in when it is emitted. -/
def mkRow (fmt n cause optag mb slice epoch : Nat) (data : List Byte) : Row :=
  { hdr := { fmt := fmt, vcols := n, scales := fmtMx fmt, optag := optag, mb := mb, slice := slice, epoch := epoch
             poison := decide (cause ≠ 0), cause := cause }
    data := data, valid := n, cause := cause }

/-- Cause of an output that descends from inputs with these causes (R118). -/
def inherited (causes : List Nat) : Nat := if causes.any (fun c => c != 0) then 5 else 0

/-- Entries of a stream: rows, or tiles on a TILE stream. -/
def entriesOf (d : StreamDecl) (l : List StreamRow) : Nat := if d.perRow then l.length else tilesOf l

/-- The streams' state of a pan goes. -/
def SchedSt.dropStreams (c : SchedSt) (pan : Nat) : SchedSt :=
  let keep (k : Nat) : Bool := decide (k / 16384 ≠ pan)
  { c with
    streams := c.streams.filter (fun e => keep e.1)
    offers := c.offers.filter (fun o => o.pan ≠ pan)
    pushed := c.pushed.filter (fun e => keep (e.1 / 2 ^ 32))
    outq := c.outq.filter (fun e => keep e.1) }

/-- Discards the entries of the ending step (ORPHAN_DISCARD, R110). DESIGN CHOICE (log 108): they are counted on the
boundary master's die. -/
def State.discardOrphans (s : State) (pan : Nat) : State :=
  let p := s.pan pan
  let n := (p.cfg.streams.map (fun d => entriesOf d (s.rows pan d.idx))).foldl (· + ·) 0
  let s := s.bump R.SCH_ORPHAN_COUNT (lDie p.master) n
  { s with sch := s.sch.dropStreams pan }

/-- The payload streams of a RECORD station: its inputs but for those that carry STATS, values and priorities (R209). -/
def payStreams (st : StationDecl) (d : RecordDecl) : List Nat :=
  st.inputs.filter (fun i => d.stats != some i && d.value != some i && d.prio != some i)

/-! ## Scoreboards (R113, R115) -/

def boardKey (die e : Nat) : Nat := die * 4096 + e

def State.board (s : State) (die e : Nat) : ScoreEntry := mgetD s.sch.boards (boardKey die e) {}

/-- Busy entries of a die. -/
def State.busy (s : State) (die : Nat) : List ScoreEntry :=
  (s.sch.boards.filter (fun e => e.1 / 4096 = die ∧ e.2.busy)).map (·.2)

/-- Entries a pan may use on a die. -/
def Pan.quota (p : Pan) (die : Nat) : Nat := ((p.cfg.quotas.find? (fun q => q.1 = die)).map (·.2)).getD 0

/-- The pan holds fewer entries on the die than its quota. -/
def State.quotaFree (s : State) (pan die : Nat) : Bool :=
  decide (((s.busy die).filter (fun e => e.pan = pan)).length < (s.pan pan).quota die)

def optagOf (die e gen : Nat) : Nat := e + die * 4096 + gen * 65536

/-- A scoreboard entry is freed, its generation advanced. -/
def ScoreEntry.drop (e : ScoreEntry) : ScoreEntry := { gen := (e.gen + 1) % 2 ^ 16 }

/-- The lowest free entry of a die takes an operation; none when every entry is busy. -/
def State.takeEntry (s : State) (die : Nat) (e : ScoreEntry) : Option (Nat × State) :=
  (lowest 4096 (fun i => !(s.board die i).busy)).map (fun i =>
    let g := (s.board die i).gen
    let s := { s with sch := { s.sch with boards := mput s.sch.boards (boardKey die i) { e with gen := g, busy := true } } }
    (optagOf die i g, s.peak R.SCH_STATUS_PEAK (lDie die) (s.busy die).length))

/-- The entry is freed and the operation's dependants go on. -/
def State.freeEntry (s : State) (die i : Nat) : State :=
  let e := s.board die i
  let s := { s with sch := { s.sch with boards := mput s.sch.boards (boardKey die i) e.drop } }
  s.modPan e.pan (fun p => { p with retired := (e.station, e.mb, e.slice, e.layer) :: p.retired })

/-! ## Graph edges (R114, R120, R125) -/

/-- The step of a pan is released on a die (R120). -/
def Pan.running (p : Pan) (die : Nat) : Bool := p.released && p.woken.contains die

/-- The code of stage 5 of a world among a station's operations. -/
def actCode : Nat := 65536

/-- The code of a chunk of an EXCHANGE among a station's operations (R286). -/
def chunkCode : Nat := 65537

/-- Retired operations of a station for a slice of a micro-batch, stage 5 of worlds and chunks left out. -/
def Pan.retiredOf (p : Pan) (q mb slice : Nat) : Nat :=
  (p.retired.filter (fun r => r.1 = q ∧ r.2.1 = mb ∧ r.2.2.1 = slice ∧ r.2.2.2 < actCode)).length

/-- Stations whose operations belong to the step and to no micro-batch of it: DRAW and the kinds after it (R17). -/
def perStep (d : StationDecl) : Bool := decide (8 ≤ d.kind)

/-- The commands that a station's templates give one brick for `n` rows, each with its rows (R69, R124): a sequence of
INIT and ADD commands runs once for each chunk that its region holds. A template is split off with those that follow
it in its sequence. -/
def chunkPlan (n : Nat) : Nat → List (U64 × U64 × U64 × U64) → List ((U64 × U64 × U64 × U64) × Nat)
  | 0, _ => []
  | _, [] => []
  | f + 1, t :: rest =>
    let mode (t : U64 × U64 × U64 × U64) : Nat := bits t.1.toNat 60 59
    if mode t = 2 then (t, n) :: chunkPlan n f rest
    else
      let g := t :: rest.takeWhile (fun x => mode x == 1)
      let cap := max 1 (bits t.1.toNat 58 53) * 128
      (List.range (max 1 (ceilDiv n cap))).flatMap (fun c => g.map (fun x => (x, min cap (n - c * cap))))
        ++ chunkPlan n f (rest.dropWhile (fun x => mode x == 1))

/-- The commands of a station for a slice on each of its bricks. -/
def Pan.plan (p : Pan) (d : StationDecl) (slice : Nat) : List ((U64 × U64 × U64 × U64) × Nat) :=
  chunkPlan (p.sliceRows d slice) d.templates.length d.templates

/-- Operations of a station for one slice: one a row at WORLD, PORT, SAMPLE and RECORD stations, the commands of its
plan at MATMUL and CONV stations, else as declared. -/
def Pan.opsOf (p : Pan) (d : StationDecl) (slice : Nat) : Nat :=
  if d.kind = 0 ∨ d.kind = 1 ∨ d.kind = 6 ∨ d.kind = 7 then p.sliceRows d slice
  else if d.kind = 2 ∨ d.kind = 3 then max 1 (d.ops / max 1 d.templates.length) * (p.plan d slice).length
  else max 1 d.ops

/-- Every operation of a station for one slice has retired. -/
def Pan.sliceDone (p : Pan) (d : StationDecl) (mb slice : Nat) : Bool :=
  decide (p.opsOf d slice ≤ p.retiredOf d.idx mb slice)

/-- Every operation of a predecessor has retired: those of the slice, or of the step where one of the two stations works
per step. -/
def Pan.predRetired (p : Pan) (whole : Bool) (mb slice : Nat) (q : Nat) : Bool :=
  match p.station q with
  | some d =>
    if perStep d then decide (max 1 d.ops ≤ p.retiredOf q 0 0)
    else if whole then
      (List.range (max 1 p.cfg.mbs)).all (fun m => (List.range (p.slices d)).all (p.sliceDone d m))
    else p.sliceDone d mb slice
  | none => false

/-- Every predecessor of a station has retired (R114). -/
def Pan.predsDone (p : Pan) (d : StationDecl) (mb slice : Nat) : Bool :=
  d.preds.all (p.predRetired (perStep d) mb slice)

/-- An operation may take an entry of `die`: its step is released, its predecessors have retired, the quota has room
(R114, R115, R120). -/
def State.mayIssue (s : State) (die pan : Nat) (d : StationDecl) (mb slice : Nat) : Bool :=
  (s.pan pan).running die && (s.pan pan).predsDone d mb slice && s.quotaFree pan die

/-- An operation issues: it holds an entry of `die` until it retires. `f` gets its OPTAG. -/
def State.issueEntry (s : State) (die pan : Nat) (d : StationDecl) (mb slice : Nat) (f : Nat → State → State) : State :=
  if s.mayIssue die pan d mb slice then
    match s.takeEntry die { pan := pan, step := (s.pan pan).step, station := d.idx, mb := mb, slice := slice } with
    | none => s
    | some (tag, s) => f tag s
  else s

/-- An operation that issues and retires in one step of the model. -/
def State.withEntry (s : State) (die pan : Nat) (d : StationDecl) (mb slice : Nat) (f : Nat → State → State) : State :=
  s.issueEntry die pan d mb slice (fun tag s => (f tag s).freeEntry die (tag % 4096))

/-- The code that an operation's retirement enters. -/
def State.codeEntry (s : State) (die tag code : Nat) : State :=
  { s with sch := { s.sch with
      boards := mmod s.sch.boards (boardKey die (tag % 4096)) (fun e => { e with layer := code }) } }

/-- Stage 5 of a world issues and retires. -/
def State.withAct (s : State) (die pan : Nat) (d : StationDecl) (mb slice : Nat) (f : State → State) : State :=
  s.issueEntry die pan d mb slice (fun tag s => (f (s.codeEntry die tag actCode)).freeEntry die (tag % 4096))

/-- A chunk issues: an operation of the EXCHANGE's station under way (R286). -/
def State.chunkEntry (s : State) (die pan : Nat) (d : StationDecl) (f : Nat → State → State) : State :=
  s.issueEntry die pan d 0 0 (fun tag s => f tag (s.codeEntry die tag chunkCode))

/-- The operation in flight on a grain. -/
def State.grainOp (s : State) (die brick g : Nat) : Option (Nat × ScoreEntry) :=
  s.sch.boards.find? (fun e => e.1 / 4096 = die ∧ e.2.busy ∧ !e.2.isArray ∧ e.2.brick = brick ∧ e.2.grains.contains g)

end Sys2Proof.Machine
end

