-- ==== Sys2Proof/Machine/Ledger.lean ====
section
/-!
DEFINITION. Epoch tables and replay blocks: the transitions of R182, the counts of R213 and R217, slots
(R184, R185), and what a pan may adopt (R21).
-/

namespace Sys2Proof.Machine

/-! ## Weight sets and their tables (R178 to R182) -/

def State.wset (s : State) (ws : Nat) : Option WSet := mget s.epc.sets ws

/-- HOLDERS and RECORDS over all devices (R181). -/
def EpochEntry.allHolders (t : EpochEntry) : Nat := t.remote.foldl (fun n x => n + x.2.1) t.holders
def EpochEntry.allRecords (t : EpochEntry) : Nat := t.remote.foldl (fun n x => n + x.2.2) t.records

/-- The 16 bytes of an entry (R181). -/
def EpochEntry.bytes (t : EpochEntry) : List Byte :=
  toLe 4 (if t.st = .free then 0 else t.epoch) ++ toLe 1 t.st.code ++ toLe 1 t.cause ++ toLe 2 t.allHolders
    ++ toLe 4 t.allRecords ++ toLe 4 t.step

/-- A weight set changes, and with it the entries of its table in HBM. -/
def State.setWset (s : State) (ws : Nat) (w : WSet) : State :=
  let old := ((s.wset ws).map (·.table)).getD []
  forEach (mdiff old w.table) { s with epc := { s.epc with sets := mput s.epc.sets ws w } }
    (fun s (t : Nat × EpochEntry) => s.wrTier 1 (w.decl.tableBase + 16 * t.1) t.2.bytes)

def State.modWset (s : State) (ws : Nat) (f : WSet → WSet) : State :=
  match s.wset ws with
  | none => s
  | some w => s.setWset ws (f w)

/-- The table position of epoch `e` (R181). -/
def WSet.pos (w : WSet) (e : Nat) : Nat := e % 2 ^ w.decl.log2ent

/-- The entry of epoch `e`, while the table holds it. -/
def WSet.entry (w : WSet) (e : Nat) : Option EpochEntry :=
  match mget w.table (w.pos e) with
  | some t => if t.epoch = e ∧ e ≠ 0 then some t else none
  | none => none

/-- The state of epoch `e`; FREE when the table holds no entry of it. -/
def WSet.stateOf (w : WSet) (e : Nat) : EpochRun :=
  match w.entry e with
  | some t => t.st
  | none => .free

def WSet.modEntry (w : WSet) (e : Nat) (f : EpochEntry → EpochEntry) : WSet :=
  match w.entry e with
  | some t => { w with table := mput w.table (w.pos e) (f t) }
  | none => w

def State.epochState (s : State) (ws e : Nat) : EpochRun :=
  match s.wset ws with
  | some w => w.stateOf e
  | none => .free

/-! ## Messages between the devices of a weight set (R181, R183) -/

/-- The other devices that keep a copy of the table. -/
def State.copiesOf (s : State) (w : WSet) : List Nat :=
  (w.decl.targets ++ w.decl.copies).eraseDups.filter (fun d => d ≠ s.device)

/-- An EPOCH packet on VC4 to each of them. -/
def State.epochSend (s : State) (w : WSet) (op : Nat) (b : List Byte) : State :=
  forEach (s.copiesOf w) s (fun s d =>
    s.issue { device := d, space := 1, type := 0x40, vc := 4, len := b.length, job := w.job, op := op
              jobgen := (s.job w.job).gen, payload := b } .other)

/-- The 16 bytes of a change message; its form is the model's (log 64). -/
def EpochChange.bytes (c : EpochChange) (ws : Nat) : List Byte :=
  toLe 1 ws ++ toLe 1 c.st ++ toLe 1 c.cause ++ toLe 1 (b2n c.image) ++ toLe 4 c.epoch ++ toLe 8 c.step

/-- HOLDERS and RECORDS of an epoch on this device, for the others. -/
def State.reportEpoch (s : State) (ws e : Nat) : State :=
  match s.wset ws with
  | none => s
  | some w =>
    match w.entry e with
    | none => s
    | some t => s.epochSend w 2 (toLe 1 ws ++ toLe 3 0 ++ toLe 4 e ++ toLe 4 t.holders ++ toLe 4 t.records)

/-- Writes an epoch's state and cause into its entry and audits the change (KIND 07h); its publisher tells the other
devices (R183). -/
def State.putEpoch (s : State) (ws e : Nat) (st : EpochRun) (cause : Nat) : State :=
  match s.wset ws with
  | none => s
  | some w =>
    let s := (s.audit1 16 (s.mkRec 0x07 (job := w.job) (addr := ws) (written := e) (old := (w.stateOf e).code)
      (eff := st.code) (aux := cause))).setWset ws (w.modEntry e (fun t => { t with st := st, cause := cause }))
    match w.entry e with
    | none => s
    | some t =>
      if t.own then
        s.epochSend w 0 (EpochChange.bytes { epoch := e, st := st.code, cause := cause, step := t.step, image := t.image } ws)
      else s

/-- An epoch that nothing holds on any device retires by its publisher: CONFIRMED but not the last, or RETRACTED, with
HOLDERS and RECORDS 0 (R182). -/
def State.retireIfDone (s : State) (ws e : Nat) : State :=
  match s.wset ws with
  | none => s
  | some w =>
    match w.entry e with
    | none => s
    | some t =>
      let due := match t.st with
        | .confirmed => decide (e ≠ w.lastConf)
        | .retracted => true
        | _ => false
      if t.own && due && t.allHolders == 0 && t.allRecords == 0 then s.putEpoch ws e .retired t.cause else s

/-- A count of an epoch's entry changes on this device. -/
def State.countEpoch (s : State) (ws e : Nat) (f : EpochEntry → EpochEntry) : State :=
  (s.modWset ws (fun w => w.modEntry e f)).reportEpoch ws e

/-- Subtracts from RECORDS while the table still holds the epoch (R213), which may retire it. -/
def State.subRecords (s : State) (ws e n : Nat) : State :=
  (s.countEpoch ws e (fun t => { t with records := t.records - n })).retireIfDone ws e

def State.addRecords (s : State) (ws e n : Nat) : State :=
  s.countEpoch ws e (fun t => { t with records := t.records + n })

/-- A pan or a snapshot takes or leaves the slot of an epoch. -/
def State.addHolder (s : State) (ws e : Nat) : State :=
  s.countEpoch ws e (fun t => { t with holders := t.holders + 1 })

def State.dropHolder (s : State) (ws e : Nat) : State :=
  (s.countEpoch ws e (fun t => { t with holders := t.holders - 1 })).retireIfDone ws e

/-- Another device's HOLDERS and RECORDS of an epoch. -/
def State.reported (s : State) (ws e device holders records : Nat) : State :=
  (s.modWset ws (fun w => w.modEntry e (fun t =>
    { t with remote := mput t.remote device (holders, records) }))).retireIfDone ws e

/-- Pans of this device that are not FREE and read a BASE, and its snapshots in progress (R194). -/
def State.baseHolders (s : State) (ws : Nat) (w : WSet) : Nat :=
  let reads (d : StationDecl) : Bool :=
    d.readsBase && (d.ws == ws || (match s.wset d.ws with | some a => a.decl.kind == 2 && a.decl.base == ws | none => false))
  (s.sch.pans.filter (fun p => p.2.st ≠ .free ∧ p.2.cfg.stations.any reads)).length + w.snaps

/-- HOLDERS of the BASE regions is counted again when a pan comes or goes. -/
def State.countBases (s : State) : State :=
  forEach (s.epc.sets.filter (fun p => p.2.decl.kind = 1)) s (fun s (p : Nat × WSet) =>
    let n := s.baseHolders p.1 p.2
    match p.2.entry p.2.slot0 with
    | none => s
    | some t => if t.holders = n then s else s.countEpoch p.1 t.epoch (fun t => { t with holders := n }))

/-! ## Rings (R210 to R217) -/

def State.ring (s : State) (r : Nat) : Option RingSt := mget s.rings r

/-- Per-ring registers are live on the ring's home die (R224). -/
def RingSt.loc (r : RingSt) : Loc := lIdx r.decl.home r.decl.ring

def RingSt.stripe (r : RingSt) (i : Nat) : StripeDecl :=
  nth r.decl.stripes i { pan := 0, cap := 0, worlds := 1 }

/-- O_s: records of the stripes before `i` (R210). -/
def RingSt.stripeBase (r : RingSt) (i : Nat) : Nat :=
  ((r.decl.stripes.take i).map (·.cap)).foldl (· + ·) 0

/-- Block slots of a stripe. -/
def stripeBlocks (d : StripeDecl) : Nat := d.cap / d.worlds

def RingSt.stripeIdx (r : RingSt) : List Nat := List.range r.decl.stripes.length

def blockKey (stripe j : Nat) : Nat := stripe * 2 ^ 40 + j

/-- Stripe and block slot of a block key. -/
def keyStripe (k : Nat) : Nat := k / 2 ^ 40
def keySlot (k : Nat) : Nat := k % 2 ^ 40

/-- Places of the records of block slot `j` of a stripe. -/
def RingSt.places (r : RingSt) (i j : Nat) : List Nat :=
  let b := (r.stripe i).worlds
  (List.range b).map (fun w => r.stripeBase i + j * b + w)

/-- Zeroes the tree leaves of a block's records. -/
def RingSt.zeroLeaves (r : RingSt) (i j : Nat) : RingSt :=
  let zero (m : AMap IdxEntry) (p : Nat) : AMap IdxEntry := mmod m p (fun e => { e with leaf := 0 })
  { r with index := (r.places i j).foldl zero r.index }

/-- STATE of a block entry (R212). -/
def BlockRun.code : BlockRun → Nat
  | .empty => 0 | .writing => 1 | .committed => 2 | .dead => 3

/-- The 16 bytes of a block entry and of an index entry (R212). -/
def BlockEntry.bytes (b : BlockEntry) : List Byte :=
  toLe 4 b.epoch ++ toLe 4 b.stepLo ++ toLe 6 b.block ++ toLe 1 b.st.code ++ toLe 1 b.ws
def IdxEntry.bytes (e : IdxEntry) : List Byte := toLe 4 e.wgen ++ toLe 1 e.flags ++ toLe 3 0 ++ toLe 4 e.prio ++ toLe 4 0

/-- HBM offsets of a block entry, by its key, and of an index entry, by its place (R210). -/
def RingSt.blockAt (r : RingSt) (k : Nat) : Nat :=
  r.decl.mapBase + (((r.decl.stripes.take (keyStripe k)).map stripeBlocks).foldl (· + ·) 0 + keySlot k) * 16
def RingSt.indexAt (r : RingSt) (place : Nat) : Nat := r.decl.indexBase + place * 16

/-- The stripe of a record's place. -/
def RingSt.stripeOf (r : RingSt) (place : Nat) : Nat :=
  ((lowest r.decl.stripes.length (fun i => decide (place < r.stripeBase (i + 1)))).getD 0)

/-- A stripe that a pan of this device writes. -/
def RingSt.mine (r : RingSt) (i : Nat) : Bool := (r.stripe i).device.isNone

/-- Bytes of a ring are written: in place, or over the fabric on VC2 when another device holds the ring (R210, R211). -/
def State.ringWrite (s : State) (r : RingSt) (stripe space off : Nat) (b : List Byte) : State :=
  match r.decl.host with
  | none => s.wrTier space off b
  | some d => forEach (chunks 2048 (ceilDiv b.length 2048) b).zipIdx s (fun s (x : List Byte × Nat) =>
      s.issue { device := d, space := space, offset := off + 2048 * x.2, type := 0x20, vc := 2, len := x.1.length
                job := r.job, jobgen := (s.job r.job).gen, payload := x.1 } (.write (r.stripe stripe).pan))

/-- Block positions of a stripe in the staging region (R214). -/
def RingSt.share (r : RingSt) (i : Nat) : Nat :=
  max 2 (r.decl.stageBlocks * (r.stripe i).cap / max 1 (sumBy r.decl.stripes (·.cap)))

/-- HBM offset of the state word of a staging position, by its key. -/
def RingSt.stateAt (r : RingSt) (key : Nat) : Nat :=
  r.decl.stateBase + 8 * (sumBy (List.range (keyStripe key)) r.share + keySlot key)

/-- The positions whose state words a change of the held ones writes, with the words: 0 free, k + 1 held by block k. -/
def RingSt.words (r : RingSt) (old : AMap Nat) : List (Nat × Nat) :=
  if r.decl.tier = 3 ∧ r.decl.host.isNone then
    (mdiff old r.staged).map (fun x => (x.1, x.2 + 1)) ++ (old.filter (fun x => mget r.staged x.1 = none)).map (fun x => (x.1, 0))
  else []

/-- A ring changes, and with it the entries of its block map and index and its state words in HBM. -/
def State.setRing (s : State) (n : Nat) (v : RingSt) : State :=
  let was := ((s.ring n).map (·.staged)).getD []
  let old := ((s.ring n).map (fun r => (r.blocks, r.index))).getD ([], [])
  let s := { s with rings := mput s.rings n v }
  let s := forEach (v.words was) s (fun s (x : Nat × Nat) => s.wrTier 1 (v.stateAt x.1) (toLe 8 x.2))
  let s := forEach (mdiff old.1 v.blocks) s (fun s (b : Nat × BlockEntry) =>
    s.ringWrite v (keyStripe b.1) 1 (v.blockAt b.1) b.2.bytes)
  forEach (mdiff old.2 v.index) s (fun s (e : Nat × IdxEntry) =>
    s.ringWrite v (v.stripeOf e.1) 1 (v.indexAt e.1) e.2.bytes)

/-- A block becomes DEAD: its priorities leave the tree. -/
def RingSt.kill (r : RingSt) (i j : Nat) : RingSt :=
  let r := r.zeroLeaves i j
  { r with blocks := mmod r.blocks (blockKey i j) (fun b => { b with st := .dead }) }

/-- The COMMITTED blocks of an epoch in a ring. -/
def RingSt.committedOf (r : RingSt) (ws e : Nat) : List Nat :=
  (r.blocks.filter (fun b => b.2.st = .committed ∧ b.2.ws = ws ∧ b.2.epoch = e)).map (·.1)

/-- BLOCKS_DEAD in one ring (R217); the counts of stripes that this device writes leave RECORDS when `count`. -/
def State.blocksDeadIn (s : State) (ws e ring : Nat) (count : Bool) : State :=
  match s.ring ring with
  | none => s
  | some r =>
    let ks := r.committedOf ws e
    let n := ((ks.filter (fun k => r.mine (keyStripe k))).map (fun k => (r.stripe (keyStripe k)).worlds)).foldl (· + ·) 0
    let s := s.setRing ring (ks.foldl (fun r k => r.kill (keyStripe k) (keySlot k)) r)
    if count then s.subRecords ws e n else s

/-- BLOCKS_DEAD in every ring (R217, R190). -/
def State.blocksDead (s : State) (ws e : Nat) (count : Bool) : State :=
  forEach (s.rings.map (·.1)) s (fun s r => s.blocksDeadIn ws e r count)

/-! ## Transitions of epochs (R182, R185, R189, R217) -/

/-- Code of the object in an EPOCH_RETRACTED alarm. -/
def epochObj (ws e cause : Nat) : Nat := ws * 2 ^ 40 + e * 2 ^ 8 + cause

/-- The writer of an epoch leaves its weight set when the epoch leaves DRAFT. -/
def WSet.endWriter (w : WSet) (e : Nat) : WSet :=
  match w.writer with
  | some p => if p.epoch = e then { w with writer := none } else w
  | none => w

/-- A check of an epoch ends with the epoch's PROVISIONAL state. -/
def WSet.endCheck (w : WSet) (e : Nat) : WSet :=
  match w.check with
  | some p => if p.epoch = e then { w with check := none } else w
  | none => w

/-- Index of the slot that holds epoch `e`. -/
def WSet.slotOf (w : WSet) (e : Nat) : Option Nat :=
  if e = 0 then none else if w.slot0 = e then some 0 else if w.slot1 = e then some 1 else none

def WSet.slot (w : WSet) (i : Nat) : Nat := if i = 0 then w.slot0 else w.slot1

def WSet.setSlot (w : WSet) (i e : Nat) : WSet :=
  if i = 0 then { w with slot0 := e } else { w with slot1 := e }

/-- The next slot: the one that is not the keep slot. -/
def WSet.nextSlot (w : WSet) : Nat := 1 - w.keep

/-- Clears EPC_PUB. -/
def State.clearPub (s : State) : State :=
  let z (s : State) (f : Fld) : State := s.setF f lKeep 0
  z (z (z (z (z (z s R.EPC_PUB_WS) R.EPC_PUB_BUSY) R.EPC_PUB_WAITPROV) R.EPC_PUB_WAITSLOT)
    R.EPC_PUB_WAITTABLE) R.EPC_PUB_EPOCH

/-- Stage 6 of a step ends, and its operation retires (R18, R187). -/
def State.endStage6 (s : State) (p : PubWriter) : State :=
  let s := (s.modPan p.pan (fun b => { b with pubDone := p.station :: b.pubDone })).clearPub
  match p.entry with
  | none => s
  | some (die, i) =>
    let e := s.board die i
    if e.busy && e.pan == p.pan && e.station == p.station then s.freeEntry die i else s

/-- HBM offset of the slot that holds epoch `e`. -/
def WSet.baseOf (w : WSet) (e : Nat) : Nat :=
  match w.slotOf e with
  | some 1 => w.decl.slot1
  | _ => w.decl.slot0

/-- PUBLISH commands whose epoch has left PROVISIONAL complete with its number and state (R346). -/
def State.publishDone (s : State) (ws e : Nat) (st : EpochRun) : State :=
  forEach (s.hcx.waiting.filter (fun c =>
      c.op = 0x0B ∧ c.begun ∧ fieldAt c.params 0 1 = ws ∧ c.stage = e)) s
    (fun s (c : Cmd) => s.finish c Status.ok e st.code)

/-- An IMAGE_LOAD ends without success: its plaintext is zeroed, the reason kept, the command completed
(R200). -/
def State.failImage (s : State) (w : WSet) (i : ImgLoad) (reason : Nat) : State :=
  let s := s.zeroTier 1 (w.baseOf i.epoch) i.plain.length
  let s := { s with epc := { s.epc with img := none } }
  let s := (s.setF R.EPC_IMG_REASON lKeep reason).setF R.EPC_IMG_BUSY lKeep 0
  s.finishRef i.cmd (if (s.job w.job).st = .faulted then Status.faulted else Status.refused) 0 0

/-- What another device's IMAGE_LOAD has written into the slot here is zeroed (R200). -/
def State.zeroStream (s : State) (w : WSet) (e : Nat) : State :=
  match w.entry e with
  | some t => if t.st = .draft ∧ t.image ∧ !t.own then s.zeroTier 1 (w.baseOf e) t.written else s
  | none => s

/-- What writes an epoch stops when the epoch is retracted while DRAFT (R182). -/
def State.stopWriting (s : State) (w : WSet) (e : Nat) : State :=
  let s := s.zeroStream w e
  match w.writer with
  | none => s
  | some p =>
    if p.epoch ≠ e then s
    else if !p.image then s.endStage6 p
    else match s.epc.img with
      | some i => if i.epoch = e ∧ i.ws = w.decl.ws then s.failImage w i 8 else s
      | none => s

/-- CONFIRM: the epoch is the last CONFIRMED one, its slot the keep slot (SLOT_EXCHANGE, R185), and the one
before may retire. -/
def State.confirmEpoch (s : State) (ws e : Nat) : State :=
  match s.wset ws with
  | none => s
  | some w =>
    let old := w.lastConf
    let s := s.putEpoch ws e .confirmed 0
    let s := s.modWset ws (fun w =>
      { (w.endWriter e).endCheck e with lastConf := e, keep := (w.slotOf e).getD w.keep })
    ((s.bump R.EPC_COUNT_CONFIRMED lKeep).retireIfDone ws old).publishDone ws e .confirmed

/-- A boundary commit falls due (R129). -/
def State.dueCommit (s : State) (pan b : Nat) : State :=
  if (s.pan pan).st = .free then s
  else s.setF R.SCH_PBND_TCOMMIT (s.panLoc pan) (s.getF R.SCH_PBND_TCOMMIT (s.panLoc pan) ||| 2 ^ b)

/-- A prefix-index entry of a retracted epoch. -/
def PfxEntry.mark (x : PfxEntry) (ws e : Nat) : PfxEntry :=
  if x.ws = ws ∧ x.epoch = e then { x with gone := true } else x

/-- The prefix-index entries of a retracted epoch leave at the next boundary commit (R191). -/
def State.prefixGone (s : State) (ws e job : Nat) : State :=
  match mget s.att.pfx job with
  | none => s
  | some (com, sh) =>
    if sh.all (fun x => !(x.mark ws e).gone) then s
    else
      forEach (s.sch.pans.filter (fun p => p.2.job = job))
        { s with att := { s.att with pfx := mput s.att.pfx job (com, sh.map (fun x => x.mark ws e)) } }
        (fun s (p : Nat × Pan) => s.dueCommit p.1 1)

/-- RETRACT with a cause (R188, R189): blocks die, the alarm names weight set, epoch and cause. -/
def State.retractEpoch (s : State) (ws e cause : Nat) : State :=
  match s.wset ws with
  | none => s
  | some w =>
    let s := s.putEpoch ws e .retracted cause
    let s := s.modWset ws (fun w => { (w.endWriter e).endCheck e with cause := cause })
    let s := (s.bump R.EPC_COUNT_RETRACTED lKeep).alarm Kind.epochRetracted w.job
      (alarmKey 16 (epochObj ws e cause))
    let s := (s.stopWriting w e).publishDone ws e .retracted
    ((s.prefixGone ws e w.job).blocksDead ws e true).retireIfDone ws e

/-- The DRAFT and PROVISIONAL epochs of a weight set. -/
def WSet.unfinished (w : WSet) : List Nat :=
  (w.table.filter (fun t => t.2.st = .draft ∨ t.2.st = .provisional)).map (·.2.epoch)

/-- Retracts the DRAFT and PROVISIONAL epochs of a job's weight sets (R350, R193). -/
def State.retractJob (s : State) (job cause : Nat) : State :=
  forEach (s.epc.sets.filter (fun p => p.2.job = job)) s (fun s p =>
    forEach p.2.unfinished s (fun s e => s.retractEpoch p.1 e cause))

/-! ## Issuing a number (R179, R185, R190) -/

/-- The next slot is held (R185). -/
def WSet.nextHeld (w : WSet) : Bool :=
  match w.entry (w.slot w.nextSlot) with
  | some t => decide (t.allHolders ≠ 0) || decide (t.st = .draft)
  | none => false

def WSet.anyProvisional (w : WSet) : Bool := w.table.any (fun t => decide (t.2.st = .provisional))

/-- What stands at the table entry of the next number (R190). -/
inductive Occupant where
  | free | force (e : Nat) | held
deriving DecidableEq, Repr

def WSet.occupant (w : WSet) : Occupant :=
  match mget w.table (w.pos w.next) with
  | none => .free
  | some t =>
    match t.st with
    | .free => .free
    | .retired => .free
    | .confirmed => if t.allHolders = 0 ∧ t.epoch ≠ w.lastConf then .force t.epoch else .held
    | _ => .held

/-- Forces the occupant of the next number's entry to RETIRED (R190). -/
def State.forceRetire (s : State) (ws e : Nat) : State :=
  let s := (s.putEpoch ws e .retired 0).bump R.EPC_WSSTATE_FORCED (lKeepI ws)
  s.blocksDead ws e false

/-- The next number stands in its entry as a DRAFT epoch that is written into `slot`. -/
def State.enterEpoch (s : State) (ws slot step : Nat) (own image : Bool) : State :=
  match s.wset ws with
  | none => s
  | some w =>
    let e := w.next
    let s := s.modWset ws (fun w =>
      { w.setSlot slot e with
        table := mput w.table (w.pos e) { epoch := e, st := .free, step := step % 2 ^ 32, own := own, image := image }
        next := e + 1 })
    s.putEpoch ws e .draft 0

/-- Issues the next number (EPOCH_NUMBER_ISSUE). `slot` is where its epoch is written. -/
def State.issueEpoch (s : State) (ws slot step : Nat) (p : Nat → PubWriter) : State :=
  match s.wset ws with
  | none => s
  | some w =>
    let s := match w.occupant with
      | .force e => s.forceRetire ws e
      | _ => s
    (s.enterEpoch ws slot step true (p w.next).image).modWset ws (fun x => { x with writer := some (p w.next) })

/-! ## Adoption (R21 to R23, R184, R186) -/

/-- LIVE-serving (R192): a PORT station bound to LIVE worlds, or a LIVE world attached to the pan. -/
def State.liveServing (s : State) (p : Nat) : Bool :=
  (s.pan p).cfg.stations.any (fun d => d.kind = 1 ∧ d.live = true) ||
    s.wpt.worlds.any (fun w => decide (w.2.pan = p) && w.2.sched.live && decide (w.2.st ≠ .detached))

/-- Whether a pan may adopt an epoch in a state (R21, R191, R192). -/
def State.adoptable (s : State) (p : Nat) (st : EpochRun) : Bool :=
  match st with
  | .confirmed => true
  | .provisional => (s.pan p).cfg.adoptProv && !s.liveServing p
  | _ => false

/-- The weight set of a pan: only pans of its job read its slots (R178). -/
def State.panSet (s : State) (p : Nat) : Option WSet :=
  (s.wset (s.pan p).cfg.ws).filter (fun w => w.job = (s.pan p).job)

/-- The highest adoptable epoch in the two slots of the pan's weight set; its current one when there is
none. -/
def State.bestEpoch (s : State) (p : Nat) : Nat :=
  let b := s.pan p
  match s.panSet p with
  | none => b.epoch
  | some w =>
    let c := [w.slot0, w.slot1].filter (fun e => s.adoptable p (w.stateOf e))
    match c with
    | [] => b.epoch
    | _ => c.foldl max 0

/-- A pan takes the slot of an epoch as its current slot. -/
def State.adopt (s : State) (p e : Nat) : State :=
  let b := s.pan p
  match s.panSet p with
  | none => s
  | some w =>
    match w.slotOf e with
    | none => s
    | some i =>
      let s := (s.addHolder b.cfg.ws e).dropHolder b.cfg.ws b.epoch
      s.modPan p (fun b => { b with epoch := e, slot := i })

/-- Whether a latched epoch cannot be adopted: RETRACTED, retired since or not, or in no slot any more
(R22). -/
def State.latchLost (s : State) (ws e : Nat) : Bool :=
  match s.wset ws with
  | none => false
  | some w =>
    (w.slotOf e).isNone || (match w.entry e with
      | some t => decide (t.st = .retracted) || (decide (t.st = .retired) && t.cause != 0)
      | none => false)

/-- Weight tiles that the ladle has fetched ahead are to be fetched again. -/
def Ladle.lose (c : PanDecl) (l : Ladle) : Ladle :=
  let weight (k : Nat) : Bool := match c.prefetch[k]? with | some d => d.cls == 0 | none => false
  { l with again := (List.range l.next).filter weight, present := l.present.filter (fun k => !weight k) }

/-- A prefetch for the step after, of an entry that is to be fetched again, is discarded. -/
def Pan.discards (p : Pan) (pan : Nat) (r : TierReq) : Bool :=
  match r.dest with
  | .prefetch q st k _ _ => decide (q = pan) && decide (st = p.step + 1) && (match p.ahead with
      | some l => l.again.contains k
      | none => false)
  | _ => false

/-- The ladle discards what it has fetched of a retracted epoch: requests, tiles, background sets (R22, R63). -/
def State.loseFetch (s : State) (pan : Nat) : State :=
  let s := s.modPan pan (fun p => { p with ahead := p.ahead.map (Ladle.lose p.cfg) })
  let p := s.pan pan
  { s with
    tier := { s.tier with reqs := s.tier.reqs.filter (fun r => !p.discards pan r.2) }
    arrays := (p.cfg.prefetch.filter (fun d => d.bg && d.cls == 0)).foldl (fun m d =>
      mmod m (brickKey d.die d.dstBrick) (fun a => { a with bgValid := false, loading := none })) s.arrays }

/-- Action 4 of R20: adoption, reversion, or the refetch of R22. -/
def State.adoptAtBoundary (s : State) (p : Nat) : State :=
  let b := s.pan p
  let s1 := s.modPan p (fun b => { b with latched := none })
  match b.latched with
  | none => s1
  | some e =>
    if e = b.epoch then s1
    else if s.latchLost b.cfg.ws e then
      (s1.bumpPan R.EPC_PREFETCH_REFETCH p).loseFetch p
    else
      let back := decide (s.epochState b.cfg.ws b.epoch = .retracted)
      (if back then s1.bumpPan R.EPC_PREFETCH_REVERTS p else s1.bumpPan R.EPC_PATTR_ADOPTS p).adopt p e

end Sys2Proof.Machine
end

