-- ==== Sys2Proof/Machine/Real.lean ====
section
/-!
DEFINITION. FP32 arithmetic that flushes subnormals (R171) and the functions whose error the manual bounds
by 1 ulp (R149, R172, R173): the exact value in fixed point, and one of the two floats that enclose it, by a
choice of Config.
-/

namespace Sys2Proof.Machine

/-! ## FP32 with flushed subnormals, to nearest even -/

/-- Encodes an exact value. -/
def fz (v : FV) : Nat := (fp32.encodeLane .rne v).1

/-- Decodes a code, subnormals flushed. -/
def vz (c : Nat) : FV := (fp32.decode false c).1

def zAdd (a b : Nat) : Nat := fz (FV.add false (vz a) (vz b))
def zSub (a b : Nat) : Nat := fz (FV.add false (vz a) (vz b).neg)
def zMul (a b : Nat) : Nat := fz ((vz a).mul (vz b))
def zNeg (a : Nat) : Nat := fz (vz a).neg
def zLt (a b : Nat) : Bool := (vz a).lt (vz b)
def zLe (a b : Nat) : Bool := (vz a).lt (vz b) || (vz a).eqv (vz b)

def zDiv (a b : Nat) : Nat :=
  match vz a, vz b with
  | .fin s m e, .fin t n d =>
    if n = 0 then (if m = 0 then 0x7FC00000 else fz (.inf (s != t)))
    else
      let q := divMag m e n d
      fz (.fin (s != t) (if m = 0 then 0 else q.1) q.2)
  | .inf s, .fin t _ _ => fz (.inf (s != t))
  | .fin s _ _, .inf t => fz (.fin (s != t) 0 0)
  | _, _ => 0x7FC00000

def zSqrt (a : Nat) : Nat :=
  match vz a with
  | .fin s m e =>
    if m = 0 then a
    else if s then 0x7FC00000
    else
      let r := sqrtMag m e
      fz (.fin false r.1 r.2)
  | .inf false => a
  | _ => 0x7FC00000

/-! ## Fixed point with 200 fraction bits -/

def fxBits : Nat := 200
def fxOne : Int := 2 ^ 200
def fxLn2 : Int := 0xb17217f7d1cf79abc9e3b39803f2f6af40f343267298b62d8a
def fxPi : Int := 0x3243f6a8885a308d313198a2e03707344a4093822299f31d008

def fxMul (a b : Int) : Int := a * b / fxOne

/-- A dyadic `m × 2^e` in fixed point. -/
def fxOf (neg : Bool) (m : Nat) (e : Int) : Int :=
  let k := e + 200
  signed neg (if 0 ≤ k then m * 2 ^ k.toNat else m / 2 ^ (-k).toNat)

/-- Terms of a Taylor sum: term `i` is the one before times `x / i`. -/
def fxExpSum (x : Int) : Nat → Nat → Int → Int
  | 0, _, _ => 0
  | n + 1, i, t => t + fxExpSum x n (i + 1) (fxMul t x / (i : Int))

/-- exp of a fixed-point number: a mantissa and an exponent. -/
def fxExp (x : Int) : Nat × Int :=
  let k := x / fxLn2
  let r := x - k * fxLn2
  ((fxExpSum r 60 1 fxOne).toNat, k - 200)

/-- The odd powers of `t` over their exponents. -/
def fxAtanhSum (t2 : Int) : Nat → Nat → Int → Int
  | 0, _, _ => 0
  | n + 1, i, t => t / (i : Int) + fxAtanhSum t2 n (i + 2) (fxMul t t2)

/-- ln of `m × 2^e`, `m ≠ 0`. -/
def fxLn (m : Nat) (e : Int) : Int :=
  let l := Nat.log2 m
  let y : Int := (m * 2 ^ 200 / 2 ^ l : Nat)
  let t := (y - fxOne) * fxOne / (y + fxOne)
  2 * fxAtanhSum (fxMul t t) 70 1 t + ((l : Int) + e) * fxLn2

/-- cos by its Taylor sum; term `i` is the one before times −x² / ((i + 1)(i + 2)). -/
def fxCosSum (x2 : Int) : Nat → Nat → Int → Int
  | 0, _, _ => 0
  | n + 1, i, t => t + fxCosSum x2 n (i + 2) (-(fxMul t x2) / (((i + 1) * (i + 2) : Nat) : Int))

/-! ## One of the floats within 1 ulp -/

/-- The float at or below, or the float above, the magnitude `m × 2^e`, as Config chooses; an exact float is
itself. -/
def near1 (fn arg : Nat) (neg : Bool) (m : Nat) (e : Int) : FV :=
  if m = 0 then .fin neg 0 0
  else
    let q := ulpExp 24 none m e
    let r := roundUnit .rtz neg m e q
    .fin neg (if r.2 && Config.ulpChoice fn arg then r.1 + 1 else r.1) q

/-- The same for a fixed-point value. -/
def nearFx (fn arg : Nat) (x : Int) : FV := near1 fn arg (decide (x < 0)) x.natAbs (-200)

/-- exp of an FP32 code. Function 1. -/
def zExp (a : Nat) : Nat :=
  match vz a with
  | .nan => 0x7FC00000
  | .inf s => if s then 0 else 0x7F800000
  | .fin s m e =>
    if m = 0 then 0x3F800000
    else if 8 ≤ leadPos m e then (if s then 0 else 0x7F800000)
    else
      let r := fxExp (fxOf s m e)
      fz (near1 1 a false r.1 r.2)

/-- ln of an FP32 code. Function 2. -/
def zLn (a : Nat) : Nat :=
  match vz a with
  | .nan => 0x7FC00000
  | .inf s => if s then 0x7FC00000 else 0x7F800000
  | .fin s m e =>
    if m = 0 then 0xFF800000
    else if s then 0x7FC00000
    else fz (nearFx 2 a (fxLn m e))

/-- cos(2π × u) for `u = n × 2^−24`, 0 ≤ n < 2^24. Function 3. -/
def zCos2Pi (n : Nat) : Nat :=
  let h := if n ≤ 2 ^ 23 then n else 2 ^ 24 - n
  let neg := decide (2 ^ 22 < h)
  let q := if neg then 2 ^ 23 - h else h
  if q = 2 ^ 22 then 0
  else
    let x := 2 * fxPi * (q : Int) / (2 ^ 24 : Int)
    let c := if q = 0 then fxOne else fxCosSum (fxMul x x) 40 0 fxOne
    fz (near1 3 n neg c.natAbs (-200))

/-- tanh of an FP32 code. Function 4. -/
def zTanh (a : Nat) : Nat :=
  match vz a with
  | .nan => 0x7FC00000
  | .inf s => fz (.fin s 1 0)
  | .fin s m e =>
    if m = 0 then a
    else if 7 ≤ leadPos m e then fz (near1 4 a s (2 ^ 100 - 1) (-100))
    else if leadPos m e < -60 then fz (near1 4 a s (m * 2 ^ 80 - 1) (e - 80))
    else
      let r := fxExp (2 * fxOf false m e)
      let y : Int := fxOf false r.1 r.2
      fz (near1 4 a s (((y - fxOne) * fxOne / (y + fxOne)).natAbs) (-200))

/-- softplus, ln(1 + exp x), of an FP32 code. Function 5. -/
def zSoftplus (a : Nat) : Nat :=
  match vz a with
  | .nan => 0x7FC00000
  | .inf s => if s then 0 else 0x7F800000
  | .fin s m e =>
    if 8 ≤ leadPos m e ∧ m ≠ 0 then (if s then 0 else fz (near1 5 a false (m * 2 ^ 200 + 1) (e - 200)))
    else
      let r := fxExp (fxOf s m e)
      let y : Int := fxOf false r.1 r.2
      if (y < 2 ^ 60) then fz (near1 5 a false r.1 r.2)
      else fz (nearFx 5 a (fxLn (fxOne + y).toNat (-200)))

end Sys2Proof.Machine
end

