-- ==== Sys2Proof/Machine/Whisk.lean ====
section
/-!
DEFINITION. The whisk: its sequence, its lanes and taking words from a lane (R162 to R166).
-/

namespace Sys2Proof.Machine

/-- W, words 3 to 0 (R162). -/
def whiskW : BitVec 256 := 0xA4D80E6BF12973C519F7C62EB0538D4A7E3BA0915CD428E6C59E4B1783D26AF1
def whiskM1 : U64 := 0xD3A26B5C91E84F27
def whiskM2 : U64 := 0x8C41F3E927B65A0D

/-- whisk_out (R162). -/
def whiskOut (s : BitVec 256) : Word :=
  let w (i : Nat) : U64 := (s >>> (64 * i)).setWidth 64
  let x := w 0 ^^^ (w 1).rotateLeft 17 ^^^ (w 2).rotateLeft 31 ^^^ (w 3).rotateLeft 47
  let x := (x ^^^ (x >>> 31)) * whiskM1
  let x := (x ^^^ (x >>> 29)) * whiskM2
  let x := x ^^^ (x >>> 32)
  (x >>> 32).setWidth 32

/-- S0 of a job's seed (R163). -/
def whiskSeed (seed : U64) : BitVec 256 := BitVec.ofNat 256 (leNat (sha256 (toLe 8 seed.toNat)))

/-- The state of lane `rank × 2^21 + lane` after `n` steps (R163). -/
def laneState (s0 : BitVec 256) (rank lane n : Nat) : BitVec 256 :=
  s0 + BitVec.ofNat 256 ((rank * 2 ^ 21 + lane) * 2 ^ 160 + n) * whiskW

/-- Local lane numbers (R164). -/
def grainLane (die brick g : Nat) : Nat := die * 65536 + brick * 512 + g
def sieveLane (die sieve l : Nat) : Nat := 1048576 + die * 512 + sieve * 128 + l
def convLane (die brick : Nat) : Nat := 1056768 + die * 128 + brick

/-- The die on which a local lane stands. -/
def laneDie (lane : Nat) : Nat :=
  if lane < 1048576 then lane / 65536
  else if lane < 1056768 then (lane - 1048576) / 512
  else (lane - 1056768) / 128

/-- A station of a pan that is not FREE binds the sieve (R169). -/
def Pan.binds (p : Pan) (die sieve : Nat) : Bool :=
  p.st != .free && p.cfg.stations.any (fun d => d.sieves.contains (die, sieve))

/-- The pan that owns a lane's grain, brick or bound sieve (R164, R165). -/
def State.laneOwner (s : State) (lane : Nat) : Option Nat :=
  if lane < 1048576 then s.owner (lane / 65536) (lane / 512 % 128)
  else if lane < 1056768 then
    (s.sch.pans.find? (fun p => p.2.binds ((lane - 1048576) / 512) ((lane - 1048576) / 128 % 4))).map (·.1)
  else if lane < 1058816 then s.owner ((lane - 1056768) / 128) ((lane - 1056768) % 128)
  else none

/-- The position n of a lane. -/
def State.lanePos (s : State) (lane : Nat) : Nat := mgetD s.lanes lane 0

/-- The word that step `n + 1` of a lane emits. -/
def State.laneWord (s : State) (lane n : Nat) : Word :=
  let j := s.job (match s.laneOwner lane with
    | some p => (s.pan p).job
    | none => 0)
  whiskOut (laneState (whiskSeed j.seed) j.rank lane (n + 1))

/-- Moves a lane forward by `n` words (WHISK_STEP). -/
def State.laneStep (s : State) (lane n : Nat) : State :=
  { s with lanes := mset s.lanes lane 0 ((s.lanePos lane + n) % 2 ^ 64) }

/-- The next `n` words of a lane, and the state with the lane moved on (R165). -/
def State.takeWords (s : State) (lane n : Nat) : List Nat × State :=
  let p := s.lanePos lane
  ((List.range n).map (fun i => (s.laneWord lane (p + i)).toNat), s.laneStep lane n)

/-- The lanes of a brick's grains and converter stand at n = 0 (R165). -/
def State.zeroBrickLanes (s : State) (die brick : Nat) : State :=
  { s with lanes := s.lanes.filter (fun x => x.1 / 512 ≠ grainLane die brick 0 / 512 ∧ x.1 ≠ convLane die brick) }

/-- The lanes of sieves stand at n = 0. -/
def State.zeroSieveLanes (s : State) (l : List (Nat × Nat)) : State :=
  { s with lanes := s.lanes.filter (fun x => !l.any (fun v =>
      decide (sieveLane v.1 v.2 0 ≤ x.1) && decide (x.1 < sieveLane v.1 v.2 128))) }

end Sys2Proof.Machine
end

