-- ==== Sys2Proof/Machine/Sieve.lean ====
section
/-!
DEFINITION. Sieves: sample descriptors, discrete and continuous draws, and their output rows (R169 to R177).
-/

namespace Sys2Proof.Machine

/-! ## The sample descriptor (R170, R171) -/

/-- A descriptor as a draw uses it, with the clamps that a row counts: TEMP, TOPK, TOPP, other. -/
structure SampleDesc where
  kind : Nat
  tanh : Bool
  entropy : Bool
  greedy : Bool
  topk : Bool
  temp : Nat
  k : Nat
  topp : Nat
  v : Nat
  lo : Nat
  hi : Nat
  cTemp : Nat
  cTopk : Nat
  cTopp : Nat
  cOther : Nat
deriving DecidableEq, Repr

/-- An FP32 code held between two bounds; NaN reads as 1.0. -/
def clampF (lo hi v : Nat) : Nat :=
  if (vz v).isNan then 0x3F800000 else if zLt v lo then lo else if zLt hi v then hi else v

/-- Reads and clamps a descriptor; only fields that the row's kind uses count. -/
def readSample (b : List Byte) : SampleDesc :=
  let kind0 := fieldAt b 0 1
  let kind := if kind0 < 3 then kind0 else 0
  let fl := fieldAt b 1 1
  let temp := fieldAt b 4 4
  let k := fieldAt b 8 4
  let topp := fieldAt b 12 4
  let v := fieldAt b 16 4
  let lo := fieldAt b 20 4
  let hi := fieldAt b 24 4
  let vmax := if kind = 0 then 262144 else 256
  let d := zSub hi lo
  let bad := kind == 2 && !(zLt 0 d && !(vz d).isInf)
  let disc := kind == 0
  let temp' := clampF 0x3C800000 0x42800000 temp
  let topp' := clampF 0x37800000 0x3F800000 topp
  { kind := kind, tanh := bit fl 0 && kind == 1, entropy := bit fl 1, greedy := bit fl 2,
    topk := bit fl 3, temp := temp', k := clampN 1 1024 k, topp := topp', v := clampN 1 vmax v,
    lo := if bad then 0xBF800000 else lo, hi := if bad then 0x3F800000 else hi,
    cTemp := b2n (disc && temp' != temp),
    cTopk := b2n (disc && bit fl 3 && clampN 1 1024 k != k),
    cTopp := b2n (disc && topp' != topp),
    cOther := b2n (kind != kind0) + b2n (clampN 1 vmax v != v) + b2n bad }

/-- Words a row takes (R165). -/
def SampleDesc.words (d : SampleDesc) : Nat :=
  if d.greedy then 0 else match d.kind with
    | 0 => 1
    | 1 => 2 * d.v
    | _ => d.v

/-- Elements a row reads. -/
def SampleDesc.elems (d : SampleDesc) : Nat :=
  match d.kind with
  | 0 => d.v
  | 1 => 2 * d.v
  | _ => 0

/-- The uniform value of a word: its top 24 bits times 2^−24. -/
def unit24 (w : Nat) : Nat := fz (.fin false (w / 256) (-24))

/-- What a draw gives: action codes (or the index), log-probability, entropy, candidates kept, and how many
inputs were clamped. -/
structure Drawn where
  action : List Nat
  logp : Nat
  entropy : Nat
  kept : Nat := 0
  clamps : Nat := 0
deriving DecidableEq, Repr

/-! ## Discrete draws (R172) -/

/-- z of a score: overflow and infinity become the largest finite value. -/
def zScore (s inv : Nat) : Nat :=
  let z := zMul s inv
  match vz z with
  | .inf neg => if neg then 0xFF7FFFFF else 0x7F7FFFFF
  | _ => z

def admissible (c : Nat) : Bool :=
  match vz c with
  | .nan => false
  | .inf neg => !neg
  | _ => true

def zSum (l : List Nat) : Nat := l.foldl zAdd 0

/-- The candidates kept by top-p, in rank order. -/
def keepTopP (w : Nat → Nat) (lim : Nat) : Nat → List Nat → List Nat
  | _, [] => []
  | c, i :: rest =>
    let c := zAdd c (w i)
    if zLe lim c then [i] else i :: keepTopP w lim c rest

/-- The walk of the draw: the first candidate whose running sum passes `t`, else the last. -/
def walkDraw (w : Nat → Nat) (t : Nat) : Nat → List Nat → Nat
  | _, [] => 0
  | _, [i] => i
  | c, i :: rest =>
    let c := zAdd c (w i)
    if zLt t c then i else walkDraw w t c rest

/-- A discrete draw over decoded scores; none when no score is admissible. -/
def SampleDesc.discrete (d : SampleDesc) (s : List Nat) (word : Nat) : Option Drawn :=
  let inv := zDiv 0x3F800000 d.temp
  let zs := s.map (fun x => zScore x inv)
  let z (i : Nat) : Nat := nth zs i 0
  let adm := (List.range s.length).filter (fun i => admissible (nth s i 0))
  let rank := sortBy (fun i j => !zLt (z i) (z j)) adm
  match (if d.topk then rank.take (min d.k rank.length) else rank) with
  | [] => none
  | i0 :: rest =>
    let c := i0 :: rest
    let m := z i0
    let w (i : Nat) : Nat := zExp (zSub (z i) m)
    let c := if zLt d.topp 0x3F800000 then keepTopP w (zMul d.topp (zSum (c.map w))) 0 c else c
    let asc := sortBy (fun i j => decide (i ≤ j)) c
    let sum := zSum (asc.map w)
    let sel := if d.greedy then i0 else walkDraw w (zMul (unit24 word) sum) 0 asc
    let ln := zLn sum
    let e := zSum (asc.map (fun i => zMul (w i) (zSub (z i) m)))
    some { action := [sel], logp := zSub (zSub (z sel) m) ln, entropy := zSub ln (zDiv e sum),
           kept := c.length }

/-! ## Continuous draws (R173) -/

def cHalfLn2Pi : Nat := 0x3F6B3F8E
def cGauss : Nat := 0x3FB59FC7
def cLn2 : Nat := 0x3F317218
def cHalf : Nat := 0x3F000000
def cTwo : Nat := 0x40000000

/-- The standard normal value of two words. -/
def normal2 (w0 w1 : Nat) : Nat :=
  let u1 := fz (.fin false (w0 / 256 + 1) (-24))
  let rho := zSqrt (zMul 0xC0000000 (zLn u1))
  zMul rho (zCos2Pi (w1 / 256))

def finite (c : Nat) : Bool := !(vz c).isNan && !(vz c).isInf

/-- One dimension of a normal row. -/
def SampleDesc.dim (d : SampleDesc) (s ws : List Nat) (a : Drawn) (i : Nat) : Drawn :=
  let l0 := nth s (d.v + i) 0
  let l := if zLt l0 0xC1800000 then 0xC1800000 else if zLt 0x40800000 l0 then 0x40800000 else l0
  let n := if d.greedy then 0 else normal2 (nth ws (2 * i) 0) (nth ws (2 * i + 1) 0)
  let x := zAdd (nth s i 0) (zMul (zExp l) n)
  let t := zSub (zSub (zMul (zNeg (zMul n n)) cHalf) l) cHalfLn2Pi
  let lp := zAdd a.logp t
  let lp := if d.tanh then
      zSub lp (zMul cTwo (zSub (zSub cLn2 x) (zSoftplus (zNeg (zMul cTwo x)))))
    else lp
  { action := a.action ++ [if d.tanh then zTanh x else x], logp := lp,
    entropy := zAdd a.entropy (zAdd l cGauss), clamps := a.clamps + b2n (l != l0) }

/-- A normal draw; none when a mean or log standard deviation is NaN or infinite. -/
def SampleDesc.normal (d : SampleDesc) (s ws : List Nat) : Option Drawn :=
  if (s.take (2 * d.v)).all finite then
    some ((List.range d.v).foldl (d.dim s ws) { action := [], logp := 0, entropy := 0 })
  else none

/-- A uniform draw. -/
def SampleDesc.uniform (d : SampleDesc) (ws : List Nat) : Drawn :=
  let w := zSub d.hi d.lo
  let u (i : Nat) : Nat := if d.greedy then cHalf else unit24 (nth ws i 0)
  let lp := zNeg (zMul (fz (.fin false d.v 0)) (zLn w))
  { action := (List.range d.v).map (fun i => zAdd d.lo (zMul w (u i))), logp := lp, entropy := zNeg lp }

/-! ## A row (R169, R174, R175) -/

/-- The elements of a row as FP32 codes with subnormals flushed; only FP32 and BF16 rows are read. -/
def sieveElems (fmt n : Nat) (data : List Byte) : List Nat :=
  (List.range n).map (fun i =>
    let c := packedAt (fmtBits fmt) i data
    fz (laneValue32 fmt c))
where
  laneValue32 (fmt c : Nat) : FV := if fmt = 1 then (bf16.decode false c).1 else (fp32.decode false c).1

/-- What the sieve computes for a row. -/
def SampleDesc.draw (d : SampleDesc) (r : Row) (ws : List Nat) : Option Drawn :=
  match d.kind with
  | 2 => some (d.uniform ws)
  | k =>
    if r.hdr.fmt = 0 ∨ r.hdr.fmt = 1 then
      let s := sieveElems r.hdr.fmt d.elems r.data
      if k = 0 then d.discrete s (nth ws 0 0) else d.normal s ws
    else none

/-- The STATS row. -/
def SampleDesc.stats (d : SampleDesc) (x : Drawn) (noadmit clamped : Bool) : List Byte :=
  toLe 4 x.logp ++ toLe 4 (if d.entropy then x.entropy else 0)
    ++ toLe 4 (if d.kind = 0 then nth x.action 0 0 else 0)
    ++ toLe 4 (b2n noadmit + 2 * b2n clamped + 4 * b2n d.greedy + x.kept * 4096)

/-- The sieve and lane of a row: tile t of the micro-batch goes to sieve t mod n, row i to lane i. -/
def sieveOf (st : StationDecl) (r : Row) : Nat × Nat × Nat :=
  let x := nth st.sieves (r.hdr.row0 / 128 % st.sieves.length) (0, 0)
  (x.1, x.2, r.idx % 128)

/-- A row of a sieve goes to output `i` of the station; a poisoned one is counted (R118). -/
def State.sieveOut (s : State) (pan die : Nat) (st : StationDecl) (i tag : Nat) (r : Row) (fmt n cause : Nat)
    (data : List Byte) : State :=
  match st.outputs[i]? with
  | none => s
  | some o =>
    let s := if cause = 0 then s else s.poisonOut pan die cause
    s.give pan o (mkRow fmt n cause tag r.hdr.mb r.hdr.slice r.hdr.epoch data)

/-- Counts of a row (R171, R174, R177). -/
def State.sieveCount (s : State) (die : Nat) (d : SampleDesc) (clamps bad nan : Nat) : State :=
  let a := lDie die
  let s := s.bump (if d.kind = 0 then R.SMP_DRAWS_DISCRETE else R.SMP_DRAWS_CONTINUOUS) a
  let s := ((s.bump R.SMP_CLAMP_TEMP a d.cTemp).bump R.SMP_CLAMP_TOPK a d.cTopk).bump R.SMP_CLAMP_TOPP a d.cTopp
  ((s.bump R.SMP_CLAMP_OTHER a (d.cOther + clamps)).bump R.SMP_NOADMIT_ROWS a bad).bump
    R.SMP_NOADMIT_NANSCORE a nan

/-- The sieve draws a row: words, counts, ACTION and STATS. -/
def State.drawRow (s : State) (pan : Nat) (st : StationDecl) (d : SampleDesc) (tag : Nat) (r : Row) : State :=
  let (die, sv, lane) := sieveOf st r
  let (ws, s) := s.takeWords (sieveLane die sv lane) d.words
  let res := d.draw r ws
  let blank : Drawn :=
    { action := List.replicate (if d.kind = 0 then 1 else d.v) 0, logp := 0xFF800000, entropy := 0 }
  let x := res.getD blank
  let nan := if d.kind = 0 ∧ r.hdr.fmt ≤ 1 then
      ((sieveElems r.hdr.fmt d.elems r.data).filter (fun c => !admissible c)).length else 0
  let s := s.sieveCount die d x.clamps (b2n res.isNone) nan
  let clamped := decide (d.cTemp + d.cTopk + d.cTopp + d.cOther + x.clamps ≠ 0)
  let cause := if r.cause = 0 then 0 else 5
  let s := s.sieveOut pan die st 0 tag r (if d.kind = 0 then 12 else 0) x.action.length cause
    (x.action.flatMap (toLe 4))
  s.sieveOut pan die st 1 tag r 0 4 cause (d.stats x res.isNone clamped)

/-- The sample descriptor of a station, read at issue. -/
def State.sampleDesc (s : State) (st : StationDecl) : SampleDesc :=
  readSample (s.rdBrick st.descAt.1 st.descAt.2.1 st.descAt.2.2 32)

/-- Whether every output stream of a station takes a row. -/
def State.outsReady (s : State) (pan : Nat) (st : StationDecl) : Bool :=
  st.outputs.all (fun o => match (s.pan pan).stream o with
    | some d => canEmit d (s.rows pan o) && (s.outq pan o).isEmpty
    | none => true)

/-- The draws that a station has made in the step. -/
def Pan.drawsOf (p : Pan) (st : StationDecl) : Nat := (p.retired.filter (fun r => r.1 = st.idx)).length

/-- The place of the row that a SAMPLE station draws next, as micro-batch and number: rows go in ascending micro-batch,
slice and number (R169). -/
def Pan.nextDraw (p : Pan) (st : StationDecl) : Nat × Nat :=
  let n := max 1 (p.mbRows st)
  (p.drawsOf st / n, p.drawsOf st % n)

/-- A SAMPLE station takes its next row and draws it, when the row waits, both outputs hold a credit and its sieve serves:
one operation of the sieve's die (R113, R114). -/
def State.sampleNext (s : State) (pan station : Nat) (disc : Bool) : State :=
  let p := s.pan pan
  match p.station station with
  | none => s
  | some st =>
    let d := s.sampleDesc st
    let (mb, n) := p.nextDraw st
    match st.inputs.head?.bind p.stream with
    | none => s
    | some sd =>
      match rowNumbered (s.rows pan sd.idx) station mb n with
      | some r =>
        let (die, sv, _) := sieveOf st r
        if st.kind = 6 ∧ (d.kind == 0) = disc ∧ s.outsReady pan st ∧ !s.unitOut die 0x20 sv then
          s.withEntry die pan st mb r.hdr.slice (fun tag s =>
            (s.takeThe pan sd.idx station sd (fun x => x.hdr.mb == mb && rowNum x == n)).drawRow pan st d tag r)
        else s
      | none => s

/-- Whether the pan has the SAMPLE station. -/
def State.hasStation (s : State) (pan station kind : Nat) : Bool :=
  match (s.pan pan).station station with
  | some st => st.kind == kind
  | none => false

/-- DISCRETE_DRAW (R172). -/
def execDiscreteDraw (pan station : Nat) (s : State) : Out :=
  whenThere (s.hasStation pan station 6) s (.next (s.sampleNext pan station true))

/-- CONTINUOUS_DRAW (R173). -/
def execContinuousDraw (pan station : Nat) (s : State) : Out :=
  whenThere (s.hasStation pan station 6) s (.next (s.sampleNext pan station false))

end Sys2Proof.Machine
end

