-- ==== Sys2Proof/Machine/Epochs.lean ====
section
/-!
DEFINITION. Adoption points, publication with its checks, and epoch state changes that arrive from another
device (R19, R21, R179 to R191).
-/

namespace Sys2Proof.Machine

/-! ## Adoption point (R21, R23) -/

/-- The pan latches an epoch and the ladle starts the next step's fetches. -/
def State.adoptionPoint (s : State) (pan : Nat) : State :=
  let p := s.pan pan
  if p.released ∧ p.latched = none then
    s.modPan pan (fun p =>
      { p with latched := some (s.bestEpoch pan), lastLatch := s.bestEpoch pan, ahead := some {} })
  else s

/-- ADOPTION_POINT (R21): once in a step of a released pan. -/
def execAdoptionPoint (pan : Nat) (s : State) : Out :=
  whenThere (decide ((s.pan pan).st ≠ .free)) s (.next (s.adoptionPoint pan))

/-! ## Publication (R185, R187, R190) -/

def mib : Nat := 1048576

/-- Chunks of a payload. -/
def chunksOf (payload : Nat) : Nat := ceilDiv payload mib

/-- Bytes of chunk `i`. -/
def chunkSize (payload i : Nat) : Nat := min mib (payload - i * mib)

/-- The last number has been issued (R179). -/
def WSet.exhausted (w : WSet) : Bool := decide (0xFFFFFFFE < w.next)

/-! ## Weight streams (R187, R198, R199) -/

/-- The job's stream key. -/
def State.jobKey (s : State) (job : Nat) : Option (List Byte) :=
  (s.keys.find? (fun k => k.kind = 1 ∧ k.job = job)).map (·.key)

/-- What names a chunk of a stream: WS, EPOCH, chunk. -/
def chunkName (ws e i : Nat) : List Byte := toLe 4 ws ++ toLe 4 e ++ toLe 4 i

/-- A chunk as it leaves the device: sealed under the job's stream key with its tag when ENCRYPT is 1, else with its
CRC-32. None when there is no key. DESIGN CHOICE (log 131): nonce and additional data of a stream, which R199 does not
state, are the chunk's name. -/
def State.sealStream (s : State) (w : WSet) (e i : Nat) (b : List Byte) : Option (List Byte) :=
  if s.getB R.EPC_POLICY_ENCRYPT lKeep then
    (s.jobKey w.job).map (fun k =>
      let r := gcmSeal k (chunkName w.decl.ws e i) (chunkName w.decl.ws e i) b
      r.1 ++ r.2)
  else some (b ++ toLe 4 (crc32 b).toNat)

/-- Bytes that follow a chunk: its tag, or its CRC-32. -/
def State.sealLen (s : State) : Nat := if s.getB R.EPC_POLICY_ENCRYPT lKeep then 16 else 4

/-- The chunk that arrived, when its tag or CRC-32 is good. -/
def State.openStream (s : State) (w : WSet) (e i : Nat) (b : List Byte) : Option (List Byte) :=
  let n := b.length - s.sealLen
  if s.getB R.EPC_POLICY_ENCRYPT lKeep then
    (s.jobKey w.job).bind (fun k =>
      gcmOpen k (chunkName w.decl.ws e i) (chunkName w.decl.ws e i) (b.take n) (b.drop n))
  else if (crc32 (b.take n)).toNat = leNat (b.drop n) then some (b.take n)
  else none

/-- A chunk is sent on VC4 to a target: packets of 16 bytes that name it and the place in it, and up to 2,032 of its bytes
(log 64). -/
def State.sendWeights (s : State) (w : WSet) (target e i : Nat) (b : List Byte) : State :=
  match s.sealStream w e i b with
  | none => s
  | some c => forEach (chunks 2032 (ceilDiv c.length 2032) c).zipIdx s (fun s (x : List Byte × Nat) =>
      s.issue { device := target, space := 1, offset := w.baseOf e + i * mib + 2032 * x.2, type := 0x40, vc := 4
                len := 16 + x.1.length, job := w.job, op := 1, jobgen := (s.job w.job).gen
                payload := chunkName w.decl.ws e i ++ toLe 4 (2032 * x.2) ++ x.1 } .other)

/-- The targets but for this device. -/
def State.farTargets (s : State) (w : WSet) : List Nat := w.decl.targets.filter (fun t => t ≠ s.device)

/-- The die whose HBM takes the bytes at an offset. -/
def State.hbmDie (s : State) (off : Nat) : Nat := match s.hbmHome off with | some h => h / 2 ^ 36 | none => 0

/-- A sealed chunk was opened, or its tag failed, on the die that takes it (R206). -/
def State.countSealed (s : State) (off : Nat) (good : Bool) : State :=
  s.bump (if good then R.EPC_DSTREAM_CHUNKS else R.EPC_DSTREAM_TAGFAIL) (lDie (s.hbmDie off))

/-- A whole chunk of another device's stream: written into the slot when it is good. The status of the acknowledgement. -/
def State.streamChunk (s : State) (w : WSet) (e i : Nat) (b : List Byte) : State × Nat :=
  let off := w.baseOf e + i * mib
  let enc := s.getB R.EPC_POLICY_ENCRYPT lKeep
  match s.openStream w e i b with
  | none => (if enc then s.countSealed off false else s, 1)
  | some d =>
    let s := if enc then s.countSealed off true else s
    ((s.wrTier 1 off d).modWset w.decl.ws (fun w =>
      w.modEntry e (fun t => { t with written := max t.written (i * mib + d.length) })), 0)

/-- A packet of a stream: its bytes join those of its chunk. -/
def State.streamPiece (s : State) (b : List Byte) : State × Nat :=
  let (ws, e, i, off) := (fieldAt b 0 4, fieldAt b 4 4, fieldAt b 8 4, fieldAt b 12 4)
  match s.wset ws with
  | none => (s, 0)
  | some w =>
    let key := (ws * 2 ^ 32 + e) * 2 ^ 32 + i
    let got := if off = 0 then [] else mgetD s.epc.rx key []
    if w.stateOf e ≠ .draft ∨ got.length ≠ off ∨ chunksOf w.decl.payload ≤ i then (s, 0)
    else
      let c := got ++ b.drop 16
      if c.length < chunkSize w.decl.payload i + s.sealLen then
        ({ s with epc := { s.epc with rx := mput s.epc.rx key c } }, 0)
      else { s with epc := { s.epc with rx := mdel s.epc.rx key } }.streamChunk w e i c

/-- Every target has acknowledged every chunk. -/
def WSet.allAcked (w : WSet) (p : PubWriter) : Bool :=
  w.decl.targets.all (fun t => (List.range p.chunks).all (fun i => p.acked.contains (t, i)))

/-- The epoch becomes PROVISIONAL once all is acknowledged, and stage 6 ends (R182, R187). -/
def State.provisional (s : State) (ws : Nat) (w : WSet) (p : PubWriter) : State :=
  if w.allAcked p then
    let s := s.putEpoch ws p.epoch .provisional 0
    (s.modWset ws (fun w => { w with
      writer := none
      check := some { epoch := p.epoch, step := p.step, pan := p.pan, station := p.station } })).endStage6 p
  else s

/-- Commands of opcode 0Bh whose stage 6 has been released and not begun, for a weight set. -/
def State.pubWaiting (s : State) (ws : Nat) : List Cmd :=
  s.hcx.waiting.filter (fun c => c.op = 0x0B ∧ c.begun ∧ c.stage = 0 ∧ fieldAt c.params 0 1 = ws)

/-- PUBLISH with no number left: refused, stage 6 ends, the alarm is raised (R179). -/
def State.publishExhausted (s : State) (ws pan station : Nat) (w : WSet) : State :=
  let s := s.alarm Kind.epochExhausted w.job (alarmKey 16 ws)
  let s := forEach (s.pubWaiting ws) s (fun s (c : Cmd) => s.finish c Status.refused 0 0)
  s.endStage6 { image := false, epoch := 0, pan := pan, station := station, step := 0, chunks := 0 }

/-- Chunk `i` of an epoch as the master weights convert to it (R187, R196). -/
def State.converted (s : State) (w : WSet) (e i : Nat) : List Byte :=
  let m := s.rdTier 1 w.decl.masters w.decl.mastersBytes
  (List.range (chunkSize w.decl.payload i)).map (fun k => Config.converted w.decl.layout m e (i * mib + k))

/-- The chunks of an epoch leave for the other targets. -/
def State.sendEpoch (s : State) (ws e : Nat) : State :=
  match s.wset ws with
  | none => s
  | some w => forEach (s.farTargets w) s (fun s t =>
      forEach (List.range (chunksOf w.decl.payload)) s (fun s i => s.sendWeights w t e i (s.converted w e i)))

/-- Stage 6 begins to write: the operation holds its entry, the number is issued, the chunks leave. -/
def State.publishWrite (s : State) (ws pan station tag : Nat) (w : WSet) : State :=
  let step := (s.pan pan).step
  let e := w.next
  let s := (s.issueEpoch ws w.nextSlot step (fun e =>
    { image := false, epoch := e, pan := pan, station := station, step := step
      chunks := chunksOf w.decl.payload, entry := some ((s.pan pan).master, tag % 4096) })).sendEpoch ws e
  let s := forEach (s.pubWaiting ws) s (fun s (c : Cmd) => s.setCmd { c with stage := e })
  let s := s.modPan pan (fun p => { p with pubReleased := false })
  let s := (s.clearPub.setF R.EPC_PUB_WS lKeep ws).setF R.EPC_PUB_BUSY lKeep 1
  let s := s.setF R.EPC_PUB_EPOCH lKeep e
  match s.wset ws with
  | none => s
  | some w =>
    match w.writer with
    | some p => s.provisional ws w p
    | none => s

/-- Stage 6 waits: the reasons are shown and the time is counted (R185, R190). -/
def State.publishWait (s : State) (ws waitedUs : Nat) (w : WSet) : State :=
  let prov := w.anyProvisional
  let slot := w.nextHeld
  let table := w.occupant == .held
  let s := (s.setF R.EPC_PUB_WS lKeep ws).setF R.EPC_PUB_BUSY lKeep 1
  let s := (s.setB R.EPC_PUB_WAITPROV lKeep prov).setB R.EPC_PUB_WAITSLOT lKeep slot
  let s := (s.setB R.EPC_PUB_WAITTABLE lKeep table).bump R.EPC_WAITS_PUBWAIT lKeep waitedUs
  if table then s.alarm Kind.epochTableFull w.job (alarmKey 16 ws) else s

/-- A writer of any weight set that serves a pan's station. -/
def State.publishing (s : State) (pan station : Nat) : Bool :=
  s.epc.sets.any (fun p => match p.2.writer with
    | some q => !q.image && decide (q.pan = pan) && decide (q.station = station)
    | none => false)

/-- Stage 6 of a PUBLISH station is presented: an operation of the boundary master's die (log 127). -/
def State.publishBegin (s : State) (pan station waitedUs : Nat) (d : StationDecl) : State :=
  let p := s.pan pan
  match s.wset d.ws with
  | none => s
  | some w =>
    if !p.released || p.pubDone.contains station || s.publishing pan station || w.decl.kind == 1
        || (d.onCommand && !p.pubReleased) || !s.mayIssue p.master pan d 0 0 || w.job != p.job then s
    else if w.exhausted then s.publishExhausted d.ws pan station w
    else if w.anyProvisional || w.nextHeld || w.occupant == .held then s.publishWait d.ws waitedUs w
    else s.issueEntry p.master pan d 0 0 (fun tag s => s.publishWrite d.ws pan station tag w)

/-- PUBLISH_BEGIN (R185). -/
def execPublishBegin (pan station waitedUs : Nat) (s : State) : Out :=
  whenThere (s.hasStation pan station 0xB) s (.next (
    match (s.pan pan).station station with
    | some d => s.whenRoom [16] (1, d.ws) (fun s => s.publishBegin pan station waitedUs d)
    | none => s))

/-- A good chunk: written on this device, and acknowledged. -/
def State.chunkGood (s : State) (ws target chunk : Nat) (w : WSet) (p : PubWriter) : State :=
  let s := if target = s.device then s.wrTier 1 (w.baseOf p.epoch + chunk * mib) (s.converted w p.epoch chunk) else s
  let q := { p with acked := (target, chunk) :: p.acked }
  (s.modWset ws (fun w => { w with writer := some q })).provisional ws w q

/-- A failed chunk is sent again up to 3 times; the fourth failure retracts the epoch. -/
def State.chunkFailed (s : State) (ws target chunk : Nat) (w : WSet) (p : PubWriter) : State :=
  if 3 ≤ p.fails.count (target, chunk) then s.retractEpoch ws p.epoch 4
  else
    let s := s.modWset ws (fun w => { w with writer := some { p with fails := (target, chunk) :: p.fails } })
    if target = s.device then s else s.sendWeights w target p.epoch chunk (s.converted w p.epoch chunk)

/-- The epoch that is being written to a dead target becomes RETRACTED (R187). -/
def State.targetDead (s : State) (ws dev : Nat) : State :=
  match s.wset ws with
  | none => s
  | some w => match w.writer with
    | some p => if !p.image && w.decl.targets.contains dev then s.retractEpoch ws p.epoch 4 else s
    | none => s

/-- PUBLISH_CHUNK_ACK (R187). -/
def execPublishChunkAck (ws target chunk : Nat) (answer : ChunkAnswer) (s : State) : Out :=
  match s.wset ws with
  | none => .next s
  | some w => .next (
    match w.writer with
    | none => s
    | some p =>
      if p.image || !w.decl.targets.contains target || decide (p.chunks ≤ chunk)
          || p.acked.contains (target, chunk) then s
      else s.whenRoom [16] (1, ws) (fun s => match answer with
        | .good => s.chunkGood ws target chunk w p
        | .failed => s.chunkFailed ws target chunk w p
        | .targetDead => s.retractEpoch ws p.epoch 4))

/-! ## The publish checks (R188) -/

/-- The check block at a tile-store place. -/
def State.checkBlock (s : State) (at_ : Nat × Nat × Nat) (poisoned : Bool) : CheckBlock :=
  let b := s.rdBrick at_.1 at_.2.1 at_.2.2 16
  { gnorm := BitVec.ofNat 32 (fieldAt b 0 4), nonfin := fieldAt b 4 4, step := fieldAt b 8 4
    poisoned := poisoned }

/-- GNORM is finite and at most the limit. -/
def gnormOk (limit : Nat) (g : Word) : Bool :=
  let v := f32 g
  !v.isNan && !v.isInf && !(f32 (BitVec.ofNat 32 limit)).lt v

/-- The cause of the first check that fails over the blocks of all learner devices. -/
def checkCause (limit step : Nat) (bs : List CheckBlock) : Option Nat :=
  if bs.any (·.poisoned) then some 3
  else if bs.any (fun b => decide (b.step ≠ step % 2 ^ 32)) then some 9
  else if bs.any (fun b => decide (b.nonfin ≠ 0)) then some 1
  else if bs.any (fun b => !gnormOk limit b.gnorm) then some 2
  else none

/-- PUBLISH_CHECKS (R188): after the learner boundary. -/
def execPublishChecks (ws : Nat) (others : List CheckBlock) (s : State) : Out :=
  match s.wset ws with
  | none => .next s
  | some w => .next (
    match w.check with
    | none => s
    | some c =>
      if !c.boundary then s
      else
        let at_ := match (s.pan c.pan).station c.station with
          | some d => d.checkAt
          | none => (0, 0, 0)
        s.whenRoom [16] (1, ws) (fun s =>
          match checkCause (s.getF R.EPC_LIMIT_GNORM lKeep) c.step (s.checkBlock at_ c.poisoned :: others) with
          | some cause => s.retractEpoch ws c.epoch cause
          | none => s.confirmEpoch ws c.epoch))

/-- The learner boundary fixes the poison flag of the check that waits (R18, R188). -/
def State.checkBoundary (s : State) (pan : Nat) (poisoned : Bool) : State :=
  { s with epc := { s.epc with sets := s.epc.sets.map (fun p =>
      (p.1, match p.2.check with
        | some c =>
          if c.pan = pan ∧ !c.boundary then
            { p.2 with check := some { c with boundary := true, poisoned := poisoned } }
          else p.2
        | none => p.2)) } }

/-! ## Changes from another device (R183) -/

/-- An epoch that a lower number of the same set must wait for: changes apply in ascending order. -/
def WSet.waitsFor (w : WSet) (e : Nat) : Bool :=
  w.table.any (fun t => decide (t.2.epoch < e) && (decide (t.2.st = .draft) || decide (t.2.st = .provisional)))

/-- A publisher elsewhere issued a number. -/
def State.remoteDraft (s : State) (ws : Nat) (c : EpochChange) (w : WSet) : State :=
  if c.epoch < w.next ∨ 0xFFFFFFFE < c.epoch then s
  else
    (s.modWset ws (fun w => { w with next := c.epoch })).enterEpoch ws (if w.decl.kind = 1 then 0 else w.nextSlot) c.step
      false c.image

/-- An epoch state change whose turn has come. STATE values of R181. -/
def State.applyNow (s : State) (ws : Nat) (c : EpochChange) (w : WSet) : State :=
  let e := c.epoch
  let now := w.stateOf e
  match c.st with
  | 1 => s.remoteDraft ws c w
  | 2 => if now = .draft then s.putEpoch ws e .provisional 0 else s
  | 3 => if now = .draft ∨ now = .provisional then s.confirmEpoch ws e else s
  | 4 => if now = .draft ∨ now = .provisional then s.retractEpoch ws e c.cause else s
  | 5 => if now = .confirmed ∨ now = .retracted then
           (s.putEpoch ws e .retired c.cause).blocksDead ws e false
         else s
  | _ => s

/-- A change is applied, or waits for those of lower numbers. -/
def State.tryChange (s : State) (ws : Nat) (c : EpochChange) : State :=
  match s.wset ws with
  | none => s
  | some w =>
    if c.epoch = 0 then s
    else if w.waitsFor c.epoch then s.modWset ws (fun w => { w with changes := w.changes ++ [c] })
    else s.applyNow ws c w

/-- A change arrives: it is applied in ascending order of number, and those that waited for it after it (R183). -/
def State.applyChange (s : State) (ws : Nat) (c : EpochChange) : State :=
  let s := s.tryChange ws c
  let held := sortBy (fun (a b : EpochChange) => decide (a.epoch ≤ b.epoch)) (((s.wset ws).map (·.changes)).getD [])
  if held.contains c then s
  else forEach held (s.modWset ws (fun w => { w with changes := [] })) (fun s c => s.tryChange ws c)

/-- EPOCH_CHANGE_MESSAGE (R183). -/
def execEpochChangeMessage (ws epoch state cause step : Nat) (s : State) : Out :=
  whenThere (s.wset ws).isSome s (.next (s.whenRoom [16] (1, ws) (fun s =>
    s.applyChange ws { epoch, st := state, cause, step })))

end Sys2Proof.Machine
end

