-- ==== Sys2Proof/Machine/Rv.lean ====
section
/-!
DEFINITION. The instruction words of a grain: fields, compressed expansion (RV32C with F) and the integer
arithmetic of RV32IM (R30, R32). R30 names RISC-V; the words and effects are that standard's (log 105).
-/

namespace Sys2Proof.Machine.Rv

/-! ## Fields of a 32-bit word -/

def opcode (w : Nat) : Nat := w % 128
def rd (w : Nat) : Nat := bits w 11 7
def f3 (w : Nat) : Nat := bits w 14 12
def rs1 (w : Nat) : Nat := bits w 19 15
def rs2 (w : Nat) : Nat := bits w 24 20
def rs3 (w : Nat) : Nat := bits w 31 27
def f7 (w : Nat) : Nat := bits w 31 25

/-- A sign-extended field of `n` bits as a word. -/
def sx (n v : Nat) : Word := BitVec.ofInt 32 (sInt n v)

def immI (w : Nat) : Word := sx 12 (bits w 31 20)
def immS (w : Nat) : Word := sx 12 (bits w 31 25 * 32 + bits w 11 7)
def immB (w : Nat) : Word :=
  sx 13 (bits w 31 31 * 4096 + bits w 7 7 * 2048 + bits w 30 25 * 32 + bits w 11 8 * 2)
def immU (w : Nat) : Word := BitVec.ofNat 32 (bits w 31 12 * 4096)
def immJ (w : Nat) : Word :=
  sx 21 (bits w 31 31 * 1048576 + bits w 19 12 * 4096 + bits w 20 20 * 2048 + bits w 30 21 * 2)

/-! ## Building words -/

def encR (op f3 f7 rd rs1 rs2 : Nat) : Nat :=
  op + rd * 2 ^ 7 + f3 * 2 ^ 12 + rs1 * 2 ^ 15 + rs2 * 2 ^ 20 + f7 * 2 ^ 25
def encI (op f3 rd rs1 imm : Nat) : Nat :=
  op + rd * 2 ^ 7 + f3 * 2 ^ 12 + rs1 * 2 ^ 15 + imm % 4096 * 2 ^ 20
def encS (op f3 rs1 rs2 imm : Nat) : Nat :=
  op + imm % 32 * 2 ^ 7 + f3 * 2 ^ 12 + rs1 * 2 ^ 15 + rs2 * 2 ^ 20 + imm / 32 % 128 * 2 ^ 25
def encB (f3 rs1 rs2 imm : Nat) : Nat :=
  0x63 + bit1 imm 11 * 2 ^ 7 + bits imm 4 1 * 2 ^ 8 + f3 * 2 ^ 12 + rs1 * 2 ^ 15 + rs2 * 2 ^ 20
    + bits imm 10 5 * 2 ^ 25 + bit1 imm 12 * 2 ^ 31
where bit1 (v i : Nat) : Nat := bits v i i
def encJ (rd imm : Nat) : Nat :=
  0x6F + rd * 2 ^ 7 + bits imm 19 12 * 2 ^ 12 + bits imm 11 11 * 2 ^ 20 + bits imm 10 1 * 2 ^ 21
    + bits imm 20 20 * 2 ^ 31
def encU (op rd imm : Nat) : Nat := op + rd * 2 ^ 7 + imm % 2 ^ 20 * 2 ^ 12

/-! ## Compressed instructions -/

/-- Sign extension of `n` bits into `m` bits. -/
def sxTo (m n v : Nat) : Nat := uInt m (sInt n v)

/-- Quadrant 0. -/
def expand0 (h : Nat) : Option Nat :=
  let d := 8 + bits h 4 2
  let a := 8 + bits h 9 7
  let lw := bits h 12 10 * 8 + bits h 6 6 * 4 + bits h 5 5 * 64
  match bits h 15 13 with
  | 0 =>
    let i := bits h 12 11 * 16 + bits h 10 7 * 64 + bits h 6 6 * 4 + bits h 5 5 * 8
    if i = 0 then none else some (encI 0x13 0 d 2 i)
  | 2 => some (encI 0x03 2 d a lw)
  | 3 => some (encI 0x07 2 d a lw)
  | 6 => some (encS 0x23 2 a d lw)
  | 7 => some (encS 0x27 2 a d lw)
  | _ => none

/-- Offset of C.J and C.JAL. -/
def cjOff (h : Nat) : Nat :=
  sxTo 21 12 (bits h 12 12 * 2048 + bits h 11 11 * 16 + bits h 10 9 * 256 + bits h 8 8 * 1024 + bits h 7 7 * 64
    + bits h 6 6 * 128 + bits h 5 3 * 2 + bits h 2 2 * 32)

/-- Offset of C.BEQZ and C.BNEZ. -/
def cbOff (h : Nat) : Nat :=
  sxTo 13 9 (bits h 12 12 * 256 + bits h 11 10 * 8 + bits h 6 5 * 64 + bits h 4 3 * 2 + bits h 2 2 * 32)

/-- The register arithmetic of quadrant 1. -/
def expandAlu (h : Nat) : Option Nat :=
  let d := 8 + bits h 9 7
  let b := 8 + bits h 4 2
  let sh := bits h 6 2
  let hi := bits h 12 12
  match bits h 11 10 with
  | 0 => if hi = 1 then none else some (encR 0x13 5 0 d d sh)
  | 1 => if hi = 1 then none else some (encR 0x13 5 0x20 d d sh)
  | 2 => some (encI 0x13 7 d d (sxTo 12 6 (hi * 32 + sh)))
  | _ =>
    if hi = 1 then none
    else match bits h 6 5 with
      | 0 => some (encR 0x33 0 0x20 d d b)
      | 1 => some (encR 0x33 4 0 d d b)
      | 2 => some (encR 0x33 6 0 d d b)
      | _ => some (encR 0x33 7 0 d d b)

/-- Quadrant 1. -/
def expand1 (h : Nat) : Option Nat :=
  let d := bits h 11 7
  let i := bits h 12 12 * 32 + bits h 6 2
  match bits h 15 13 with
  | 0 => some (encI 0x13 0 d d (sxTo 12 6 i))
  | 1 => some (encJ 1 (cjOff h))
  | 2 => some (encI 0x13 0 d 0 (sxTo 12 6 i))
  | 3 =>
    if d = 2 then
      let v := bits h 12 12 * 512 + bits h 6 6 * 16 + bits h 5 5 * 64 + bits h 4 3 * 128 + bits h 2 2 * 32
      if v = 0 then none else some (encI 0x13 0 2 2 (sxTo 12 10 v))
    else if i = 0 then none else some (encU 0x37 d (sxTo 20 6 i))
  | 4 => expandAlu h
  | 5 => some (encJ 0 (cjOff h))
  | 6 => some (encB 0 (8 + bits h 9 7) 0 (cbOff h))
  | _ => some (encB 1 (8 + bits h 9 7) 0 (cbOff h))

/-- Quadrant 2. -/
def expand2 (h : Nat) : Option Nat :=
  let d := bits h 11 7
  let b := bits h 6 2
  let hi := bits h 12 12
  let lw := hi * 32 + bits h 6 4 * 4 + bits h 3 2 * 64
  let sw := bits h 12 9 * 4 + bits h 8 7 * 64
  match bits h 15 13 with
  | 0 => if hi = 1 then none else some (encR 0x13 1 0 d d b)
  | 2 => if d = 0 then none else some (encI 0x03 2 d 2 lw)
  | 3 => some (encI 0x07 2 d 2 lw)
  | 4 =>
    if hi = 0 then
      if b = 0 then (if d = 0 then none else some (encI 0x67 0 0 d 0))
      else some (encR 0x33 0 0 d 0 b)
    else if b = 0 then (if d = 0 then some 0x00100073 else some (encI 0x67 0 1 d 0))
    else some (encR 0x33 0 0 d d b)
  | 6 => some (encS 0x23 2 2 b sw)
  | 7 => some (encS 0x27 2 2 b sw)
  | _ => none

/-- The 32-bit instruction a 16-bit one stands for; none when it is undefined on RV32FC. -/
def expand (h : Nat) : Option Nat :=
  match h % 4 with
  | 0 => expand0 h
  | 1 => expand1 h
  | _ => expand2 h

/-! ## Integer arithmetic -/

/-- OP and OP-IMM without SUB and SRA. -/
def alu (f3 : Nat) (alt : Bool) (a b : Word) : Word :=
  let sh := b.toNat % 32
  match f3 with
  | 0 => if alt then a - b else a + b
  | 1 => a <<< sh
  | 2 => if a.toInt < b.toInt then 1 else 0
  | 3 => if a.toNat < b.toNat then 1 else 0
  | 4 => a ^^^ b
  | 5 => if alt then a.sshiftRight sh else a >>> sh
  | 6 => a ||| b
  | _ => a &&& b

/-- The M extension; division by zero and overflow give the results it defines. -/
def mulDiv (f3 : Nat) (a b : Word) : Word :=
  let hiOf (v : Int) : Word := BitVec.ofInt 32 (v / 2 ^ 32)
  let ovf := decide (a.toInt = -(2 ^ 31)) && decide (b.toInt = -1)
  match f3 with
  | 0 => a * b
  | 1 => hiOf (a.toInt * b.toInt)
  | 2 => hiOf (a.toInt * b.toNat)
  | 3 => hiOf (a.toNat * b.toNat)
  | 4 => if b = 0 then BitVec.allOnes 32 else if ovf then a else BitVec.ofInt 32 (a.toInt.tdiv b.toInt)
  | 5 => if b = 0 then BitVec.allOnes 32 else BitVec.ofNat 32 (a.toNat / b.toNat)
  | 6 => if b = 0 then a else if ovf then 0 else BitVec.ofInt 32 (a.toInt.tmod b.toInt)
  | _ => if b = 0 then a else BitVec.ofNat 32 (a.toNat % b.toNat)

/-- A branch is taken; none for an undefined condition. -/
def branch (f3 : Nat) (a b : Word) : Option Bool :=
  match f3 with
  | 0 => some (decide (a = b))
  | 1 => some (decide (a ≠ b))
  | 4 => some (decide (a.toInt < b.toInt))
  | 5 => some (decide (b.toInt ≤ a.toInt))
  | 6 => some (decide (a.toNat < b.toNat))
  | 7 => some (decide (b.toNat ≤ a.toNat))
  | _ => none

/-- The rounding mode of an `rm` field; none when it is reserved. -/
def rmode (rm frm : Nat) : Option RMode :=
  let m := if rm = 7 then frm else rm
  match m with
  | 0 => some .rne
  | 1 => some .rtz
  | 2 => some .rdn
  | 3 => some .rup
  | 4 => some .rmm
  | _ => none

/-- Bytes of a load or store and whether a load extends the sign; none when undefined. -/
def loadSize (f3 : Nat) : Option (Nat × Bool) :=
  match f3 with
  | 0 => some (1, true)
  | 1 => some (2, true)
  | 2 => some (4, false)
  | 4 => some (1, false)
  | 5 => some (2, false)
  | _ => none

end Sys2Proof.Machine.Rv
end

