-- ==== Sys2Proof/Machine/Accum.lean ====
section
/-!
DEFINITION. Exact group accumulation and the output converter (R85 to R103).
-/

namespace Sys2Proof.Machine

/-! ## Lane operands (R85, R86, R89) -/

/-- The float format of the elements of a format code. -/
def fmtElem (c : Nat) : Option Fmt :=
  match c with
  | 0 => some fp32 | 1 => some bf16 | 2 => some fp16 | 3 => some e4m3 | 4 => some e5m2
  | 5 => some e4m3 | 6 => some e5m2 | 7 => some e3m2 | 8 => some e2m3 | 9 => some e2m1
  | _ => none

/-- Integer pair formats: MXINT8 and INT8 (R66). -/
def fmtInt (c : Nat) : Bool := c == 10 || c == 11

/-- A value times 2^k. -/
def FV.scaleB (v : FV) (k : Int) : FV :=
  match v with
  | .fin s m e => .fin s m (e + k)
  | _ => v

/-- Decodes element `code` of format `c` under MX scale `x` (R89); the second part marks a flushed code. -/
def laneValue (c code x : Nat) : FV × Bool :=
  if fmtMx c ∧ x = 255 then (.nan, false)
  else
    match fmtElem c with
    | some f =>
      let (v, z) := f.decode false code
      (if fmtMx c then v.scaleB ((x : Int) - 127) else v, z)
    | none =>
      let i := sInt 8 code
      (.fin (decide (i < 0)) i.natAbs (if c = 10 then (x : Int) - 133 else 0), false)

/-- Unmasked lanes of a group: a row element and a stationary element. -/
abbrev Lanes := List ((FV × Bool) × (FV × Bool))

/-! ## The merge of a float pair (R90, R91) -/

/-- What the first loop of R90 finds. -/
structure Found where
  nan : Bool := false
  pinf : Bool := false
  ninf : Bool := false
  flags : Nat := 0
  /-- Finite nonzero products: sign, mantissa, exponent. -/
  ps : List (Bool × Nat × Int) := []
  /-- Every lane so far gives a zero product of negative sign. -/
  negZero : Bool := true
deriving DecidableEq, Repr

def Found.lane (f : Found) (l : (FV × Bool) × (FV × Bool)) : Found :=
  let f := if l.1.2 || l.2.2 then { f with flags := f.flags ||| fUF } else f
  match l.1.1.mul l.2.1 with
  | .nan => { f with nan := true, negZero := false }
  | .inf s => { f with pinf := f.pinf || !s, ninf := f.ninf || s, negZero := false }
  | .fin s m e =>
    if m = 0 then { f with negZero := f.negZero && s }
    else if 128 ≤ leadPos m e then
      { f with pinf := f.pinf || !s, ninf := f.ninf || s, flags := f.flags ||| fOF, negZero := false }
    else { f with ps := (s, m, e) :: f.ps, negZero := false }

/-- Takes the accumulator's special values in ADD mode. -/
def Found.withAcc (f : Found) (acc : FV) : Found :=
  match acc with
  | .nan => { f with nan := true }
  | .inf s => { f with pinf := f.pinf || !s, ninf := f.ninf || s }
  | _ => f

/-- The highest leading position of the products. -/
def maxLead : List (Bool × Nat × Int) → Int
  | [] => 0
  | [(_, m, e)] => leadPos m e
  | (_, m, e) :: rest => max (leadPos m e) (maxLead rest)

/-- A product cut at position `g - 56`: its signed value in units of 2^(g−56), and whether bits were
dropped. -/
def window (g : Int) (p : Bool × Nat × Int) : Int × Bool :=
  let u := g - 56
  if u ≤ p.2.2 then (signed p.1 (p.2.1 * 2 ^ (p.2.2 - u).toNat), false)
  else
    let k := (u - p.2.2).toNat
    (signed p.1 (p.2.1 / 2 ^ k), decide (p.2.1 % 2 ^ k ≠ 0))

/-- Mantissa of a finite value with its sign, 0 otherwise. -/
def FV.int : FV → Int × Int
  | .fin s m e => (signed s m, e)
  | _ => (0, 0)

/-- The exact group merge of R90: the new accumulator word and its flags. -/
def merge (add : Bool) (acc : Word) (lanes : Lanes) : Word × Nat :=
  if lanes.isEmpty then (if add then acc else 0, 0)
  else
    let a : FV := if add then f32z acc else .fin false 0 0
    let f := (lanes.foldl Found.lane {}).withAcc a
    if f.nan || (f.pinf && f.ninf) then (nan32, f.flags ||| fNV)
    else if f.pinf then (0x7F800000, f.flags)
    else if f.ninf then (0xFF800000, f.flags)
    else
      let g := maxLead f.ps
      let ws := f.ps.map (window g)
      let sum := (ws.map (·.1)).foldl (· + ·) 0
      let sticky := ws.any (·.2)
      let (am, ae) := a.int
      let z := if f.ps.isEmpty then ae else if am = 0 then g - 58 else min (g - 58) ae
      let t := (if f.ps.isEmpty then 0 else sum * 2 ^ (g - 56 - z).toNat)
        + (if am = 0 then 0 else am * 2 ^ (ae - z).toNat)
      let t := if sticky && t ≠ 0 then t + t.sign * 2 ^ (g - 58 - z).toNat else t
      let nx := if sticky then fNX else 0
      if t = 0 then
        let minus := f.negZero && (!add || (a.isZero && a.sign))
        (if minus then 0x80000000 else 0, f.flags ||| nx)
      else
        let (c, fl) := fp32.encodeFlush .rne (decide (t < 0)) t.natAbs z
        (BitVec.ofNat 32 c, f.flags ||| fl ||| nx)

/-! ## The merge of an integer pair (R92) -/

/-- The exact sum of the products, as mantissa and exponent. -/
def intSum (lanes : Lanes) : Int × Int :=
  lanes.foldl (fun (a : Int × Int) l =>
    match l.1.1.mul l.2.1 with
    | .fin s m e =>
      if m = 0 then a
      else
        let z := if a.1 = 0 then e else min a.2 e
        (a.1 * 2 ^ (a.2 - z).toNat + signed s m * 2 ^ (e - z).toNat, z)
    | _ => a) (0, 0)

def satInt32 (v : Int) : Int × Nat :=
  if v < -(2 ^ 31) then (-(2 ^ 31), fOF ||| fNX) else if 2 ^ 31 - 1 < v then (2 ^ 31 - 1, fOF ||| fNX) else (v, 0)

/-- The integer merge in units of 2^unit. -/
def mergeInt (add : Bool) (unit : Int) (acc : Word) (lanes : Lanes) : Word × Nat :=
  let nv := if lanes.any (fun l => l.1.1.isNan || l.2.1.isNan) then fNV else 0
  let (m, e) := intSum lanes
  let (n, ix) := roundUnit .rne (decide (m < 0)) m.natAbs e unit
  let (v, o) := satInt32 (signed (decide (m < 0)) n + (if add then acc.toInt else 0))
  (BitVec.ofInt 32 v, nv ||| o ||| (if ix then fNX else 0))

/-! ## The output converter (R97 to R100) -/

/-- The accumulator value the converter reads (R93). -/
def accValue (int : Bool) (unit : Int) (acc : Word) : FV :=
  if int then .fin (decide (acc.toInt < 0)) acc.toInt.natAbs unit else f32z acc

/-- Step 2 of R97: the value and whether clipping changed it. DESIGN CHOICE (log 115): the change sets no flag. -/
def clipTo (lo hi : Word) (y : FV) : FV × Bool :=
  if y.isNan then (y, false)
  else
    let h := f32z hi
    let l0 := f32z lo
    let l := if !l0.isNan && !h.isNan && h.lt l0 then h else l0
    if !l.isNan && y.lt l then (l, true)
    else if !h.isNan && h.lt y then (h, true)
    else (y, false)

/-- Output formats that are not MX. -/
def outFmt (c : Nat) : OutFmt :=
  match c with
  | 11 => .int 8
  | 12 => .int 32
  | _ => match fmtElem c with
    | some f => .flt f
    | none => .int 32

/-- The flags of a column whose value `y` of step 1 is infinite are those of an invalid result only: it sets no OF
(R94). DESIGN CHOICE (log 115): no NX and no UF either. -/
def Enc.under (x : Enc) (y : FV) : Enc := if y.isInf then { x with flags := x.flags &&& fNV } else x

/-- emax of an MX element format (R100). -/
def mxEmax (c : Nat) : Int :=
  match c with
  | 5 => 8 | 6 => 15 | 7 => 4 | 8 => 2 | 9 => 2 | _ => 0

/-- The largest finite element of an MX format. -/
def mxMax (c : Nat) : FV :=
  match fmtElem c with
  | some f => .fin false f.maxFin.1 f.maxFin.2
  | none => .fin false 127 (-6)

/-- One element of an MX block at scale exponent `k` = X − 127 (R100 steps 4 and 5); infinities under CLIP
take the largest value. DESIGN CHOICE (log 115): an MXINT8 element that rounds to zero sets NX and not UF, since the
format has no smallest normal. -/
def mxElem (c : Nat) (mode : RMode) (k : Int) (y : FV) : Enc :=
  match fmtElem c, y with
  | some f, .fin s m e =>
    if m = 0 then ⟨f.signBit s, 0, false⟩
    else
      let p := ulpExp (f.mb + 1) (if f.kept then some (1 - (f.bias : Int) - f.mb) else none) m (e - k)
      let r := roundUnit mode s m (e - k) p
      let nx := if r.2 then fNX else 0
      if r.1 = 0 then ⟨f.signBit s, fUF ||| nx, false⟩
      else if !magLe r.1 p f.maxFin.1 f.maxFin.2 then ⟨f.signBit s + f.maxCode, fOF ||| fNX, true⟩
      else if !f.kept && leadPos r.1 p < 1 - (f.bias : Int) then ⟨f.signBit s, fUF ||| fNX, false⟩
      else ⟨f.signBit s + f.pack r.1 p, nx, false⟩
  | some f, .inf s => ⟨f.signBit s + f.maxCode, 0, true⟩
  | some _, .nan => ⟨0, 0, false⟩
  | none, y => encodeOut (.int 8) true mode (y.scaleB (6 - k))

/-- The greater magnitude of two finite values. -/
def maxMag (a b : FV) : FV :=
  match a, b with
  | .fin _ m e, .fin _ n d => if magLe m e n d then .fin false n d else .fin false m e
  | .fin _ m e, _ => .fin false m e
  | _, .fin _ n d => .fin false n d
  | _, _ => .fin false 0 0

/-- An MX output block (R100): the scale and the columns. -/
def mxBlock (c : Nat) (clip : Bool) (modes : List RMode) (ys : List FV) : Nat × List Enc :=
  if ys.any FV.isNan || (!clip && ys.any FV.isInf) then
    (255, ys.map (fun _ => ⟨0, fNV, false⟩))
  else
    let amax := ys.foldl (fun a y => maxMag a (if y.isInf then mxMax c else y)) (.fin false 0 0)
    let x : Int := match amax with
      | .fin _ m e => if m = 0 then 0 else leadPos m e - mxEmax c + 127
      | _ => 0
    let x := if x < 0 then 0 else if 254 < x then 254 else x
    (x.toNat, (ys.zip modes).map (fun p => mxElem c p.2 (x - 127) p.1))

/-- The decoded value of an encoded output column, its MX scale included. -/
def decodeOut (c code x : Nat) : FV :=
  match c with
  | 12 => let i := sInt 32 code; .fin (decide (i < 0)) i.natAbs 0
  | _ => (laneValue c code x).1

/-! ## Statistics (R101 to R103) -/

/-- Adds a square to the exact sum `m × 2^e`. -/
def sqAdd (a : Nat × Int) (v : FV) : Nat × Int :=
  match v with
  | .fin _ m e =>
    if m = 0 then a
    else if a.1 = 0 then (m * m, 2 * e)
    else
      let z := min a.2 (2 * e)
      (alignTo z a.1 a.2 + alignTo z (m * m) (2 * e), z)
  | _ => a

/-- The larger of two AMAX codes. -/
def amaxOf (a b : Word) : Word := if (f32z a).lt (f32z b) then b else a

/-- AMAX of one value: |y| rounded to FP32. -/
def amaxCode (y : FV) : Word :=
  match y with
  | .fin _ m e => BitVec.ofNat 32 (fp32.encodeFlush .rne false m e).1
  | _ => 0

/-- The largest finite value of an output format (R103). -/
def outMax (c : Nat) : Nat × Int :=
  match c with
  | 11 => (127, 0)
  | 12 => (2 ^ 31 - 1, 0)
  | _ => match fmtElem c with
    | some f => f.maxFin
    | none => (127, 0)

/-- ⌊log2 (a ÷ b)⌋ of two magnitudes that are not 0. -/
def log2Div (m : Nat) (e : Int) (n : Nat) (d : Int) : Int :=
  let k := leadPos m e - leadPos n d
  let z := min e (d + k)
  if alignTo z n (d + k) ≤ alignTo z m e then k else k - 1

/-- A product held between 2^-126 and 2^127 (R103): the least bound for anything below it, zero and negative values
included. A NaN stays the canonical NaN. -/
def clampScale (v : FV) : Word :=
  if v.isNan then nan32
  else if v.lt (.fin false 1 (-126)) then 0x00800000
  else if (FV.fin false 1 127).lt v then 0x7F000000
  else (packF32 .rne v).1

/-- PROPOSAL (R103). A subnormal SCALE reads as zero (R95). -/
def proposal (outF : Nat) (perTensor : Bool) (scale amax : Word) (margin : Nat) : Word :=
  let s0 : Word := if perTensor then (packF32 .rne (f32z scale)).1 else 0x3F800000
  if fmtMx outF then s0
  else
    match f32z amax with
    | .fin _ n d =>
      if n = 0 then s0
      else
        let mx := outMax outF
        clampScale ((f32z s0).scaleB (log2Div mx.1 mx.2 n d - (margin : Int)))
    | _ => s0

end Sys2Proof.Machine
end

