-- ==== Sys2Proof/Machine/Array.lean ====
section
/-!
DEFINITION. Matrix arrays: commands, stationary sets, row acceptance, conversion, statistics, convolution
addressing and array errors (R56 to R83, R94 to R103).
-/

namespace Sys2Proof.Machine

/-! ## The command word (R64) -/

def MxCmd.rows (c : MxCmd) : Nat := bits c.w0.toNat 31 0
def MxCmd.src (c : MxCmd) : Nat := bits c.w0.toNat 39 32
def MxCmd.dst (c : MxCmd) : Nat := bits c.w0.toNat 47 40
def MxCmd.bank (c : MxCmd) : Nat := bits c.w0.toNat 52 48
def MxCmd.nbank (c : MxCmd) : Nat := bits c.w0.toNat 58 53
def MxCmd.mode (c : MxCmd) : Nat := bits c.w0.toNat 60 59
def MxCmd.convert (c : MxCmd) : Bool := bit c.w0.toNat 61
def MxCmd.swap (c : MxCmd) : Bool := bit c.w0.toNat 62
def MxCmd.loadBg (c : MxCmd) : Bool := bit c.w0.toNat 63
def MxCmd.inFmt (c : MxCmd) : Nat := bits c.w1.toNat 3 0
def MxCmd.wFmt (c : MxCmd) : Nat := bits c.w1.toNat 7 4
def MxCmd.outF (c : MxCmd) : Nat := bits c.w1.toNat 11 8
def MxCmd.stoch (c : MxCmd) : Bool := bit c.w1.toNat 12
def MxCmd.clip (c : MxCmd) : Bool := bit c.w1.toNat 13
def MxCmd.scaleSel (c : MxCmd) : Nat := bits c.w1.toNat 15 14
def MxCmd.biased (c : MxCmd) : Bool := bit c.w1.toNat 16
def MxCmd.tensor (c : MxCmd) : Nat := bits c.w1.toNat 23 17
def MxCmd.keepStats (c : MxCmd) : Bool := bit c.w1.toNat 24
def MxCmd.isConv (c : MxCmd) : Bool := bit c.w1.toNat 25
def MxCmd.bgAddr (c : MxCmd) : Nat := bits c.w1.toNat 46 32
def MxCmd.descAt (c : MxCmd) : Nat := bits c.w2.toNat 14 0
def MxCmd.cvtAt (c : MxCmd) : Nat := bits c.w2.toNat 29 15
def MxCmd.optag (c : MxCmd) : Nat := bits c.w3.toNat 31 0

/-- Formats of 4 and 6 bits, whose sets hold two tiles (R58, R59). -/
def fmtPair (c : Nat) : Bool := c == 7 || c == 8 || c == 9

/-- Elements of a row of an array (R58). -/
def rowElems (c : Nat) : Nat := if fmtPair c then 256 else 128

/-! ## The converter block (R95, R96) -/

def readWords (l : List Byte) (n : Nat) : List Word :=
  (List.range n).map (fun i => BitVec.ofNat 32 (fieldAt l (4 * i) 4))

/-- Reads the converter block with its columns. -/
def State.readConv (s : State) (die brick : Nat) (c : MxCmd) : Conv :=
  let b := s.rdBrick die brick (c.cvtAt * 64) 64
  let cols := s.rdBrick die brick (min (fieldAt b 4 2) 32760 * 64) 512
  let bias := s.rdBrick die brick (min (fieldAt b 6 2) 32760 * 64) 512
  { scale := BitVec.ofNat 32 (fieldAt b 0 4), colscale := readWords cols 128, bias := readWords bias 128,
    lo := BitVec.ofNat 32 (fieldAt b 8 4), hi := BitVec.ofNat 32 (fieldAt b 12 4),
    statsBase := min (fieldAt b 16 2) 32704, unit := sInt 8 (fieldAt b 18 1),
    margin := min (fieldAt b 19 1) 7 }

/-! ## The convolution descriptor (R79 to R81) -/

/-- The descriptor's fields as they stand in the tile store. -/
def readDesc (b : List Byte) : ConvDesc :=
  { inBase := fieldAt b 0 2, h := fieldAt b 2 2, w := fieldAt b 4 2, pixPitch := fieldAt b 6 2,
    linePitch := fieldAt b 8 4, outH := fieldAt b 12 2, outW := fieldAt b 14 2, kh := fieldAt b 16 1,
    kw := fieldAt b 17 1, tapR := fieldAt b 18 1, tapS := fieldAt b 19 1, strideH := fieldAt b 20 1,
    strideW := fieldAt b 21 1, dilH := fieldAt b 22 1, dilW := fieldAt b 23 1, padT := fieldAt b 24 1,
    padL := fieldAt b 25 1, padB := fieldAt b 26 1, padR := fieldAt b 27 1, images := fieldAt b 28 2,
    imgPitch := fieldAt b 30 2 }

/-- The most output lines that the input, padding, dilation, kernel and stride give (R81). DESIGN CHOICE (log 116): a
limit of zero or less, below the field's range, gives no line, so the command streams no row. -/
def outLimit (h pads dil k stride : Nat) : Nat :=
  (((h : Int) + pads - dil * ((k : Int) - 1) - 1) / (stride : Int) + 1).toNat

/-- Every field at the nearest bound of its range. -/
def ConvDesc.clamp (d : ConvDesc) : ConvDesc :=
  let d := { d with
    inBase := min d.inBase 32767, h := clampN 1 4096 d.h, w := clampN 1 4096 d.w,
    pixPitch := clampN 64 8192 d.pixPitch, linePitch := clampN 64 2097152 d.linePitch,
    outH := clampN 1 4096 d.outH, outW := clampN 1 4096 d.outW, kh := clampN 1 15 d.kh,
    kw := clampN 1 15 d.kw, strideH := clampN 1 8 d.strideH, strideW := clampN 1 8 d.strideW,
    dilH := clampN 1 8 d.dilH, dilW := clampN 1 8 d.dilW, padT := min d.padT 7, padL := min d.padL 7,
    padB := min d.padB 7, padR := min d.padR 7, images := max d.images 1 }
  { d with
    tapR := min d.tapR (d.kh - 1), tapS := min d.tapS (d.kw - 1),
    outH := min d.outH (outLimit d.h (d.padT + d.padB) d.dilH d.kh d.strideH),
    outW := min d.outW (outLimit d.w (d.padL + d.padR) d.dilW d.kw d.strideW) }

/-- Brick offset of row `k` of a convolution; none when it lies in the padding (R80). -/
def ConvDesc.rowAt (d : ConvDesc) (k : Nat) : Option Nat :=
  let ow := k % d.outW
  let oh := k / d.outW % d.outH
  let img := k / (d.outW * d.outH)
  let ih : Int := (oh * d.strideH + d.tapR * d.dilH : Nat) - (d.padT : Int)
  let iw : Int := (ow * d.strideW + d.tapS * d.dilW : Nat) - (d.padL : Int)
  if 0 ≤ ih ∧ ih < d.h ∧ 0 ≤ iw ∧ iw < d.w then
    some (d.inBase * 64 + img * d.imgPitch * 64 + ih.toNat * d.linePitch + iw.toNat * d.pixPitch)
  else none

/-- Rows a command streams (R64, R80). -/
def MxCmd.count (c : MxCmd) : Nat :=
  match c.desc with
  | some d => min c.rows (d.images * d.outH * d.outW)
  | none => c.rows

/-! ## Errors (R83) -/

/-- Captures an array error, or counts it while one is captured. -/
def State.mxaErr (s : State) (die brick kind optag : Nat) : State :=
  let a := lBrick die brick
  if s.getB R.MXA_ERR_VALID a then s.setF R.MXA_ERR_COUNT a (min (s.getF R.MXA_ERR_COUNT a + 1) 4095)
  else (((s.setF R.MXA_ERR_VALID a 1).setF R.MXA_ERR_KIND a kind).setF R.MXA_ERR_COUNT a 1).setF
    R.MXA_ERR_OPTAG a optag

/-! ## Sets and swaps (R59 to R63) -/

def ArraySt.fg (a : ArraySt) : MxSet := if a.fgB then a.setB else a.setA
def ArraySt.bg (a : ArraySt) : MxSet := if a.fgB then a.setA else a.setB
def ArraySt.withFg (a : ArraySt) (v : MxSet) : ArraySt :=
  if a.fgB then { a with setB := v } else { a with setA := v }
def ArraySt.withBg (a : ArraySt) (v : MxSet) : ArraySt :=
  if a.fgB then { a with setA := v } else { a with setB := v }

/-- Background contents that no load put there, as a swap finds them: poisoned (R63, R77). DESIGN CHOICE (log 116): its
rows bear cause 3h, the array's own. -/
def ArraySt.inSwapped (a : ArraySt) : MxSet := { a.bg with poison := 3 }

/-- Starts the background load of the current command. A load that replaces loaded contents discards them
(R63). -/
def ArraySt.startLoad (a : ArraySt) : ArraySt :=
  match a.cur with
  | some c =>
    if c.loadBg then { a with loading := some (c.bgAddr, c.wFmt, c.optag), bgValid := false } else a
  | none => a

/-- The exchange of foreground and background. Contents that no load put there are poisoned (R63). -/
def State.swapSets (s : State) (die brick : Nat) : State :=
  let a := s.array die brick
  let a1 := if a.bgValid then a else a.withBg a.inSwapped
  let a2 := { a1 with fgB := !a1.fgB, bgValid := false, swapPending := false }
  let s := s.setArray die brick a2.startLoad
  let s := if a.bgValid then s
    else s.mxaErr die brick 6 (match a.cur with | some c => c.optag | none => 0)
  let l := lBrick die brick
  ((s.setF R.MXA_GATE_VK l a2.fg.vk).setF R.MXA_GATE_VN l a2.fg.vn).bump R.MXA_CMDCNT_SWAPS l

/-! ## Retirement: the statistics entry (R101 to R103) -/

def satAdd32 (a b : Nat) : Nat := min (a + b) (2 ^ 32 - 1)

/-- The entry after a command's own figures are combined into it. -/
def statsEntry (c : MxCmd) (b : List Byte) : List Byte :=
  let amax := amaxOf (BitVec.ofNat 32 (fieldAt b 0 4)) c.stats.amax
  let sum := fp32.encodeLane .rne
    (FV.add false (f32z (BitVec.ofNat 32 (fieldAt b 4 4))) (.fin false c.stats.sumM c.stats.sumE))
  toLe 4 amax.toNat ++ toLe 4 sum.1 ++ toLe 4 (satAdd32 (fieldAt b 8 4) c.stats.nonfin)
    ++ toLe 4 (satAdd32 (fieldAt b 12 4) c.stats.clips)
    ++ toLe 4 (fieldAt b 16 4 % 16 ||| c.stats.flags.toNat)
    ++ toLe 4 (proposal c.outF (c.scaleSel == 1) c.conv.scale amax c.conv.margin).toNat
    ++ toLe 4 (satAdd32 (fieldAt b 24 4) c.stats.rows) ++ toLe 4 0

/-- A command retires in the array: its statistics entry, its count. -/
def State.mxaRetire (s : State) (die brick : Nat) (c : MxCmd) : State :=
  let o := c.conv.statsBase * 64 + c.tensor * 32
  let s := if c.keepStats then
      s.wrBrick die brick o (statsEntry c (s.rdBrick die brick o 32))
    else s
  s.bump R.MXA_CMDCNT_CMDS (lBrick die brick)

/-! ## Command begin -/

/-- The next queued command becomes current: its swap waits for SWAP, its load starts when it has no
swap. A command with no row to stream retires when it comes up. -/
def beginNext (die brick : Nat) : List MxCmd → State → State
  | [], s => s.setArray die brick { s.array die brick with cur := none, queue := [] }
  | c :: rest, s =>
    let a := { s.array die brick with cur := some c, queue := rest, swapPending := c.swap }
    let a := if c.swap then a else a.startLoad
    let s := s.setArray die brick a
    if c.count = 0 ∧ ¬ c.swap then beginNext die brick rest (s.mxaRetire die brick c) else s

/-- Ends the current command and begins the next. -/
def State.endCommand (s : State) (die brick : Nat) (c : MxCmd) : State :=
  let s := s.mxaRetire die brick c
  beginNext die brick (s.array die brick).queue s

/-- A command as the array takes it: what it reads at issue (R79, R96), its clamped descriptor counted. -/
def State.readCmd (s : State) (die brick : Nat) (w0 w1 w2 w3 : U64) : MxCmd × State :=
  let c : MxCmd := { w0, w1, w2, w3 }
  let c := { c with conv := s.readConv die brick c }
  if c.isConv then
    let d := readDesc (s.rdBrick die brick (c.descAt * 64) 32)
    ({ c with desc := some d.clamp },
      if d = d.clamp then s else s.bump R.MXA_DCLAMP_COUNT (lBrick die brick))
  else (c, s)

/-- The scheduler slice issues a command to the array. One with ROWS 0 is never issued (R69). -/
def State.mxaIssue (s : State) (die brick : Nat) (w0 w1 w2 w3 : U64) : State :=
  if bits w0.toNat 31 0 = 0 then s
  else
    let (c, s) := s.readCmd die brick w0 w1 w2 w3
    let a := s.array die brick
    match a.cur with
    | some _ => s.setArray die brick { a with queue := a.queue ++ [c] }
    | none => beginNext die brick [c] s

/-! ## The drain (R71, R74, R75) -/

/-- The stream to which a port of the brick's array is bound. -/
def State.arrayPort (s : State) (die brick port : Nat) : Option PortDecl :=
  mget (mgetD s.bricks (brickKey die brick) {}).ports port

/-- A column group (bit `g`) whose drain is ready gives its part of the oldest row that it still holds (R75). -/
def groupSend (g : Nat) : List DrainRow → List DrainRow
  | [] => []
  | r :: rest => if bit r.sent g then r :: groupSend g rest else { r with sent := r.sent ||| 2 ^ g } :: rest

/-- Rows of which a column group still holds its part. -/
def groupHeld (g : Nat) (l : List DrainRow) : Nat := (l.filter (fun r => !bit r.sent g)).length

/-- Every column group of a row has given its part. -/
def DrainRow.whole (r : DrainRow) : Bool := r.sent == 255

/-- Sends drained rows while their streams take them; in ELASTIC mode a row goes once every group has given its
part. -/
def drainRows (die brick pan : Nat) (elastic : Bool) : List DrainRow → State → State
  | [], s => s.setArray die brick { s.array die brick with drain := [] }
  | p :: rest, s =>
    match (s.arrayPort die brick p.port).bind (fun b => (s.pan pan).stream b.stream) with
    | none => drainRows die brick pan elastic rest s
    | some d =>
      if canEmit d (s.rows pan d.idx) && (p.whole || !elastic) then
        drainRows die brick pan elastic rest (s.emit pan d.idx p.row)
      else s.setArray die brick { s.array die brick with drain := p :: rest }

/-- One cycle of the drain, in which the column groups of `ready` give what they hold. -/
def State.drainArray (s : State) (die brick ready : Nat) : State :=
  match s.owner die brick with
  | some pan =>
    let l := (List.range 8).foldl (fun l g => if bit ready g then groupSend g l else l) (s.array die brick).drain
    drainRows die brick pan (s.getB R.MXA_MODE_EFFECTIVE (lBrick die brick)) l s
  | none => s

/-- The drain takes another row: a queue of 16 rows in SERVICE mode, no group with 4 rows in its elastic buffer in
ELASTIC mode (R74, R75). DESIGN CHOICE (log 116): the elastic buffers are all that holds rows in ELASTIC mode. -/
def State.drainRoom (s : State) (die brick : Nat) : Bool :=
  let l := (s.array die brick).drain
  if s.getB R.MXA_MODE_EFFECTIVE (lBrick die brick) then (List.range 8).all (fun g => decide (groupHeld g l < 4))
  else decide (l.length < 16)

/-- A row enters the drain: in ELASTIC mode its column groups hold it, in SERVICE mode the queue does. -/
def State.toDrain (s : State) (die brick port : Nat) (r : Row) : State :=
  let a := s.array die brick
  s.setArray die brick { a with drain := a.drain ++
    [{ port := port, row := r, sent := if s.getB R.MXA_MODE_EFFECTIVE (lBrick die brick) then 0 else 255 }] }

/-! ## Row operands -/

/-- The unmasked elements of a row: the first `vk` of `n`, decoded with their MX scales (R87, R89). -/
def rowLanes (fmt n vk : Nat) (data : List Byte) : List (FV × Bool) :=
  let w := fmtBits fmt
  let side := data.drop (ceilDiv (n * w) 8)
  (List.range vk).map (fun i => laneValue fmt (packedAt w i data) (nth side (i / 32) 0).toNat)

/-- Element (i, j) of a set. -/
def MxSet.lane (t : MxSet) (i j : Nat) : FV × Bool :=
  laneValue t.fmt (nth t.codes (i * 128 + j) 0) (nth t.scales (i / 128 * 512 + j * 4 + i % 128 / 32) 0)

/-- The lanes of column `j` under a row. -/
def MxSet.column (t : MxSet) (row : List (FV × Bool)) (j : Nat) : Lanes :=
  row.zipIdx.map (fun p => (p.1, t.lane p.2 j))

/-! ## The converter (R97 to R101) -/

/-- Step 1 of R97 for column `j`. -/
def MxCmd.value (c : MxCmd) (int : Bool) (acc : Word) (j : Nat) : FV :=
  let sc : FV := match c.scaleSel with
    | 1 => f32z c.conv.scale
    | 2 => f32z (nth c.conv.colscale j 0)
    | _ => .fin false 1 0
  let y := (accValue int c.conv.unit acc).mul sc
  if c.biased then FV.add false y (f32z (nth c.conv.bias j 0)) else y

/-- What the converter gives for one row: codes, MX scales, flags, and the values of step 1 with clipping
marks. -/
structure ConvRow where
  codes : List Nat
  scales : List Nat
  flags : Nat
  ys : List FV
  clipped : List Bool
deriving DecidableEq, Repr

/-- Converts the first columns of a row. -/
def MxCmd.convertRow (c : MxCmd) (int : Bool) (accs : List Word) (modes : List RMode) : ConvRow :=
  let ys := accs.zipIdx.map (fun p => c.value int p.1 p.2)
  let cl := ys.map (fun y => if c.clip then clipTo c.conv.lo c.conv.hi y else (y, false))
  if fmtMx c.outF then
    let ms := chunks 32 4 modes
    let bs := (chunks 32 4 (cl.map (·.1))).zipIdx.map (fun b => mxBlock c.outF c.clip (nth ms b.2 []) b.1)
    let es := ((bs.flatMap (·.2)).zip ys).map (fun p => p.1.under p.2)
    { codes := es.map (·.code), scales := bs.map (·.1),
      flags := es.foldl (fun f e => f ||| e.flags) 0, ys := ys,
      clipped := (cl.zip es).map (fun p => p.1.2 || p.2.clipped) }
  else
    let es := ((cl.zip modes).zip ys).map (fun p => (encodeOut (outFmt c.outF) c.clip p.1.2 p.1.1.1).under p.2)
    { codes := es.map (·.code), scales := [], flags := es.foldl (fun f e => f ||| e.flags) 0, ys := ys,
      clipped := (cl.zip es).map (fun p => p.1.2 || p.2.clipped) }

/-- A row's figures enter the command's statistics. -/
def CmdStats.add (t : CmdStats) (outF : Nat) (r : ConvRow) : CmdStats :=
  let fin := r.ys.filter (fun y => !y.isNan && !y.isInf)
  let sq := r.codes.zipIdx.foldl
    (fun a p => sqAdd a (decodeOut outF p.1 (nth r.scales (p.2 / 32) 0))) (t.sumM, t.sumE)
  { amax := fin.foldl (fun a y => amaxOf a (amaxCode y)) t.amax, sumM := sq.1, sumE := sq.2,
    nonfin := satAdd32 t.nonfin (r.ys.length - fin.length),
    clips := satAdd32 t.clips (r.clipped.filter id).length,
    flags := t.flags ||| BitVec.ofNat 4 (bankFlags r.flags), rows := satAdd32 t.rows 1 }

/-! ## Sticky flags (R94, R105) -/

/-- Sets flags of an accumulator bank. -/
def State.bankSet (s : State) (die brick bank fl : Nat) : State :=
  let f := if bank < 16 then R.MXA_FLAGS0_BANKS else R.MXA_FLAGS1_BANKS
  let a := lBrick die brick
  s.setF f a (s.getF f a ||| bankFlags fl * 2 ^ (4 * (bank % 16)))

/-! ## Row acceptance -/

/-- What the feed offers: the row's bytes, how many elements they hold, its poison cause and the error it
brings, and whether every lane is masked. -/
structure Feed where
  data : List Byte
  n : Nat
  cause : Nat := 0
  err : Nat := 0
  masked : Bool := false
deriving DecidableEq, Repr

/-- The next row of the current command: from the convolution generator, or from the source port. -/
def State.feedRow (s : State) (die brick : Nat) (c : MxCmd) : Option Feed :=
  match c.desc with
  | some d =>
    let n := rowElems c.inFmt
    match d.rowAt c.row with
    | none => some { data := [], n := n, masked := true }
    | some o =>
      let k := rowBytes c.inFmt n
      if 0x200000 < o + k then some { data := [], n := n, cause := 3, err := 5 }
      else some { data := s.rdBrick die brick o k, n := n }
  | none =>
    match s.arrayPort die brick c.src, s.owner die brick with
    | some b, some pan =>
      match (s.pan pan).stream b.stream, nextRow (s.rows pan b.stream) b.station with
      | some d, some r =>
        some { data := r.data, n := d.width, cause := if r.cause = 0 then 0 else 5,
               err := if r.cause = 0 then 0 else 3 }
      | _, _ => none
    | _, _ => none

/-- The row leaves its stream. -/
def State.takeFeed (s : State) (die brick : Nat) (c : MxCmd) : State :=
  match c.desc, s.arrayPort die brick c.src, s.owner die brick with
  | none, some b, some pan =>
    match (s.pan pan).stream b.stream with
    | some d => s.takeRow pan b.stream b.station d
    | none => s
  | _, _, _ => s

/-- Draws `n` free words. -/
def State.drawWords (s : State) (n : Nat) : List Word × State :=
  ((List.range n).map (fun i => (Config.freeWord (s.free + i)).setWidth 32), { s with free := s.free + n })

/-- The accumulator words of row `r` in columns below `vn`. -/
def ArraySt.accRow (a : ArraySt) (r vn : Nat) : List Word :=
  (List.range vn).map (fun j => mgetD a.acc (r * 128 + j) 0)

def setAccRow (m : AMap Word) (r : Nat) (ws : List Word) : AMap Word :=
  ws.zipIdx.foldl (fun m p => mset m (r * 128 + p.2) 0 p.1) m

/-- The accumulator row of row `k` of a command (R67). -/
def MxCmd.accAt (c : MxCmd) : Nat := c.bank * 128 + c.row % (max c.nbank 1 * 128)

def MxCmd.isInt (c : MxCmd) : Bool := fmtInt c.inFmt && fmtInt c.wFmt

/-- The merge of every column of a row: new words and flags. -/
def MxCmd.mergeRow (c : MxCmd) (t : MxSet) (f : Feed) (old : List Word) : List (Word × Nat) :=
  let row := if f.masked then [] else rowLanes c.inFmt f.n t.vk f.data
  old.zipIdx.map (fun p =>
    let lanes := t.column row p.2
    if c.isInt then mergeInt (c.mode == 1) c.conv.unit p.1 lanes else merge (c.mode == 1) p.1 lanes)

/-- Poison cause of the row in this command, 0 when it is clean (R77, R78). -/
def MxCmd.poisonOf (c : MxCmd) (a : ArraySt) (f : Feed) (accError : Nat) : Nat :=
  if accError = 2 then 3
  else if f.cause ≠ 0 then f.cause
  else if a.fg.poison ≠ 0 then a.fg.poison
  else if a.fg.fmt ≠ c.wFmt then 3
  else if c.mode = 1 ∧ a.accPoison.contains c.accAt then 5
  else 0

/-- Rounding modes of the columns of a converted row; STOCH takes whisk words (R98, R165). -/
def State.takeModes (s : State) (die brick : Nat) (c : MxCmd) (vn : Nat) : List RMode × State :=
  if c.stoch then
    let (ws, s) := s.takeWords (convLane die brick) (ceilDiv vn 2)
    ((ws.flatMap (fun w => [RMode.stoch (w % 65536), RMode.stoch (w / 65536)])).take vn, s)
  else (List.replicate vn .rne, s)

/-- The output row of a conversion. -/
def State.outRow (s : State) (die : Nat) (c : MxCmd) (vn cause epoch : Nat) (data : List Byte) : Row :=
  let e := s.board die (c.optag % 4096)
  mkRow c.outF vn cause c.optag e.mb e.slice epoch data

/-- Bytes of an output row: 128 columns, zero at and beyond VN, and the MX scales (R72, R87). -/
def rowData (outF : Nat) (codes scales : List Nat) : List Byte :=
  packCodes (fmtBits outF) (codes ++ List.replicate (128 - codes.length) 0)
    ++ (if fmtMx outF then
          (scales ++ List.replicate (4 - scales.length) 0).map (fun x => BitVec.ofNat 8 x)
        else [])

/-- A clean row: merge, flags, conversion, statistics. -/
def State.acceptClean (s : State) (die brick : Nat) (c : MxCmd) (f : Feed) : State :=
  let a := s.array die brick
  let t := a.fg
  let ms := c.mergeRow t f (a.accRow c.accAt t.vn)
  let ws := ms.map (·.1)
  let s := s.bankSet die brick (c.accAt / 128) (ms.foldl (fun g m => g ||| m.2) 0)
  let s := s.setArray die brick { a with
    acc := setAccRow a.acc c.accAt ws
    accPoison := if c.mode = 1 then a.accPoison else a.accPoison.filter (fun r => r ≠ c.accAt) }
  if c.convert then
    let (modes, s) := s.takeModes die brick c t.vn
    let r := c.convertRow c.isInt ws modes
    let s := s.bankSet die brick (c.accAt / 128) r.flags
    let out := s.outRow die c t.vn 0 t.epoch (rowData c.outF r.codes r.scales)
    let s := s.toDrain die brick c.dst out
    s.setArray die brick { s.array die brick with cur := some { c with stats := c.stats.add c.outF r } }
  else s

/-- A poisoned row: its values are undefined, its words are consumed (R77, R165). -/
def State.acceptPoison (s : State) (die brick : Nat) (c : MxCmd) (cause : Nat) : State :=
  let a := s.array die brick
  let t := a.fg
  let (ws, s) := s.drawWords t.vn
  let s := s.setArray die brick { a with
    acc := setAccRow a.acc c.accAt ws
    accPoison := c.accAt :: a.accPoison.filter (fun r => r ≠ c.accAt) }
  if c.convert then
    let (_, s) := s.takeModes die brick c t.vn
    let (bs, s) := s.drawBytes (rowBytes c.outF 128)
    let s := s.toDrain die brick c.dst (s.outRow die c t.vn cause t.epoch bs)
    match s.owner die brick with
    | some p => s.poisonOut p die cause
    | none => s
  else s

/-- The next row is accepted and the command moves on; after its last row it retires. -/
def State.acceptRow (s : State) (die brick accError : Nat) (c : MxCmd) (f : Feed) : State :=
  let l := lBrick die brick
  let a := s.array die brick
  let s := s.takeFeed die brick c
  let s := s.bump R.MXA_ROWCNT_ROWS l
  let s := if accError = 1 then s.bump R.MXA_ECC_ACCFIX l else s
  let s := if accError = 2 then s.mxaErr die brick 2 c.optag else s
  let s := if f.err ≠ 0 then s.mxaErr die brick f.err c.optag else s
  let p := c.poisonOf a f accError
  let s := if p = 0 then s.acceptClean die brick c f else s.acceptPoison die brick c p
  let a := s.array die brick
  let c' := { (a.cur.getD c) with row := c.row + 1 }
  let s := s.setArray die brick { a with cur := some c', arrived := 0 }
  let s := if c'.count ≤ c'.row then s.endCommand die brick c' else s
  s.drainArray die brick 0

/-! ## The background load (R63, R77, R78) -/

/-- Bytes of one tile: elements and sidecar (R87). -/
def tileElemBytes (fmt : Nat) : Nat := 128 * 128 * fmtBits fmt / 8
def tileBytes (fmt : Nat) : Nat := tileElemBytes fmt + (if fmtMx fmt then 512 else 0)

/-- The set that a tile at a tile-store offset holds: the header, then each tile's elements and
sidecar. -/
def State.readSet (s : State) (die brick off fmt : Nat) : TileHdr × MxSet :=
  let h := readHeader (s.rdBrick die brick off 32)
  let two := h.paired && fmtPair fmt
  let tiles := if two then [0, 1] else [0]
  let w := fmtBits fmt
  let raw (t : Nat) : List Byte := s.rdBrick die brick (off + 32 + t * tileBytes fmt) (tileBytes fmt)
  let codesOf (l : List Byte) : List Nat := (List.range 16384).map (fun i => packedAt w i l)
  let scalesOf (l : List Byte) : List Nat :=
    if fmtMx fmt then (l.drop (tileElemBytes fmt)).map (·.toNat) else []
  (h, { fmt := fmt, paired := two, vk := h.vrows, vn := min h.vcols 128, epoch := h.epoch,
        codes := tiles.flatMap (fun t => codesOf (raw t)),
        scales := tiles.flatMap (fun t => scalesOf (raw t)) })

/-- A load of the background set completes. A tile whose header does not check is poisoned with cause 6h (R112).
DESIGN CHOICE (log 116): of several errors of one load the format mismatch is captured first, then the tile's poison,
then the parity error. -/
def State.loadDone (s : State) (die brick : Nat) (parity : Bool) : State :=
  let a := s.array die brick
  match a.loading with
  | none => s
  | some (addr, fmt, optag) =>
    let (h, set) := s.readSet die brick (addr * 64) fmt
    let bad := decide (h.fmt ≠ fmt)
    let s := if bad then s.mxaErr die brick 7 optag else s
    let s := if h.poison then s.mxaErr die brick 4 optag else s
    let s := if parity then
        (s.mxaErr die brick 1 optag).bump R.MXA_ECC_PARITY (lBrick die brick)
      else s
    let set := if bad then { set with codes := [], scales := [] } else set
    let set := { set with poison := if bad || parity then 3 else if h.cause = 6 then 6 else if h.poison then 5 else 0 }
    s.setArray die brick { a.withBg set with bgValid := true, loading := none }

/-! ## The mode (R76) -/

/-- Whether a requested mode is applied at once: the brick is fenced or in no pan. -/
def State.modeNow (s : State) (die brick : Nat) : Bool :=
  match s.owner die brick with
  | none => true
  | some p => decide ((s.pan p).st = .fenced)

/-- Brings the requested mode into force. -/
def State.applyMode (s : State) (die brick : Nat) : State :=
  let l := lBrick die brick
  (s.setF R.MXA_MODE_EFFECTIVE l (s.getF R.MXA_MODE_ELASTIC l)).setF R.MXA_MODE_PENDING l 0

/-- A new requested mode. While self-test fences the brick the mode in force stays ELASTIC. -/
def State.requestMode (s : State) (die brick v : Nat) : State :=
  let s := s.setF R.MXA_MODE_ELASTIC (lBrick die brick) v
  if s.bistOn die brick || !s.modeNow die brick then s.setF R.MXA_MODE_PENDING (lBrick die brick) 1
  else s.applyMode die brick

/-! ## The commands -/

/-- A word of a command template with OPTAG in place. -/
def withOptag (w3 : U64) (optag : Nat) : U64 := BitVec.ofNat 64 (w3.toNat / 2 ^ 32 * 2 ^ 32 + optag)

/-- The fields of a template that the scheduler slice does not fill in. -/
def sameTemplate (t : U64 × U64 × U64 × U64) (w0 w1 w2 w3 : U64) : Bool :=
  t.1 >>> 32 == w0 >>> 32 && t.2.1 == w1 && t.2.2.1 == w2 && t.2.2.2 >>> 32 == w3 >>> 32

/-- The station whose template a command comes from (R64). -/
def Pan.stationOf (p : Pan) (w0 w1 w2 w3 : U64) : Option StationDecl :=
  p.cfg.stations.find? (fun d => d.templates.any (fun t => sameTemplate t w0 w1 w2 w3))

/-- A command of the scheduler slice. On a brick of a pan it is an operation of the station whose template it comes
from: the step is released, an entry is taken, and OPTAG is filled in (R64, R113, R115, R120). -/
def State.mxaCommand (s : State) (die brick : Nat) (w0 w1 w2 w3 : U64) : State :=
  match s.owner die brick with
  | none => s.mxaIssue die brick w0 w1 w2 w3
  | some p =>
    let b := s.pan p
    let e : ScoreEntry :=
      { pan := p, step := b.step, brick := brick, isArray := true
        station := match b.stationOf w0 w1 w2 w3 with
          | some d => d.idx
          | none => 4096 }
    if b.running die && s.quotaFree p die then
      match s.takeEntry die e with
      | some (tag, s) => s.mxaIssue die brick w0 w1 w2 (withOptag w3 tag)
      | none => s
    else s

/-- MXA_COMMAND (R64). -/
def execMxaCommand (die brick : Nat) (w0 w1 w2 w3 : U64) (s : State) : Out :=
  need (isBrick die brick) "brick" (.next (if s.bistOn die brick then s else s.mxaCommand die brick w0 w1 w2 w3))

/-- The swap of the current command: performed once no load is in progress, else its wait is counted. -/
def State.swapTry (s : State) (die brick cycles : Nat) : State :=
  let a := s.array die brick
  if !a.swapPending then s
  else if a.loading.isSome then s.bump R.MXA_WAIT_SWAPWAIT (lBrick die brick) cycles
  else
    let s := (s.bump R.MXA_WAIT_SWAPWAIT (lBrick die brick) cycles).swapSets die brick
    match a.cur with
    | some c => if c.count = 0 then s.endCommand die brick c else s
    | none => s

/-- SWAP (R61, R63). -/
def execSwap (die brick cycles : Nat) (s : State) : Out :=
  need (isBrick die brick) "brick" (.next (s.swapTry die brick cycles))

/-- BACKGROUND_LOAD_DONE (R63, R77, R78). -/
def execBackgroundLoadDone (die brick : Nat) (parity : Bool) (s : State) : Out :=
  need (isBrick die brick) "brick" (.next (s.loadDone die brick parity))

/-- A parity error found in the foreground set: the set is poisoned and the error recorded (R77, R78). -/
def State.fgParity (s : State) (die brick : Nat) : State :=
  let a := s.array die brick
  ((s.setArray die brick (a.withFg { a.fg with poison := 3 })).mxaErr die brick 1
    (match a.cur with | some c => c.optag | none => 0)).bump R.MXA_ECC_PARITY (lBrick die brick)

/-- A row in ELASTIC mode: its segments arrive, and it is accepted once all have and no elastic buffer is full (R75). -/
def State.rowElastic (s : State) (die brick accError segs : Nat) (c : MxCmd) : State :=
  let stall (s : State) : State := s.bump R.MXA_WAIT_STALL (lBrick die brick)
  match s.feedRow die brick c with
  | none => stall s
  | some f =>
    let a := s.array die brick
    let got := (a.arrived ||| segs) % 256
    let s := s.setArray die brick { a with arrived := got }
    if got = 255 ∧ s.drainRoom die brick then s.acceptRow die brick accError c f else stall s

/-- A row in SERVICE mode: it is accepted, or a bubble takes its place (R74). DESIGN CHOICE (log 116): a cycle with an
empty feed and a full drain is one bubble of the feed. -/
def State.rowService (s : State) (die brick accError : Nat) (c : MxCmd) : State :=
  match s.feedRow die brick c with
  | none => s.bump R.MXA_BUBBLE_FEED (lBrick die brick)
  | some f =>
    if s.drainRoom die brick then s.acceptRow die brick accError c f else s.bump R.MXA_BUBBLE_DRAIN (lBrick die brick)

/-- One cycle in which the array takes its next row (R56, R74, R75): the segments of the row that arrive, the column
groups whose drain is ready, a parity error of the foreground set. -/
def State.rowTry (s : State) (die brick accError : Nat) (parity : Bool) (segs groups : Nat) : State :=
  let s := s.drainArray die brick groups
  let s := if parity then s.fgParity die brick else s
  let a := s.array die brick
  match a.cur with
  | none => s
  | some c =>
    if a.swapPending then s
    else if s.getB R.MXA_MODE_EFFECTIVE (lBrick die brick) then s.rowElastic die brick accError segs c
    else s.rowService die brick accError c

/-- ROW_ACCEPT (R56). -/
def execRowAccept (die brick accError : Nat) (parity : Bool) (segs groups : Nat) (s : State) : Out :=
  need (isBrick die brick) "brick" (.next (s.rowTry die brick accError parity segs groups))

end Sys2Proof.Machine
end

