-- ==== Sys2Proof/Machine/Flash.lean ====
section
/-!
DEFINITION. The flash translation layer: blocks, mapping, relocation, bad blocks and spare (R247).
-/

namespace Sys2Proof.Machine

def unitBytes : Nat := 16384
/-- Logical units, one page each, that a block holds (R246). -/
def blockUnits : Nat := 4096

def State.flash (s : State) (fd : Nat) : Flash := mgetD s.tier.flash fd {}
def State.setFlash (s : State) (fd : Nat) (f : Flash) : State :=
  { s with tier := { s.tier with flash := mput s.tier.flash fd f } }

/-- Trained channels of a fabric die. -/
def State.channels (s : State) (fd : Nat) : Nat :=
  ((List.range 8).filter (fun c => s.getF R.NVT_CHSTAT_STATE (lIdx fd c) = 2)).length

/-- The fabric die that holds a logical unit: units are striped over all trained channels (R230). -/
def State.unitDie (s : State) (u : Nat) : Nat :=
  let a := s.channels 18
  let n := a + s.channels 19
  if n = 0 then 18 else if u % n < a then 18 else 19

def Flash.block (f : Flash) (b : Nat) : FlashBlock := mgetD f.blocks b {}

def FlashBlock.good (b : FlashBlock) : Bool := !b.retired && !b.factory

/-- Blocks free for data, other than `no`: good and empty, lowest erase count first, then lowest number. -/
def Flash.freeBlock (f : Flash) (no : Nat) : Option Nat :=
  let c := (List.range f.raw).filter (fun b => b ≠ no ∧ (f.block b).good ∧ (f.block b).units.isEmpty)
  c.foldl (fun m b => match m with
    | none => some b
    | some x => if (f.block b).erase < (f.block x).erase then some b else some x) none

/-- Good blocks beyond the logical capacity. -/
def Flash.spare (f : Flash) : Nat :=
  f.raw - (f.blocks.filter (fun b => !b.2.good)).length - f.logical

/-- A block erased: its count rises, its pages are free again. -/
def FlashBlock.erased (b : FlashBlock) : FlashBlock :=
  { b with erase := b.erase + 1, reads := 0, retries := 0, next := 0, units := [], ring := none }

/-- A free block as it takes data: erased when it has pages programmed. -/
def FlashBlock.opened (b : FlashBlock) (ring : Option Nat) : FlashBlock :=
  { (if b.next = 0 then b else b.erased) with ring := ring }

/-- The next page of a block is programmed with a unit. -/
def FlashBlock.program (b : FlashBlock) (u : Nat) : FlashBlock :=
  { b with units := mput b.units b.next u, next := b.next + 1 }

/-! ### The map and its segments -/

/-- Units of one 4 MiB segment of 8-byte entries. -/
def segUnits : Nat := 524288

/-- The segments that units belong to. -/
def segsOf (l : List Nat) : List Nat := (l.map (· / segUnits)).eraseDups

/-- The segments of some units rebuilt in the shadow, with the units' new blocks. -/
def Flash.rebuild (f : Flash) (l : AMap Nat) : Flash :=
  let segs := segsOf (l.map (·.1))
  { f with shadow := l.foldl (fun m x => mput m x.1 x.2) (f.map.filter (fun x => segs.contains (x.1 / segUnits))) }

/-- The pointer flip in the segment directory: the shadow of each rebuilt segment is the committed one (R128). -/
def Flash.flip (f : Flash) : Flash :=
  { f with
    map := f.shadow.foldl (fun m x => mput m x.1 x.2) f.map
    select := (segsOf (f.shadow.map (·.1))).foldl (fun m g => mput m g (1 - mgetD m g 0)) f.select
    shadow := [] }

/-- Units have moved to a block: their segments are rebuilt and committed. -/
def Flash.remap (f : Flash) (us : List Nat) (b : Nat) : Flash := (f.rebuild (us.map (fun u => (u, b)))).flip

/-- The data of a block goes to another block; the map names the new place. `erased` counts an erase of
the old block. -/
def Flash.relocate (f : Flash) (b : Nat) (erased : Bool) : Flash :=
  let old := f.block b
  let blank : FlashBlock := if erased then old.erased else { old with units := [], reads := 0, retries := 0 }
  if old.units.isEmpty then { f with blocks := mput f.blocks b blank }
  else
    match f.freeBlock b with
    | none => f
    | some t =>
      let us := old.units.map (·.2)
      let new := us.foldl FlashBlock.program ((f.block t).opened old.ring)
      ({ f with blocks := mput (mput f.blocks b blank) t new, seq := f.seq + us.length }).remap us t

/-- The block that takes the next unit written: one with room for data of its ring, or of none; else a free one. -/
def Flash.openBlock (f : Flash) (ring : Option Nat) : Option (Nat × FlashBlock) :=
  match f.blocks.find? (fun b => b.2.good ∧ b.2.ring = ring ∧ b.2.next ≠ 0 ∧ b.2.next < blockUnits) with
  | some b => some b
  | none => (f.freeBlock f.raw).map (fun b => (b, (f.block b).opened ring))

/-- The mover writes a logical unit: the old page is no longer valid. -/
def Flash.writeUnit (f : Flash) (ring : Option Nat) (u : Nat) : Flash :=
  let f := match mget f.map u with
    | some b => { f with blocks := mmod f.blocks b (fun x => { x with units := x.units.filter (fun y => y.2 ≠ u) }) }
    | none => f
  match f.openBlock ring with
  | none => f
  | some (b, x) =>
    ({ f with blocks := mput f.blocks b (x.program u), seq := f.seq + 1, hostPages := f.hostPages + 1 }).remap [u] b

/-- The map as the pages' spare bytes give it, which a rebuild before READY reads (R247). -/
def Flash.scan (f : Flash) : Flash :=
  { f with map := f.blocks.foldl (fun m b => b.2.units.foldl (fun m x => mput m x.2 b.1) m) [], shadow := [] }

/-- The mover writes a range of flash: every unit it touches is programmed, into blocks of the ring whose data it is. -/
def State.flashTouch (s : State) (ring : Option Nat) (off n : Nat) : State :=
  if n = 0 then s
  else forEach (List.range ((off + n - 1) / unitBytes + 1 - off / unitBytes)) s (fun s i =>
    let u := off / unitBytes + i
    s.setFlash (s.unitDie u) ((s.flash (s.unitDie u)).writeUnit ring u))

/-- The mover reads a range: each block counts its reads. -/
def State.flashRead (s : State) (off n : Nat) : State :=
  if n = 0 then s
  else forEach (List.range ((off + n - 1) / unitBytes + 1 - off / unitBytes)) s (fun s i =>
    let u := off / unitBytes + i
    let f := s.flash (s.unitDie u)
    match mget f.map u with
    | some b => s.setFlash (s.unitDie u) { f with blocks := mmod f.blocks b (fun x => { x with reads := x.reads + 1 }) }
    | none => s)

/-- Flash takes no writes: the tier of one of its dies is read-only (R247). -/
def State.flashClosed (s : State) : Bool := s.getB R.NVT_SPACE_READONLY (lDie 18) || s.getB R.NVT_SPACE_READONLY (lDie 19)

/-- Spare of a fabric die after a change: the alarm below 1 % of raw, READONLY below 0.25 %. -/
def State.flashSpare (s : State) (fd : Nat) : State :=
  let f := s.flash fd
  let s := s.setF R.NVT_SPACE_SPARE_PM (lDie fd) (f.spare * 1000 / max f.raw 1)
  let s := if f.spare * 100 < f.raw then s.alarm Kind.flashSpareLow 0xFF (alarmKey fd 0) else s
  if f.spare * 400 < f.raw then s.setF R.NVT_SPACE_READONLY (lDie fd) 1 else s

/-- Lowest and highest erase counts of the good blocks. -/
def State.flashWear (s : State) (fd : Nat) : State :=
  let f := s.flash fd
  let es := (f.blocks.filter (fun b => b.2.good)).map (·.2.erase)
  let lo := if es.length < f.raw then 0 else es.foldl min (es.headD 0)
  (s.setF R.NVT_WEAR_MINEC (lDie fd) (min lo 65535)).setF R.NVT_WEAR_MAXEC (lDie fd)
    (min (es.foldl max 0) 65535)

/-- Whether the rules of R247 call for a block's relocation: wear, read disturb or read retries. -/
def State.flashDue (s : State) (fd b : Nat) : Bool :=
  let x := (s.flash fd).block b
  decide (x.erase + s.getF R.NVT_WEAR_SPREAD (lDie fd) < s.getF R.NVT_WEAR_MAXEC (lDie fd))
    || decide (s.getF R.NVT_DISTURB_READS (lDie fd) ≤ x.reads) || decide (4 < x.retries)

/-- FLASH_RELOCATE (R247). -/
def execFlashRelocate (fd block : Nat) (s : State) : Out :=
  need (isFabric fd) "fabric die" (whenThere (decide (block < (s.flash fd).raw)) s (.next (
    if s.flashDue fd block then (s.setFlash fd ((s.flash fd).relocate block true)).flashWear fd else s)))

/-- FLASH_PROGRAM_FAIL (R247): the block retires and its data is written elsewhere. -/
def execFlashProgramFail (fd block : Nat) (s : State) : Out :=
  need (isFabric fd) "fabric die" (whenThere (decide (block < (s.flash fd).raw)) s (.next (
    let f := (s.flash fd).relocate block false
    let f := { f with blocks := mput f.blocks block { f.block block with retired := true } }
    ((s.setFlash fd f).bump R.NVT_BAD_GROWN (lDie fd)).flashSpare fd)))

end Sys2Proof.Machine
end

