-- ==== Sys2Proof/Machine/Replay.lean ====
section
/-!
DEFINITION. Replay rings: records, blocks, staging, the draw engine and priority updates (R207 to R222).
-/

namespace Sys2Proof.Machine

/-! ## Priorities (R208, R222) -/

/-- A priority in units of 2^−16, and whether it was NaN or negative. -/
def prioUnits (p : Nat) : Nat × Bool :=
  match f32z (BitVec.ofNat 32 p) with
  | .nan => (0, true)
  | .inf s => if s then (0, true) else (0xFFFFFFFF, false)
  | .fin s m e =>
    if s && m ≠ 0 then (0, true)
    else (min (roundUnit .rne false m e (-16)).1 0xFFFFFFFF, false)

/-- EXP_RPRIO.DEFAULT as FP32. -/
def defaultPrio (u : Nat) : Nat := (fp32.encodeFlush .rne false u (-16)).1

/-! ## The applied action of a port world (R208) -/

/-- An element of an action vector as INT32, with saturation; NaN gives 0. -/
def toIndex (fmt : Nat) (l : List Byte) (i : Nat) : Nat :=
  if fmt = 12 then fieldAt l (4 * i) 4
  else
    let c := if fmt = 1 then fieldAt l (2 * i) 2 * 65536 else fieldAt l (4 * i) 4
    match f32z (BitVec.ofNat 32 c) with
    | .nan => 0
    | _ => (f32ToInt .rne true (BitVec.ofNat 32 c)).1.toNat

/-- An element of an action vector as FP32. -/
def toF32 (fmt : Nat) (l : List Byte) (i : Nat) : Nat :=
  match fmt with
  | 12 => (intToF32 .rne true (BitVec.ofNat 32 (fieldAt l (4 * i) 4))).1.toNat
  | 1 => fieldAt l (2 * i) 2 * 65536
  | _ => fieldAt l (4 * i) 4

/-- A port's action vector as an ACTION row of `n` bytes; format codes of R65. -/
def actionRow (fmt : Nat) (discrete : Bool) (n : Nat) (v : List Byte) : List Byte :=
  if discrete then fitTo n (toLe 4 (toIndex fmt v 0))
  else
    let k := v.length / (if fmt = 1 then 2 else 4)
    fitTo n ((List.range k).flatMap (fun i => toLe 4 (toF32 fmt v i)))

/-! ## A world's part of a record -/

/-- What a record writer takes from the rows of one world (R207 to R209): payload rows, the fields of STATS, the value, the
priority row when a stream is bound, the first poison cause. -/
structure RecordIn where
  world : Nat
  payload : List Byte := []
  logp : Nat := 0
  entropy : Nat := 0
  noadmit : Bool := false
  value : Nat := 0
  prio : Option Nat := none
  cause : Nat := 0
deriving DecidableEq, Repr

/-- What the writer needs of a world: generation, class, episode, reward, done, trunc, fallback, first, and
the applied action that replaces the row when the action was a fallback. -/
structure WorldRow where
  gen : Nat
  cls : Nat
  episode : Nat
  reward : Word
  done : Bool
  trunc : Bool
  fallback : Bool
  first : Bool
  applied : Option (List Byte) := none
deriving DecidableEq, Repr

/-- The port world that has an index in a pan, with its number. -/
def State.portWorld (s : State) (pan w : Nat) : Option World :=
  (s.wpt.worlds.find? (fun x => x.2.pan = pan ∧ x.2.inPan = w ∧ x.2.st ≠ .detached)).map (·.2)

/-- Whether the pan's PORT station that a world uses serves a discrete SAMPLE station. -/
def Pan.discretePort (p : Pan) : Bool := p.cfg.stations.any (fun d => d.kind = 1 ∧ d.discrete)

/-- A world's row in a step; none when it gives the pan no row. -/
def State.worldRow (s : State) (pan : Nat) (r : RecordIn) (rowLen : Nat) : Option WorldRow :=
  let p := s.pan pan
  match p.worlds.find? (fun d => d.decl.world = r.world) with
  | some d =>
    let fb := decide (r.cause ≠ 0)
    some { gen := d.gen, cls := 0, episode := d.episode, reward := d.reward, done := d.done,
           trunc := d.trunc, fallback := fb, first := d.first
           applied := if fb then some (s.rdBrick d.decl.die d.decl.brick d.decl.actSlot rowLen) else none }
  | none =>
    match s.portWorld pan r.world with
    | none => none
    | some w =>
      if !w.row || w.given.isNone then none
      else
        let v := w.verdict
        let fb := match v with | some x => x.code != 0 | none => false
        let aux := match w.given with | some g => g.aux | none => 0
        some { gen := w.gen, cls := if w.sched.live then 2 else 1, episode := w.episode
               reward := match w.given with | some g => g.reward | none => 0
               done := bit aux 4, trunc := bit aux 5, fallback := fb, first := false
               applied := if fb then
                   v.map (fun x => actionRow w.sched.actFmt p.discretePort rowLen x.payload)
                 else none }

/-! ## The record header (R207) -/

structure RecHdr where
  wgen : Nat
  world : Nat
  pan : Nat
  flags : Nat
  step : Nat
  epoch : Nat
  logp : Nat
  reward : Nat
  value : Nat
  entropy : Nat
  episode : Nat
  paylen : Nat
  prio : Nat
  pos : Nat
  ws : Nat
  cause : Nat
deriving DecidableEq, Repr

/-- The first 60 bytes. -/
def RecHdr.body (h : RecHdr) : List Byte :=
  toLe 4 h.wgen ++ toLe 2 h.world ++ toLe 1 h.pan ++ toLe 1 h.flags ++ toLe 8 h.step ++ toLe 4 h.epoch
    ++ toLe 4 h.logp ++ toLe 4 h.reward ++ toLe 4 h.value ++ toLe 4 h.entropy ++ toLe 4 h.episode
    ++ toLe 4 h.paylen ++ toLe 4 h.prio ++ toLe 8 h.pos ++ toLe 1 h.ws ++ toLe 1 h.cause ++ toLe 2 0

/-- The 64 bytes; an unfinished record's CRC does not match (R215). -/
def RecHdr.bytes (h : RecHdr) (whole : Bool) : List Byte :=
  let c := crc32 h.body
  h.body ++ toLe 4 (if whole then c else ~~~c).toNat

def readRec (l : List Byte) : RecHdr :=
  { wgen := fieldAt l 0 4, world := fieldAt l 4 2, pan := fieldAt l 6 1, flags := fieldAt l 7 1,
    step := fieldAt l 8 8, epoch := fieldAt l 16 4, logp := fieldAt l 20 4, reward := fieldAt l 24 4,
    value := fieldAt l 28 4, entropy := fieldAt l 32 4, episode := fieldAt l 36 4, paylen := fieldAt l 40 4,
    prio := fieldAt l 44 4, pos := fieldAt l 48 8, ws := fieldAt l 56 1, cause := fieldAt l 57 1 }

def recCrcOk (l : List Byte) : Bool := decide ((crc32 (l.take 60)).toNat = fieldAt l 60 4)

/-- POS (R211). -/
def recPos (stripe k w : Nat) : Nat := stripe * 2 ^ 60 + k % 2 ^ 44 * 65536 + w

/-! ## Places (R210, R214) -/

/-- Records of the staging positions before a stripe's share. -/
def RingSt.shareBase (r : RingSt) (i : Nat) : Nat :=
  ((List.range i).map (fun j => r.share j * (r.stripe j).worlds)).foldl (· + ·) 0

/-- Where a record's bytes stand: space and offset; a T3 ring's stand in staging until their block is on
flash. -/
def RingSt.recAt (r : RingSt) (i k w : Nat) : Nat × Nat :=
  let b := (r.stripe i).worlds
  let j := k % max 1 (stripeBlocks (r.stripe i))
  let home := r.decl.dataBase + (r.stripeBase i + j * b + w) * r.decl.slot
  if r.decl.tier = 3 ∧ ¬ r.onFlash.contains (blockKey i j) then
    (2, r.decl.stageBase + (r.shareBase i + k % r.share i * b + w) * r.decl.slot)
  else (r.decl.tier, home)

def RingSt.place (r : RingSt) (i k w : Nat) : Nat :=
  r.stripeBase i + k % max 1 (stripeBlocks (r.stripe i)) * (r.stripe i).worlds + w

def RingSt.block (r : RingSt) (i j : Nat) : BlockEntry := mgetD r.blocks (blockKey i j) {}

/-! ## Opening a block (R213, R214) -/

/-- What has come of the claim of a block's staging position on another device: none when it has not been sent. -/
def RingSt.claimOf (r : RingSt) (i k : Nat) : Option Nat :=
  ((mget r.claims i).filter (fun c => c.1 = k)).map (·.2)

/-- Block k of a stripe finds its staging position held. -/
def RingSt.stageFull (r : RingSt) (i k : Nat) : Bool :=
  decide (r.decl.tier = 3) &&
    (if r.decl.host.isSome then decide (r.claimOf i k = some 2) else (mget r.staged (blockKey i (k % r.share i))).isSome)

/-- The block a stripe's step writes is entered: the old block leaves the ring, staging is claimed, RECORDS
takes the new block's count. -/
def State.openBlock (s : State) (ring i step ws epoch : Nat) : State :=
  match s.ring ring with
  | none => s
  | some r =>
    let d := r.stripe i
    let k := mgetD r.nextK i 0
    let j := k % max 1 (stripeBlocks d)
    let old := r.block i j
    let r' := r.zeroLeaves i j
    let pos := blockKey i (k % r.share i)
    let full := r.stageFull i k
    let b : BlockEntry :=
      { epoch := epoch, stepLo := step % 2 ^ 32, block := k, st := if full then .dead else .writing
        ws := ws, count := d.worlds, dropped := full }
    let s := s.setRing ring { r' with
      blocks := mput r'.blocks (blockKey i j) b
      nextK := mput r'.nextK i (k + 1)
      openK := mput r'.openK i (k, step)
      onFlash := r'.onFlash.filter (fun x => x ≠ blockKey i j)
      staged := if r.decl.tier = 3 ∧ r.decl.host.isNone ∧ !full then mput r'.staged pos k else r'.staged }
    let s := if old.st = .committed then s.subRecords old.ws old.epoch d.worlds else s
    if !full then s.addRecords ws epoch d.worlds
    else if r.decl.host.isSome then s
    else s.bump R.EXP_RWAIT_DROPS r.loc

/-! ## Entries that writers on other devices write (R210, R213) -/

/-- STATE of a block entry's code. -/
def blockRun : Nat → BlockRun
  | 1 => .writing | 2 => .committed | 3 => .dead | _ => .empty

/-- Entries of `size` bytes from `base` that a write covers whole. -/
def entriesIn (size base count off len : Nat) : List Nat :=
  let lo := ceilDiv (off - base) size
  ((List.range ((off + len - base) / size - lo)).map (· + lo)).filter (fun i => i < count)

/-- A block entry as its writer wrote it: a block that leaves the ring or dies takes its priorities out of the tree. -/
def RingSt.takeBlock (r : RingSt) (i j : Nat) (b : List Byte) : RingSt :=
  let old := r.block i j
  let new : BlockEntry :=
    { epoch := fieldAt b 0 4, stepLo := fieldAt b 4 4, block := fieldAt b 8 6, st := blockRun (fieldAt b 14 1)
      ws := fieldAt b 15 1, count := (r.stripe i).worlds }
  let r := if new.st = .dead ∨ new.block ≠ old.block then r.zeroLeaves i j else r
  { r with
    onFlash := if new.block ≠ old.block then r.onFlash.filter (fun x => x ≠ blockKey i j) else r.onFlash
    blocks := mput r.blocks (blockKey i j) new
    nextK := mput r.nextK i (max (mgetD r.nextK i 0) (new.block + 1))
    committedTotal := r.committedTotal + (if new.st = .committed ∧ old.st ≠ .committed then (r.stripe i).worlds else 0) }

/-- An index entry as its writer wrote it. -/
def RingSt.takeIndex (r : RingSt) (place : Nat) (b : List Byte) : RingSt :=
  let u := fieldAt b 8 4
  { r with index := mput r.index place { wgen := fieldAt b 0 4, flags := fieldAt b 4 1, prio := u, leaf := u } }

/-- A block entry that enters a block as DEAD: its position was still held (R214). -/
def RingSt.drops (r : RingSt) (i j : Nat) (b : List Byte) : Bool :=
  let old := r.block i j
  blockRun (fieldAt b 14 1) == .dead && (old.block != fieldAt b 8 6 || old.st == .empty)

/-- A state word as its writer's compare-and-swap left it (R214). -/
def RingSt.takeWord (r : RingSt) (key v : Nat) : RingSt :=
  { r with staged := if v = 0 then mdel r.staged key else mput r.staged key (v - 1) }

/-- What a write to HBM changes in a ring's block map, index and state words. -/
def State.ringTouched (s : State) (n off len : Nat) : State :=
  match s.ring n with
  | none => s
  | some r =>
    if r.decl.host.isSome then s
    else
      let others := r.stripeIdx.filter (fun i => !r.mine i)
      let entry (i j : Nat) : List Byte := s.rdTier 1 (r.blockAt (blockKey i j)) 16
      let blocks (i : Nat) : List Nat := entriesIn 16 (r.blockAt (blockKey i 0)) (stripeBlocks (r.stripe i)) off len
      let places := (entriesIn 16 r.decl.indexBase (r.stripeBase r.decl.stripes.length) off len).filter
        (fun p => !r.mine (r.stripeOf p))
      let words (i : Nat) : List Nat :=
        if r.decl.tier = 3 then (entriesIn 8 (r.stateAt (blockKey i 0)) (r.share i) off len).map (blockKey i) else []
      let drops := sumBy others (fun i => ((blocks i).filter (fun j => r.drops i j (entry i j))).length)
      let r := others.foldl (fun (r : RingSt) i => (blocks i).foldl (fun (r : RingSt) j => r.takeBlock i j (entry i j)) r) r
      let r := places.foldl (fun (r : RingSt) p => r.takeIndex p (s.rdTier 1 (r.indexAt p) 16)) r
      let r := (others.flatMap words).foldl (fun (r : RingSt) x => r.takeWord x (fieldAt (s.rdTier 1 (r.stateAt x) 8) 0 8)) r
      (s.setRing n r).bump R.EXP_RWAIT_DROPS r.loc drops

/-- A WRITE or an ATOMIC of another device reaches HBM. -/
def State.hbmTouched (s : State) (off len : Nat) : State :=
  forEach (s.rings.map (·.1)) s (fun s n => s.ringTouched n off len)

/-! ## Writing a record (R208, R211, R215) -/

/-- The payload with the applied action in place of the action row. -/
def withAction (lens : List Nat) (action : Nat) (payload : List Byte) (a : Option (List Byte)) : List Byte :=
  match a with
  | none => payload
  | some v =>
    let o := (lens.take action).foldl (· + ·) 0
    let n := nth lens action 0
    payload.take o ++ fitTo n v ++ payload.drop (o + n)

/-- Bytes of each payload row. -/
def Pan.payLens (p : Pan) (st : StationDecl) (d : RecordDecl) : List Nat :=
  (payStreams st d).map (fun i => ((p.stream i).map (fun x => rowBytes x.fmt x.width)).getD 0)

/-- The writer's die (R211). -/
def Pan.writerDie (p : Pan) (w : Nat) : Nat := nth p.dies (w % max 1 p.dies.length) 0

/-- Enters a record's index entry and its priority in the tree. -/
def State.setIndex (s : State) (ring place wgen flags prio : Nat) : State :=
  match s.ring ring with
  | none => s
  | some r =>
    let (u, bad) := prioUnits prio
    let s := s.setRing ring { r with
      index := mput r.index place { wgen := wgen, flags := flags, prio := u, leaf := u } }
    if bad then s.bump R.EXP_RMISS_BADPRIO r.loc else s

/-- FLAGS of R207. -/
def recFlags (x : WorldRow) (done trunc poison noadmit : Bool) : Nat :=
  b2n done + 2 * b2n trunc + 4 * b2n x.first + 8 * b2n poison + 16 * b2n x.fallback + 32 * b2n noadmit
    + 64 * x.cls

/-- Writes one record of the open block. `whole` is false on a strided stripe. -/
def State.writeRecord (s : State) (pan : Nat) (d : RecordDecl) (lens : List Nat) (k : Nat) (r : RecordIn)
    (x : WorldRow) : State :=
  match s.ring d.ring with
  | none => s
  | some g =>
    let p := s.pan pan
    let whole := (g.stripe d.stripe).stride ≤ 1
    let poison := decide (r.cause ≠ 0)
    let prio := match r.prio with
      | some v => v
      | none => defaultPrio (s.getF R.EXP_RPRIO_DEFAULT g.loc)
    let fl := recFlags x (x.done && decide whole) (x.trunc && decide whole) poison r.noadmit
    let h : RecHdr :=
      { wgen := x.gen, world := r.world, pan := pan, flags := fl, step := p.step, epoch := p.epoch,
        logp := if x.fallback then 0xFF800000 else r.logp,
        reward := if whole then x.reward.toNat else 0, value := r.value, entropy := r.entropy,
        episode := x.episode % 2 ^ 32, paylen := d.paylen, prio := prio,
        pos := recPos d.stripe k r.world, ws := p.cfg.ws, cause := r.cause }
    let (sp, off) := g.recAt d.stripe k r.world
    let place := g.place d.stripe k r.world
    let s := s.ringWrite g d.stripe sp (off + 64) (fitTo d.paylen (withAction lens d.action r.payload x.applied))
    let s := s.ringWrite g d.stripe sp off (h.bytes whole)
    let s := if g.decl.host.isSome then s
      else
        let s := s.wrote g.decl.home pan sp off (64 + d.paylen) (.record d.ring d.stripe k r.world)
        (if sp = 1 then s.narrow off 64 else s).narrow (g.indexAt place) 16
    let s := s.bump R.EXP_WCOUNT_RECORDS (lDie (p.writerDie r.world))
    let s := if poison then s.bump R.EXP_WPOISON_COUNT (lDie (p.writerDie r.world)) else s
    if whole then s.setIndex d.ring place x.gen fl prio
    else s.setRing d.ring { g with
      partials := g.partials ++ [(d.stripe, r.world)]
      heads := if g.decl.host.isSome then mput g.heads place (h.bytes false) else g.heads }

/-- Completes a strided record (R215). -/
def State.completeRecord (s : State) (ring stripe k w : Nat) (reward : Nat) (done trunc : Bool) (cause : Nat) :
    State :=
  match s.ring ring with
  | none => s
  | some g =>
    let (sp, off) := g.recAt stripe k w
    let place := g.place stripe k w
    let h := readRec (if g.decl.host.isSome then mgetD g.heads place [] else s.rdTier sp off 64)
    let fl := h.flags ||| b2n done ||| 2 * b2n trunc ||| 8 * b2n (decide (cause ≠ 0))
    let h := { h with reward := reward, flags := fl, cause := if cause = 0 then h.cause else cause }
    let s := s.setRing ring { g with
      partials := g.partials.filter (fun x => x ≠ (stripe, w)), heads := mdel g.heads place }
    let s := if cause = 0 then s
      else s.bump R.EXP_WPOISON_COUNT (lDie ((s.pan (g.stripe stripe).pan).writerDie w))
    (s.ringWrite g stripe sp off (h.bytes true)).setIndex ring place h.wgen fl h.prio

/-- The open block of a pan's stripe, opened when the step has none. -/
def State.stepBlock (s : State) (pan : Nat) (d : RecordDecl) : State :=
  let p := s.pan pan
  match s.ring d.ring with
  | none => s
  | some g =>
    match mget g.openK d.stripe with
    | some (_, st) => if st = p.step then s else s.openBlock d.ring d.stripe p.step p.cfg.ws p.epoch
    | none => s.openBlock d.ring d.stripe p.step p.cfg.ws p.epoch

/-- The record of one world in one step: written in a recorded step, completed in the step after on a strided
stripe. -/
def State.recordStep (s : State) (pan : Nat) (d : RecordDecl) (lens : List Nat) (r : RecordIn) : State :=
  match s.ring d.ring with
  | none => s
  | some g =>
    let p := s.pan pan
    let stride := max 1 (g.stripe d.stripe).stride
    match s.worldRow pan r (nth lens d.action 0) with
    | none => s
    | some x =>
      if p.step % stride = 0 then
        let s := s.stepBlock pan d
        match s.ring d.ring with
        | none => s
        | some g =>
          let k := (mgetD g.openK d.stripe (0, 0)).1
          if (g.block d.stripe (k % max 1 (stripeBlocks (g.stripe d.stripe)))).dropped then s
          else s.writeRecord pan d lens k r x
      else if g.partials.contains (d.stripe, r.world) then
        s.completeRecord d.ring d.stripe (mgetD g.openK d.stripe (0, 0)).1 r.world x.reward.toNat x.done x.trunc
          r.cause
      else s

/-- The row of a stream numbered `n` of a micro-batch, as a RECORD station takes it. -/
def State.recordRow (s : State) (pan : Nat) (st : StationDecl) (mb n i : Nat) : Option Row :=
  rowNumbered (s.rows pan i) st.idx mb n

/-- What the writer takes of a world: one row of each input stream; none while one is missing. -/
def State.recordIn (s : State) (pan : Nat) (st : StationDecl) (d : RecordDecl) (mb n w : Nat) : Option RecordIn :=
  let row (i : Nat) : Option Row := s.recordRow pan st mb n i
  let of (i : Option Nat) : Row := (i.bind row).getD {}
  if st.inputs.all (fun i => (row i).isSome) then
    let p := s.pan pan
    let x := of d.stats
    let vf := ((d.value.bind p.stream).map (·.fmt)).getD 0
    some {
      world := w
      payload := ((payStreams st d).zip (p.payLens st d)).flatMap (fun y => fitTo y.2 (of (some y.1)).data)
      logp := fieldAt x.data 0 4, entropy := fieldAt x.data 4 4, noadmit := bit (fieldAt x.data 12 4) 0
      value := if d.value.isSome then toF32 vf (of d.value).data 0 else 0
      prio := d.prio.map (fun i => fieldAt (of (some i)).data 0 4)
      cause := ((st.inputs.map (fun i => (of (some i)).cause)).find? (fun c => c != 0)).getD 0 }
  else none

/-- The rows of a world leave the station's streams. -/
def State.takeRecord (s : State) (pan : Nat) (st : StationDecl) (mb n : Nat) : State :=
  forEach st.inputs s (fun s i =>
    match (s.pan pan).stream i with
    | some d => s.takeThe pan i st.idx d (fun x => x.hdr.mb == mb && rowNum x == n)
    | none => s)

/-- The claim that must be made or answered before a step's first record is written: the ring is T3 and another device
holds it, the world has a row, and the step has no open block yet (R214). -/
def State.claimDue (s : State) (pan : Nat) (d : RecordDecl) (r : RecordIn) : Option (RingSt × Nat) :=
  (s.ring d.ring).bind (fun g =>
    let step := (s.pan pan).step
    let k := mgetD g.nextK d.stripe 0
    if g.decl.host.isSome ∧ g.decl.tier = 3 ∧ (s.worldRow pan r 0).isSome ∧ step % max 1 (g.stripe d.stripe).stride = 0 ∧
        !(mget g.openK d.stripe).any (fun x => x.2 == step) ∧ (g.claimOf d.stripe k).getD 0 = 0 then some (g, k)
    else none)

/-- The compare-and-swap of a claim is sent, once: from 0 to k + 1, on the position's state word. -/
def State.sendClaim (s : State) (pan : Nat) (d : RecordDecl) (g : RingSt) (k : Nat) : State :=
  if (g.claimOf d.stripe k).isSome then s
  else (s.setRing d.ring { g with claims := mput g.claims d.stripe (k, 0) }).issue
    { device := g.decl.host.getD 0, space := 1, offset := g.stateAt (blockKey d.stripe (k % g.share d.stripe)), type := 0x23
      vc := 2, len := 16, op := 0x31, job := g.job, jobgen := (s.job g.job).gen, payload := toLe 8 (k + 1) ++ toLe 8 0 }
    (.claim pan d.ring d.stripe k)

/-- The answer to a claim: the word as it stood, or none when the request ended without one. -/
def State.claimAnswer (s : State) (ring i k : Nat) (old : Option Nat) : State :=
  match s.ring ring with
  | none => s
  | some g =>
    if g.claimOf i k = some 0 then
      s.setRing ring { g with claims := mput g.claims i (k, if old = some 0 ∨ old = some (k + 1) then 1 else 2) }
    else s

/-- The port has given its verdict on the world's action, where one is due (R325). -/
def State.verdictIn (s : State) (pan w : Nat) : Bool :=
  match s.portWorld pan w with
  | some x => !x.row || x.given.isNone || x.verdict.isSome
  | none => true

/-- RECORD_WRITE (R211): one operation of the writer's die for the next world of the station. -/
def execRecordWrite (pan station : Nat) (s : State) : Out :=
  whenThere (s.hasStation pan station 7) s (.next (
    let p := s.pan pan
    match p.station station with
    | none => s
    | some st =>
      let (mb, n) := p.nextDraw st
      match st.record, (p.rowsOf st)[n]? with
      | some d, some w =>
        match s.recordIn pan st d mb n w with
        | some r =>
          if s.verdictIn pan w then
            match s.claimDue pan d r with
            | some (g, k) => s.sendClaim pan d g k
            | none => s.withEntry (p.writerDie w) pan st mb (n / p.split) (fun _ s =>
                (s.takeRecord pan st mb n).recordStep pan d (p.payLens st d) r)
          else s
        | none => s
      | _, _ => s))

/-! ## The commit at a boundary (R213, R215, R216) -/

/-- One open block commits, or is DEAD when its epoch is RETRACTED, RETIRED or no longer in the table. -/
def State.commitBlock (s : State) (ring i k : Nat) : State :=
  match s.ring ring with
  | none => s
  | some g =>
    let d := g.stripe i
    let j := k % max 1 (stripeBlocks d)
    let b := g.block i j
    let s := s.setRing ring { g with openK := mdel g.openK i }
    if b.st ≠ .writing ∨ b.block ≠ k then s
    else
      match s.ring ring with
      | none => s
      | some g =>
        match s.epochState b.ws b.epoch with
        | .retracted | .retired | .free =>
          (s.setRing ring (g.kill i j)).subRecords b.ws b.epoch d.worlds
        | _ =>
          s.setRing ring { g with
            blocks := mput g.blocks (blockKey i j) { b with st := .committed }
            committedTotal := g.committedTotal + d.worlds }

/-- The records of a strided stripe that no row completed are completed as truncated (R215). -/
def State.closePartials (s : State) (ring i k : Nat) : State :=
  match s.ring ring with
  | none => s
  | some g =>
    forEach (g.partials.filter (fun x => x.1 = i)) s (fun s x => s.completeRecord ring i k x.2 0 false true 0)

/-- Action 1 of R20 for the blocks of a pan at the boundary that ends a step. -/
def State.commitBlocks (s : State) (pan step : Nat) : State :=
  forEach (s.rings.map (·.1)) s (fun s ring =>
    match s.ring ring with
    | none => s
    | some g =>
      forEach (List.range g.decl.stripes.length) s (fun s i =>
        match mget g.openK i with
        | none => s
        | some (k, st) =>
          if (g.stripe i).pan ≠ pan then s
          else if (g.stripe i).stride ≤ 1 then s.commitBlock ring i k
          else if st < step then (s.closePartials ring i k).commitBlock ring i k
          else s))

/-! ## Eviction to flash (R214) -/

/-- First byte of a held position in the staging region, and the bytes of its block. -/
def RingSt.stageSpan (g : RingSt) (key : Nat) : Nat × Nat :=
  let d := g.stripe (keyStripe key)
  ((g.shareBase (keyStripe key) + keySlot key * d.worlds) * g.decl.slot, d.worlds * g.decl.slot)

def extentBytes : Nat := 1048576

/-- The extents that a held position reaches into. -/
def RingSt.extentsOf (g : RingSt) (key : Nat) : List Nat :=
  let (a, n) := g.stageSpan key
  (List.range ((a + n - 1) / extentBytes + 1)).filter (fun e => decide (a / extentBytes ≤ e))

/-- The block staged at a position is still written, or claimed and not entered yet. -/
def RingSt.stillWritten (g : RingSt) (key k : Nat) : Bool :=
  let b := g.block (keyStripe key) (k % max 1 (stripeBlocks (g.stripe (keyStripe key))))
  decide (b.block < k) || (b.block == k && (b.st == .writing || b.st == .empty))

/-- The part of a held position that lies in an extent goes to flash. The position is released once all of it has. -/
def State.evictPart (s : State) (ring extent key k : Nat) : State :=
  match s.ring ring with
  | none => s
  | some g =>
    let i := keyStripe key
    let j := k % max 1 (stripeBlocks (g.stripe i))
    let cur := decide ((g.block i j).block = k)
    let (a, n) := g.stageSpan key
    let lo := max a (extent * extentBytes)
    let len := min (a + n) ((extent + 1) * extentBytes) - lo
    let to_ := g.decl.dataBase + (g.stripeBase i + j * (g.stripe i).worlds) * g.decl.slot + (lo - a)
    let s := if cur then (s.wrTier 3 to_ (s.rdTier 2 (g.decl.stageBase + lo) len)).flashTouch (some ring) to_ len else s
    let done := extent :: mgetD g.carried key []
    if (g.extentsOf key).all done.contains then
      s.setRing ring { g with
        staged := mdel g.staged key, carried := mdel g.carried key
        onFlash := if cur then blockKey i j :: g.onFlash else g.onFlash }
    else s.setRing ring { g with carried := mput g.carried key done }

/-- An extent is carried to flash once every record in it belongs to a COMMITTED or DEAD block. -/
def State.evict (s : State) (ring extent : Nat) : State :=
  match s.ring ring with
  | none => s
  | some g =>
    let l := g.staged.filter (fun x => (g.extentsOf x.1).contains extent)
    if l.any (fun x => g.stillWritten x.1 x.2) then s
    else if s.flashClosed then s.bump R.MOV_ERR_ECC (lDie g.decl.home)
    else forEach (l.filter (fun x => !(mgetD g.carried x.1 []).contains extent)) s
      (fun s (x : Nat × Nat) => s.evictPart ring extent x.1 x.2)

/-- STAGING_EVICTION (R214). -/
def execStagingEviction (ring extent : Nat) (s : State) : Out :=
  whenThere ((s.ring ring).isSome) s (.next (s.evict ring extent))

/-! ## Visibility (R216) -/

/-- The header of a record and whether the record is visible. -/
def State.visibleRec (s : State) (g : RingSt) (i k w : Nat) : Bool × List Byte :=
  let b := g.block i (k % max 1 (stripeBlocks (g.stripe i)))
  let (sp, off) := g.recAt i k w
  let h := s.rdTier sp off 64
  let x := mgetD g.index (g.place i k w) {}
  (decide (b.st = .committed) && decide (b.block = k) && decide (s.epochState b.ws b.epoch = .confirmed)
    && !bit x.flags 3 && recCrcOk h && decide ((readRec h).pos = recPos i k w), h)

/-! ## Draws (R218 to R221) -/

/-- The COMMITTED blocks of a stripe in ascending absolute number. -/
def RingSt.committedIn (r : RingSt) (i : Nat) : List Nat :=
  sortBy (fun a b => decide (a ≤ b))
    ((r.blocks.filter (fun b => keyStripe b.1 = i ∧ b.2.st = .committed)).map (·.2.block))

/-- Committed records of a stripe. -/
def RingSt.countIn (r : RingSt) (i : Nat) : Nat := (r.committedIn i).length * (r.stripe i).worlds

/-- Committed records of a ring. -/
def RingSt.fill (r : RingSt) : Nat := (r.stripeIdx.map r.countIn).foldl (· + ·) 0

/-- Record slots in DEAD blocks. -/
def RingSt.deadSlots (r : RingSt) : Nat :=
  ((r.blocks.filter (fun b => b.2.st = .dead)).map (fun b => (r.stripe (keyStripe b.1)).worlds)).foldl (· + ·) 0

/-- The record of an index over the committed records: stripe, block, world. -/
def RingSt.nthRecord (r : RingSt) : List Nat → Nat → Option (Nat × Nat × Nat)
  | [], _ => none
  | i :: rest, n =>
    if n < r.countIn i then
      let b := (r.stripe i).worlds
      some (i, nth (r.committedIn i) (n / b) 0, n % b)
    else r.nthRecord rest (n - r.countIn i)

/-- The tree's total. -/
def RingSt.total (r : RingSt) : Nat := (r.index.foldl (fun (t : Int) (e : Nat × IdxEntry) => t + e.2.leaf) 0).toNat

/-- The leaf at which the running sum passes a target. -/
def leafAt : AMap IdxEntry → Int → Option Nat
  | [], _ => none
  | (p, e) :: rest, t => if t < e.leaf then some p else leafAt rest (t - e.leaf)

/-- Stripe, block and world of a place. -/
def RingSt.atPlace (r : RingSt) (p : Nat) : Option (Nat × Nat × Nat) :=
  match r.stripeIdx.find? (fun i => r.stripeBase i ≤ p ∧ p < r.stripeBase i + (r.stripe i).cap) with
  | none => none
  | some i =>
    let o := p - r.stripeBase i
    let b := max 1 (r.stripe i).worlds
    some (i, (r.block i (o / b)).block, o % b)

/-- The 48-bit values of a segment's words. -/
def drawValues (ws : List Nat) : List Nat :=
  (List.range 4).map (fun i => nth ws (2 * i) 0 / 256 * 2 ^ 24 + nth ws (2 * i + 1) 0 / 256)

/-- The candidates of a segment in order. -/
def RingSt.candidates (r : RingSt) (prio : Bool) (ws : List Nat) : List (Nat × Nat × Nat) :=
  (drawValues ws).filterMap (fun x =>
    if prio then (leafAt r.index ((x * r.total / 2 ^ 48 : Nat) : Int)).bind r.atPlace
    else r.nthRecord r.stripeIdx (x * r.fill / 2 ^ 48))

/-- One row of a DRAW: header, payload, META; whether it is masked. -/
structure DrawRow where
  header : List Byte
  payload : List Byte
  info : List Byte
  masked : Bool
deriving DecidableEq, Repr

/-- META bytes. -/
def metaBytes (pos p : Nat) (masked : Bool) (lag : Nat) : List Byte :=
  toLe 8 pos ++ toLe 4 p ++ toLe 2 (b2n masked) ++ toLe 2 (min lag 65535)

/-- A masked row: the parts of META that no rule states are free, POS of a row that has no record and P of a segment
that has no end among them. -/
def State.maskedRow (s : State) (paylen : Nat) (pos p : Option Nat) : DrawRow × State :=
  let (lag, s) := s.draw 16
  let (fpos, s) := s.draw 64
  let (fp, s) := s.draw 32
  ({ header := List.replicate 64 0, payload := List.replicate paylen 0
     info := metaBytes (pos.getD fpos) (p.getD fp) true lag, masked := true }, s)

/-- The probability of drawing a segment end. -/
def RingSt.prob (r : RingSt) (prio : Bool) (i k w : Nat) : Nat :=
  if prio then
    fz (exactDiv (mgetD r.index (r.place i k w) {}).prio r.total)
  else fz (exactDiv 1 r.fill)
where
  exactDiv (a b : Nat) : FV :=
    if b = 0 then .fin false 0 0
    else .fin false (2 * (a * 2 ^ 100 / b) + b2n (decide (a * 2 ^ 100 % b ≠ 0))) (-101)

/-- The rows of one segment, ending at a record: those from the last break on are returned. -/
def State.segment (s : State) (g : RingSt) (paylen len lastConf i k w p : Nat) : List DrawRow × State :=
  let endGen := (mgetD g.index (g.place i k w) {}).wgen
  let ok (d : Nat) : Bool :=
    decide (d ≤ k) && (s.visibleRec g i (k - d) w).1
      && decide ((readRec (s.visibleRec g i (k - d) w).2).wgen = endGen)
  let good := ((List.range len).takeWhile ok).length
  (List.range len).foldl (fun (a : List DrawRow × State) n =>
    let d := len - 1 - n
    if d < good then
      let (sp, off) := g.recAt i (k - d) w
      let h := s.rdTier sp off 64
      (a.1 ++ [{ header := h, payload := s.rdTier sp (off + 64) (min paylen (readRec h).paylen)
                 info := metaBytes (recPos i (k - d) w) p false (lastConf - (readRec h).epoch)
                 masked := false }], a.2)
    else
      let (r, s') := a.2.maskedRow paylen (if d ≤ k then some (recPos i (k - d) w) else none) (some p)
      (a.1 ++ [r], s')) ([], s)

/-- One segment of a DRAW: its words, its end, its rows. -/
def State.drawSegment (s : State) (g : RingSt) (st : StationDecl) (d : DrawDecl) (paylen j : Nat) :
    List DrawRow × State :=
  let (die, sv) := nth st.sieves (j / 128 % max 1 st.sieves.length) (0, 0)
  let (ws, s) := s.takeWords (sieveLane die sv (j % 128)) 8
  let s := s.bump R.SMP_DRAWS_CONTINUOUS (lDie die)
  match (g.candidates d.priority ws).find? (fun c => (s.visibleRec g c.1 c.2.1 c.2.2).1) with
  | none =>
    let s := s.bump R.EXP_RMISS_MISS g.loc
    (List.range d.len).foldl (fun (a : List DrawRow × State) _ =>
      let (r, s) := a.2.maskedRow paylen none none
      (a.1 ++ [r], s)) ([], s)
  | some (i, k, w) =>
    let last := match s.wset (g.block i (k % max 1 (stripeBlocks (g.stripe i)))).ws with
      | some x => x.lastConf
      | none => 0
    (s.narrow (g.indexAt (g.place i k w)) 16).segment g paylen d.len last i k w (g.prob d.priority i k w)

/-- Row `n` of a draw goes to output `i` of the station: the rows fill the step's micro-batches in turn. -/
def State.emitDraw (s : State) (pan : Nat) (st : StationDecl) (tag i n : Nat) (b : List Byte) : State :=
  let p := s.pan pan
  let r := max 1 (p.mbRows st)
  match st.outputs[i]?.bind p.stream with
  | none => s
  | some d => s.give pan d.idx (mkRow d.fmt d.width 0 tag (n / r) (n % r / p.split) 0 b)

/-- The conditions of R218. -/
def State.drawReady (s : State) (g : RingSt) (d : DrawDecl) : Bool :=
  let ratio := s.getF R.EXP_RLIM_RATIO g.loc
  decide (s.getF R.EXP_RLIM_MINFILL g.loc ≤ g.fill) &&
    (ratio == 0 || decide ((g.drawn + d.n * d.len) * 16 ≤ ratio * g.committedTotal))

/-- A DRAW runs. -/
def State.drawRun (s : State) (pan tag : Nat) (st : StationDecl) (d : DrawDecl) (g : RingSt) : State :=
  let paylen := g.decl.slot - 64
  let (rows, s) := (List.range d.n).foldl (fun (a : List DrawRow × State) j =>
    let (l, s) := a.2.drawSegment g st d paylen j
    (a.1 ++ l, s)) ([], s)
  let s := (s.bump R.EXP_RDRAW_SEGS g.loc d.n).bump R.EXP_RDRAW_MASKED g.loc (rows.filter (·.masked)).length
  let s := s.setRing d.ring { g with drawn := g.drawn + d.n * d.len }
  forEach rows.zipIdx s (fun s (r : DrawRow × Nat) =>
    ((s.emitDraw pan st tag 0 r.2 r.1.header).emitDraw pan st tag 1 r.2 r.1.payload).emitDraw pan st tag 2 r.2
      r.1.info)

/-- The DRAW of a station in the step has been issued. -/
def State.drawing (s : State) (pan station : Nat) : Bool :=
  (s.pan pan).retired.any (fun r => r.1 = station) ||
    s.sch.boards.any (fun e => e.2.busy ∧ e.2.pan = pan ∧ e.2.station = station)

/-- DRAW_ISSUE (R218): the step's draw of the station, an operation of the boundary master's draw engine (log 127). It
retires once its rows have left. -/
def execDrawIssue (pan station waitedUs : Nat) (s : State) : Out :=
  whenThere (s.hasStation pan station 8) s (.next (
    match (s.pan pan).station station with
    | none => s
    | some st =>
      match st.draw.bind (fun d => (s.ring d.ring).map (fun g => (d, g))) with
      | none => s
      | some (d, g) =>
        let s := s.bump R.EXP_RWAIT_US g.loc waitedUs
        if s.drawReady g d && s.outsReady pan st && !s.drawing pan station && g.job == (s.pan pan).job then
          s.issueEntry (s.pan pan).master pan st 0 0 (fun tag s => s.drawRun pan tag st d g)
        else s))

/-! ## Priority updates (R222) -/

/-- A priority update of one record. -/
def State.prioUpdate (s : State) (ring : Nat) (g : RingSt) (pos prio : Nat) : State :=
  let i := bits pos 63 60
  let k := bits pos 59 16
  let w := bits pos 15 0
  let b := g.block i (k % max 1 (stripeBlocks (g.stripe i)))
  if g.decl.stripes.length ≤ i ∨ b.st = .empty ∨ b.block ≠ k ∨ (g.stripe i).worlds ≤ w then
    s.bump R.EXP_RMISS_STALEPRIO g.loc
  else
    let (u, bad) := prioUnits prio
    let e := mgetD g.index (g.place i k w) {}
    let e := { e with prio := u, leaf := e.leaf + ((u : Int) - e.prio) }
    let s := s.setRing ring { g with index := mput g.index (g.place i k w) e }
    if bad then s.bump R.EXP_RMISS_BADPRIO g.loc else s

/-- PRIORITY_UPDATE (R222). -/
def execPriorityUpdate (ring : Nat) (pos : U64) (prio : Word) (s : State) : Out :=
  match s.ring ring with
  | none => .next s
  | some g => .next (s.prioUpdate ring g pos.toNat prio.toNat)

end Sys2Proof.Machine
end

