-- ==== Sys2Proof/Machine/Pages.lean ====
section
/-!
DEFINITION. Pool frames, sequences, page tables, identity blocks, look-aside buffers, drops, candidate trees
and the prefix index (R135 to R160).
-/

namespace Sys2Proof.Machine

/-! ## Pool frames (R152, R252) -/

def frameKey (pan tier : Nat) : Nat := pan * 4 + tier

/-- Frames of a pan's pool in a tier. -/
def Pan.pool (p : Pan) (tier : Nat) : Nat :=
  match tier with
  | 1 => p.cfg.pool1 | 2 => p.cfg.pool2 | 3 => p.cfg.pool3 | _ => 0

def Pan.poolBase (p : Pan) (tier : Nat) : Nat :=
  match tier with
  | 1 => p.cfg.poolBase1 | 2 => p.cfg.poolBase2 | 3 => p.cfg.poolBase3 | _ => 0

/-- Offset of a frame in its tier. -/
def Pan.frameAddr (p : Pan) (tier n : Nat) : Nat := p.poolBase tier + n * p.cfg.frame

def State.usedFrames (s : State) (pan tier : Nat) : List Nat :=
  mgetD s.tier.frames (frameKey pan tier) []

/-- The lowest frame of the pool that nothing holds. -/
def State.freeFrame (s : State) (pan tier : Nat) : Option Nat :=
  let u := s.usedFrames pan tier
  lowest (min ((s.pan pan).pool tier) (u.length + 1)) (fun n => !u.contains n)

def State.setFrames (s : State) (pan tier : Nat) (l : List Nat) : State :=
  { s with tier := { s.tier with frames := mput s.tier.frames (frameKey pan tier) l } }

def State.takeFrame (s : State) (pan tier n : Nat) : State :=
  s.setFrames pan tier (n :: s.usedFrames pan tier)

def State.giveFrame (s : State) (pan tier n : Nat) : State :=
  s.setFrames pan tier ((s.usedFrames pan tier).filter (fun m => m ≠ n))

/-! ## Sequences (R135, R136) -/

def State.seq (s : State) (i : Nat) : Seq := mgetD s.att.seqs i {}

def SeqRun.code : SeqRun → Nat
  | .free => 0 | .opened => 1 | .cancelPending => 2 | .quarantine => 3

/-- The 64 bytes of a descriptor (R136). -/
def Seq.bytes (q : Seq) (i : Nat) : List Byte :=
  toLe 4 q.gen ++ toLe 2 i ++ toLe 1 q.pan ++ toLe 1 q.st.code ++ toLe 1 q.layers ++ toLe 1 q.kvheads
    ++ toLe 2 q.headdim ++ toLe 1 q.fmt ++ toLe 1 (b2n q.ring + 2 * b2n q.pinned) ++ toLe 2 q.entries
    ++ toLe 8 q.table ++ toLe 4 q.len ++ toLe 4 q.opened ++ toLe 4 q.pangen ++ toLe 2 q.parents.length
    ++ List.replicate 26 0

/-- A sequence changes, and with it its descriptor in HBM. -/
def State.setSeq (s : State) (i : Nat) (q : Seq) : State :=
  ({ s with att := { s.att with seqs := mput s.att.seqs i q } }).wrTier 1 (s.tier.policy.seqBase + 64 * i) (q.bytes i)
def State.modSeq (s : State) (i : Nat) (f : Seq → Seq) : State := s.setSeq i (f (s.seq i))

/-- An index whose operations run: OPEN, or CANCEL_PENDING until the boundary (R138). -/
def Seq.live (q : Seq) : Bool := decide (q.st = .opened) || decide (q.st = .cancelPending)

/-- T = ⌈d / 128⌉ (R140). -/
def Seq.t (q : Seq) : Nat := ceilDiv q.headdim 128
def Seq.kTile (q : Seq) (h t : Nat) : Nat := h * q.t + t
def Seq.vTile (q : Seq) (h t : Nat) : Nat := q.kvheads * q.t + h * q.t + t
def Seq.pageBytes (q : Seq) : Nat := 2 * q.kvheads * q.t * tileBytes q.fmt

/-- Storage positions appended in a layer. -/
def Seq.lenOf (q : Seq) (layer : Nat) : Nat := mgetD q.layerLen layer q.len0

/-! ## Page tables and identity blocks (R141 to R143) -/

def pteKey (seq layer slot : Nat) : Nat := (seq * 128 + layer) * 8192 + slot
def pteSeq (k : Nat) : Nat := k / 1048576
def pteLayer (k : Nat) : Nat := k / 8192 % 128
def identKey (tier addr : Nat) : Nat := tier * 2 ^ 44 + addr

def State.pte (s : State) (k : Nat) : Pte := mgetD s.att.ptes k {}

/-- The 16 bytes of an entry (R142). -/
def Pte.bytes (e : Pte) : List Byte :=
  toLe 8 (e.tier % 4 + 4 * b2n e.present + 8 * b2n e.moving + 16 * b2n e.recomp + 32 * b2n e.shared + 64 * b2n e.poison
      + e.addr / 64 % 2 ^ 38 * 256)
    ++ toLe 4 e.gen ++ toLe 4 e.page

/-- HBM offset of an entry: the table of its layer, then its slot (R136). -/
def State.pteAt (s : State) (k : Nat) : Nat :=
  let q := s.seq (pteSeq k)
  q.table + (pteLayer k * q.entries + k % 8192) * 16

/-- A table entry changes, and with it its bytes in HBM. -/
def State.setPte (s : State) (k : Nat) (e : Pte) : State :=
  ({ s with att := { s.att with ptes := mput s.att.ptes k e } }).wrTier 1 (s.pteAt k) e.bytes

/-- A table entry is zeroed. -/
def State.delPte (s : State) (k : Nat) : State :=
  ({ s with att := { s.att with ptes := mdel s.att.ptes k } }).wrTier 1 (s.pteAt k) (List.replicate 16 0)

/-- T, the page's tiles and page bytes (R140). -/
def Ident.t (i : Ident) : Nat := ceilDiv i.headdim 128
def Ident.tiles (i : Ident) : Nat := 2 * i.kvheads * i.t
def Ident.pageBytes (i : Ident) : Nat := i.tiles * tileBytes i.fmt

/-- The block's POISON. -/
def Ident.poison (i : Ident) : Bool := !i.causes.isEmpty

/-- Bytes of the identity block before the CRC (R141). -/
def Ident.body (i : Ident) : List Byte :=
  toLe 4 i.seqgen ++ toLe 2 i.seq ++ toLe 1 i.layer
    ++ toLe 1 (b2n i.shared + 2 * b2n i.mixed + 4 * b2n i.spec + 8 * b2n i.poison) ++ toLe 4 i.page ++ toLe 4 i.epoch
    ++ toLe 4 i.sharers ++ toLe 4 0 ++ toLe 16 i.live.toNat ++ toLe 16 i.specmask.toNat ++ toLe 4 0

/-- The identity block. -/
def Ident.bytes (i : Ident) : List Byte := i.body ++ toLe 4 (crc32 i.body).toNat

/-- The header of tile `n` of a page (R111, R140): K tiles first; fields that belong to streams are 0 (log 122). -/
def Ident.header (i : Ident) (n : Nat) : TileHdr :=
  let dims := min 128 (i.headdim - n % i.t * 128)
  let k := decide (n < i.kvheads * i.t)
  { fmt := i.fmt, poison := (mget i.causes n).isSome, scales := fmtMx i.fmt, vrows := if k then dims else 128
    vcols := if k then 128 else dims, cause := mgetD i.causes n 0, epoch := i.epoch, step := i.lastStep % 2 ^ 32 }

/-- What follows the page bytes: a header for each tile, then the identity block (R140). -/
def Ident.trailer (i : Ident) : List Byte :=
  (List.range i.tiles).flatMap (fun n => headerBytes (i.header n)) ++ i.bytes

def State.ident (s : State) (tier addr : Nat) : Option Ident := mget s.att.idents (identKey tier addr)

/-- A page's identity changes, and with it the page's trailer. -/
def State.setIdent (s : State) (tier addr : Nat) (i : Ident) : State :=
  ({ s with att := { s.att with idents := mput s.att.idents (identKey tier addr) i } }).wrTier tier (addr + i.pageBytes)
    i.trailer

def State.modIdent (s : State) (tier addr : Nat) (f : Ident → Ident) : State :=
  match s.ident tier addr with
  | some i => s.setIdent tier addr (f i)
  | none => s

/-- The identity block that a read of the page finds in its tier belongs to the key, and its CRC holds (R146). Of a
SHARED page, which other sequences read too, LAYER and PAGE are compared alone (log 121). -/
def State.identOk (s : State) (tier addr : Nat) (i : Ident) (shared : Bool) (seq gen layer page : Nat) : Bool :=
  let b := s.rdTier tier (addr + i.pageBytes + 32 * i.tiles) 64
  decide ((crc32 (b.take 60)).toNat = fieldAt b 60 4) && fieldAt b 6 1 == layer && fieldAt b 8 4 == page
    && (shared || fieldAt b 4 2 == seq && fieldAt b 0 4 == gen)

/-- The table slot of a logical page (R143). -/
def Seq.slot (q : Seq) (page : Nat) : Nat := if q.ring then page % q.entries else page

/-- The pages of a sequence, as table keys and entries. -/
def State.seqPtes (s : State) (seq : Nat) : List (Nat × Pte) :=
  s.att.ptes.filter (fun p => pteSeq p.1 = seq)

/-- The entries with PRESENT set that name a page. -/
def State.namers (s : State) (tier addr : Nat) : List (Nat × Pte) :=
  s.att.ptes.filter (fun p => p.2.present ∧ p.2.tier = tier ∧ p.2.addr = addr)

/-! ## Look-aside buffers (R145) -/

def labKey (die walker : Nat) : Nat := die * 8 + walker

def LabEntry.is (e : LabEntry) (seq gen layer page : Nat) : Bool :=
  e.seq == seq && e.gen == gen && e.layer == layer && e.page == page

/-- Invalidates a translation in the shadow of every buffer. -/
def State.labDrop (s : State) (pan seq layer page : Nat) : State :=
  let hit (e : LabEntry) : Bool := e.seq == seq && e.layer == layer && e.page == page
  let labs := s.att.labs.map (fun p => (p.1, { p.2 with shadow := p.2.shadow.filter (fun e => !hit e) }))
  if s.att.labs.any (fun p => p.2.shadow.any hit) then
    ({ s with att := { s.att with labs := labs } }).dueCommit pan 2
  else s

/-- Inserts a translation into the shadow; when the buffer is full, the least recently used entry of a pan that holds
more than its share gives way (R10, R145; log 123). -/
def Lab.insert (share : Nat) (l : Lab) (e : LabEntry) : Lab :=
  let sh := e :: l.shadow.filter (fun x => !x.is e.seq e.gen e.layer e.page)
  if sh.length ≤ 256 then { l with shadow := sh }
  else
    let held (p : Nat) : Nat := (sh.filter (fun x => x.pan = p)).length
    match sh.reverse.find? (fun x => decide (share < held x.pan)) with
    | some v => { l with shadow := sh.filter (fun x => x ≠ v), evicted := l.evicted ++ [(e.pan, v)] }
    | none => { l with shadow := sh.take 256, evicted := l.evicted ++ (sh.drop 256).map (fun x => (e.pan, x)) }

/-- The boundary commit of one pan's changes. -/
def Lab.commit (l : Lab) (pan : Nat) : Lab :=
  let gone (e : LabEntry) : Bool := l.evicted.any (fun x => x.1 = pan ∧ x.2 = e)
  { l with
    committed := (l.shadow.filter (fun e => e.pan = pan) ++
      l.committed.filter (fun e => e.pan ≠ pan && !gone e)).take 256
    evicted := l.evicted.filter (fun x => x.1 ≠ pan) }

def State.labCommit (s : State) (pan : Nat) : State :=
  { s with att := { s.att with labs := s.att.labs.map (fun p => (p.1, p.2.commit pan)) } }

/-! ## Releasing pages (R144) -/

/-- Whether a move carries the page. -/
def State.pageMove (s : State) (seq layer slot : Nat) : Option Nat :=
  (s.tier.moves.find? (fun m => m.2.obj = .page seq layer slot)).map (·.1)

/-- The moves that carry a page at an address. -/
def State.moveAt (s : State) (tier addr : Nat) : List Nat :=
  (s.tier.moves.filter (fun m => m.2.bytes ≠ 0 ∧ (m.2.srcTier = tier ∧ m.2.srcAddr = addr ∧ m.2.st = .copying
    ∨ m.2.dstTier = tier ∧ m.2.dstAddr = addr ∧ m.2.st ≠ .copying))).map (·.1)

/-- The new home of a page holds accesses that reach it directly: its stub is DRAINING (R235). -/
def State.arriving (s : State) (tier addr : Nat) : Bool :=
  s.tier.moves.any (fun m => m.2.st = .draining ∧ m.2.dstTier = tier ∧ m.2.dstAddr = addr)

/-- An access that waits in the stub of a page on the move is counted (R235). -/
def State.queuedAt (s : State) (tier addr : Nat) : State :=
  match s.tier.moves.find? (fun m => m.2.st ≠ .redirect ∧ m.2.srcTier = tier ∧ m.2.srcAddr = addr) with
  | some m => s.bump R.MOV_FWD_QUEUED (lDie m.2.die)
  | none => s

/-- The identity block is zeroed and the frame returns to its pool. -/
def State.freePage (s : State) (tier addr : Nat) : State :=
  match s.ident tier addr with
  | none => s
  | some i =>
    let s := { s with att := { s.att with idents := mdel s.att.idents (identKey tier addr) } }
    (s.wrTier tier (addr + i.pageBytes + 32 * i.tiles) (List.replicate 64 0)).giveFrame i.pan tier i.frame

/-- One reference to a page goes: SHARERS falls, and the page is freed at 0, after its move if it is
moving (R144, R160). -/
def State.releaseRef (s : State) (tier addr : Nat) : State :=
  match s.ident tier addr with
  | none => s
  | some i =>
    let s := s.modIdent tier addr (fun i => { i with sharers := i.sharers - 1 })
    if 1 < i.sharers then s
    else
      match s.moveAt tier addr with
      | [] => s.freePage tier addr
      | l => { s with tier := { s.tier with
                moves := l.foldl (fun m k => mmod m k (fun v => { v with release := true })) s.tier.moves } }

/-- A table entry lets its page go. -/
def State.dropEntry (s : State) (k : Nat) : State :=
  let e := s.pte k
  let s := s.delPte k
  if e.present then
    (s.labDrop (s.seq (pteSeq k)).pan (pteSeq k) (pteLayer k) e.page).releaseRef e.tier e.addr
  else s

/-- Pages of a sequence released, tables zeroed. -/
def State.releaseSeq (s : State) (seq : Nat) : State :=
  forEach (s.seqPtes seq) s (fun s p => s.dropEntry p.1)

def ms100 : Nat := 100000000

/-- Action 3 of R20 for one cancelled sequence, or its job's end: QUARANTINE with GEN advanced (R137). -/
def State.endSeq (s : State) (seq : Nat) : State :=
  (s.releaseSeq seq).modSeq seq (fun q =>
    { q with st := .quarantine, gen := (q.gen + 1) % 2 ^ 32, quarAt := s.time + ms100, len := 0,
             layerLen := [], parents := [], tokens := [], len0 := 0 })

/-! ## Order of spill and drop (R152) -/

/-- The element with the least key. -/
def argMin {V : Type} (f : V → Nat) : List V → Option V
  | [] => none
  | x :: l =>
    match argMin f l with
    | none => some x
    | some y => if f x ≤ f y then some x else some y

/-- The highest page of a sequence in a layer. -/
def State.topPage (s : State) (seq layer : Nat) : Nat :=
  ((s.seqPtes seq).filter (fun p => p.2.present ∧ pteLayer p.1 = layer)).foldl (fun m p => max m p.2.page) 0

/-- Whether a page may be spilled or dropped. -/
def State.mayEvict (s : State) (p : Nat × Pte) : Bool :=
  let q := s.seq (pteSeq p.1)
  match s.ident p.2.tier p.2.addr with
  | none => false
  | some i =>
    p.2.present && !p.2.moving && !q.pinned && decide (i.lastStep ≠ (s.pan q.pan).step)
      && decide (p.2.page ≠ s.topPage (pteSeq p.1) (pteLayer p.1))

/-- Earliest latest-write step, then lower sequence, layer and page. -/
def State.evictRank (s : State) (p : Nat × Pte) : Nat :=
  let st := match s.ident p.2.tier p.2.addr with | some i => i.lastStep | none => 0
  ((st * 65536 + pteSeq p.1) * 128 + pteLayer p.1) * 2 ^ 32 + p.2.page

/-- A record of the recompute list (R154): index, generation, layer and page, in 4 bytes each (log 124). -/
def recompRec (seq gen layer page : Nat) : List Byte := toLe 4 seq ++ toLe 4 gen ++ toLe 4 layer ++ toLe 4 page

/-- Drops a page: its entry keeps PAGE and GEN, RECOMP is set, a recompute record is kept or lost
(R154). -/
def State.dropPage (s : State) (k : Nat) : State :=
  let e := s.pte k
  let pan := (s.seq (pteSeq k)).pan
  let s := s.setPte k { e with present := false, recomp := true, tier := 0, addr := 0, shared := false }
  let s := (s.labDrop pan (pteSeq k) (pteLayer k) e.page).releaseRef e.tier e.addr
  let s := s.bumpPan R.ATT_PDROP_DROPPED pan
  let l := mgetD s.att.recomp pan []
  if l.length < (s.pan pan).cfg.recompCap then
    ({ s with att := { s.att with recomp := mput s.att.recomp pan (l ++ [(pteSeq k, e.gen, pteLayer k, e.page)]) } }).wrTier
      1 ((s.pan pan).cfg.recompBase + 16 * l.length) (recompRec (pteSeq k) e.gen (pteLayer k) e.page)
  else s.bumpPan R.ATT_PT3_RECLOST pan

/-- The first pool with a free frame: T1, T2, T3 in turn (R153). -/
def State.anyFrame (s : State) (pan : Nat) : Option (Nat × Nat) :=
  [1, 2, 3].findSome? (fun t => (s.freeFrame pan t).map (fun n => (t, n)))

/-- Drops pages in order until a frame is free: one that is shared lets no frame go. -/
def dropUntil (pan : Nat) : List (Nat × Pte) → State → State
  | [], s => s
  | p :: rest, s => if (s.anyFrame pan).isSome then s else dropUntil pan rest (s.dropPage p.1)

/-- A page allocated: its tier and frame, from the first pool that has one, else by dropping the oldest pages of the
sequence (R153, R154). -/
def State.allocPage (s : State) (pan seq : Nat) : Option (Nat × Nat) × State :=
  let s := if (s.anyFrame pan).isSome then s
    else
      let s := (s.bumpPan R.ATT_PDROP_EXHAUST pan).alarm Kind.kvExhausted (s.pan pan).job
        (alarmKey (s.pan pan).master (pan * 65536 + seq))
      dropUntil pan (sortBy (fun a b => decide (s.evictRank a ≤ s.evictRank b)) ((s.seqPtes seq).filter s.mayEvict)) s
  match s.anyFrame pan with
  | some f => (some f, s.takeFrame pan f.1 f.2)
  | none => (none, s)

/-! ## Data of a page (R140) -/

/-- Bytes of the page's element (i, j) of a tile. -/
def Seq.elemAt (q : Seq) (tile i j : Nat) : Nat :=
  tile * tileBytes q.fmt + (i * 128 + j) * (fmtBits q.fmt / 8)

def Seq.scaleAt (q : Seq) (tile i j : Nat) : Nat :=
  tile * tileBytes q.fmt + tileElemBytes q.fmt + j * 4 + i / 32

/-- The K row of head `h` written at position `j` of a page. -/
def State.writeK (s : State) (q : Seq) (tier addr j h : Nat) (row : List Byte) : State :=
  let b := fmtBits q.fmt / 8
  let s := forEach (List.range q.headdim) s (fun s x =>
    s.wrTier tier (addr + q.elemAt (q.kTile h (x / 128)) (x % 128) j) (fitTo b (row.drop (x * b))))
  if fmtMx q.fmt then
    forEach (List.range (ceilDiv q.headdim 32)) s (fun s b32 =>
      s.wrTier tier (addr + q.scaleAt (q.kTile h (b32 / 4)) (b32 % 4 * 32) j)
        (fitTo 1 (row.drop (q.headdim * b + b32))))
  else s

/-- The V row of head `h` written at position `j` of a page. The scale of a column's block of 32 positions
is not stated for rows that arrive one at a time: it is a free value (log 28). -/
def State.writeV (s : State) (q : Seq) (tier addr j h : Nat) (row : List Byte) : State :=
  let b := fmtBits q.fmt / 8
  let s := forEach (List.range q.headdim) s (fun s x =>
    s.wrTier tier (addr + q.elemAt (q.vTile h (x / 128)) j (x % 128)) (fitTo b (row.drop (x * b))))
  if fmtMx q.fmt then
    forEach (List.range q.headdim) s (fun s x =>
      let (v, s) := s.drawBytes 1
      s.wrTier tier (addr + q.scaleAt (q.vTile h (x / 128)) j (x % 128)) v)
  else s

def State.writeKV (s : State) (q : Seq) (tier addr j : Nat) (k v : List (List Byte)) : State :=
  forEach (List.range q.kvheads) s (fun s h =>
    (s.writeK q tier addr j h (nth k h [])).writeV q tier addr j h (nth v h []))

/-- Positions that are not live hold +0. -/
def State.zeroPos (s : State) (q : Seq) (tier addr j : Nat) : State :=
  let z := List.replicate (q.headdim * (fmtBits q.fmt / 8)) (0 : Byte)
  forEach (List.range q.kvheads) s (fun s h =>
    let s := forEach (List.range q.headdim) s (fun s x =>
      s.wrTier tier (addr + q.elemAt (q.kTile h (x / 128)) (x % 128) j) (z.take (fmtBits q.fmt / 8)))
    forEach (List.range q.headdim) s (fun s x =>
      s.wrTier tier (addr + q.elemAt (q.vTile h (x / 128)) j (x % 128)) (z.take (fmtBits q.fmt / 8))))

/-- The decoded element (i, j) of a tile of a page. -/
def State.pageLane (s : State) (q : Seq) (tier addr tile i j : Nat) : FV × Bool :=
  laneValue q.fmt (leNat (s.rdTier tier (addr + q.elemAt tile i j) (fmtBits q.fmt / 8)))
    (if fmtMx q.fmt then leNat (s.rdTier tier (addr + q.scaleAt tile i j) 1) else 0)

/-! ## Writing positions (R143, R144, R149, R151, R155) -/

/-- What a write does to the identity block. -/
def Ident.wrote (i : Ident) (j epoch step cause : Nat) (spec recompute : Bool) : Ident :=
  let b : BitVec 128 := 1#128 <<< j
  { i with
    live := i.live ||| b
    specmask := if spec then i.specmask ||| b else i.specmask &&& ~~~b
    spec := i.spec || spec
    mixed := i.mixed || (decide (i.live ≠ 0) && decide (i.epoch ≠ epoch))
    epoch := epoch
    causes := if cause = 0 then i.causes
      else (List.range i.tiles).foldl (fun m n => if (mget m n).isSome then m else mput m n 5) i.causes
    rewritten := if recompute then i.rewritten ||| b else i.rewritten
    lastStep := step }

/-- The data of a write enters a page at table key `k`, position `j`. -/
def State.intoPage (s : State) (k j : Nat) (row : AttRow) (spec recompute : Bool) : State :=
  let e := s.pte k
  let q := s.seq (pteSeq k)
  let p := s.pan q.pan
  let s := if (s.moverHome e.tier e.addr).isSome then s
    else s.bump R.MOV_ERR_UNMAPPED (lDie p.master)
  let s := (s.writeKV q e.tier e.addr j row.k row.v).wrote p.master q.pan e.tier e.addr q.pageBytes (.page e.tier e.addr)
  let s := s.modIdent e.tier e.addr (fun i => i.wrote j p.epoch p.step row.cause spec recompute)
  let full := match s.ident e.tier e.addr with
    | some i => decide (i.rewritten = BitVec.allOnes 128)
    | none => false
  s.setPte k { e with poison := e.poison || decide (row.cause ≠ 0), recomp := e.recomp && !full }

/-- A fresh page for table key `k` (FREE to LIVE). -/
def State.newPage (s : State) (k page : Nat) (recomp : Bool) : Bool × State :=
  let q := s.seq (pteSeq k)
  match s.allocPage q.pan (pteSeq k) with
  | (none, s) => (false, s)
  | (some (tier, n), s) =>
    let addr := (s.pan q.pan).frameAddr tier n
    let s := s.zeroTier tier addr q.pageBytes
    let i : Ident := { seqgen := q.gen, seq := pteSeq k, layer := pteLayer k, page := page, sharers := 1,
                       pan := q.pan, frame := n, kvheads := q.kvheads, headdim := q.headdim, fmt := q.fmt }
    (true, (s.setIdent tier addr i).setPte k
      { tier := tier, present := true, recomp := recomp, addr := addr, gen := q.gen, page := page })

/-- Writes K and V of one row at storage position `p` of a sequence's layer. DESIGN CHOICE (log 125): a ring slot
reused in place holds no position of its old page, so SPEC, MIXED and POISON clear with LIVE (R143). -/
def State.writePos (s : State) (seq layer p : Nat) (row : AttRow) (spec recompute : Bool) : State :=
  let q := s.seq seq
  let page := p / 128
  let k := pteKey seq layer (q.slot page)
  let e := s.pte k
  if !q.ring && decide (q.entries * 128 ≤ p) then
    (s.bumpPan R.ATT_PDROP_OVERRUN q.pan).alarm Kind.seqFull (s.pan q.pan).job
      (alarmKey (s.pan q.pan).master seq)
  else if e.present && e.shared then s.bumpPan R.ATT_PPFX_SHAREDWR q.pan
  else if e.present then
    if e.page = page then s.intoPage k (p % 128) row spec recompute
    else if e.page < page then
      let s := s.zeroTier e.tier e.addr q.pageBytes
      let s := s.modIdent e.tier e.addr (fun i =>
        { i with live := 0, specmask := 0, spec := false, mixed := false, causes := [], page := page })
      let s := (s.labDrop q.pan seq layer e.page).setPte k { e with page := page, poison := false }
      s.intoPage k (p % 128) row spec recompute
    else s
  else
    match s.newPage k page (e.recomp && decide (e.page = page)) with
    | (true, s) => s.intoPage k (p % 128) row spec recompute
    | (false, s) => s

/-! ## Prefix index (R158 to R160) -/

/-- h(k) of a list of token blocks. -/
def prefixHash (prev : List Byte) (block : List Nat) : List Byte :=
  (sha256 (prev ++ block.flatMap (toLe 4))).take 16

def tokenBlock (tokens : List Nat) (k : Nat) : List Nat := (tokens.drop (k * 128)).take 128

/-- h(k), from h(−1) of 16 zero bytes. -/
def hashOf (tokens : List Nat) : Nat → List Byte
  | 0 => prefixHash (List.replicate 16 0) (tokenBlock tokens 0)
  | k + 1 => prefixHash (hashOf tokens k) (tokenBlock tokens (k + 1))

/-- The entry of block `k` of a token row: every block before it has its own, each naming the one before (R159). -/
def chainEntry (l : List PfxEntry) (ws ep : Nat) (tokens : List Nat) : Nat → Option PfxEntry
  | 0 => l.find? (fun x => x.ws = ws ∧ x.epoch = ep ∧ x.prev = none ∧ x.tokens = tokenBlock tokens 0)
  | k + 1 =>
    match chainEntry l ws ep tokens k with
    | none => none
    | some y => l.find? (fun x => x.ws = ws ∧ x.epoch = ep ∧ x.prev = some y.id ∧ x.tokens = tokenBlock tokens (k + 1))

/-- A full, clean page of one epoch. -/
def Ident.clean (i : Ident) : Bool := decide (i.live = BitVec.allOnes 128) && !i.mixed && !i.poison && !i.spec

/-- Inserts block `k` of a sequence into the shadow of its job's index, once its page is full and clean in
every layer. -/
def State.insertPrefix (s : State) (seq k : Nat) : State :=
  let q := s.seq seq
  let p := s.pan q.pan
  let es := (List.range q.layers).map (fun l => s.pte (pteKey seq l k))
  let ok := es.all (fun e => e.present && decide (e.page = k) &&
    match s.ident e.tier e.addr with | some i => i.clean | none => false)
  let (com, sh) := mgetD s.att.pfx p.job ([], [])
  let ep := match es.head? with
    | some e => (match s.ident e.tier e.addr with | some i => i.epoch | none => 0)
    | none => 0
  let prev := if k = 0 then none else (chainEntry sh p.cfg.ws ep q.tokens (k - 1)).map (·.id)
  if q.ring || !ok || decide (q.tokens.length < (k + 1) * 128) || (k != 0 && prev.isNone)
      || (chainEntry sh p.cfg.ws ep q.tokens k).isSome then s
  else
    let x : PfxEntry :=
      { id := s.att.nextPfx, prev := prev, hash := hashOf q.tokens k, ws := p.cfg.ws, epoch := ep,
        tokens := tokenBlock q.tokens k, pages := es.map (fun e => (e.tier, e.addr)) }
    let s := forEach es s (fun s e => s.modIdent e.tier e.addr (fun i => { i with sharers := i.sharers + 1 }))
    ({ s with att := { s.att with
        pfx := mput s.att.pfx p.job (com, sh ++ [x]), nextPfx := s.att.nextPfx + 1 } }).dueCommit q.pan 1

/-- Reuses block `k` through an index entry: the pages enter the tables SHARED (R160). -/
def State.reuseBlock (s : State) (seq k : Nat) (x : PfxEntry) : State :=
  let q := s.seq seq
  let s := forEach x.pages.zipIdx s (fun s p =>
    let bad := match s.ident p.1.1 p.1.2 with
      | some i => i.poison
      | none => false
    ((s.queuedAt p.1.1 p.1.2).modIdent p.1.1 p.1.2 (fun i => { i with sharers := i.sharers + 1, shared := true })).setPte
      (pteKey seq p.2 k)
      { tier := p.1.1, present := true, shared := true, poison := bad, addr := p.1.2, gen := q.gen, page := k })
  s.bumpPan R.ATT_PPFX_REUSED q.pan x.pages.length

/-- Reuses blocks `k`, `k + 1`, … until one fails; answers the number reused. `prev` is the entry reused for the block
before, `h` its hash. -/
def reuseFrom (seq : Nat) : Nat → Nat → Option Nat → List Byte → State → Nat × State
  | 0, k, _, _, s => (k, s)
  | fuel + 1, k, prev, h, s =>
    let q := s.seq seq
    let p := s.pan q.pan
    let h := prefixHash h (tokenBlock q.tokens k)
    match (mgetD s.att.pfx p.job ([], [])).1.find?
        (fun x => x.hash = h ∧ x.ws = p.cfg.ws ∧ x.epoch = p.epoch ∧ x.prev = prev) with
    | none => (k, s)
    | some x =>
      if x.tokens = tokenBlock q.tokens k then reuseFrom seq fuel (k + 1) (some x.id) h (s.reuseBlock seq k x)
      else (k, s.bumpPan R.ATT_PPFX_CONFIRMFAIL q.pan)

/-- Prefix reuse of a new sequence: the reused positions stand as appended, and their number goes to the station's
result slot, as 4 bytes (log 126). -/
def State.prefixReuse (s : State) (seq : Nat) (tokens : List Nat) (slot : Nat × Nat × Nat) : State :=
  let s := s.modSeq seq (fun q => { q with tokens := tokens })
  let q := s.seq seq
  let (n, s) := if q.ring then (0, s)
    else reuseFrom seq (tokens.length / 128) 0 none (List.replicate 16 0) s
  let s := if n = 0 then s
    else s.modSeq seq (fun q =>
      { q with len := max q.len (n * 128)
               layerLen := (List.range q.layers).map (fun l => (l, max (q.lenOf l) (n * 128))) })
  s.wrBrick slot.1 slot.2.1 slot.2.2 (toLe 4 (n * 128))

/-- The boundary commit of a job's prefix index: entries of RETRACTED epochs leave, with their pages (R159,
R191). -/
def State.prefixCommit (s : State) (job : Nat) : State :=
  match mget s.att.pfx job with
  | none => s
  | some (_, sh) =>
    let out (x : PfxEntry) : Bool := x.gone || decide (s.epochState x.ws x.epoch = .retracted)
    let keep := sh.filter (fun x => !out x)
    forEach ((sh.filter out).flatMap (·.pages))
      { s with att := { s.att with pfx := mput s.att.pfx job (keep, keep) } }
      (fun s (g : Nat × Nat) => s.releaseRef g.1 g.2)

/-! ## Appends (R149) -/

/-- Appends a row's K and V at LEN of its sequence in one layer; answers its storage position. -/
def State.appendRow (s : State) (layer : Nat) (row : AttRow) : Nat × State :=
  let q := s.seq row.seq
  let p := q.lenOf layer
  let past := !q.ring && decide (q.entries * 128 ≤ p)
  let s := s.writePos row.seq layer p row false false
  let s := if past then s
    else s.modSeq row.seq (fun q =>
      { q with len := max q.len (p + 1), layerLen := mput q.layerLen layer (p + 1) })
  let s := if (p + 1) % 128 = 0 ∧ layer + 1 = q.layers ∧ !past then s.insertPrefix row.seq (p / 128) else s
  (p, s)

/-! ## Candidate trees (R156, R157) -/

/-- The accept slot of a sequence: 32 bytes of the pan's tile store. -/
def State.acceptBytes (s : State) (q : Seq) : Nat := leNat (s.rdMem 0 q.acceptAt 32)

def State.zeroAccept (s : State) (q : Seq) : State := s.wrMem 0 q.acceptAt (List.replicate 32 0)

/-- A parent at or above its candidate reads as the committed context. -/
def fixParents (ps : List Nat) : List Nat := ps.zipIdx.map (fun p => if p.1 < p.2 then p.1 else 0x1FF)

/-- Whether each candidate and all its ancestors are accepted; parents precede their candidates. -/
def keptFrom (bm : Nat) : List Nat → List Bool → List Bool
  | [], acc => acc
  | p :: rest, acc =>
    keptFrom bm rest (acc ++ [bit bm acc.length && (p == 0x1FF || nth acc p false)])

/-- The candidate `i` and its ancestors. -/
def ancestors (ps : List Nat) : Nat → Nat → List Nat
  | 0, _ => []
  | f + 1, i => i :: (match ps[i]? with | some p => (if p < i then ancestors ps f p else []) | none => [])

/-- One position of every layer becomes ordinary, or leaves. -/
def State.settlePos (s : State) (seq p : Nat) (keep : Bool) : State :=
  let q := s.seq seq
  forEach (List.range q.layers) s (fun s l =>
    let e := s.pte (pteKey seq l (q.slot (p / 128)))
    if e.present && decide (e.page = p / 128) then
      let b : BitVec 128 := 1#128 <<< (p % 128)
      let s := s.modIdent e.tier e.addr (fun i =>
        let i := { i with specmask := i.specmask &&& ~~~b
                          live := if keep then i.live else i.live &&& ~~~b }
        { i with spec := decide (i.specmask ≠ 0) })
      if keep then s else s.zeroPos q e.tier e.addr (p % 128)
    else s)

/-- Action 3 of R20 for a sequence with candidates. -/
def State.settleTree (s : State) (seq : Nat) : State :=
  let q := s.seq seq
  if q.parents.isEmpty then s
  else
    let kept := keptFrom (s.acceptBytes q) q.parents []
    let s := s.zeroAccept q
    let s := forEach kept.zipIdx s (fun s k => s.settlePos seq (q.len0 + k.2) k.1)
    let top := kept.zipIdx.foldl (fun m k => if k.1 then k.2 + 1 else m) 0
    let len := q.len0 + top
    let n := (kept.filter id).length
    let s := (s.bumpPan R.ATT_PSPEC_ACCEPTED q.pan n).bumpPan R.ATT_PSPEC_REJECTED q.pan (kept.length - n)
    let s := s.modSeq seq (fun q =>
      { q with len := len, len0 := 0, parents := []
               layerLen := (List.range q.layers).map (fun l => (l, len)) })
    forEach ((s.seqPtes seq).filter (fun p => p.2.present ∧ len ≤ p.2.page * 128)) s
      (fun s p => s.dropEntry p.1)

/-- A tree operation that a sequence takes (R156): 1 to 256 candidates, linear mode, and the step's only tree, which each
layer meets once. -/
def Seq.takesTree (q : Seq) (layer : Nat) (parents : List Nat) : Bool :=
  !q.ring && decide (1 ≤ parents.length) && decide (parents.length ≤ 256) &&
    (q.parents.isEmpty || decide (q.parents = fixParents parents) && q.lenOf layer == q.len0)

/-- Appends the candidates of a tree in one layer (R156). -/
def State.appendTree (s : State) (layer seq acceptAt : Nat) (parents : List Nat) (rows : List AttRow) :
    State :=
  let q := s.seq seq
  let first := q.parents.isEmpty
  let s := if first then
      let q' := { q with parents := fixParents parents, len0 := q.len, acceptAt := acceptAt }
      let bad := (parents.zipIdx.filter (fun p => p.2 ≤ p.1 ∧ p.1 ≠ 0x1FF)).length
      ((s.setSeq seq q').zeroAccept q').bumpPan R.ATT_PSPEC_REJECTED q.pan bad
    else s
  let q := s.seq seq
  let s := forEach rows.zipIdx s (fun s r => s.writePos seq layer (q.len0 + r.2) r.1 true false)
  s.modSeq seq (fun q => { q with len := q.len0 + rows.length
                                  layerLen := mput q.layerLen layer (q.len0 + rows.length) })

/-! ## Boundary actions on sequences (R137, R157) -/

/-- The sequences of a pan. -/
def State.panSeqs (s : State) (pan : Nat) : List Nat :=
  (s.att.seqs.filter (fun q => q.2.pan = pan ∧ q.2.st ≠ .free)).map (·.1)

/-- Candidates are settled, then cancelled sequences end. -/
def State.seqBoundary (s : State) (pan : Nat) : State :=
  let l := s.panSeqs pan
  let s := forEach l s State.settleTree
  forEach (l.filter (fun i => (s.seq i).st = .cancelPending)) s State.endSeq

/-- Every sequence of a pan ends at once (R137). -/
def State.endSeqs (s : State) (pan : Nat) : State :=
  forEach ((s.panSeqs pan).filter (fun i => (s.seq i).live)) s State.endSeq

/-- An OPEN sequence is cancelled. -/
def State.cancelSeq (s : State) (seq : Nat) : State :=
  if (s.seq seq).st = .opened then s.modSeq seq (fun q => { q with st := .cancelPending }) else s

/-! ## Opening (R135 to R137) -/

/-- Values outside a field's range are clamped. -/
def openSeq (pan gen layers kvheads headdim fmt mode entries table step pangen : Nat) : Seq :=
  { gen := gen, pan := pan, st := .opened, layers := clampN 1 128 layers, kvheads := clampN 1 64 kvheads,
    headdim := clampN 16 256 (headdim / 16 * 16), fmt := clampN 1 6 fmt, ring := bit mode 0,
    pinned := bit mode 1, entries := clampN 1 8192 entries, table := table / 64 * 64,
    opened := step % 2 ^ 32, pangen := pangen }

/-- The lowest FREE index of a pan's pool. -/
def State.freeSeq (s : State) (pan : Nat) : Option Nat :=
  let c := (s.pan pan).cfg
  (lowest (c.seqHi - c.seqLo) (fun i => (s.seq (c.seqLo + i)).st = .free)).map (c.seqLo + ·)

/-- The DEV world of a pan that a new sequence is for. -/
def Pan.bindSeq (p : Pan) (w i : Nat) : Pan :=
  { p with worlds := p.worlds.map (fun d => if d.decl.world = w then { d with seq := some i } else d) }

/-- A pan opens a sequence (R137). -/
def State.openOn (s : State) (pan i : Nat) (world : Option Nat) (q : Seq) : State :=
  let s := (s.releaseSeq i).setSeq i q
  match world with
  | some w => s.modPan pan (fun p => p.bindSeq w i)
  | none => s

/-- An opening takes the lowest FREE index of its pan's pool; none when it has none. -/
def State.tryOpen (s : State) (w : SeqWait) : Option State :=
  let p := s.pan w.pan
  (s.freeSeq w.pan).map (fun i => s.openOn w.pan i w.world
    (openSeq w.pan (s.seq i).gen w.layers w.kvheads w.headdim w.fmt w.mode w.entries w.table p.step p.gen))

/-- An index has become FREE: the oldest opening that waits for one of its pool goes on (R135). -/
def openWaiting : List SeqWait → State → State
  | [], s => s
  | w :: rest, s =>
    match s.tryOpen w with
    | some s => { s with att := { s.att with waits := s.att.waits.erase w } }
    | none => openWaiting rest s

/-- SEQ_OPEN (R135): the lowest FREE index, or a wait that is counted and alarmed. -/
def execSeqOpen (pan : Nat) (world : Option Nat) (layers kvheads headdim fmt mode entries table : Nat)
    (s : State) : Out :=
  let p := s.pan pan
  let w : SeqWait := { pan, world, layers, kvheads, headdim, fmt, mode, entries, table }
  whenThere (decide (p.st ≠ .free)) s (.next (
    match s.tryOpen w with
    | some s => s
    | none =>
      let s := { s with att := { s.att with waits := s.att.waits ++ [w] } }
      (s.bumpPan R.ATT_PSEQ_WAITS pan).alarm Kind.seqPoolWait p.job (alarmKey p.master pan)))

/-- SEQ_QUARANTINE_EXPIRY (R137). -/
def execSeqQuarantineExpiry (seq : Nat) (s : State) : Out :=
  .next (if (s.seq seq).st = .quarantine then
      let s := (s.until (s.seq seq).quarAt).modSeq seq (fun q => { q with st := .free })
      openWaiting s.att.waits s
    else s)

/-! ## Walks (R145) -/

/-- A translation for the buffers. -/
def State.labEntry (s : State) (seq layer slot : Nat) : Option LabEntry :=
  let e := s.pte (pteKey seq layer slot)
  let q := s.seq seq
  if e.present then
    some { seq := seq, gen := q.gen, layer := layer, page := e.page, tier := e.tier, addr := e.addr, pan := q.pan }
  else none

/-- Entries of a buffer that are a pan's share: the buffer divided between the pans with bricks of the die (R10). -/
def State.labShare (s : State) (die : Nat) : Nat :=
  256 / max 1 (s.sch.pans.filter (fun p => p.2.st ≠ .free ∧ p.2.cfg.bricks.any (fun b => b.1 = die))).length

/-- A miss reads two consecutive entries; both are inserted into the shadow. -/
def State.walkMiss (s : State) (die walker seq layer page : Nat) : State :=
  let q := s.seq seq
  let slot := q.slot page
  let es := [slot / 2 * 2, slot / 2 * 2 + 1].filterMap (fun i => s.labEntry seq layer i)
  let e := s.pte (pteKey seq layer slot)
  let k := labKey die walker
  let lab := es.foldl (Lab.insert (s.labShare die)) (mgetD s.att.labs k {})
  let lab := { lab with last := if e.present ∧ e.page = page then some (e.tier, e.addr) else none }
  let s := ((s.bump R.ATT_LAB_MISSES (lDie die)).bump R.ATT_WALK_WALKS (lDie die)).narrow
    (s.pteAt (pteKey seq layer (slot / 2 * 2))) 32
  let s := { s with att := { s.att with labs := mput s.att.labs k lab } }
  if es.isEmpty then s else s.dueCommit q.pan 2

/-- A lookup that hits: the committed translation, which becomes the most recently used. -/
def State.walkHit (s : State) (die walker : Nat) (e : LabEntry) : State :=
  let k := labKey die walker
  let lab := mgetD s.att.labs k {}
  let sh := match lab.shadow.find? (fun x => x.is e.seq e.gen e.layer e.page) with
    | some x => x :: lab.shadow.filter (fun x => !x.is e.seq e.gen e.layer e.page)
    | none => lab.shadow
  let lab := { lab with last := some (e.tier, e.addr), shadow := sh }
  ({ s with att := { s.att with labs := mput s.att.labs k lab } }).bump R.ATT_LAB_HITS (lDie die)

/-- The read at a translation finds another page's identity block, or none that holds (R146). -/
def State.mismatch (s : State) (seq layer page : Nat) (at_ : Nat × Nat) : Bool :=
  let q := s.seq seq
  let e := s.pte (pteKey seq layer (q.slot page))
  match s.ident at_.1 at_.2 with
  | none => true
  | some i => !s.identOk at_.1 at_.2 i (e.shared && i.shared) seq q.gen layer page

/-- Where the stub of a page's old home redirects an access (R147). -/
def State.newHome (s : State) (a : Nat × Nat) : Option (Nat × Nat) :=
  (s.tier.moves.find? (fun m => m.2.st = .redirect ∧ m.2.srcTier = a.1 ∧ m.2.srcAddr = a.2)).map
    (fun m => (m.2.dstTier, m.2.dstAddr))

/-- The read of a page at the translation that the walker found last: the stub of an old home redirects it; after a
mismatch the walker walks the table again, and the read is retried once. Answers whether the second read mismatched too (R146). -/
def State.checkRead (s : State) (die walker seq layer page : Nat) : Bool × State :=
  let k := labKey die walker
  match (mgetD s.att.labs k {}).last with
  | none => (false, s)
  | some a =>
    if (s.newHome a).isSome then (false, s.bump R.ATT_STUB_REDIRECT (lDie die))
    else if s.mismatch seq layer page a then
      let s := (s.walkMiss die walker seq layer page).bump R.ATT_WALK_TRAILER (lDie die)
      match (mgetD s.att.labs k {}).last with
      | none => (true, s)
      | some a => (s.mismatch seq layer page a, s)
    else (false, s)

/-- One page read through a walker: its translation, then the identity check. Answers whether the page is to be treated
as poisoned. -/
def State.walk (s : State) (die walker seq gen layer page : Nat) : Bool × State :=
  let q := s.seq seq
  if q.gen ≠ gen ∨ !q.live then (false, s.bump R.ATT_WALK_STALE (lDie die))
  else
    let s := match (mgetD s.att.labs (labKey die walker) {}).committed.find? (fun e => e.is seq gen layer page) with
      | some e => s.walkHit die walker e
      | none => s.walkMiss die walker seq layer page
    s.checkRead die walker seq layer page

/-- WALK (R145). -/
def execWalk (die walker seq gen layer page : Nat) (s : State) : Out :=
  need (isCompute die && decide (walker < 8)) "walker" (.next (
    if s.unitOut die 0x18 walker then s else (s.walk die walker seq gen layer page).2))

end Sys2Proof.Machine
end

