-- ==== Sys2Proof/Machine/Attend.lean ====
section
/-!
DEFINITION. The ATTEND station: visibility, its rows and pages, the score pass, the online softmax, the value pass, and the
operations on sequences that a tile operation carries (R146, R149 to R157).
-/

namespace Sys2Proof.Machine

/-! ## Visibility (R149, R150, R156) -/

/-- What a query row sees: its position, and in a tree its candidate's relatives. -/
structure Eye where
  pos : Nat
  /-- Row in the micro-batch, for BITMAP. -/
  row : Nat
  /-- Candidates seen, by index, when the mask is TREE. -/
  kin : List Nat := []
deriving DecidableEq, Repr

/-- The 2-bit summary code of a query block and page. -/
def State.maskSummary (s : State) (d : AttDecl) (row page : Nat) : Nat :=
  let i := row / 128 * 8192 + page
  bits (leNat (s.rdTier 1 (d.summaryTable + i / 4) 1)) (i % 4 * 2 + 1) (i % 4 * 2)

/-- The mask bit of a query row and storage position. -/
def State.maskBit (s : State) (d : AttDecl) (row page j : Nat) : Bool :=
  let i := row / 128 * 8192 + page
  bit (leNat (s.rdTier 1 (d.maskTable + i * 2048 + row % 128 * 16 + j / 8) 1)) (j % 8)

/-- Whether the mask admits position `j` of a page to a query row. -/
def State.admits (s : State) (d : AttDecl) (q : Seq) (e : Eye) (page j : Nat) : Bool :=
  let p := page * 128 + j
  match d.mask with
  | 1 => decide (p ≤ e.pos)
  | 2 =>
    match s.maskSummary d e.row page with
    | 0 => false
    | 1 => true
    | _ => s.maskBit d e.row page j
  | 3 => decide (p < q.len0) || e.kin.contains (p - q.len0)
  | _ => true

/-- The visible positions of a page. -/
def State.visible (s : State) (d : AttDecl) (q : Seq) (e : Eye) (x : Pte) : List Nat :=
  match s.ident x.tier x.addr with
  | none => []
  | some i => (List.range 128).filter (fun j => i.live.getLsbD j && s.admits d q e x.page j)

/-- Pages a query row visits in one layer, in ascending logical order. -/
def State.layerPages (s : State) (seq layer : Nat) : List Pte :=
  sortBy (fun (a b : Pte) => decide (a.page ≤ b.page))
    (((s.seqPtes seq).filter (fun p => pteLayer p.1 = layer ∧ p.2.present ∧ ¬ p.2.recomp)).map (·.2))

/-! ## The passes (R149 steps 3 to 6) -/

/-- The running state of one query head: maximum, sum, output. -/
structure Soft where
  mx : Nat := 0xFF800000
  sum : Nat := 0
  out : List Word
deriving DecidableEq, Repr

/-- The score of a position: the K tiles are the stationary set, one group per tile. -/
def State.score (s : State) (d : AttDecl) (q : Seq) (x : Pte) (h : Nat) (qrow : List (FV × Bool))
    (j : Nat) : Nat :=
  let acc := (List.range q.t).foldl (fun (a : Word) t =>
    let lanes := ((qrow.drop (t * 128)).take 128).zipIdx.map
      (fun p => (p.1, s.pageLane q x.tier x.addr (q.kTile h t) p.2 j))
    (merge (decide (t ≠ 0)) a lanes).1) 0
  (encodeOut (.flt fp32) false .rne ((f32z acc).mul (f32z d.scale))).code

/-- Probabilities in the station's format, as lanes by position; masked positions count as zero in an MX
block. -/
def probLanes (fmt : Nat) (ps : List (Nat × Nat)) : List (Nat × (FV × Bool)) :=
  if fmtMx fmt then
    let all := (List.range 128).map (fun j =>
      match ps.find? (fun p => p.1 = j) with | some p => vz p.2 | none => .fin false 0 0)
    let bs := (chunks 32 4 all).map (fun b => mxBlock fmt false (List.replicate 32 .rne) b)
    ps.map (fun p =>
      let b := nth bs (p.1 / 32) (0, [])
      (p.1, laneValue fmt (nth b.2 (p.1 % 32) ⟨0, 0, false⟩).code b.1))
  else
    ps.map (fun p => (p.1, laneValue fmt (encodeOut (outFmt fmt) false .rne (vz p.2)).code 0))

/-- One page's part of the softmax and the value pass for one query head. DESIGN CHOICE (log 117): the score and value
passes set no accumulator bank's flags, since no rule names the banks they use. -/
def State.softPage (s : State) (d : AttDecl) (q : Seq) (h : Nat) (qrow : List (FV × Bool)) (js : List Nat)
    (x : Pte) (a : Soft) : Soft :=
  let sc := js.map (fun j => (j, s.score d q x h qrow j))
  let m := sc.foldl (fun m p => if zLt m p.2 then p.2 else m) a.mx
  let f := if a.mx = m then 0x3F800000 else zExp (zSub a.mx m)
  let ps := sc.map (fun p => (p.1, zExp (zSub p.2 m)))
  let sum := ps.foldl (fun t p => zAdd t p.2) (zMul a.sum f)
  let pl := probLanes d.probFmt ps
  { mx := m, sum := sum
    out := a.out.zipIdx.map (fun o =>
      let lanes := pl.map (fun p => (p.2, s.pageLane q x.tier x.addr (q.vTile h (o.2 / 128)) p.1 (o.2 % 128)))
      (merge true (BitVec.ofNat 32 (zMul o.1.toNat f)) lanes).1) }

/-- The quotient of two FP32 values, exact but for a sticky bit far below any rounding. -/
def quotVal (a b : Word) : FV :=
  match f32z a, f32z b with
  | .fin s m e, .fin t n d =>
    if n = 0 then (if m = 0 then .nan else .inf (s != t))
    else
      let x := m * 2 ^ 200
      .fin (s != t) (2 * (x / n) + b2n (decide (x % n ≠ 0))) (e - d - 201)
  | .inf s, .fin t _ _ => .inf (s != t)
  | .fin s _ _, .inf t => .fin (s != t) 0 0
  | _, _ => .nan

/-- Codes and block scales of output elements. -/
structure Coded where
  codes : List Nat := []
  scales : List Nat := []
deriving DecidableEq, Repr

def Coded.append (a b : Coded) : Coded := { codes := a.codes ++ b.codes, scales := a.scales ++ b.scales }

/-- +0 in `n` elements. -/
def Coded.zero (fmt n : Nat) : Coded :=
  { codes := List.replicate n 0, scales := if fmtMx fmt then List.replicate (ceilDiv n 32) 0 else [] }

/-- The columns from `off` up of a row, `w` of them, as a stream carries them (R87). -/
def Coded.columns (fmt off w : Nat) (c : Coded) : List Byte :=
  packCodes (fmtBits fmt) ((c.codes.drop off).take w)
    ++ (if fmtMx fmt then (List.range (ceilDiv w 32)).map (fun b => BitVec.ofNat 8 (nth c.scales (off / 32 + b) 0)) else [])

/-- The rows of several streams side by side. -/
def joinRows (l : List (StreamDecl × Row)) : Coded :=
  { codes := l.flatMap (fun p => (List.range p.1.width).map (fun i => packedAt (fmtBits p.1.fmt) i p.2.data))
    scales := l.flatMap (fun p =>
      if fmtMx p.1.fmt then
        ((p.2.data.drop (ceilDiv (p.1.width * fmtBits p.1.fmt) 8)).take (ceilDiv p.1.width 32)).map (·.toNat)
      else []) }

/-- The output of one query head in the output format (step 6). -/
def attOutput (fmt : Nat) (a : Soft) : Coded :=
  let ys := a.out.map (fun o => quotVal o (BitVec.ofNat 32 a.sum))
  if fmtMx fmt then
    let bs := (chunks 32 8 ys).map (fun b => mxBlock fmt false (b.map (fun _ => .rne)) b)
    { codes := bs.flatMap (fun b => b.2.map (·.code)), scales := bs.map (·.1) }
  else { codes := ys.map (fun y => (encodeOut (outFmt fmt) false .rne y).code) }

/-- One query head of a row over the visible positions. -/
def State.attHead (s : State) (d : AttDecl) (q : Seq) (layer seq : Nat) (e : Eye) (qh : Nat)
    (qrow : List Byte) : Option Coded :=
  let h := qh / (max d.qheads 1 / q.kvheads |> max 1)
  let row := rowLanes d.inFmt q.headdim q.headdim qrow
  let pages := (s.layerPages seq layer).map (fun x => (x, s.visible d q e x))
  let pages := pages.filter (fun p => !p.2.isEmpty)
  if pages.isEmpty then none
  else
    let a := pages.foldl (fun a p => s.softPage d q h row p.2 p.1 a)
      { out := List.replicate q.headdim 0 }
    some (attOutput d.outFmt a)

/-! ## Rows from the station's streams (R149) -/

/-- The next `n` rows of a slice from each of several streams, row by row. -/
def State.takeRows (s : State) (pan c mb slice n : Nat) (is : List Nat) : List (List (StreamDecl × Row)) × State :=
  let (l, s) := is.foldl (fun (a : List (StreamDecl × List Row) × State) i =>
    match (a.2.pan pan).stream i with
    | some d =>
      let (r, s) := a.2.takeSlice pan i c mb slice n
      (a.1 ++ [(d, r)], s)
    | none => a) ([], s)
  ((List.range n).map (fun j => l.filterMap (fun x => (x.2[j]?).map (fun r => (x.1, r)))), s)

/-- Sequence and generation that a row map's row names: its first two elements, INT32 (log 120). -/
def mapRow (r : Row) : Nat × Nat := (fieldAt r.data 0 4, fieldAt r.data 4 4)

/-- One head's elements of a row. -/
def headBytes (fmt dim : Nat) (c : Coded) (h : Nat) : List Byte := c.columns fmt (h * dim) dim

/-- A row of attention input from the rows of the Q, K and V streams, for a sequence. -/
def State.attInput (s : State) (d : AttDecl) (seq gen mapCause : Nat) (q k v : List (StreamDecl × Row)) : AttRow :=
  let x := s.seq seq
  { seq := seq, gen := gen
    k := (List.range x.kvheads).map (headBytes x.fmt x.headdim (joinRows k))
    v := (List.range x.kvheads).map (headBytes x.fmt x.headdim (joinRows v))
    q := (List.range d.qheads).map (headBytes d.inFmt x.headdim (joinRows q))
    cause := inherited (mapCause :: (q ++ k ++ v).map (fun p => p.2.cause)) }

/-- The next rows of the station, for the sequences that the row map names. -/
def State.attInputs (s : State) (pan : Nat) (st : StationDecl) (d : AttDecl) (mb slice n : Nat) : List AttRow × State :=
  let (q, s) := s.takeRows pan st.idx mb slice n d.qs
  let (k, s) := s.takeRows pan st.idx mb slice n d.ks
  let (v, s) := s.takeRows pan st.idx mb slice n d.vs
  let (m, s) := s.takeRows pan st.idx mb slice n [d.map]
  ((List.range n).map (fun j =>
    let r := (nth m j []).foldl (fun _ p => p.2) ({} : Row)
    s.attInput d (mapRow r).1 (mapRow r).2 r.cause (nth q j []) (nth k j []) (nth v j [])), s)

/-- The next rows of the station, for one sequence. -/
def State.seqInputs (s : State) (pan : Nat) (st : StationDecl) (d : AttDecl) (seq gen mb slice n : Nat) :
    List AttRow × State :=
  let (q, s) := s.takeRows pan st.idx mb slice n d.qs
  let (k, s) := s.takeRows pan st.idx mb slice n d.ks
  let (v, s) := s.takeRows pan st.idx mb slice n d.vs
  ((List.range n).map (fun j => s.attInput d seq gen 0 (nth q j []) (nth k j []) (nth v j [])), s)

/-! ## Pages that the rows read (R145 to R147, R153) -/

/-- The pages that some of the rows reads, as sequence, layer key and entry: a position of it is visible. -/
def State.pagesRead (s : State) (layer : Nat) (d : AttDecl) (l : List (AttRow × Eye)) : List (Nat × Nat × Pte) :=
  (l.flatMap (fun r =>
    (s.layerPages r.1.seq layer).filterMap (fun x =>
      if (s.visible d (s.seq r.1.seq) r.2 x).isEmpty then none else some (r.1.seq, layer, x)))).eraseDups

/-- The walker of a die that translates a page. DESIGN CHOICE (log 123): by the page's number. -/
def walkerOf (page : Nat) : Nat := page % 8

/-- Every page that the rows read is translated by a walker and its identity checked. Answers the pages that mismatched
twice, as sequence and page. -/
def State.walkPages (s : State) (die : Nat) (l : List (Nat × Nat × Pte)) : List (Nat × Nat) × State :=
  l.foldl (fun (a : List (Nat × Nat) × State) x =>
    let (bad, s) := a.2.walk die (walkerOf x.2.2.page) x.1 (a.2.seq x.1).gen x.2.1 x.2.2.page
    (if bad then (x.1, x.2.2.page) :: a.1 else a.1, s)) ([], s)

/-- The move of a page out of T3 has exceeded the limit (R153). -/
def State.tooSlow (s : State) (die : Nat) (x : Pte) : Bool :=
  s.tier.moves.any (fun m => m.2.srcTier = 3 ∧ m.2.srcAddr = x.addr ∧ m.2.st = .copying ∧
    m.2.started + s.getF R.MOV_LIMIT_TIMEOUT (lDie die) * 1000 ≤ s.time)

/-- The pages of a list that an operation cannot read: their moves out of T3 have exceeded the limit. -/
def State.slowPages (s : State) (die : Nat) (l : List (Nat × Nat × Pte)) : List (Nat × Nat × Pte) :=
  l.filter (fun x => x.2.2.tier == 3 && s.tooSlow die x.2.2)

/-- The poison cause that the pages of a row bring: 1h for a page that did not come up from T3 in time, 6h for one whose
identity mismatched twice, 5h for a poisoned one. -/
def State.pageCause (s : State) (d : AttDecl) (q : Seq) (layer seq : Nat) (slow : List (Nat × Nat × Pte))
    (bad : List (Nat × Nat)) (e : Eye) : Nat :=
  let l := (s.layerPages seq layer).filter (fun x => !(s.visible d q e x).isEmpty)
  if slow.any (fun x => x.1 = seq) then 1
  else if l.any (fun x => bad.contains (seq, x.page)) then 6
  else if l.any (fun x => x.poison) then 5 else 0

/-! ## One query row -/

/-- An output row of an ATTEND operation: the elements of every query head, and its poison cause. -/
structure AttOut where
  row : Coded
  cause : Nat := 0
deriving DecidableEq, Repr

/-- A poisoned output row: its values are undefined. -/
def State.poisonRow (s : State) (d : AttDecl) (dim cause : Nat) : AttOut × State :=
  let n := d.qheads * dim
  let (bs, s) := s.drawBytes (n * 2)
  ({ row := { codes := (List.range n).map (fun i => fieldAt bs (2 * i) 2 % 2 ^ fmtBits d.outFmt)
              scales := (Coded.zero d.outFmt n).scales }, cause := cause }, s)

/-- Attention of one row in one layer, in an operation of `pan`. -/
def State.attRow (s : State) (die pan layer : Nat) (d : AttDecl) (slow : List (Nat × Nat × Pte)) (bad : List (Nat × Nat))
    (r : AttRow) (e : Eye) : AttOut × State :=
  let q := s.seq r.seq
  let blank : AttOut := { row := Coded.zero d.outFmt (d.qheads * q.headdim) }
  let gone := q.gen ≠ r.gen
  let cause := if r.cause ≠ 0 then 5 else if gone || !q.live then 0 else s.pageCause d q layer r.seq slow bad e
  let s := if gone then s.bump R.ATT_WALK_STALE (lDie die) else s
  if cause ≠ 0 then s.poisonRow d q.headdim cause
  else if gone then (blank, s)
  else
    let hs := if q.live then (List.range d.qheads).map (fun h => s.attHead d q layer r.seq e h (nth r.q h [])) else []
    if hs.all Option.isNone then (blank, s.bumpPan R.ATT_PT3_EMPTYROW pan)
    else ({ row := hs.foldl (fun a h => a.append (h.getD (Coded.zero d.outFmt q.headdim))) {} }, s)

/-- The rows of an operation, one after the other: first every page they read is walked (R145, R146); reads that end
with TIER_TIMEOUT are counted (R153, R251). -/
def State.attRows (s : State) (die pan layer : Nat) (d : AttDecl) (l : List (AttRow × Eye)) : List AttOut × State :=
  let l' := l.filter (fun r => decide ((s.seq r.1.seq).gen = r.1.gen) && (s.seq r.1.seq).live)
  let pages := s.pagesRead layer d l'
  let slow := s.slowPages die pages
  let (bad, s) := (s.bump R.MOV_ERR_TIMEOUT (lDie die) slow.length).walkPages die
    (pages.filter (fun x => !slow.contains x))
  l.foldl (fun (a : List AttOut × State) p =>
    let (o, s) := a.2.attRow die pan layer d slow bad p.1 p.2
    (a.1 ++ [o], s)) ([], s)

/-! ## What an operation waits for (R147, R153, R236) -/

/-- What the next rows of an operation see, before they are appended. -/
def State.eyesBefore (s : State) (layer base : Nat) (rows : List AttRow) : List Eye :=
  rows.zipIdx.map (fun r =>
    { pos := (s.seq r.1.seq).lenOf layer + ((rows.take r.2).filter (fun x => x.seq = r.1.seq)).length
      row := base + r.2 })

/-- A page of an operation is on the move, or stands in T3 and has not been waited for long enough. -/
def State.pageWaits (s : State) (die : Nat) (x : Pte) : Bool :=
  x.present && (x.moving || s.arriving x.tier x.addr || x.tier == 3) && !(x.tier == 3 && s.tooSlow die x)

/-- Whether an operation must wait: for a page that it reads, or for one that it appends to and that is on the move. -/
def State.attWaits (s : State) (die layer : Nat) (d : AttDecl) (rows : List AttRow) (eyes : List Eye) : Bool :=
  (s.pagesRead layer d (rows.zip eyes)).any (fun x => s.pageWaits die x.2.2) ||
    (rows.zip eyes).any (fun r =>
      let q := s.seq r.1.seq
      let e := s.pte (pteKey r.1.seq layer (q.slot (r.2.pos / 128)))
      e.present && (e.moving || s.arriving e.tier e.addr))

/-! ## Whole operations -/

/-- Gives the output rows to the station's output streams: each takes its columns in turn. A poisoned row of each is
counted (R118). -/
def State.emitAtt (s : State) (die pan : Nat) (st : StationDecl) (optag mb slice fmt : Nat) (outs : List AttOut) : State :=
  (st.outputs.foldl (fun (a : Nat × State) o =>
    match (a.2.pan pan).stream o with
    | none => a
    | some d =>
      (a.1 + d.width, forEach outs a.2 (fun s x =>
        let s := if x.cause = 0 then s else s.poisonOut pan die x.cause
        s.give pan o (mkRow fmt d.width x.cause optag mb slice (s.pan pan).epoch (x.row.columns fmt a.1 d.width)))))
    (0, s)).2

/-- Whether a row's sequence takes its append: it runs and the generation is current. -/
def State.takesRow (s : State) (r : AttRow) : Bool :=
  decide ((s.seq r.seq).gen = r.gen) && (s.seq r.seq).live

/-- ATTEND over rows of one layer (R149): appends first, then attention in row order. -/
def State.attend (s : State) (die pan layer optag mb slice : Nat) (st : StationDecl) (d : AttDecl)
    (rows : List AttRow) : State :=
  let base := slice * (s.pan pan).split
  let (eyes, s) := rows.zipIdx.foldl (fun (a : List Eye × State) r =>
    if a.2.takesRow r.1 then
      let (p, s) := a.2.appendRow layer r.1
      (a.1 ++ [{ pos := p, row := base + r.2 }], s)
    else (a.1 ++ [{ pos := 0, row := base + r.2 }], a.2)) ([], s)
  let (outs, s) := s.attRows die pan layer d (rows.zip eyes)
  s.emitAtt die pan st optag mb slice d.outFmt outs

/-- Where a sequence's accept slot lies (log 31). -/
def Pan.acceptAt (p : Pan) (d : AttDecl) (seq : Nat) : Nat := d.acceptSlot + 32 * (seq - p.cfg.seqLo)

/-- What the candidates of a tree see. -/
def Seq.treeEyes (q : Seq) (n : Nat) : List Eye :=
  (List.range n).map (fun i => { pos := q.len0 + i, row := i, kin := ancestors q.parents 256 i })

/-- TREE over the candidates of one sequence in one layer (R156). -/
def State.attendTree (s : State) (die pan layer seq optag mb slice : Nat) (st : StationDecl)
    (d : AttDecl) (parents : List Nat) (rows : List AttRow) : State :=
  if !(s.seq seq).takesTree layer parents then s
  else
    let s := s.appendTree layer seq ((s.pan pan).acceptAt d seq) parents rows
    let (outs, s) := s.attRows die pan layer { d with mask := 3 } (rows.zip ((s.seq seq).treeEyes rows.length))
    s.emitAtt die pan st optag mb slice d.outFmt outs

/-- Writes of a RECOMPUTE station into a RECOMP page (R155). -/
def State.recomputePage (s : State) (layer seq page : Nat) (rows : List (Nat × AttRow)) : State :=
  let e := s.pte (pteKey seq layer ((s.seq seq).slot page))
  if e.recomp && decide (e.page = page) then
    forEach rows s (fun s r => s.writePos seq layer (page * 128 + r.1 % 128) r.2 false true)
  else s

/-- An operation on a sequence: one that names another generation is dropped and counted (R138). -/
def State.onSeq (s : State) (die seq gen : Nat) (f : State → State) : State :=
  if (s.seq seq).gen ≠ gen ∨ !(s.seq seq).live then s.bump R.ATT_WALK_STALE (lDie die) else f s

end Sys2Proof.Machine
end

