-- ==== Sys2Proof/Machine/Tiers.lean ====
section
/-!
DEFINITION. The tier mover, its stubs, tier requests, memory-side operations, the ladle, buffers and the spill
engine (R152 to R155, R231 to R254).
-/

namespace Sys2Proof.Machine

/-! ## Buffers (R252 to R254) -/

def State.buf (s : State) (i : Nat) : Buffer := mgetD s.tier.buffers i {}
def State.setBuf (s : State) (i : Nat) (b : Buffer) : State :=
  { s with tier := { s.tier with buffers := mput s.tier.buffers i b } }

/-- The handle of an allocated buffer. -/
def State.handle (s : State) (i : Nat) : Nat :=
  let b := s.buf i
  i + b.pan * 2 ^ 20 + b.gen % 2 ^ 20 * 2 ^ 28 + (s.pan b.pan).gen % 65536 * 2 ^ 48

/-- A handle names the current owner and generation. -/
def State.handleOk (s : State) (pan : Nat) (h : Nat) : Bool :=
  let b := s.buf (bits h 19 0)
  decide (b.st = .allocated) && decide (b.pan = pan) && decide (bits h 27 20 = pan)
    && decide (bits h 47 28 = b.gen % 2 ^ 20) && decide (bits h 63 48 = (s.pan pan).gen % 65536)

/-- Moves that carry a buffer. -/
def State.bufMoves (s : State) (i : Nat) : List Nat :=
  (s.tier.moves.filter (fun m => m.2.obj = .buffer i)).map (·.1)

def State.setMoves (s : State) (m : AMap Move) : State := { s with tier := { s.tier with moves := m } }

/-- The lowest FREE buffer index. -/
def State.freeBuf (s : State) : Option Nat :=
  lowest (min 1048576 (s.tier.buffers.length + 1)) (fun i => (s.buf i).st = .free)

/-- An allocation takes a frame of its pool and an index, and answers the handle; none when it has to wait. -/
def State.tryAlloc (s : State) (w : BufWait) : Option State :=
  match s.freeFrame w.pan w.tier, s.freeBuf with
  | some n, some i =>
    let s := (s.takeFrame w.pan w.tier n).setBuf i
      { st := .allocated, gen := ((s.buf i).gen + 1) % 2 ^ 20, pan := w.pan, tier := w.tier,
        addr := (s.pan w.pan).frameAddr w.tier n, frame := n, bytes := w.bytes, movable := w.movable }
    some { s with tier := { s.tier with results := s.tier.results ++ [(i, toLe 8 (s.handle i))] } }
  | _, _ => none

/-- Allocations that wait are tried again, oldest first. -/
def allocWaits : List BufWait → State → State
  | [], s => s
  | w :: rest, s =>
    match s.tryAlloc w with
    | some s => allocWaits rest { s with tier := { s.tier with bufWaits := s.tier.bufWaits.erase w } }
    | none => allocWaits rest s

/-- A frame has become free. -/
def State.poolFreed (s : State) : State := allocWaits s.tier.bufWaits s

/-- A buffer goes to QUARANTINE; its frame is released, at the end of a move in progress. -/
def State.endBuf (s : State) (i : Nat) : State :=
  let b := s.buf i
  let s' := s.setBuf i { b with st := .quarantine, quarAt := s.time + ms100 }
  match s.bufMoves i with
  | [] => (s'.giveFrame b.pan b.tier b.frame).poolFreed
  | l => s'.setMoves (l.foldl (fun m k => mmod m k (fun v => { v with release := true })) s'.tier.moves)

/-- BUFFER_ALLOCATE (R252). -/
def execBufferAllocate (pan tier bytes : Nat) (movable : Bool) (s : State) : Out :=
  let p := s.pan pan
  let w : BufWait := { pan, tier, bytes, movable }
  need (decide (1 ≤ tier) && decide (tier ≤ 3)) "tier of a pool" (whenThere (decide (p.st ≠ .free)) s (.next (
    match s.tryAlloc w with
    | some s => s
    | none =>
      let s := { s with tier := { s.tier with bufWaits := s.tier.bufWaits ++ [w] } }
      (s.bumpPan R.MOV_PBUF_ALLOCWAIT pan).alarm Kind.tierPoolWait p.job (alarmKey p.master (pan * 4 + tier)))))

/-- The result row of a MOVE station: a status code of R344 (log 128). -/
def State.moveResult (s : State) (pan : Nat) (station : Option Nat) (status : Nat) : State :=
  match station.bind (s.pan pan).station with
  | some d =>
    match d.kind, d.outputs with
    | 0xD, o :: _ => s.give pan o (mkRow 12 1 0 0 0 0 0 (toLe 4 status))
    | _, _ => s
  | none => s

/-- BUFFER_FREE (R253, R254). -/
def execBufferFree (pan : Nat) (handle : U64) (station : Option Nat) (s : State) : Out :=
  .next (
    if s.handleOk pan handle.toNat then (s.endBuf (bits handle.toNat 19 0)).moveResult pan station Status.ok
    else ((s.bumpPan R.MOV_PBUF_FREEREF pan).alarm Kind.freeRefused (s.pan pan).job
      (alarmKey pan handle.toNat)).moveResult pan station Status.freeRefused)

/-- BUFFER_QUARANTINE_EXPIRY (R253). -/
def execBufferQuarantineExpiry (buffer : Nat) (s : State) : Out :=
  .next (if (s.buf buffer).st = .quarantine then
      ((s.until (s.buf buffer).quarAt).setBuf buffer { s.buf buffer with st := .free }).poolFreed
    else s)

/-- Buffers of a pan whose generation advances go to QUARANTINE. -/
def State.endBufs (s : State) (pan : Nat) : State :=
  forEach ((s.tier.buffers.filter (fun b => b.2.st = .allocated ∧ b.2.pan = pan)).map (·.1)) s State.endBuf

/-! ## Objects of moves (R233) -/

/-- A movable object as it stands: pan, tier, offset, frame, bytes. -/
structure ObjAt where
  pan : Nat
  tier : Nat
  addr : Nat
  frame : Nat
  bytes : Nat
deriving DecidableEq, Repr

/-- A page, its tile headers and its identity block. -/
def Ident.moved (i : Ident) : Nat := i.pageBytes + 32 * i.tiles + 64

def State.pageObj (s : State) (tier addr : Nat) : Option ObjAt :=
  (s.ident tier addr).map (fun i => { pan := i.pan, tier, addr, frame := i.frame, bytes := i.moved })

def State.objAt (s : State) (o : MovObj) : Option ObjAt :=
  match o with
  | .page seq layer slot =>
    let e := s.pte (pteKey seq layer slot)
    if e.present then s.pageObj e.tier e.addr else none
  | .pageAt tier addr => s.pageObj tier addr
  | .buffer i =>
    let b := s.buf i
    if b.st = .allocated ∧ b.movable then
      some { pan := b.pan, tier := b.tier, addr := b.addr, frame := b.frame, bytes := b.bytes }
    else none

/-- Whether a stub covers the range of an object. -/
def State.covered (s : State) (o : MovObj) (x : ObjAt) : Bool :=
  s.tier.moves.any (fun m => m.2.obj = o ∨ m.2.srcTier = x.tier ∧ m.2.srcAddr = x.addr
    ∨ m.2.dstTier = x.tier ∧ m.2.dstAddr = x.addr)

/-- Stubs on an engine, and its moves in progress. -/
def State.stubs (s : State) (die engine : Nat) : Nat :=
  (s.tier.moves.filter (fun m => m.2.die = die ∧ m.2.engine = engine)).length
def State.running (s : State) (die engine : Nat) : Nat :=
  (s.tier.moves.filter (fun m => m.2.die = die ∧ m.2.engine = engine ∧ m.2.st ≠ .redirect)).length

/-- MOVING of every entry that names a page. -/
def State.setMoving (s : State) (tier addr : Nat) (v : Bool) : State :=
  forEach (s.namers tier addr) s (fun s p => s.setPte p.1 { p.2 with moving := v })

/-- Prefetches issued for the next step on the pages of sequences that are cancelled at the boundary are discarded: their
entries have nothing to wait for (R138). -/
def State.dropSeqFetch (s : State) (pan : Nat) : State :=
  let p := s.pan pan
  let gone := (s.panSeqs pan).filter (fun i => (s.seq i).st = .cancelPending)
  let hit (r : TierReq) : Bool :=
    match r.dest with
    | .prefetch q st k _ _ => decide (q = pan) && decide (st = p.step + 1) && (match p.cfg.prefetch[k]? with
        | some d => d.cls == 1 && gone.contains d.seq
        | none => false)
    | _ => false
  let ks := s.tier.reqs.filterMap (fun r => match r.2.dest with
    | .prefetch _ _ k _ _ => if hit r.2 then some k else none
    | _ => none)
  ({ s with tier := { s.tier with reqs := s.tier.reqs.filter (fun r => !hit r.2) } }).modPan pan (fun p =>
    { p with ahead := p.ahead.map (fun (l : Ladle) => { l with present := ks ++ l.present }) })

/-! ## Starting a move (R234) -/

/-- Installs the stub of a move in COPYING. -/
def State.beginMove (s : State) (die engine : Nat) (o : MovObj) (x : ObjAt) (dst n : Nat) : State :=
  let k := s.tier.nextMove
  let m : Move :=
    { die := die, engine := engine, obj := o, pan := x.pan, srcTier := x.tier, srcAddr := x.addr,
      dstTier := dst, dstAddr := (s.pan x.pan).frameAddr dst n, srcFrame := x.frame, dstFrame := n,
      bytes := x.bytes, started := s.time, queue := (s.tier.lifts.filter (fun l => l.1 = o)).map (·.2) }
  let s := s.takeFrame x.pan dst n
  let s := { s with tier := { s.tier with
    moves := mput s.tier.moves k m, nextMove := k + 1, lifts := s.tier.lifts.filter (fun l => l.1 ≠ o) } }
  let s := match o with
    | .buffer _ => s
    | _ => s.setMoving x.tier x.addr true
  s.peak R.MOV_STATUS_PEAK (lDie die) (s.stubs die 0 + s.stubs die 1)

/-- An engine is under self-test, about to be, or DISABLED. -/
def State.engineOut (s : State) (die engine : Nat) : Bool :=
  s.unitOut die 0x30 engine || (match mget s.obsv.bists die with
    | some b => b.block == 0x30 && b.unit == engine
    | none => false)

/-- A move that does not start, now or later: its object is gone, covered by a stub, there already, or failed in the
step; or its engine is out of service. -/
def State.moveDead (s : State) (w : MoveWait) : Bool :=
  match s.objAt w.obj with
  | none => true
  | some x => s.covered w.obj x || s.tier.failed.contains w.obj || decide (x.tier = w.dst) || decide (w.dst = 0)
      || decide (3 < w.dst) || s.engineOut w.die w.engine

/-- A move starts when the engine, a stub and a destination frame are free; none when it has to wait. -/
def State.tryMove (s : State) (w : MoveWait) : Option State :=
  if s.moveDead w then some s
  else if 512 ≤ s.stubs w.die w.engine ∨ 4 ≤ s.running w.die w.engine then none
  else (s.objAt w.obj).bind (fun x => (s.freeFrame x.pan w.dst).map (s.beginMove w.die w.engine w.obj x w.dst))

/-- A move is asked for. One that has to wait is kept; a lack of stubs is counted once. -/
def State.moveStart (s : State) (die engine : Nat) (o : MovObj) (dst : Nat) : State :=
  let w : MoveWait := { die, engine, obj := o, dst }
  if s.tier.waits.contains w then s
  else match s.tryMove w with
    | some s => s
    | none =>
      let s := if 512 ≤ s.stubs die engine then s.bump R.MOV_COUNT_STUBWAIT (lDie die) else s
      { s with tier := { s.tier with waits := s.tier.waits ++ [w] } }

/-- Moves that wait are tried again, oldest first. -/
def startWaits : List MoveWait → State → State
  | [], s => s
  | w :: rest, s =>
    match s.tryMove w with
    | some s => startWaits rest { s with tier := { s.tier with waits := s.tier.waits.erase w } }
    | none => startWaits rest s

/-- A stub, an engine's place or a frame has become free. -/
def State.moverFreed (s : State) : State := (startWaits s.tier.waits s).poolFreed

/-- The engine of a die with fewer moves in progress. -/
def State.idleEngine (s : State) (die : Nat) : Nat := if s.running die 0 ≤ s.running die 1 then 0 else 1

/-- MOVE_START (R234). -/
def execMoveStart (die engine : Nat) (obj : MovObj) (dstTier : Nat) (s : State) : Out :=
  need (isCompute die && decide (engine < 2)) "mover engine" (.next (s.moveStart die engine obj dstTier))

/-! ## Accesses (R235, R236) -/

/-- An access applied to an object at its home. -/
def State.applyAccess (s : State) (tier base : Nat) (a : Access) : State :=
  match a with
  | .read tag addr len =>
    { s with tier := { s.tier with results := s.tier.results ++ [(tag, s.rdTier tier (base + addr) len)] } }
  | .write _ addr data => s.wrTier tier (base + addr) data
  | .msop tag addr op e data cmp =>
    let old := s.rdTier tier (base + addr) data.length
    let s := s.wrTier tier (base + addr) (msRun op e old data cmp)
    match op with
    | .fetchAdd | .cas => { s with tier := { s.tier with results := s.tier.results ++ [(tag, old)] } }
    | _ => s

/-- The queued accesses of a stub are applied in arrival order. -/
def State.applyQueue (s : State) (tier base : Nat) (l : List Access) : State :=
  forEach l s (fun s a => s.applyAccess tier base a)

def State.modMove (s : State) (k : Nat) (f : Move → Move) : State := s.setMoves (mmod s.tier.moves k f)

def Move.isPage (m : Move) : Bool :=
  match m.obj with
  | .buffer _ => false
  | _ => true

/-- One access at a stub. -/
def State.stubAccess (s : State) (k : Nat) (a : Access) : State :=
  match mget s.tier.moves k with
  | none => s
  | some m =>
    let hit (s : State) : State := if m.isPage then s.bump R.ATT_STUB_REDIRECT (lDie m.die) else s
    match m.st with
    | .copying =>
      (s.modMove k (fun m => { m with queue := m.queue ++ [a] })).bump R.MOV_FWD_QUEUED (lDie m.die)
    | .draining =>
      hit ((s.modMove k (fun m => { m with queue := m.queue ++ [a] })).bump R.MOV_FWD_QUEUED (lDie m.die))
    | .redirect =>
      hit ((s.applyAccess m.dstTier m.dstAddr a).bump R.MOV_FWD_REDIRECT (lDie m.die))

/-- STUB_ACCESS (R235). -/
def execStubAccess (move : Nat) (access : Access) (s : State) : Out :=
  .next (s.stubAccess move access)

/-! ## The end of a copy (R234) -/

/-- An access that names an address: a stub on the range takes it; the new home of a move that drains holds it; else it
is applied at once (R235, R236). -/
def State.access (s : State) (space off : Nat) (a : Nat → Access) : State :=
  let on (t b n : Nat) : Bool := decide (t = space) && decide (b ≤ off) && decide (off < b + n)
  match s.tier.moves.find? (fun m => on m.2.srcTier m.2.srcAddr m.2.bytes) with
  | some m => s.stubAccess m.1 (a (off - m.2.srcAddr))
  | none =>
    match s.tier.moves.find? (fun m => m.2.st = .draining ∧ on m.2.dstTier m.2.dstAddr m.2.bytes) with
    | some m => s.modMove m.1 (fun m => { m with held := m.held ++ [a (off - m.dstAddr)] })
    | none => s.applyAccess space off (a 0)

/-- The object is freed where it stands, when it was released or freed while it moved. -/
def State.endReleased (s : State) (m : Move) (flipped : Bool) : State :=
  if !m.release then s
  else
    let (t, a, n) := if flipped then (m.dstTier, m.dstAddr, m.dstFrame) else (m.srcTier, m.srcAddr, m.srcFrame)
    match m.obj with
    | .buffer _ => s.giveFrame m.pan t n
    | _ => s.freePage t a

/-- The accesses that a stub releases to the old home; memory-side operations on an object in T3 wait for T2 again. -/
def State.releaseQueue (s : State) (m : Move) : State :=
  if m.srcTier ≠ 3 then s.applyQueue m.srcTier m.srcAddr m.queue
  else forEach m.queue s (fun s a =>
    match a with
    | .msop _ _ _ _ _ _ => { s with tier := { s.tier with lifts := s.tier.lifts ++ [(m.obj, a)] } }
    | _ => s.applyAccess m.srcTier m.srcAddr a)

/-- A move that ends without a flip: the queue goes to the old home, the destination frame is freed. -/
def State.failMove (s : State) (k : Nat) (m : Move) : State :=
  let s := s.releaseQueue m
  let s := if m.isPage then s.setMoving m.srcTier m.srcAddr false else s
  let s := (s.giveFrame m.pan m.dstTier m.dstFrame).bump R.MOV_COUNT_FAILED (lDie m.die)
  (((s.setMoves (mdel s.tier.moves k)).endReleased m false).bistMover m.die).moverFreed

/-- Poison causes of tiles: the named ones, or all of them. -/
def markTiles (n cause : Nat) (tiles : List Nat) (m : AMap Nat) : AMap Nat :=
  (if tiles.isEmpty then List.range n else tiles.filter (fun t => t < n)).foldl (fun m t => mput m t cause) m

/-- Tiles of a page, its block and every entry that names it carry POISON (R141, R142). -/
def State.poisonPage (s : State) (tier addr cause : Nat) (tiles : List Nat) : State :=
  let s := s.modIdent tier addr (fun i => { i with causes := markTiles i.tiles cause tiles i.causes })
  forEach (s.namers tier addr) s (fun s p => s.setPte p.1 { p.2 with poison := true })

/-- Tiles of a buffer, and its POISON flag. -/
def State.poisonBuf (s : State) (i cause : Nat) (tiles : List Nat) : State :=
  let b := s.buf i
  s.setBuf i { b with poison := cause, causes := tiles.foldl (fun m t => mput m t cause) b.causes }

/-- The object of a move is poisoned where it stands (R234). -/
def State.poisonObj (s : State) (m : Move) (cause : Nat) (tiles : List Nat) : State :=
  match m.obj with
  | .buffer i => s.poisonBuf i cause tiles
  | _ => s.poisonPage m.srcTier m.srcAddr cause tiles

/-- Copies the bytes of an object. -/
def State.copyTier (s : State) (st sa dt da n : Nat) : State := s.wrTier dt da (s.rdTier st sa n)

/-- Index entries name a moved page at its new home. -/
def Move.fixIndex (m : Move) (l : AMap (List PfxEntry × List PfxEntry)) : AMap (List PfxEntry × List PfxEntry) :=
  let fix (x : PfxEntry) : PfxEntry :=
    { x with pages := x.pages.map (fun g => if g = (m.srcTier, m.srcAddr) then (m.dstTier, m.dstAddr) else g) }
  l.map (fun (p : Nat × (List PfxEntry × List PfxEntry)) => (p.1, (p.2.1.map fix, p.2.2.map fix)))

/-- The translation of an object is rewritten to the destination in one write. -/
def State.flip (s : State) (m : Move) : State :=
  match m.obj with
  | .buffer i => s.setBuf i { s.buf i with tier := m.dstTier, addr := m.dstAddr, frame := m.dstFrame }
  | _ =>
    let ns := s.namers m.srcTier m.srcAddr
    let s := match s.ident m.srcTier m.srcAddr with
      | some i =>
        let i' : Ident := { i with frame := m.dstFrame }
        { s with att := { s.att with
            idents := mput (mdel s.att.idents (identKey m.srcTier m.srcAddr)) (identKey m.dstTier m.dstAddr) i' } }
      | none => s
    let s := forEach ns s (fun s p =>
      (s.setPte p.1 { p.2 with tier := m.dstTier, addr := m.dstAddr, moving := false }).labDrop m.pan
        (pteSeq p.1) (pteLayer p.1) p.2.page)
    let s := { s with att := { s.att with pfx := m.fixIndex s.att.pfx } }
    if m.srcTier < m.dstTier then s.bumpPan R.ATT_PSPILL_SPILLED m.pan
    else s.bumpPan R.ATT_PSPILL_FETCHED m.pan

/-- The pans whose boundaries a stub waits for (R237). -/
def State.stubPans (s : State) (m : Move) : List Nat :=
  if m.isPage then [m.pan]
  else (s.sch.pans.filter (fun p => p.2.job = (s.pan m.pan).job ∧ p.2.st ≠ .free)).map (·.1)

/-- A copy that checks good: the flip, and DRAINING. -/
def State.goodCopy (s : State) (k : Nat) (m : Move) : State :=
  let s := s.copyTier m.srcTier m.srcAddr m.dstTier m.dstAddr m.bytes
  let s := if m.srcTier = 3 then s.flashRead m.srcAddr m.bytes else s
  let s := if m.dstTier = 3 then s.flashTouch none m.dstAddr m.bytes else s
  ((s.flip m).modMove k (fun m => { m with st := .draining, waitPans := s.stubPans m })).bump
    R.MOV_COUNT_DONE (lDie m.die)

/-- The move counts failed: its object is not moved again before the next boundary. -/
def State.moveFailed (s : State) (k : Nat) (m : Move) : State :=
  ({ s with tier := { s.tier with failed := m.obj :: s.tier.failed } }).failMove k m

/-- Accesses that the source accepted before the stub have not completed: the copy has not begun. -/
def State.copyWaits (s : State) (m : Move) : Bool :=
  s.tier.reqs.any (fun r => r.2.space = m.srcTier ∧ m.srcAddr ≤ r.2.offset ∧ r.2.offset < m.srcAddr + m.bytes ∧ !r.2.ended)

/-- The end of a move's copy. -/
def State.copyDone (s : State) (k : Nat) (r : CopyResult) : State :=
  match mget s.tier.moves k with
  | none => s
  | some m =>
    if m.st ≠ .copying ∨ s.copyWaits m then s
    else
      match r with
      | .good => if m.dstTier = 3 ∧ s.flashClosed then s.moveFailed k m else s.goodCopy k m
      | .sourceEcc tiles => ((s.poisonObj m 2 tiles).bump R.MOV_ERR_ECC (lDie m.die)).failMove k m
      | .destFailed => s.moveFailed k m
      | .sourceTimeout => (s.bump R.MOV_ERR_TIMEOUT (lDie m.die)).moveFailed k m

/-- MOVE_COPY_DONE (R234). -/
def execMoveCopyDone (move : Nat) (result : CopyResult) (s : State) : Out := .next (s.copyDone move result)

/-- The stub goes: the source frame is freed, and a release that waited completes (R236, R237). -/
def State.dropStub (s : State) (k : Nat) (m : Move) : State :=
  let s := s.giveFrame m.pan m.srcTier m.srcFrame
  (((s.setMoves (mdel s.tier.moves k)).endReleased m true).bistMover m.die).moverFreed

/-- The queue is forwarded to the new home, the DRAINED marker follows, the stub is in REDIRECT. -/
def State.drained (s : State) (k : Nat) : State :=
  match mget s.tier.moves k with
  | none => s
  | some m =>
    if m.st ≠ .draining then s
    else
      let s := (s.applyQueue m.dstTier m.dstAddr m.queue).applyQueue m.dstTier m.dstAddr m.held
      let v : Move := { m with st := .redirect, queue := [], held := [] }
      let s := s.modMove k (fun _ => v)
      if m.waitPans.isEmpty then s.dropStub k v else s.moverFreed

/-- MOVE_DRAINED (R235). -/
def execMoveDrained (move : Nat) (s : State) : Out := .next (s.drained move)

/-- Objects in T3 that memory-side operations wait for are asked for in T2 (R242). -/
def State.liftAll (s : State) : State :=
  forEach ((s.tier.lifts.map (·.1)).eraseDups) s (fun s o =>
    match s.objAt o with
    | some x =>
      let d := (s.pan x.pan).master
      s.moveStart d (s.idleEngine d) o 2
    | none => { s with tier := { s.tier with lifts := s.tier.lifts.filter (fun l => l.1 ≠ o) } })

/-- A boundary of a pan falls: stubs that wait for it go on, and failed objects may be tried again. -/
def State.moveBoundary (s : State) (pan : Nat) : State :=
  let s := { s with tier := { s.tier with failed := s.tier.failed.filter (fun o =>
    match s.objAt o with | some x => x.pan ≠ pan | none => false) } }
  let s := s.liftAll
  forEach s.tier.moves s (fun s (p : Nat × Move) =>
    if p.2.st = .copying then s
    else
      let m : Move := { p.2 with waitPans := p.2.waitPans.filter (fun w => w ≠ pan) }
      if m.waitPans.isEmpty ∧ m.st = .redirect then s.dropStub p.1 m
      else s.modMove p.1 (fun _ => m))

/-! ## Spill and drop (R152, R154) -/

/-- Pages a pan holds in a tier, each once, by home address. -/
def State.pagesIn (s : State) (pan tier : Nat) : List (Nat × Ident) :=
  (s.att.idents.filter (fun i => i.1 / 2 ^ 44 = tier ∧ i.2.pan = pan)).map (fun i => (i.1 % 2 ^ 44, i.2))

/-- Occupancy of a pool in frames. -/
def State.occupancy (s : State) (pan tier : Nat) : Nat := (s.usedFrames pan tier).length

def State.above (s : State) (pan tier limit : Nat) : Bool :=
  decide (limit * (s.pan pan).pool tier < s.occupancy pan tier * 100)

/-- Below LOW: a page may come up (R153). -/
def State.below (s : State) (pan tier limit : Nat) : Bool :=
  decide (s.occupancy pan tier * 100 < limit * (s.pan pan).pool tier)

/-- The rank of a page: earliest latest-write step, then lower sequence, layer and page. -/
def Ident.rank (i : Ident) : Nat := ((i.lastStep * 65536 + i.seq) * 128 + i.layer) * 2 ^ 32 + i.page

/-- The spill engine may take a page: no entry that names it forbids it, and it was not written in the step. -/
def State.mayMove (s : State) (tier : Nat) (p : Nat × Ident) : Bool :=
  decide (p.2.lastStep ≠ (s.pan p.2.pan).step) && (s.namers tier p.1).all s.mayEvict

/-- The pages of a tier that the spill engine may take, in its order. -/
def State.spillOrder (s : State) (pan tier : Nat) : List (Nat × Ident) :=
  sortBy (fun a b => decide (a.2.rank ≤ b.2.rank)) ((s.pagesIn pan tier).filter (s.mayMove tier))

/-- Objects on their way out of a tier, or waiting to go. -/
def State.leaving (s : State) (pan tier : Nat) : Nat :=
  (s.tier.moves.filter (fun m => m.2.pan = pan ∧ m.2.srcTier = tier)).length +
    (s.tier.waits.filter (fun w => match s.objAt w.obj with
      | some x => x.pan = pan ∧ x.tier = tier
      | none => false)).length

/-- Asks for moves down, in order, until the objects that stay are at or below LOW. -/
def spillMoves (pan tier low : Nat) : List (Nat × Ident) → State → State
  | [], s => s
  | p :: rest, s =>
    if low * (s.pan pan).pool tier < (s.occupancy pan tier - s.leaving pan tier) * 100 then
      let d := (s.pan pan).master
      spillMoves pan tier low rest (s.moveStart d (s.idleEngine d) (.pageAt tier p.1) (tier + 1))
    else s

/-- Drops pages, in order, until occupancy is at or below LOW: every entry that names the page lets it go. -/
def spillDrops (pan tier low : Nat) : List (Nat × Ident) → State → State
  | [], s => s
  | p :: rest, s =>
    if s.above pan tier low then
      spillDrops pan tier low rest (forEach (s.namers tier p.1) s (fun s x => s.dropPage x.1))
    else s

/-- The spill engine on a pan's pool in tier 1 or 2. -/
def State.spill (s : State) (pan tier : Nat) : State :=
  let l := s.panLoc pan
  let hi := s.getF (if tier = 1 then R.ATT_PMODE_HIGH1 else R.ATT_PMODE_HIGH2) l
  let lo := s.getF (if tier = 1 then R.ATT_PMODE_LOW1 else R.ATT_PMODE_LOW2) l
  if !s.above pan tier hi then s
  else if s.getB R.ATT_PMODE_EFFECTIVE l then
    (if tier = 1 then (spillDrops pan tier lo (s.spillOrder pan tier) s).moverFreed else s)
  else spillMoves pan tier lo (s.spillOrder pan tier) s

/-- SPILL (R152, R154). -/
def execSpill (pan tier : Nat) (s : State) : Out :=
  need (tier == 1 || tier == 2) "tier of a pool" (whenThere (decide ((s.pan pan).st ≠ .free)) s (.next (s.spill pan tier)))

/-! ## Tier requests (R238, R245, R247, R251) -/

/-- Counts of the medium that a request met. -/
def State.mediumCount (s : State) (space off corr retry bad : Nat) : State :=
  match space with
  | 1 =>
    let a := lDie (match s.hbmHome off with | some h => h / 2 ^ 36 | none => 0)
    ((s.bump R.HBM_ECC_CORR a corr).bump R.HBM_ECC_RETRY a retry).bump R.HBM_ECC_UNCORR a bad
  | 2 =>
    let a := lpdLoc (match s.lpdHome off with | some h => h / 2 ^ 36 | none => 0)
    ((s.bump R.LPD_STAT_LINKFIX a corr).bump R.LPD_STAT_RETRY a retry).bump R.LPD_STAT_UNCORR a bad
  | 3 =>
    let a := lDie (s.unitDie (off / unitBytes))
    ((s.bump R.NVT_ECC_CORR a corr).bump R.NVT_ECC_RETRY a (min retry 1)).bump R.NVT_ECC_UNCORR a bad
  | _ => s

/-- A tile in a tile store is marked poisoned with a cause: its header is rewritten. -/
def State.poisonTile (s : State) (die brick off cause : Nat) : State :=
  let h := readHeader (s.rdBrick die brick off 32)
  s.wrBrick die brick off (headerBytes { h with poison := true, cause := cause })

/-- Retries of a flash read enter its block (R247). -/
def State.flashRetries (s : State) (off n : Nat) : State :=
  let u := off / unitBytes
  let f := s.flash (s.unitDie u)
  match mget f.map u with
  | some b => s.setFlash (s.unitDie u)
      { f with blocks := mmod f.blocks b (fun x => { x with retries := max x.retries n }) }
  | none => s

/-- The prefetches of a pan's step: those of the current one, or of the one after it. -/
def Pan.ladleOf (p : Pan) (step : Nat) : Option Ladle :=
  if step = p.step then some p.fetch else if step = p.step + 1 then p.ahead else none

def Pan.modLadle (p : Pan) (step : Nat) (f : Ladle → Ladle) : Pan :=
  if step = p.step then { p with fetch := f p.fetch }
  else if step = p.step + 1 then { p with ahead := p.ahead.map f }
  else p

/-- The data of an entry is present. -/
def State.entryPresent (s : State) (pan step k : Nat) : State :=
  s.modPan pan (fun p => p.modLadle step (fun l => { l with present := k :: l.present.filter (fun e => e ≠ k) }))

/-- A prefetched tile goes on to the background set of its array (R63). -/
def State.loadBg (s : State) (pan entry bk off : Nat) : State :=
  match (s.pan pan).cfg.prefetch[entry]? with
  | some d =>
    if d.bg then
      let a := s.array (bk / 128) (bk % 128)
      s.setArray (bk / 128) (bk % 128) { a with loading := some (off, d.fmt, 0), bgValid := false }
    else s
  | none => s

/-- A prefetched tile is poisoned, and counted. -/
def State.poisonFetch (s : State) (pan bk off cause : Nat) : State :=
  (s.poisonTile (bk / 128) (bk % 128) off cause).poisonOut pan (bk / 128) cause

/-- The buffer that holds an address, when it is poisoned: its cause. -/
def State.bufCause (s : State) (space off : Nat) : Nat :=
  ((s.tier.buffers.find? (fun b =>
    b.2.st = .allocated ∧ b.2.tier = space ∧ b.2.addr ≤ off ∧ off < b.2.addr + b.2.bytes)).map (·.2.poison)).getD 0

/-- The whole range is mapped for the mover. -/
def State.reaches (s : State) (space off n : Nat) : Bool := (List.range n).all (fun i => (s.moverHome space (off + i)).isSome)

/-- A request that succeeds. A tile of an unmapped address is poisoned (R231). -/
def State.reqDone (s : State) (r : TierReq) : State :=
  let s := if r.write then s.wrTier r.space r.offset r.data else s
  match r.dest with
  | .prefetch pan step entry bk off =>
    let s := s.wrBrick (bk / 128) (bk % 128) off (s.rdTier r.space r.offset r.len)
    let s := if !s.reaches r.space r.offset r.len then (s.bump R.MOV_ERR_UNMAPPED (lDie r.die)).poisonFetch pan bk off 2
      else if s.bufCause r.space r.offset ≠ 0 then s.poisonFetch pan bk off (s.bufCause r.space r.offset)
      else s
    (s.loadBg pan entry bk off).entryPresent pan step entry
  | _ => s

/-- A record's POISON and cause, in its header and its index entry (R207, R251). -/
def State.poisonRecord (s : State) (ring stripe k w cause : Nat) : State :=
  match s.ring ring with
  | none => s
  | some g =>
    let (sp, off) := g.recAt stripe k w
    let h := readRec (s.rdTier sp off 64)
    let whole := !g.partials.contains (stripe, w)
    let s := s.wrTier sp off ({ h with flags := h.flags ||| 8, cause := cause }.bytes whole)
    s.setRing ring { g with index := mmod g.index (g.place stripe k w) (fun e => { e with flags := e.flags ||| 8 }) }

/-- A request that ends alone: its output is poisoned, or the object that holds it (R251). -/
def State.reqFail (s : State) (r : TierReq) (cause : Nat) : State :=
  match r.dest with
  | .prefetch pan step entry bk off =>
    ((s.poisonFetch pan bk off cause).loadBg pan entry bk off).entryPresent pan step entry
  | .buffer i => s.poisonBuf i cause []
  | .page tier addr => s.poisonPage tier addr cause []
  | .record ring stripe k w => s.poisonRecord ring stripe k w cause
  | .remote _ => s


/-- A request that has not completed in time ends alone. -/
def State.tierTimeout (s : State) (req : Nat) : State :=
  match mget s.tier.reqs req with
  | none => s
  | some r =>
    if r.ended then s
    else
      let s := s.until (r.issued + s.getF R.MOV_LIMIT_TIMEOUT (lDie r.die) * 1000)
      let s := s.setReqs (mput s.tier.reqs req { r with ended := true })
      (s.bump R.MOV_ERR_TIMEOUT (lDie r.die)).reqFail r 1

/-- One response in LATEONE of the pan is late, one read in ECCONE carries an error (R429): whether this one is
late, and what it carries. -/
def State.perturb (s : State) (r : TierReq) (x : MediumResult) : Bool × MediumResult × State :=
  let l := lDie r.die
  if s.getF R.TST_PERT1_PAN l ≠ r.pan then (false, x, s)
  else
    let late := s.getF R.TST_PERT1_LATEONE l
    let ecc := s.getF R.TST_PERT1_ECCONE l
    let nl := mgetD s.obsv.pertLate r.die 0 + 1
    let ne := mgetD s.obsv.pertReads r.die 0 + 1
    let s := { s with obsv := { s.obsv with
      pertLate := mput s.obsv.pertLate r.die nl
      pertReads := if r.write then s.obsv.pertReads else mput s.obsv.pertReads r.die ne } }
    let hit := !r.write && ecc != 0 && ne % max 1 ecc == 0
    let y := if !hit then x
      else if s.getB R.TST_PERT1_ECCDOUBLE l then .uncorrectable
      else match x with
        | .ok c n => .ok (c + 1) n
        | .uncorrectable => .uncorrectable
    (late != 0 && nl % max 1 late == 0, y, s)

/-- What a response does to its request. -/
def State.respondTier (s : State) (r : TierReq) (x : MediumResult) : State :=
  match x with
  | .ok c n =>
    let s := s.mediumCount r.space r.offset c n 0
    (if r.space = 3 then s.flashRetries r.offset n else s).reqDone r
  | .uncorrectable =>
    ((s.mediumCount r.space r.offset 0 1 1).bump R.MOV_ERR_ECC (lDie r.die)).reqFail r 2

/-- A response from a tier: one whose request has ended is discarded and counted. -/
def State.response (s : State) (k : Nat) (x : MediumResult) : State :=
  match mget s.tier.reqs k with
  | none => s
  | some r =>
    if r.ended then (s.setReqs (mdel s.tier.reqs k)).bump R.MOV_ERR_LATE (lDie r.die)
    else
      let (late, y, s) := s.perturb r x
      if late then
        let s := s.tierTimeout k
        (s.setReqs (mdel s.tier.reqs k)).bump R.MOV_ERR_LATE (lDie r.die)
      else (s.setReqs (mdel s.tier.reqs k)).respondTier r y

/-- TIER_RESPONSE (R251). -/
def execTierResponse (req : Nat) (result : MediumResult) (s : State) : Out := .next (s.response req result)

/-! ## Memory-side operations (R240, R242) -/

/-- The controller, or for T2 the mover, whose die counts an operation. -/
def State.msDie (s : State) (space off : Nat) : Nat :=
  match space with
  | 1 => (match s.hbmHome off with | some h => h / 2 ^ 36 | none => 0)
  | _ => 0

/-- What a memory-side operation is counted as: those on T1 use the narrow path (R239, R257). -/
def State.msCount (s : State) (space off n : Nat) : State :=
  if space = 1 then (s.bump R.HBM_OPS_MSOP (lDie (s.msDie space off))).narrow off n else s

/-- One memory-side operation on mapped bytes of a fixed pool: the old value, and the state after it. -/
def State.msApply (s : State) (space off : Nat) (op : MsOp) (e : Elem) (data cmp : List Byte) :
    List Byte × State :=
  let old := s.rdTier space off data.length
  let s := s.wrTier space off (msRun op e old data cmp)
  (old, s.msCount space off data.length)

/-- The movable object in T3 that holds an address, with its base. -/
def State.objIn3 (s : State) (off : Nat) : Option (MovObj × Nat) :=
  match s.att.idents.find? (fun i => i.1 / 2 ^ 44 = 3 ∧ i.1 % 2 ^ 44 ≤ off ∧ off < i.1 % 2 ^ 44 + i.2.moved) with
  | some i => some (.pageAt 3 (i.1 % 2 ^ 44), i.1 % 2 ^ 44)
  | none => (s.tier.buffers.find? (fun b => b.2.st = .allocated ∧ b.2.movable ∧ b.2.tier = 3 ∧ b.2.addr ≤ off ∧
      off < b.2.addr + b.2.bytes)).map (fun b => (.buffer b.1, b.2.addr))

/-- MEMORY_SIDE_OP (R240, R242). It meets the stubs of R236; an object in T3 is brought to T2 before the operation; an
address in T3 that belongs to none is unmapped (R230, R231). -/
def execMemorySideOp (space offset : Nat) (op : MsOp) (elem : Elem) (data cmp : List Byte) (s : State) : Out :=
  let a (o : Nat) : Access := .msop 0 o op elem data cmp
  .next (
    if space = 0 ∨ !msLegal op elem offset data.length then s
    else if s.mapped space offset data.length then (s.msCount space offset data.length).access space offset a
    else
      match (if space = 3 then s.objIn3 offset else none) with
      | some (o, base) =>
        if s.tier.moves.any (fun m => m.2.srcTier = 3 ∧ m.2.srcAddr = base) then s.access 3 offset a
        else ({ s with tier := { s.tier with lifts := s.tier.lifts ++ [(o, a (offset - base))] } }).liftAll
      | none => s.bump R.MOV_ERR_UNMAPPED (lDie (s.msDie space offset)))

/-- PATROL_SCRUB (R238): a pass over every granule of a stack ends. -/
def execPatrolScrub (die corrected : Nat) (s : State) : Out :=
  need (isCompute die) "HBM controller" (.next (
    (s.bump R.HBM_ECC_CORR (lDie die) corrected).setF R.HBM_SCRUB_PASSES (lDie die)
      (s.getF R.HBM_SCRUB_PASSES (lDie die) + 1)))

/-! ## The ladle (R249, R250) -/

/-- The entry that the ladle issues next for a step: one to fetch again, or the next inside its window. -/
def Ladle.nextEntry (l : Ladle) (c : PanDecl) : Option (Nat × PrefetchDecl) :=
  match l.again with
  | k :: _ => (c.prefetch[k]?).map (fun d => (k, d))
  | [] => (c.prefetch[l.next]?).bind (fun d => if l.next < l.consumed + d.window then some (l.next, d) else none)

/-- What the ladle issues next: an entry of the released step, else one for the step after it, of data that the step
does not write (R120). Answers the step, the entry's number and the entry. -/
def Pan.ladleNextIssue (p : Pan) : Option (Nat × Nat × PrefetchDecl) :=
  match (if p.released then p.fetch.nextEntry p.cfg else none) with
  | some (k, d) => some (p.step, k, d)
  | none =>
    match p.ahead.bind (fun l => l.nextEntry p.cfg) with
    | some (k, d) => if d.early then some (p.step + 1, k, d) else none
    | none => none

/-- An entry has been issued. -/
def Ladle.went (l : Ladle) (k : Nat) : Ladle :=
  if l.again.contains k then { l with again := l.again.erase k } else { l with next := k + 1 }

/-- HBM offset of the slot that a pan's weight tiles are prefetched from: the current epoch's, or the latched one's for
the step after. -/
def State.slotBase (s : State) (pan step : Nat) : Nat :=
  let p := s.pan pan
  match s.panSet pan with
  | none => 0
  | some w =>
    let e := if step = p.step then p.epoch else p.latched.getD p.epoch
    if w.slot1 = e ∧ e ≠ 0 then w.decl.slot1 else w.decl.slot0

/-- One prefetch entry of a step is issued; one that must wait, for a move or for space, is left for later. The objects of
other jobs are not read (R10). -/
def State.ladleIssue (s : State) (pan step k : Nat) (d : PrefetchDecl) : State :=
  let j := (s.pan pan).job
  let go (s : State) : State :=
    (s.modPan pan (fun p => p.modLadle step (fun l => l.went k))).bumpPan R.MOV_PLADLE_ISSUED pan
  let none' : State := (go s).entryPresent pan step k
  let read (space off len : Nat) : State :=
    go (s.request { die := d.die, pan := pan, space := space, offset := off, len := len,
                    dest := .prefetch pan step k (brickKey d.die d.dstBrick) d.dstOff })
  let fetch (o : MovObj) (len : Nat) : State :=
    match s.objAt o with
    | none => none'
    | some x =>
      if (s.pan x.pan).job ≠ j then none'
      else if d.dstTier = 0 then
        (if s.tier.moves.any (fun m => m.2.st ≠ .redirect ∧
            (m.2.srcTier = x.tier ∧ m.2.srcAddr = x.addr ∨ m.2.dstTier = x.tier ∧ m.2.dstAddr = x.addr)) then s
        else read x.tier x.addr (if len = 0 then x.bytes else len))
      else if x.tier ≤ d.dstTier then none'
      else if d.dstTier = 1 ∧ !s.below pan 1 (s.getF R.ATT_PMODE_LOW1 (s.panLoc pan)) then s
      else (go (s.moveStart d.die (s.idleEngine d.die) o d.dstTier)).entryPresent pan step k
  match d.cls with
  | 0 => read 1 (s.slotBase pan step + d.src) d.bytes
  | 1 => fetch (.page d.seq d.layer d.src) d.bytes
  | _ =>
    let b := s.buf d.src
    if b.movable then fetch (.buffer d.src) d.bytes
    else if b.st = .allocated ∧ (s.pan b.pan).job = j ∧ d.dstTier = 0 then read b.tier b.addr d.bytes
    else none'

/-- LADLE_PREFETCH (R249). -/
def execLadlePrefetch (pan : Nat) (s : State) : Out :=
  let p := s.pan pan
  whenThere (decide (p.st ≠ .free)) s (.next (
    match p.ladleNextIssue with
    | some (step, k, d) => s.ladleIssue pan step k d
    | none => s))

end Sys2Proof.Machine
end

