-- ==== Sys2Proof/Machine/World.lean ====
section
/-!
DEFINITION. The world port: schedules on TIME, observations, verdicts, latched and sent frames, world states
and partner violations (R319 to R334).
-/

namespace Sys2Proof.Machine

/-! ## Worlds, ports and time (R322, R336) -/

def State.world (s : State) (w : Nat) : World := mgetD s.wpt.worlds w {}

def State.setWorld (s : State) (w : Nat) (v : World) : State :=
  { s with wpt := { s.wpt with worlds := mput s.wpt.worlds w v } }

def State.modWorld (s : State) (w : Nat) (f : World → World) : State := s.setWorld w (f (s.world w))

/-- The host die of a device port, and the port's registers there. -/
def portDie (port : Nat) : Nat := 16 + port / 4
def portLoc (port : Nat) : Loc := lIdx (portDie port) (port % 4)

/-- Start of tick `k`. -/
def tickStart (d : WorldSched) (k : Nat) : Nat := d.phase + k * d.period

/-- Send time of tick `k`. -/
def sendAt (d : WorldSched) (k : Nat) : Nat := tickStart d k + d.deadline

/-- The latch is 2 µs before the send time. -/
def latchAt (d : WorldSched) (k : Nat) : Nat := sendAt d k - 2000

/-- The first tick that starts after `t`. -/
def tickAfter (d : WorldSched) (t : Nat) : Nat :=
  if t < d.phase then 0 else (t - d.phase) / max 1 d.period + 1

/-- The tick whose send time is `t`. -/
def tickAt (d : WorldSched) (t : Nat) : Option Nat :=
  let o := d.phase + d.deadline
  if o ≤ t ∧ (t - o) % max 1 d.period = 0 then some ((t - o) / max 1 d.period) else none

/-- The next send time after `t`. -/
def nextSend (d : WorldSched) (t : Nat) : Nat :=
  let o := d.phase + d.deadline
  if t < o then o else o + ((t - o) / max 1 d.period + 1) * d.period

/-- Ticks run for the world. -/
def World.ticking (w : World) : Bool :=
  decide (w.st = .running) || decide (w.st = .holding) || decide (w.st = .spindown)

/-- A WPT count field of a world takes one increment as an event (R415). -/
def State.worldEvent (s : State) (port : Nat) (f : Fld) : State :=
  { s with csr := countEvent s.csr f (lDie (portDie port)) 1 }

/-- A link that carries frames: UP, on a powered host die. -/
def State.portUp (s : State) (port : Nat) : Bool :=
  decide (s.getF R.WPT_PSTAT_STATE (portLoc port) = 2) && !s.clk.off.contains (portDie port)

/-! ## Frames (R332, R333) -/

/-- Puts a frame on a port. -/
def State.putFrame (s : State) (port : Nat) (f : WpFrame) : State :=
  if s.portUp port then
    let s := { s with wpt := { s.wpt with sent := s.wpt.sent ++ [(port, f)] } }
    if 3 ≤ f.type ∧ f.type ≤ 5 then s.bump R.WPT_PCNT_TX (portLoc port) else s
  else s

/-- Sends the next frame of a world, numbered in the device's direction. -/
def State.sendFrame (s : State) (i type tick aux ref : Nat) (body : List Byte) : State :=
  let w := s.world i
  let f : WpFrame :=
    { type := type, world := i, wgen := w.gen, seq := (w.txSeq + 1) % 2 ^ 32, tick := tick % 2 ^ 32
      len := body.length, aux := aux, ref := BitVec.ofNat 32 ref, tstamp := s.time % 2 ^ 32, body := body }
  let s := s.modWorld i (fun w => { w with
    txSeq := (w.txSeq + 1) % 2 ^ 32
    lastFrame := if type = 3 ∨ type = 4 then some f else w.lastFrame })
  s.putFrame w.sched.port f

/-- Body of a HELLO for a schedule. -/
def helloBody (d : WorldSched) : List Byte :=
  toLe 4 d.obsBytes ++ toLe 2 d.actBytes ++ toLe 1 d.actFmt ++ toLe 1 0 ++ toLe 4 d.period ++ toLe 4 d.deadline

def State.sendHello (s : State) (i : Nat) : State :=
  s.sendFrame i 1 0 0 0 (helloBody (s.world i).sched)

/-- SYNC: the start of a tick. -/
def State.sendSync (s : State) (i tick : Nat) : State :=
  let d := (s.world i).sched
  s.sendFrame i 7 tick 0 0 (toLe 8 (tickStart d tick) ++ toLe 4 d.period ++ toLe 4 d.deadline)

/-! ## Violations (R334) -/

/-- The counter of a reason: LATE for 4h and 5h, DUP for 3h, ORDER for the others. -/
def State.countReason (s : State) (i port reason : Nat) : State :=
  if 16384 ≤ i then s
  else if reason = 4 ∨ reason = 5 then
    (s.modWorld i (fun w => { w with late := min (w.late + 1) 65535 })).worldEvent port R.WPT_WPART_LATE
  else if reason = 3 then
    (s.modWorld i (fun w => { w with dup := min (w.dup + 1) 65535 })).worldEvent port R.WPT_WPART_DUP
  else
    (s.modWorld i (fun w => { w with order := min (w.order + 1) 65535 })).worldEvent port R.WPT_WPART_ORDER

/-- Refuses a partner's frame: NAK, count, alarm. -/
def State.refuseFrame (s : State) (port : Nat) (f : WpFrame) (reason : Nat) : State :=
  let w := s.world f.world
  let mine := decide (w.st ≠ .detached) && decide (w.sched.port = port) && decide (w.gen = f.wgen)
  let s := if mine then s.sendFrame f.world 6 0 reason f.seq []
    else s.putFrame port { type := 6, world := f.world, wgen := f.wgen, aux := reason, len := 0
                           ref := BitVec.ofNat 32 f.seq, tstamp := s.time % 2 ^ 32 }
  (s.countReason f.world port reason).alarm Kind.worldPartner (if mine then w.job else 0xFF)
    (alarmKey (portDie port) (f.world * 256 + reason))

/-! ## World states (R328) -/

/-- A world leaves ATTACHING, and its WORLD_ATTACH completes. -/
def State.endAttach (s : State) (i status : Nat) : State :=
  let w := s.world i
  let s := s.modWorld i (fun w => { w with cmd := none })
  match w.cmd with
  | some r => s.finishRef r status i w.gen
  | none => s

/-- STOPPED → DETACHED: the generation advances and the index is quarantined. -/
def State.detachWorld (s : State) (i : Nat) : State :=
  s.modWorld i (fun w => { w with
    st := .detached, gen := (w.gen + 1) % 2 ^ 32, quarAt := s.time + 100000000 })

/-- ATTACHING → DETACHED: the index is quarantined before it is used again (R271). -/
def State.dropAttach (s : State) (i : Nat) : State :=
  s.modWorld i (fun w => { w with st := .detached, quarAt := s.time + 100000000 })

/-- SPINDOWN → STOPPED. -/
def State.stopWorld (s : State) (i : Nat) : State :=
  let w := s.world i
  let s := s.modWorld i (fun w => { w with st := .stopped, stopCmds := [] })
  let s := forEach w.stopCmds s (fun s (r : CmdRef) => s.finishRef r Status.ok 0 0)
  if w.orphan then s.detachWorld i else s

/-- RUNNING or HOLDING → SPINDOWN; the ramp begins at the next frame latched. -/
def State.spinWorld (s : State) (i : Nat) : State :=
  s.modWorld i (fun w =>
    if w.st = .running ∨ w.st = .holding then { w with st := .spindown, rampTick := 0 } else w)

/-- RUNNING → HOLDING. -/
def State.holdWorld (s : State) (i : Nat) : State :=
  s.modWorld i (fun w => if w.st = .running then { w with st := .holding, holdTicks := 0 } else w)

/-- The worlds of a job that is to be destroyed: ramps begin (R328). -/
def State.spinWorlds (s : State) (job : Nat) : State :=
  forEach (s.wpt.worlds.filter (fun x => x.2.job = job)) s (fun s (x : Nat × World) => s.spinWorld x.1)

/-- The worlds of a job that is torn down: ramps begin, attaches end, stopped worlds detach (R328, R350). -/
def State.dropWorlds (s : State) (job status : Nat) : State :=
  forEach (s.wpt.worlds.filter (fun x => x.2.job = job ∧ !x.2.orphan)) s (fun s (x : Nat × World) =>
    match x.2.st with
    | .attaching => (s.endAttach x.1 status).dropAttach x.1
    | .stopped => s.detachWorld x.1
    | .detached => s
    | _ => (s.spinWorld x.1).modWorld x.1 (fun w => { w with orphan := true }))

/-- Job and pan of the world both run. -/
def State.worldServed (s : State) (w : World) : Bool :=
  decide ((s.job w.job).st = .running) && decide ((s.pan w.pan).st = .running) && !w.orphan

/-! ## Actions (R325, R326, R329) -/

/-- SEQ of the last good observation, 0 when none. -/
def World.goodSeq (w : World) : Nat := (w.good.map (·.seq)).getD 0

/-- The scheduled fallback: its data, REF, and source observation when it is a held policy action. -/
def World.fallbackAct (w : World) : List Byte × Nat × Option Nat :=
  let n := w.sched.actBytes
  match w.sched.fallback with
  | 1 => (List.replicate n 0, w.goodSeq, none)
  | 2 => (fitTo n (nth w.sched.table ((w.good.map (·.aux)).getD 0 % 16) []), w.goodSeq, none)
  | _ => match w.lastSent with
    | some (d, src) => (d, src.getD w.goodSeq, src)
    | none => (fitTo n w.sched.rest, w.goodSeq, none)

/-- The pending action when it is fresh for tick `k`. -/
def World.freshAct (w : World) (k : Nat) : Option ActPend :=
  match w.pendingAct with
  | some a => if k ≤ a.kobs + w.sched.age then some a else none
  | none => none

/-- One element of a ramp value, as FP32 codes: a + (r − a) × (j ÷ R). -/
def rampElem (a r : Word) (j n : Nat) : Word :=
  let q := (f32Div .rne (intToF32 .rne false (BitVec.ofNat 32 j)).1 (intToF32 .rne false (BitVec.ofNat 32 n)).1).1
  (f32Add .rne a (f32Mul .rne (f32Sub .rne r a).1 q).1).1

/-- A ramp value (R329). -/
def rampData (d : WorldSched) (a : List Byte) (j : Nat) : List Byte :=
  let rest := fitTo d.actBytes d.rest
  if d.ramp ≤ j then rest
  else match d.actFmt with
    | 0 => (List.range (d.actBytes / 4)).flatMap (fun i =>
        toLe 4 (rampElem (BitVec.ofNat 32 (fieldAt a (4 * i) 4)) (BitVec.ofNat 32 (fieldAt rest (4 * i) 4))
          j d.ramp).toNat)
    | 1 => (List.range (d.actBytes / 2)).flatMap (fun i =>
        let x := rampElem (BitVec.ofNat 32 (fieldAt a (2 * i) 2 * 65536))
          (BitVec.ofNat 32 (fieldAt rest (2 * i) 2 * 65536)) j d.ramp
        toLe 2 (bf16.encodeLane .rne (f32 x)).1)
    | _ => a

/-- The frame of tick `k` as the port latches it. -/
def World.frameFor (w : World) (k at_ : Nat) : Latched :=
  match w.st with
  | .spindown =>
    let j := w.rampTick + 1
    if w.sched.ramp < j then { tick := k, type := 5, data := [], latchedAt := at_ }
    else { tick := k, type := 3, data := rampData w.sched w.rampFrom j, ramp := true, ref := w.goodSeq
           latchedAt := at_ }
  | .holding =>
    let (d, ref, src) := w.fallbackAct
    { tick := k, type := 4, data := d, fallback := true, ref := ref, src := src, latchedAt := at_ }
  | _ => match w.freshAct k with
    | some a => { tick := k, type := 3, data := a.data, ref := a.obsSeq, src := some a.obsSeq, latchedAt := at_ }
    | none =>
      let (d, ref, src) := w.fallbackAct
      { tick := k, type := 3, data := d, fallback := true, ref := ref, src := src, latchedAt := at_ }

/-- The frame latched for tick `k`. -/
def World.latchedFor (w : World) (k : Nat) : Option Latched := w.latched.find? (fun l => l.tick = k)

/-- Latches the frame of tick `k` (R326); a ramp takes the action last sent at its first tick. -/
def State.latchFrame (s : State) (i k : Nat) : State :=
  s.modWorld i (fun w =>
    if !w.ticking || decide (k < w.firstTick) || (w.latchedFor k).isSome then w
    else
      let w := if w.st = .spindown ∧ w.rampTick = 0 then
          { w with rampFrom := match w.lastSent with
              | some (d, _) => d
              | none => fitTo w.sched.actBytes w.sched.rest }
        else w
      let l := w.frameFor k (latchAt w.sched k)
      { w with latched := l :: w.latched, rampTick := if l.ramp then w.rampTick + 1 else w.rampTick })

/-- FRAME_LATCH (R326). -/
def execFrameLatch (world tick : Nat) (s : State) : Out :=
  need (decide (world < 16384)) "world" (.next (
    let w := s.world world
    if w.ticking ∧ w.firstTick ≤ tick then (s.until (latchAt w.sched tick)).latchFrame world tick else s))

/-- A fallback at a send time is a miss. -/
def State.miss (s : State) (i : Nat) : State :=
  let w := s.world i
  let s := s.modWorld i (fun w =>
    { w with misses := min (w.misses + 1) (2 ^ 32 - 1), consec := min (w.consec + 1) 65535 })
  (s.worldEvent w.sched.port R.WPT_WMISS_MISSES).alarm Kind.deadlineMiss w.job
    (alarmKey (portDie w.sched.port) i)

/-- Sends the frame latched for tick `k` and counts the tick. -/
def State.sendLatched (s : State) (i k : Nat) : State :=
  match (s.world i).latchedFor k with
  | none => s
  | some l =>
    if l.sent then s
    else
      let s := s.modWorld i (fun w => { w with
        latched := w.latched.map (fun x => if x.tick = k then { x with sent := true } else x)
        lastSent := if l.type = 5 then w.lastSent else some (l.data, l.src)
        consec := if l.type = 3 ∧ !l.fallback ∧ !l.ramp then 0 else w.consec
        holdTicks := if w.st = .holding then w.holdTicks + 1 else w.holdTicks
        silence := w.silence + 1
        syncCount := w.syncCount + 1 })
      let s := s.sendFrame i l.type k (b2n l.ramp + 2 * b2n l.fallback) l.ref l.data
      let s := if l.fallback then s.miss i else s
      if l.type = 5 then s.stopWorld i
      else if (s.world i).syncCount % 1024 = 0 then s.sendSync i k else s

/-! ## Send times (R321, R326, R327, R334) -/

/-- End of the queue-7 window that holds `t`, or `t` where the port has no gate list. -/
def State.windowEnd (s : State) (port t : Nat) : Nat :=
  match mget s.wpt.gates port with
  | none => t
  | some g =>
    let c := max 1 g.cycle
    match g.windows.find? (fun w => decide (w.1 ≤ t % c) && decide (t % c < w.1 + w.2)) with
    | some w => t - t % c + w.1 + w.2
    | none => t

/-- Worlds of a port that send at `t`, ascending, with their ticks. -/
def State.sendersAt (s : State) (port t : Nat) : List (Nat × Nat) :=
  s.wpt.worlds.filterMap (fun x =>
    if x.2.sched.port = port ∧ x.2.ticking then
      match tickAt x.2.sched t with
      | some k => if x.2.firstTick ≤ k then some (x.1, k) else none
      | none => none
    else none)

/-- No world of the port sends later in the window that holds `t`. -/
def State.lastInWindow (s : State) (port t : Nat) : Bool :=
  let e := s.windowEnd port t
  s.wpt.worlds.all (fun x =>
    decide (x.2.sched.port ≠ port) || !x.2.ticking || decide (e ≤ nextSend x.2.sched t))

/-- Sends the repeats that are due on a port, unchanged. -/
def State.sendRepeats (s : State) (port t : Nat) : State :=
  forEach (s.wpt.worlds.filter (fun x => x.2.sched.port = port)) s (fun s (x : Nat × World) =>
    match x.2.again with
    | some (f, due) =>
      if due ≤ t then (s.modWorld x.1 (fun w => { w with again := none })).putFrame port f else s
    | none => s)

/-- SEND_TIME (R326, R327): every world of the port whose tick has this send time, in ascending order, then
the repeats of the window. -/
def execSendTime (port time : Nat) (s : State) : Out :=
  need (decide (port < 8)) "world port" (.next (
    let s := s.until time
    let l := s.sendersAt port time
    let s := forEach l s (fun s (x : Nat × Nat) => s.latchFrame x.1 x.2)
    let s := forEach l s (fun s (x : Nat × Nat) => s.sendLatched x.1 x.2)
    if s.lastInWindow port time then s.sendRepeats port time else s))

/-! ## Verdicts (R325) -/

/-- The action of the frame latched last at or before `t`, else the fallback of the moment. -/
def World.appliedAt (w : World) (t : Nat) : List Byte :=
  match w.latched.find? (fun l => decide (l.type ≠ 5) && decide (l.latchedAt ≤ t)) with
  | some l => l.data
  | none => w.fallbackAct.1

/-- The verdict code of a row. -/
def State.verdictCode (s : State) (w : World) (time cutoff epoch : Nat) (poisoned : Bool) : Nat :=
  if w.sched.live ∧ s.epochState (s.pan w.pan).cfg.ws epoch ≠ .confirmed then 2
  else if poisoned then 3
  else if cutoff ≤ time then 1
  else 0

/-- An ACCEPTED row becomes the pending action, and takes a served HOLDING world back to RUNNING. -/
def State.acceptAct (s : State) (i : Nat) (g : ObsGood) (action : List Byte) : State :=
  let served := s.worldServed (s.world i)
  s.modWorld i (fun w => { w with
    pendingAct := some { kobs := g.tick, obsSeq := g.seq, data := fitTo w.sched.actBytes action }
    st := if w.st = .holding ∧ served then .running else w.st
    verdict := some { code := 0 } })

/-- The PORT station of a pan, the stream that it takes actions from, and the row of a world waiting there (R325). -/
def State.portRow (s : State) (pan inPan : Nat) : Option (StationDecl × StreamDecl × Row) :=
  let p := s.pan pan
  match p.cfg.stations.find? (fun d => d.kind = 1) with
  | none => none
  | some st =>
    match st.inputs.head?.bind p.stream with
    | none => none
    | some d => (rowNumbered (s.rows pan d.idx) st.idx 0 ((p.rowsOf st).idxOf inPan)).map (fun r => (st, d, r))

/-- The verdict on an action row that the PORT station takes at `time`. -/
def State.giveVerdict (s : State) (world time : Nat) (g : ObsGood) (r : Row) : State :=
  let w := s.world world
  let cutoff := latchAt w.sched (g.tick + w.sched.age)
  let c := s.verdictCode w time cutoff r.hdr.epoch (decide (r.cause ≠ 0))
  if c = 0 then s.acceptAct world g r.data
  else
    let s := s.modWorld world (fun w => { w with
      stale := min (w.stale + 1) 65535
      verdict := some { code := c, payload := w.appliedAt (min time cutoff) } })
    let s := s.worldEvent w.sched.port R.WPT_WMISS_STALE
    if c = 2 then s.alarm Kind.epochBlocked w.job (alarmKey (portDie w.sched.port) world) else s

/-- ACTION_VERDICT (R325): stage 5 of a port world. The row of a world that had no observation to give is discarded. -/
def execActionVerdict (pan world time : Nat) (s : State) : Out :=
  need (decide (world < 16384)) "world" (.next (
    let w := s.world world
    if w.pan ≠ pan ∨ !w.row ∨ w.st = .detached then s
    else match s.portRow pan w.inPan with
      | none => s
      | some (st, d, r) =>
        (s.until time).withAct (s.pan pan).master pan st r.hdr.mb r.hdr.slice (fun s =>
          let s := s.takeThe pan d.idx st.idx d (fun x => x.hdr.mb == r.hdr.mb && rowNum x == rowNum r)
          match w.given with
          | some g => s.giveVerdict world time g r
          | none => s)))

/-- Stage 1: the rows that the port worlds of a pan give to a step (R324). -/
def State.giveRows (s : State) (pan : Nat) : State :=
  { s with wpt := { s.wpt with worlds := s.wpt.worlds.map (fun x =>
      if x.2.pan = pan then
        let mine := decide (x.2.job = (s.pan pan).job) && !x.2.orphan
        let row := mine && (decide (x.2.st = .running) || decide (x.2.st = .holding))
        (x.1, { x.2 with row := row, given := if row then x.2.good else none, verdict := none })
      else x) } }

/-- The worlds that give the pan a row in the step, ascending: its DEV worlds and the port worlds just given one (R11). -/
def State.listRows (s : State) (pan : Nat) : State :=
  let port := (s.wpt.worlds.filter (fun x => x.2.pan = pan ∧ x.2.row)).map (fun x => x.2.inPan)
  s.modPan pan (fun p => { p with
    rowWorlds := sortBy (fun a b => decide (a ≤ b)) (p.worlds.map (fun d => d.decl.world) ++ port) })

/-! ## Observations (R323, R334) -/

/-- Largest body of a frame on a port. -/
def State.maxBody (s : State) (port : Nat) : Nat :=
  if s.getB R.WPT_PSTAT_JUMBO (portLoc port) then 8968 else 1468

/-- The full tick number nearest to the world's current tick with the given low 32 bits. -/
def World.fullTick (w : World) (now low : Nat) : Nat :=
  let cur := tickAfter w.sched now
  let base := cur / 2 ^ 32 * 2 ^ 32 + low % 2 ^ 32
  if cur + 2 ^ 31 < base ∧ 2 ^ 32 ≤ base then base - 2 ^ 32
  else if base + 2 ^ 31 < cur then base + 2 ^ 32 else base

/-- `t` lies in the OBS window of tick `k`. -/
def World.inWindow (w : World) (k t : Nat) : Bool :=
  let st : Int := tickStart w.sched k
  decide (st + w.sched.obsOpen ≤ t) && decide ((t : Int) ≤ st + w.sched.obsClose)

/-- The fragments in order, when none is missing. -/
def ObsPart.joined (p : ObsPart) : Option (List (List Byte)) :=
  match p.total with
  | none => none
  | some last =>
    let l := (List.range (last + 1)).map (fun i => ((p.frags.find? (fun f => f.1 = i)).map (·.2)))
    if l.all (fun x => x.isSome) then some (l.map (fun x => x.getD [])) else none

/-- A piece of an observation at its place; bytes that no fragment carries are free. -/
def State.fillPiece (s : State) (n : Nat) (b : List Byte) : List Byte × State :=
  if n ≤ b.length then (b.take n, s)
  else
    let (l, s) := s.drawBytes (n - b.length)
    (b ++ l, s)

/-- The bytes of an observation of `n` bytes from its fragments. -/
def State.fillObs (s : State) (max : Nat) : Nat → List (List Byte) → List Byte × State
  | _, [] => ([], s)
  | n, [b] => s.fillPiece n b
  | n, b :: rest =>
    let (x, s) := s.fillPiece (min max n) b
    let (l, s) := s.fillObs max (n - max) rest
    (x ++ l, s)

/-- Adds a fragment to the assembly it belongs to; fragments that disagree mark it bad. -/
def addFrag (time : Nat) (f : WpFrame) (l : List ObsPart) : ObsPart :=
  let p := (l.find? (fun p => p.seq = f.seq ∨ p.tick = f.tick)).getD
    { seq := f.seq, tick := f.tick, aux := f.aux, ref := f.ref, frags := [] }
  { p with
    frags := p.frags.filter (fun x => x.1 ≠ f.frag) ++ [(f.frag, f.body)]
    total := if f.lastFrag then some f.frag else p.total
    bad := p.bad || decide (p.seq ≠ f.seq) || decide (p.tick ≠ f.tick) || decide (p.aux ≠ f.aux)
      || decide (p.ref ≠ f.ref)
    last := time }

/-- A complete OBS is admitted, or refused as MALFORMED or LATE. -/
def State.endObs (s : State) (port time : Nat) (f : WpFrame) (p : ObsPart) (b : List Byte) : State :=
  let w := s.world f.world
  let k := w.fullTick time p.tick
  if p.bad then s.refuseFrame port f 1
  else if !w.inWindow k time then s.refuseFrame port f 4
  else
    let prev := w.good.map (·.seq)
    let gap := match prev with
      | some q => p.seq - q - 1
      | none => 0
    let s := s.modWorld f.world (fun w => { w with
      good := some { seq := p.seq, tick := k, aux := p.aux, reward := p.ref, data := b }
      anyAdmitted := true, lastAdmitTick := k, silence := 0, gap := min (w.gap + gap) 65535 })
    { s with csr := countEvent s.csr R.WPT_WPART_GAP (lDie (portDie port)) gap }

/-- An OBS fragment for an attached world. -/
def State.rxObs (s : State) (port time : Nat) (f : WpFrame) : State :=
  let w := s.world f.world
  let old := (w.good.map (fun g => decide (f.seq < g.seq))).getD false
  let dup := (w.good.map (fun g => decide (f.seq = g.seq))).getD false
  if w.st = .stopped then s.refuseFrame port f 7
  else if old then s.refuseFrame port f 2
  else if dup then
    let s := s.refuseFrame port f 3
    s.modWorld f.world (fun w => match w.again, w.lastFrame with
      | none, some g => { w with again := some (g, nextSend w.sched time) }
      | _, _ => w)
  else
    let p := addFrag time f w.parts
    let rest := w.parts.filter (fun q => q.seq ≠ p.seq)
    match p.joined with
    | none => s.modWorld f.world (fun w => { w with parts := rest ++ [p] })
    | some l =>
      let s := s.modWorld f.world (fun w => { w with parts := rest })
      let (b, s) := s.fillObs (s.maxBody port) w.sched.obsBytes l
      s.endObs port time f p b

/-- A partner's HELLO (R328). -/
def State.rxHello (s : State) (port time : Nat) (f : WpFrame) : State :=
  let w := s.world f.world
  let ok := decide (f.body = helloBody w.sched)
  if w.st = .attaching then
    if ok then
      let k := tickAfter w.sched time
      let s := s.modWorld f.world (fun w => { w with st := .running, firstTick := k, syncCount := 0, silence := 0 })
      let s := (s.sendSync f.world k).endAttach f.world Status.ok
      if s.worldServed (s.world f.world) then s else s.holdWorld f.world
    else
      let s := s.refuseFrame port f 8
      (s.endAttach f.world Status.refused).dropAttach f.world
  else if ok then s
  else s.refuseFrame port f 8

/-- MALFORMED (R334, R332). -/
def State.badFrame (s : State) (port : Nat) (f : WpFrame) : Bool :=
  let w := s.world f.world
  f.version != 1 || !(f.type == 1 || f.type == 2 || f.type == 5 || f.type == 7) || f.len != f.body.length
    || (f.type == 2 && decide (w.sched.obsBytes < f.frag * s.maxBody port + f.len)
        && decide (w.st ≠ .detached))

/-- A frame from a partner. -/
def State.rxFrame (s : State) (port time : Nat) (f : WpFrame) : State :=
  if !s.portUp port then s
  else
    let s := s.until time
    let s := if f.type = 2 then s.bump R.WPT_PCNT_RX (portLoc port) else s
    let w := s.world f.world
    if s.badFrame port f then s.refuseFrame port f 1
    else if w.st = .detached ∨ w.sched.port ≠ port ∨ w.gen ≠ f.wgen then s.refuseFrame port f 6
    else match f.type with
      | 1 => s.rxHello port time f
      | 2 => s.rxObs port time f
      | 5 => s.spinWorld f.world
      | _ => if w.ticking ∨ w.st = .stopped then s.sendSync f.world (tickAfter w.sched time) else s

/-- OBS (R323). -/
def execObs (port time : Nat) (frame : WpFrame) (s : State) : Out :=
  need (decide (port < 8)) "world port" (.next (s.rxFrame port time frame))

/-- HELLO of a partner (R328). -/
def execHello (port time : Nat) (frame : WpFrame) (s : State) : Out :=
  need (decide (port < 8)) "world port" (.next (s.rxFrame port time frame))

/-- STOP of a partner (R328). -/
def execPartnerStop (port time : Nat) (frame : WpFrame) (s : State) : Out :=
  need (decide (port < 8)) "world port" (.next (s.rxFrame port time frame))

/-- SYNC of a partner (R333). -/
def execPartnerSync (port time : Nat) (frame : WpFrame) (s : State) : Out :=
  need (decide (port < 8)) "world port" (.next (s.rxFrame port time frame))

/-- OBS_WINDOW_CLOSE (R323): an OBS still missing fragments is answered INCOMPLETE. -/
def execObsWindowClose (world tick : Nat) (s : State) : Out :=
  need (decide (world < 16384)) "world" (.next (
    let w := s.world world
    let s := s.until ((tickStart w.sched tick : Int) + w.sched.obsClose).toNat
    let ps := w.parts.filter (fun p => p.tick = tick % 2 ^ 32)
    let s := s.modWorld world (fun w => { w with parts := w.parts.filter (fun p => p.tick ≠ tick % 2 ^ 32) })
    forEach ps s (fun s (p : ObsPart) =>
      s.refuseFrame w.sched.port { world := world, wgen := w.gen, seq := p.seq, tick := p.tick } 5)))

/-! ## Timers of the world states (R328, R329) -/

/-- HELLO_TIMER (R328). -/
def execHelloTimer (world : Nat) (s : State) : Out :=
  need (decide (world < 16384)) "world" (.next (
    if (s.world world).st = .attaching then s.sendHello world else s))

/-- ATTACH_TIMEOUT (R328). -/
def execAttachTimeout (world : Nat) (s : State) : Out :=
  need (decide (world < 16384)) "world" (.next (
    let w := s.world world
    if w.st = .attaching then
      ((s.until (w.attachAt + 1000000000)).endAttach world Status.timeout).dropAttach world
    else s))

/-- WPT_LIMIT fields live on the world's host die. -/
def State.wptLimit (s : State) (w : World) (f : Fld) : Nat := s.getF f (lDie (portDie w.sched.port))

/-- The frame sent last was an ACT with the fallback: the miss that may reach the limit. -/
def World.lastMissed (w : World) : Bool :=
  match w.latched.find? (fun l => l.sent) with
  | some l => decide (l.type = 3) && l.fallback
  | none => false

/-- MISS_LIMIT (R328). -/
def execMissLimit (world : Nat) (s : State) : Out :=
  need (decide (world < 16384)) "world" (.next (
    let w := s.world world
    if w.lastMissed ∧ s.wptLimit w R.WPT_LIMIT_MISSLIM ≤ w.consec then s.holdWorld world else s))

/-- HOLD_LIMIT (R328). -/
def execHoldLimit (world : Nat) (s : State) : Out :=
  need (decide (world < 16384)) "world" (.next (
    let w := s.world world
    if w.st = .holding ∧ s.wptLimit w R.WPT_LIMIT_HOLDLIM ≤ w.holdTicks then s.spinWorld world else s))

/-- SILENCE_LIMIT (R328). -/
def execSilenceLimit (world : Nat) (s : State) : Out :=
  need (decide (world < 16384)) "world" (.next (
    let w := s.world world
    if s.wptLimit w R.WPT_LIMIT_SILENCE ≤ w.silence then s.spinWorld world else s))

/-- RAMP_END (R328, R329): after ramp tick R has been sent, STOP goes out at the next send time. -/
def execRampEnd (world : Nat) (s : State) : Out :=
  need (decide (world < 16384)) "world" (.next (
    let w := s.world world
    let ended : Bool := match w.latched with
      | l :: _ => l.ramp && l.sent || decide (l.type = 5)
      | [] => false
    if w.st = .spindown ∧ w.sched.ramp ≤ w.rampTick ∧ ended then
      let k := match w.latched with
        | l :: _ => if l.type = 5 then l.tick else l.tick + 1
        | [] => 0
      ((s.until (sendAt w.sched k)).latchFrame world k).sendLatched world k
    else s))

/-- WORLD_QUARANTINE_EXPIRY (R328). -/
def execWorldQuarantineExpiry (world : Nat) (s : State) : Out :=
  need (decide (world < 16384)) "world" (.next (
    let w := s.world world
    if w.st = .detached ∧ w.quarAt ≠ 0 then
      (s.until w.quarAt).modWorld world (fun w => { w with quarAt := 0 })
    else s))

/-! ## Ports (R319) -/

/-- WORLD_PORT_LINK (R319): up with preemption verified or not, or down. -/
def execWorldPortLink (port : Nat) (up preempt : Bool) (s : State) : Out :=
  need (decide (port < 8)) "world port" (.next (
    let l := portLoc port
    if s.unitOut (portDie port) 0x18 (port % 4) then s
    else ((s.setF R.WPT_PSTAT_STATE l (if up then 2 else 0)).setB R.WPT_PSTAT_PREEMPT l (up && preempt))))

/-- WORLD_PORT_FOREIGN_FRAME (R319, R321). -/
def execWorldPortForeignFrame (port : Nat) (kind : ForeignFrame) (s : State) : Out :=
  need (decide (port < 8)) "world port" (.next (
    if !s.portUp port then s
    else
      let f := match kind with
        | .badFcs => R.WPT_PERR_FCS
        | .pauseOrPfc => R.WPT_PERR_PAUSE
        | .otherEthertype => R.WPT_PERR_OTHERTYPE
        | .reassembled => R.WPT_PERR_PREEMPTED
      s.bump f (portLoc port)))

/-! ## WORLD_ATTACH, WORLD_STOP, WORLD_DETACH (R328, R346) -/

/-- A world index that can be taken: detached and out of quarantine. -/
def State.freeWorld (s : State) : Option Nat :=
  lowest 16384 (fun i => decide ((s.world i).st = .detached) && decide ((s.world i).quarAt = 0))

/-- The lowest index in a pan that no world of it uses (R207). -/
def State.freeInPan (s : State) (pan : Nat) : Nat :=
  (lowest 65536 (fun i =>
    !(s.pan pan).worlds.any (fun d => decide (d.decl.world = i)) &&
      !s.wpt.worlds.any (fun x => decide (x.2.pan = pan) && decide (x.2.inPan = i)
        && decide (x.2.st ≠ .detached)))).getD 0

/-- Worlds of the device: DEV worlds of its pans, and port worlds that are attached (R1). -/
def State.worldsHeld (s : State) : Nat :=
  sumBy (s.sch.pans.filter (fun p => p.2.st ≠ .free)) (fun p => p.2.cfg.worlds.length)
    + (s.wpt.worlds.filter (fun w => w.2.st ≠ .detached)).length

/-- An accepted WORLD_ATTACH. -/
def State.attachWorld (s : State) (c : Cmd) (d : WorldSched) (pan : Nat) : State :=
  match (if s.worldsHeld < 65536 then s.freeWorld else none) with
  | none => s.finish c Status.noResource 0 0
  | some i =>
    let w := s.world i
    let n : World :=
      { st := .attaching, gen := (w.gen + 1) % 2 ^ 32, sched := d, job := c.job, pan := pan
        cmd := some c.ref, attachAt := s.time, inPan := s.freeInPan pan, misses := w.misses
        stale := w.stale, late := w.late, dup := w.dup, order := w.order, gap := w.gap }
    ((s.beginCmd c).setWorld i n).sendHello i

/-- WORLD_ATTACH: SCHED 2, PAN 1. -/
def execWorldAttach (cmd : CmdRef) (s : State) : Out :=
  .next (s.onCmd cmd 0x08 (fun c s =>
    let pan := fieldAt c.params 2 1
    let p := s.pan pan
    match mget s.wpt.scheds (c.job * 65536 + fieldAt c.params 0 2) with
    | none => s.finish c Status.refused 0 0
    | some d =>
      if p.st = .free ∨ p.job ≠ c.job ∨ (d.live ∧ p.cfg.adoptProv) then s.finish c Status.refused 0 0
      else s.attachWorld c d pan))

/-- The world a command names: attached, of its job, with its generation. -/
def State.namedWorld (s : State) (c : Cmd) : Option World :=
  let w := s.world (fieldAt c.params 0 2)
  if fieldAt c.params 0 2 < 16384 ∧ w.st ≠ .detached ∧ w.gen = fieldAt c.params 2 4 ∧ w.job = c.job
      ∧ !w.orphan then some w
  else none

/-- WORLD_STOP: WORLD 2, WGEN 4. -/
def execWorldStop (cmd : CmdRef) (s : State) : Out :=
  .next (s.onCmd cmd 0x09 (fun c s =>
    let i := fieldAt c.params 0 2
    match s.namedWorld c with
    | none => s.finish c Status.stale 0 0
    | some w =>
      match w.st with
      | .attaching =>
        ((s.finish c Status.ok 0 0).endAttach i Status.refused).dropAttach i
      | .stopped => s.finish c Status.ok 0 0
      | _ => ((s.beginCmd c).modWorld i (fun w => { w with stopCmds := w.stopCmds ++ [c.ref] })).spinWorld i))

/-- WORLD_DETACH: WORLD 2, WGEN 4. -/
def execWorldDetach (cmd : CmdRef) (s : State) : Out :=
  .next (s.onCmd cmd 0x0A (fun c s =>
    match s.namedWorld c with
    | none => s.finish c Status.stale 0 0
    | some w =>
      if w.st = .stopped then (s.detachWorld (fieldAt c.params 0 2)).finish c Status.ok 0 0
      else s.finish c Status.refused 0 0))

end Sys2Proof.Machine
end

