-- ==== Sys2Proof/Machine/Teardown.lean ====
section
/-!
DEFINITION. Discarding a pan's work in flight, releasing its bricks, and the teardown of a job (R53, R54, R347,
R348, R350).
-/

namespace Sys2Proof.Machine

/-! ## Discarding work in flight (R350) -/

/-- An array with no command, load or row in flight. -/
def ArraySt.quiet (a : ArraySt) : ArraySt :=
  { a with cur := none, queue := [], drain := [], loading := none, swapPending := false, arrived := 0 }

/-- Blocks that a stripe still writes become DEAD (R213). -/
def State.killOpen (s : State) (ring i : Nat) : State :=
  match s.ring ring with
  | none => s
  | some g =>
    let bs := g.blocks.filter (fun b => keyStripe b.1 = i ∧ b.2.st = .writing)
    let s := s.setRing ring { g with
      openK := mdel g.openK i
      claims := mdel g.claims i
      partials := g.partials.filter (fun x => x.1 ≠ i) }
    forEach bs s (fun s (b : Nat × BlockEntry) =>
      match s.ring ring with
      | none => s
      | some g =>
        let s := s.setRing ring (g.kill i (keySlot b.1))
        if g.mine i then s.subRecords b.2.ws b.2.epoch (g.stripe i).worlds else s)

/-- The open blocks of a pan's stripes never become visible. -/
def State.killBlocks (s : State) (pan : Nat) : State :=
  forEach (s.rings.map (·.1)) s (fun s ring =>
    match s.ring ring with
    | none => s
    | some g =>
      forEach ((List.range g.decl.stripes.length).filter (fun i => (g.stripe i).pan = pan ∧ g.mine i)) s
        (fun s i => s.killOpen ring i))

/-- The step state of a pan returns to its start. -/
def Pan.quiet (p : Pan) : Pan :=
  { p with released := false, woken := [], sent := [], dones := [], retired := [], latched := none
           fetch := {}, ahead := none, placeVotes := [], cutVote := none
           pubReleased := false, pubDone := [], resize := none }

/-- A move of an object of a pan. -/
def State.objOfPan (s : State) (o : MovObj) (p : Nat) : Bool :=
  match o with
  | .buffer i => (match mget s.tier.buffers i with | some b => b.pan == p | none => false)
  | .page seq _ _ => (s.seq seq).pan == p
  | .pageAt _ _ => false

/-- Operations, streams, array commands, requests and collectives of a pan in flight are discarded. -/
def State.quietPan (s : State) (p : Nat) : State :=
  let b := s.pan p
  let s := { s with
    sch := { s.sch.dropStreams p with
      boards := s.sch.boards.map (fun (e : Nat × ScoreEntry) => (e.1, if e.2.busy ∧ e.2.pan = p then e.2.drop else e.2)) }
    arrays := b.cfg.bricks.foldl (fun m (x : Nat × Nat) => mmod m (brickKey x.1 x.2) ArraySt.quiet) s.arrays
    tier := { s.tier with
      reqs := s.tier.reqs.filter (fun r => r.2.pan ≠ p)
      waits := s.tier.waits.filter (fun w => !s.objOfPan w.obj p)
      lifts := s.tier.lifts.filter (fun w => !s.objOfPan w.1 p)
      bufWaits := s.tier.bufWaits.filter (fun w => w.pan ≠ p) }
    att := { s.att with waits := s.att.waits.filter (fun w => w.pan ≠ p) }
    fab := { s.fab with
      reqs := s.fab.reqs.filter (fun r => r.2.use.pan ≠ some p)
      blocked := s.fab.blocked.filter (fun r => r.2.pan ≠ some p) }
    col := { s.col with
      exchs := s.col.exchs.filter (fun e => e.2.pan ≠ p)
      landings := s.col.landings.filter (fun e => e.1 / 65536 ≠ p)
      early := s.col.early.filter (fun e => e.1 ≠ b.job), earlyCounts := s.col.earlyCounts.filter (fun e => e.1 ≠ b.job)
      ops := s.col.ops.filter (fun o => o.pan ≠ p ∨ o.job ≠ b.job) } }
  (s.unblockAll.killBlocks p).modPan p Pan.quiet

/-- The moves of a pan's objects end: each object is where its translation says. -/
def State.endMoves (s : State) (p : Nat) : State :=
  forEach (s.tier.moves.filter (fun m => m.2.pan = p)) s (fun s (m : Nat × Move) =>
    match mget s.tier.moves m.1 with
    | none => s
    | some v => if v.st = .copying then s.failMove m.1 v else (s.applyQueue v.dstTier v.dstAddr v.queue).dropStub m.1 v)

/-- Stubs no longer wait for the boundary of a pan. -/
def State.unwait (s : State) (p : Nat) : State :=
  forEach s.tier.moves s (fun s (m : Nat × Move) =>
    let v : Move := { m.2 with waitPans := m.2.waitPans.filter (fun w => w ≠ p) }
    if v.st = .redirect ∧ v.waitPans.isEmpty then s.dropStub m.1 v else s.modMove m.1 (fun _ => v))

/-! ## Releasing bricks (R28, R29, R347) -/

/-- A grain of a brick in no pan is IDLE. -/
def State.idleGrains (s : State) (die b : Nat) : State :=
  let lo := grainKey die b 0
  { s with grains := s.grains.filter (fun g => g.1 < lo ∨ lo + 512 ≤ g.1) }

/-- A brick returns to FREE, which fences it: a pending mode is applied. -/
def State.releaseBrick (s : State) (die b : Nat) : State :=
  let l := lBrick die b
  let s := ((s.idleGrains die b).applyMode die b).wipeCounters die b
  let s := { s with bricks := mdel s.bricks (brickKey die b) }.zeroBrickLanes die b
  let z (s : State) (f : Fld) : State := s.setF f l 0
  (z (z (z (z (z s R.BRK_OWNER_PAN) R.BRK_OWNER_PANGEN) R.BRK_OWNER_OWNED) R.BRK_KAREA_BASE)
    R.BRK_KAREA_SIZE).bistReleased die b

/-- Sequences, pages, buffers, moves and work of a pan go, its bricks return, its index is quarantined. -/
def State.freePan (s : State) (p : Nat) : State :=
  let b := s.pan p
  let s := (((s.quietPan p).endSeqs p).endBufs p).endMoves p
  let s := (s.unwait p).dropHolder b.cfg.ws b.epoch
  let s := { s with att := { s.att with recomp := mdel s.att.recomp p } }
  let s := s.zeroSieveLanes (b.cfg.stations.flatMap (·.sieves))
  let s := forEach b.cfg.bricks s (fun s (x : Nat × Nat) => s.releaseBrick x.1 x.2)
  ((s.panTo p .free).setPan p { gen := b.gen, job := 0, quarAt := s.time + ms100 }).countBases

/-! ## Jobs (R348 to R350) -/

/-- Job's pans that are not FREE. -/
def State.jobPans (s : State) (j : Nat) : List Nat :=
  (s.sch.pans.filter (fun p => p.2.st ≠ .free ∧ p.2.job = j)).map (·.1)

/-- JOBGEN advances (R271). -/
def State.nextJobGen (s : State) (j : Nat) : State :=
  s.modJob j (fun b => { b with gen := (b.gen + 1) % 2 ^ 32 })

/-- The taken commands that name a job end, but for JOB_DESTROY and RESTORE. -/
def State.endJobCmds (s : State) (j status : Nat) : State :=
  forEach (s.hcx.waiting.filter (fun c => c.job = j ∧ namesJob c.op c.params ∧ c.op ≠ 0x07 ∧ c.op ≠ 0x0F)) s
    (fun s (c : Cmd) => s.finish c status 0 0)

/-- A job's stream keys are cleared (R389). -/
def State.clearKeys (s : State) (j : Nat) : State :=
  { s with keys := s.keys.filter (fun k => k.kind ≠ 1 ∨ k.job ≠ j) }

/-- The prefix index of a job goes with its pages. -/
def State.dropPrefix (s : State) (j : Nat) : State :=
  match mget s.att.pfx j with
  | none => s
  | some (_, b) =>
    let s := { s with att := { s.att with pfx := mdel s.att.pfx j } }
    forEach (b.flatMap (·.pages)) s
      (fun s (g : Nat × Nat) => s.releaseRef g.1 g.2)

/-- What R350 lists, for a job whose pans are fenced: `status` completes its commands. -/
def State.teardown (s : State) (j status : Nat) : State :=
  let ps := s.jobPans j
  let s := forEach ps s State.freePan
  let s := (((s.dropPrefix j).retractJob j 6).dropWorlds j status).clearKeys j
  (s.endJobCmds j status).nextJobGen j

/-- A job becomes FAULTED and is torn down, alone (R350). -/
def State.faultJob (s : State) (j kind unit : Nat) : State :=
  if (s.job j).st = .none ∨ (s.job j).st = .destroyed ∨ (s.job j).st = .faulted then s
  else
    let s := (s.modJob j (fun b => { b with faultKind := kind, faultUnit := unit })).jobTo j .faulted
    let s := forEach (s.jobPans j) s (fun s p => s.panTo p .faulted)
    s.teardown j Status.faulted

/-- A job's own structures go at its destruction. -/
def State.forgetJob (s : State) (j : Nat) : State :=
  { s with
    epc := { s.epc with sets := s.epc.sets.filter (fun w => w.2.job ≠ j) }
    rings := s.rings.filter (fun r => r.2.job ≠ j)
    col := { s.col with groups := s.col.groups.filter (fun g => g.2.job ≠ j) }
    sch := { s.sch with place := s.sch.place.filter (fun p => p.1 / 256 ≠ j) }
    wpt := { s.wpt with scheds := s.wpt.scheds.filter (fun p => p.1 / 65536 ≠ j) }
    ckp := { s.ckp with jobs := mdel s.ckp.jobs j } }

/-- JOB_DESTROY takes effect: DESTROYED, its index quarantined for 100 ms. -/
def State.destroyJob (s : State) (j : Nat) : State :=
  let b := s.job j
  let s := s.modJob j (fun b => { b with destroyCmd := none })
  let s := (s.teardown j Status.refused).forgetJob j
  let s := (s.jobTo j .destroyed).modJob j (fun b =>
    { st := b.st, gen := b.gen, client := b.client, quarAt := s.time + ms100 })
  match b.destroyCmd with
  | some r => s.finishRef r Status.ok 0 0
  | none => s

/-- A grain of a pan is halted in EBREAK (R31). -/
def State.anyHalted (s : State) (p : Nat) : Bool :=
  (s.pan p).cfg.bricks.any (fun x =>
    let lo := grainKey x.1 x.2 0
    s.grains.any (fun g => lo ≤ g.1 && g.1 < lo + 512 && g.2.run == .halted))

/-- JOB_DESTROY goes on once every pan of the job is FENCED; a pan with a halted grain is not waited for. -/
def State.destroyIfReady (s : State) (j : Nat) : State :=
  if (s.job j).destroyCmd.isNone then s
  else if (s.jobPans j).all (fun p =>
      decide ((s.pan p).st = .fenced) || decide ((s.pan p).st = .loading) || s.anyHalted p) then
    s.destroyJob j
  else s

/-! ## Grain faults (R52 to R54) -/

/-- The first fault of a brick is captured; every later one is counted. -/
def State.captureFault (s : State) (die b g kind addr pc insn : Nat) : State :=
  let l := lBrick die b
  if s.getB R.BRK_FAULT_VALID l then s.bump R.BRK_FAULTADDR_COUNT l
  else
    let s := ((s.setF R.BRK_FAULT_VALID l 1).setF R.BRK_FAULT_KIND l kind).setF R.BRK_FAULT_GRAIN l g
    let s := ((s.setF R.BRK_FAULTPC_PC l pc).setF R.BRK_FAULTPC_INSN l insn).setF R.BRK_FAULTADDR_ADDR l addr
    (s.setF R.BRK_FAULTADDR_COUNT l 0).bump R.BRK_FAULTADDR_COUNT l

/-- A grain fault: the grain stops, the fault is captured, the alarm raised, and the job that owns the brick is
FAULTED. -/
def State.grainFault (s : State) (die b g kind addr pc insn : Nat) : State :=
  let j := match s.owner die b with
    | some p => (s.pan p).job
    | none => 0xFF
  let s := s.modGrain die b g (fun x => { x with run := .faulted })
  let s := (s.captureFault die b g kind addr pc insn).alarm Kind.grainFault j
    (alarmKey die (b * 2 ^ 24 + g * 2 ^ 8 + kind))
  match s.owner die b with
  | some p => s.faultJob (s.pan p).job kind (brickKey die b)
  | none => s

end Sys2Proof.Machine
end

