-- ==== Sys2Proof/Machine/Grain.lean ====
section
/-!
DEFINITION. The grain: its registers, windows and CSRs, RV32IMFC and Xsliver, world entries and the grain's part
of a step (R28 to R54, R104).
-/

namespace Sys2Proof.Machine

/-! ## Registers -/

/-- x0 reads as zero and discards writes (R30). -/
def Grain.rx (g : Grain) (i : Nat) : Word := if i = 0 then 0 else mgetD g.x i 0
def Grain.rf (g : Grain) (i : Nat) : Word := mgetD g.f i 0

/-- Writes a register; `d` says whether the value descends from a poisoned row (R43). -/
def Grain.wx (g : Grain) (i : Nat) (v : Word) (d : Bool := false) : Grain :=
  if i = 0 then g else { g with x := mset g.x i 0 v, tx := mset g.tx i false d }
def Grain.wf (g : Grain) (i : Nat) (v : Word) (d : Bool := false) : Grain :=
  { g with f := mset g.f i 0 v, tf := mset g.tf i false d }

/-- Some of the registers holds data that descends from a poisoned row. -/
def Grain.dx (g : Grain) (l : List Nat) : Bool := l.any (fun i => mgetD g.tx i false)
def Grain.df (g : Grain) (l : List Nat) : Bool := l.any (fun i => mgetD g.tf i false)

/-- Accrues exception flags. -/
def Grain.flag (g : Grain) (fl : Nat) : Grain := { g with fflags := g.fflags ||| BitVec.ofNat 5 fl }

/-- The sentinel (R49). -/
def sentinel : Word := 0xFFFFFFF0

/-! Fault kinds (R52). -/

namespace GF
def illegal := 1
def fetch := 2
def window := 3
def unbound := 4
def ecall := 5
def ebreak := 6
def watchdog := 7
def memEcc := 8
end GF

/-- How an instruction ends: done with the pc set, a fault with its data address, a wait, or a halt. -/
inductive GOut where
  | done (s : State) (g : Grain)
  | fault (kind addr : Nat)
  | wait
  | halt

/-- Which grain executes, where its next instruction stands, and the memory error the instruction met (R52). -/
structure GAt where
  die : Nat
  brick : Nat
  g : Nat
  len : Nat := 4
  ecc : Nat := 0

/-- The instruction retires and the pc advances. -/
def GAt.step (a : GAt) (s : State) (g : Grain) : GOut := .done s { g with pc := g.pc + BitVec.ofNat 32 a.len }

/-! ## Address space and windows (R34 to R37) -/

/-- Brick-local offset of a permitted data access; none raises WINDOW. -/
def State.grainData (s : State) (a : GAt) (x : Grain) (write : Bool) (addr n : Nat) : Option Nat :=
  let off := addr - 0x10000000
  let inWin (w : WinDecl) : Bool :=
    decide (w.base ≤ off) && decide (off + n ≤ w.limit) && (if write then w.wr else w.rd)
  let kb := s.getF R.BRK_KAREA_BASE (lBrick a.die a.brick)
  let kn := s.getF R.BRK_KAREA_SIZE (lBrick a.die a.brick)
  if addr + n ≤ 0x2000 then some (localBase a.g + addr)
  else if 0x10000000 ≤ addr ∧ addr + n ≤ 0x10200000 then
    if inWin x.win0 || inWin x.win1 || (!write && decide (kb ≤ off) && decide (off + n ≤ kb + kn)) then some off
    else none
  else none

/-- The same for a tile-store address only, and for a local address only. -/
def State.grainTile (s : State) (a : GAt) (x : Grain) (write : Bool) (addr n : Nat) : Option Nat :=
  if addr < 0x10000000 then none else s.grainData a x write addr n
def GAt.local (a : GAt) (addr n : Nat) : Option Nat :=
  if addr + n ≤ 0x2000 then some (localBase a.g + addr) else none

/-- Brick-local offset of a fetch (R36). -/
def State.grainFetch (s : State) (a : GAt) (addr n : Nat) : Option Nat :=
  let off := addr - 0x10000000
  let kb := s.getF R.BRK_KAREA_BASE (lBrick a.die a.brick)
  let kn := s.getF R.BRK_KAREA_SIZE (lBrick a.die a.brick)
  if addr + n ≤ 0x2000 then some (localBase a.g + addr)
  else if 0x10000000 ≤ addr ∧ kb ≤ off ∧ off + n ≤ kb + kn then some off
  else none

/-- The 16 or 32 instruction bits at the pc. -/
def State.fetchInsn (s : State) (a : GAt) (pc : Nat) : Option (Nat × Nat) :=
  match s.grainFetch a pc 2 with
  | none => none
  | some o =>
    let h := leNat (s.rdBrick a.die a.brick o 2)
    if h % 4 ≠ 3 then some (h, 2)
    else match s.grainFetch a pc 4 with
      | none => none
      | some o => some (leNat (s.rdBrick a.die a.brick o 4), 4)

/-! ## CSRs (R38) -/

/-- Window limit with its permissions. -/
def winLimit (w : WinDecl) : Nat := w.limit % 2 ^ 30 + b2n w.rd * 2 ^ 30 + b2n w.wr * 2 ^ 31

/-- The pan's step, low 32 bits. -/
def State.stepLo (s : State) (a : GAt) : Nat :=
  match s.owner a.die a.brick with
  | some p => (s.pan p).step % 2 ^ 32
  | none => 0

/-- A brick counter as a user CSR sees it (R417): `fr` stands for a count of cycles, which the model leaves open. -/
def State.perfCsr (s : State) (a : GAt) (n fr : Nat) : Nat :=
  let l := lBrickI a.die a.brick (n % 8)
  let v := if s.getF R.PERF_BSEL_EVENT l = 0 then fr else s.getF R.PERF_BCNT_VALUE l
  if !(mgetD s.bricks (brickKey a.die a.brick) {}).perfUser then 0
  else if n < 0xCD8 then v % 2 ^ 32 else v / 2 ^ 32 % 2 ^ 16

def State.readCsr (s : State) (a : GAt) (x : Grain) (n fr : Nat) : Option Nat :=
  if n / 16 = 0xCD then some (s.perfCsr a n fr) else
  match n with
  | 0x001 => some x.fflags.toNat
  | 0x002 => some x.frm.toNat
  | 0x003 => some (x.frm.toNat * 32 + x.fflags.toNat)
  | 0x800 => some x.slfmt.toNat
  | 0xC00 => some (x.cycle % 2 ^ 32)
  | 0xC80 => some (x.cycle / 2 ^ 32 % 2 ^ 32)
  | 0xC01 => some (s.time % 2 ^ 32)
  | 0xC81 => some (s.time / 2 ^ 32 % 2 ^ 32)
  | 0xC02 => some (x.instret % 2 ^ 32)
  | 0xC82 => some (x.instret / 2 ^ 32 % 2 ^ 32)
  | 0xCC0 => some (a.g + a.brick * 2 ^ 9 + a.die * 2 ^ 16)
  | 0xCC1 => some (x.world % 2 ^ 16 + x.inWorld % 512 * 2 ^ 16 + b2n (x.role == 1) * 2 ^ 31)
  | 0xCC2 => some x.win0.base
  | 0xCC3 => some (winLimit x.win0)
  | 0xCC4 => some x.win1.base
  | 0xCC5 => some (winLimit x.win1)
  | 0xCC6 => some (s.stepLo a)
  | _ => none

/-- SLFMT after its clamps. -/
def slfmtClamp (v : Nat) : Word :=
  BitVec.ofNat 32 (bits v 2 0 + clampN 1 128 (bits v 23 16) * 2 ^ 16 + bits v 24 24 * 2 ^ 24)

def Grain.writeCsr (x : Grain) (n v : Nat) : Option Grain :=
  match n with
  | 0x001 => some { x with fflags := BitVec.ofNat 5 v }
  | 0x002 => some { x with frm := BitVec.ofNat 3 v }
  | 0x003 => some { x with fflags := BitVec.ofNat 5 v, frm := BitVec.ofNat 3 (v / 32) }
  | 0x800 => some { x with slfmt := slfmtClamp v }
  | _ => none

/-- The CSR instructions. A write to a read-only CSR is ILLEGAL_INSN (R38). -/
def State.csrInsn (s : State) (a : GAt) (x : Grain) (w : Nat) : GOut :=
  let n := bits w 31 20
  let src := if Rv.f3 w < 4 then (x.rx (Rv.rs1 w)).toNat else Rv.rs1 w
  let (fr, s) := if n / 16 = 0xCD then s.draw 48 else (0, s)
  match s.readCsr a x n fr with
  | none => .fault GF.illegal 0
  | some old =>
    let kind := Rv.f3 w % 4
    if kind ≠ 1 ∧ Rv.rs1 w = 0 then a.step s (x.wx (Rv.rd w) (BitVec.ofNat 32 old))
    else
      let v : Word := match kind with
        | 1 => BitVec.ofNat 32 src
        | 2 => BitVec.ofNat 32 old ||| BitVec.ofNat 32 src
        | _ => BitVec.ofNat 32 old &&& ~~~(BitVec.ofNat 32 src)
      match x.writeCsr n v.toNat with
      | none => .fault GF.illegal 0
      | some x => a.step s (x.wx (Rv.rd w) (BitVec.ofNat 32 old))

/-! ## Loads and stores -/

def State.loadInsn (s : State) (a : GAt) (x : Grain) (w : Nat) : GOut :=
  match Rv.loadSize (Rv.f3 w) with
  | none => .fault GF.illegal 0
  | some (n, sgn) =>
    let addr := (x.rx (Rv.rs1 w) + Rv.immI w).toNat
    match s.grainData a x false addr n with
    | none => .fault GF.window addr
    | some o =>
      let v := leNat (s.rdBrick a.die a.brick o n)
      a.step s (x.wx (Rv.rd w) (if sgn then Rv.sx (8 * n) v else BitVec.ofNat 32 v) (s.descends a.die a.brick o n))

/-- A store of `n` bytes of a value, which may descend from a poisoned row. -/
def State.storeInsn (s : State) (a : GAt) (x : Grain) (w n : Nat) (v : Word) (d : Bool) : GOut :=
  let addr := (x.rx (Rv.rs1 w) + Rv.immS w).toNat
  match s.grainData a x true addr n with
  | none => .fault GF.window addr
  | some o => a.step ((s.wrBrick a.die a.brick o (toLe n v.toNat)).taint a.die a.brick o n d) x

def State.flwInsn (s : State) (a : GAt) (x : Grain) (w : Nat) : GOut :=
  let addr := (x.rx (Rv.rs1 w) + Rv.immI w).toNat
  match s.grainData a x false addr 4 with
  | none => .fault GF.window addr
  | some o => a.step s (x.wf (Rv.rd w) (BitVec.ofNat 32 (leNat (s.rdBrick a.die a.brick o 4)))
      (s.descends a.die a.brick o 4))

/-! ## The F extension -/

/-- An FP result with its flags, and whether an operand descends from a poisoned row. -/
def GAt.fres (a : GAt) (s : State) (x : Grain) (rd : Nat) (r : Word × Nat) (d : Bool) : GOut :=
  a.step s ((x.wf rd r.1 d).flag r.2)

/-- An integer result of an FP instruction. -/
def GAt.ires (a : GAt) (s : State) (x : Grain) (rd : Nat) (r : Word × Nat) (d : Bool) : GOut :=
  a.step s ((x.wx rd r.1 d).flag r.2)

/-- FMADD.S, FMSUB.S, FNMSUB.S, FNMADD.S. -/
def State.fmaInsn (s : State) (a : GAt) (x : Grain) (w : Nat) : GOut :=
  match Rv.rmode (Rv.f3 w) x.frm.toNat with
  | none => .fault GF.illegal 0
  | some m =>
    if bits w 26 25 ≠ 0 then .fault GF.illegal 0
    else
      let op := Rv.opcode w
      let negP := op == 0x4B || op == 0x4F
      let negA := op == 0x47 || op == 0x4F
      a.fres s x (Rv.rd w)
        (f32Fma m negP negA (x.rf (Rv.rs1 w)) (x.rf (Rv.rs2 w)) (x.rf (Rv.rs3 w)))
        (x.df [Rv.rs1 w, Rv.rs2 w, Rv.rs3 w])

/-- Arithmetic with a rounding mode; none when the encoding is undefined. -/
def fpRounded (m : RMode) (f7 rs2 : Nat) (p q : Word) : Option (Word × Nat) :=
  match f7 with
  | 0x00 => some (f32Add m p q)
  | 0x04 => some (f32Sub m p q)
  | 0x08 => some (f32Mul m p q)
  | 0x0C => some (f32Div m p q)
  | 0x2C => if rs2 = 0 then some (f32Sqrt m p) else none
  | _ => none

/-- Sign injection, minimum and maximum. -/
def fpPlain (f7 f3 : Nat) (p q : Word) : Option (Word × Nat) :=
  let sg (b : Word) : Word := (p &&& 0x7FFFFFFF) ||| (b &&& 0x80000000)
  match f7, f3 with
  | 0x10, 0 => some (sg q, 0)
  | 0x10, 1 => some (sg (~~~q), 0)
  | 0x10, 2 => some (sg (p ^^^ q), 0)
  | 0x14, 0 => some (f32MinMax false p q)
  | 0x14, 1 => some (f32MinMax true p q)
  | _, _ => none

/-- Comparisons, FCLASS and FMV.X.W: integer results. -/
def fpToX (f7 f3 rs2 : Nat) (p q : Word) : Option (Word × Nat) :=
  let b (r : Bool × Nat) : Word × Nat := (if r.1 then 1 else 0, r.2)
  match f7, f3 with
  | 0x50, 0 => some (b (f32Le p q))
  | 0x50, 1 => some (b (f32Lt p q))
  | 0x50, 2 => some (b (f32Eq p q))
  | 0x70, 0 => if rs2 = 0 then some (p, 0) else none
  | 0x70, 1 => if rs2 = 0 then some (f32Class p, 0) else none
  | _, _ => none

/-- OP-FP. -/
def State.fpInsn (s : State) (a : GAt) (x : Grain) (w : Nat) : GOut :=
  let f7 := Rv.f7 w
  let p := x.rf (Rv.rs1 w)
  let q := x.rf (Rv.rs2 w)
  let md := Rv.rmode (Rv.f3 w) x.frm.toNat
  let one := x.df [Rv.rs1 w]
  let two := x.df [Rv.rs1 w, Rv.rs2 w]
  match fpPlain f7 (Rv.f3 w) p q, fpToX f7 (Rv.f3 w) (Rv.rs2 w) p q with
  | some r, _ => a.fres s x (Rv.rd w) r two
  | _, some r => a.ires s x (Rv.rd w) r (if f7 = 0x50 then two else one)
  | _, _ =>
    if f7 = 0x78 ∧ Rv.f3 w = 0 ∧ Rv.rs2 w = 0 then a.fres s x (Rv.rd w) (x.rx (Rv.rs1 w), 0) (x.dx [Rv.rs1 w])
    else match md with
      | none => .fault GF.illegal 0
      | some m =>
        match fpRounded m f7 (Rv.rs2 w) p q with
        | some r => a.fres s x (Rv.rd w) r (if f7 = 0x2C then one else two)
        | none =>
          if f7 = 0x60 ∧ Rv.rs2 w < 2 then a.ires s x (Rv.rd w) (f32ToInt m (Rv.rs2 w == 0) p) one
          else if f7 = 0x68 ∧ Rv.rs2 w < 2 then
            a.fres s x (Rv.rd w) (intToF32 m (Rv.rs2 w == 0) (x.rx (Rv.rs1 w))) (x.dx [Rv.rs1 w])
          else .fault GF.illegal 0

/-! ## Xsliver (R39 to R43, R104) -/

def Grain.slCount (x : Grain) : Nat := bits x.slfmt.toNat 23 16
def Grain.slCode (x : Grain) : Nat := bits x.slfmt.toNat 2 0

/-- Format code of R65 of an SLFMT format. -/
def slFmt (c : Nat) : Nat :=
  match c with
  | 5 => 11 | 6 => 12 | c => c

/-- Bytes of an element. -/
def slBytes (c : Nat) : Nat :=
  match c with
  | 0 => 4 | 1 => 2 | 2 => 2 | 3 => 1 | 4 => 1 | 5 => 1 | _ => 4

/-- One element as SL.RLD delivers it, with its flags (R104). -/
def slDecode (c v : Nat) : Word × Nat :=
  match c with
  | 0 => packF32 .rne (f32 (BitVec.ofNat 32 v))
  | 6 => intToF32 .rne true (BitVec.ofNat 32 v)
  | 7 => (BitVec.ofNat 32 v, 0)
  | _ =>
    let (x, fl) := laneValue (slFmt c) v 0
    ((packF32 .rne x).1, if fl then fUF else 0)

/-- One FP32 element as SL.RST stores it, with its flags. -/
def slEncode (c : Nat) (clip : Bool) (v : Word) : Nat × Nat :=
  if c = 7 then (v.toNat, 0)
  else
    let e := encodeOut (outFmt (slFmt c)) clip .rne (f32 v)
    (e.code, e.flags)

/-- Copies descent between two rows of `n` elements in a brick's window: element `i` of `p` bytes at `src`, of `q`
bytes at `dst` (R43). `was` is the state before the row at `dst` was written. -/
def State.spread (s was : State) (a : GAt) (src p dst q n : Nat) : State :=
  if was.tainted.isEmpty then s
  else forEach (List.range n) s (fun s i =>
    s.taint a.die a.brick (dst + i * q) q (was.descends a.die a.brick (src + i * p) p))

/-- SL.RLD. -/
def State.slRld (s : State) (a : GAt) (x : Grain) (rd rs1 rs2 : Nat) : GOut :=
  let c := x.slCode
  let n := x.slCount
  let src := (x.rx rs1).toNat
  let dst := (x.rx rs2).toNat
  match s.grainTile a x false src (n * slBytes c), a.local dst (n * 4) with
  | none, _ => .fault GF.window src
  | _, none => .fault GF.window dst
  | some o, some d =>
    let b := s.rdBrick a.die a.brick o (n * slBytes c)
    let es := (List.range n).map (fun i => slDecode c (fieldAt b (i * slBytes c) (slBytes c)))
    a.step ((s.wrBrick a.die a.brick d (es.flatMap (fun e => toLe 4 e.1.toNat))).spread s a o (slBytes c) d 4 n)
      ((x.wx rd (BitVec.ofNat 32 (n * 4))).flag (es.foldl (fun f e => f ||| e.2) 0))

/-- SL.RST. -/
def State.slRst (s : State) (a : GAt) (x : Grain) (rd rs1 rs2 : Nat) : GOut :=
  let c := x.slCode
  let n := x.slCount
  let dst := (x.rx rs1).toNat
  let src := (x.rx rs2).toNat
  match a.local src (n * 4), s.grainTile a x true dst (n * slBytes c) with
  | none, _ => .fault GF.window src
  | _, none => .fault GF.window dst
  | some o, some d =>
    let b := s.rdBrick a.die a.brick o (n * 4)
    let es := (List.range n).map (fun i =>
      slEncode c (bit x.slfmt.toNat 24) (BitVec.ofNat 32 (fieldAt b (i * 4) 4)))
    a.step ((s.wrBrick a.die a.brick d (es.flatMap (fun e => toLe (slBytes c) e.1))).spread s a o 4 d (slBytes c) n)
      ((x.wx rd (BitVec.ofNat 32 (n * slBytes c))).flag (es.foldl (fun f e => f ||| e.2) 0))

/-- One step of a lane of SL.RRED, and the fold of two lanes. -/
def rredFold (fn : Nat) (acc v : Nat) : Nat :=
  match fn with
  | 0 => (fp32.fmaLane .rne v 0x3F800000 acc).1
  | 1 => elemMinMax true .fp32 acc v
  | 2 => (fp32.fmaLane .rne v v acc).1
  | _ => elemMinMax false .fp32 acc v

/-- The first element of a lane. -/
def rredFirst (fn v : Nat) : Nat :=
  match fn with
  | 0 => (fp32.fmaLane .rne v 0x3F800000 0x80000000).1
  | 2 => (fp32.fmaLane .rne v v 0).1
  | _ => rredFold fn v v

def rredLane (fn : Nat) : List Nat → Option Nat
  | [] => none
  | v :: r => some (r.foldl (rredFold fn) (rredFirst fn v))

/-- Lane 0 takes the even elements, lane 1 the odd ones; the result folds the two (R41). -/
def rred (fn : Nat) (l : List Nat) : Nat :=
  let pick (k : Nat) : List Nat := (l.zipIdx.filter (fun p => p.2 % 2 = k)).map (·.1)
  match rredLane fn (pick 0), rredLane fn (pick 1) with
  | some x, some y => rredFold (if fn = 2 then 0 else fn) x y
  | some x, none => x
  | _, _ => 0

/-- SL.RRED. -/
def State.slRred (s : State) (a : GAt) (x : Grain) (rd rs1 rs2 fn : Nat) : GOut :=
  if rs2 ≠ 0 ∨ 3 < fn then .fault GF.illegal 0
  else
    let src := (x.rx rs1).toNat
    match a.local src (x.slCount * 4) with
    | none => .fault GF.window src
    | some o =>
      let b := s.rdBrick a.die a.brick o (x.slCount * 4)
      let l := (List.range x.slCount).map (fun i => fieldAt b (i * 4) 4)
      a.step s (x.wf rd (BitVec.ofNat 32 (rred fn l)) (s.descends a.die a.brick o (x.slCount * 4)))

/-- The port and stream a grain names, when the port is bound in the wanted direction (R42). -/
def State.grainPort (s : State) (a : GAt) (x : Grain) (port : Nat) : Option (Nat × PortDecl × StreamDecl) :=
  match s.owner a.die a.brick, mget x.ports port with
  | some p, some d => ((s.pan p).stream d.stream).map (fun t => (p, d, t))
  | _, _ => none

/-- SL.PUSH: the row bears the grain's operation, its station's stage and the epoch of the row popped last
(log 111). A memory error under it gives cause 4h, data that descends from a poisoned row cause 5h (R43, R112). -/
def State.slPush (s : State) (a : GAt) (x : Grain) (rd rs1 rs2 : Nat) : GOut :=
  let port := (x.rx rs2).toNat % 8
  match s.grainPort a x port with
  | none => .fault GF.unbound port
  | some (p, d, t) =>
    let n := rowBytes t.fmt t.width
    let src := (x.rx rs1).toNat
    if !d.outbound then .fault GF.unbound port
    else match a.local src n with
      | none => .fault GF.window src
      | some o =>
        if !canEmit t (s.rows p t.idx) then .wait
        else
          let cause := if a.ecc = 2 then 4 else if s.descends a.die a.brick o n then 5 else 0
          let (tag, mb, slice) : Nat × Nat × Nat := match s.grainOp a.die a.brick a.g with
            | some e => (optagOf a.die (e.1 % 4096) e.2.gen, e.2.mb, e.2.slice)
            | none => (0, 0, 0)
          let s := s.emit p t.idx (mkRow t.fmt t.width cause tag mb slice x.epoch (s.rdBrick a.die a.brick o n))
          let s := if cause = 0 then s else s.poisonOut p a.die cause
          a.step s (x.wx rd (BitVec.ofNat 32 (streamCredits t (s.rows p t.idx))))

/-- SL.POP. -/
def State.slPop (s : State) (a : GAt) (x : Grain) (rd rs1 rs2 : Nat) : GOut :=
  let port := (x.rx rs2).toNat % 8
  match s.grainPort a x port with
  | none => .fault GF.unbound port
  | some (p, d, t) =>
    let dst := (x.rx rs1).toNat
    if d.outbound then .fault GF.unbound port
    else match a.local dst (rowBytes t.fmt t.width) with
      | none => .fault GF.window dst
      | some o =>
        match nextRow (s.rows p t.idx) d.station with
        | none => .wait
        | some r =>
          let n := rowBytes t.fmt t.width
          let s := ((s.takeRow p t.idx d.station t).wrBrick a.die a.brick o (r.data.take n)).taint a.die a.brick o
            (r.data.take n).length (r.cause != 0)
          let st := r.valid % 2 ^ 16 + b2n r.last * 2 ^ 16 + b2n (r.cause != 0) * 2 ^ 17
          a.step s { x.wx rd (BitVec.ofNat 32 st) with epoch := r.hdr.epoch }

/-- SL.CRED. -/
def State.slCred (s : State) (a : GAt) (x : Grain) (rd rs1 rs2 : Nat) : GOut :=
  let port := (x.rx rs2).toNat % 8
  if rs1 ≠ 0 then .fault GF.illegal 0
  else match s.grainPort a x port with
    | none => .fault GF.unbound port
    | some (p, d, t) =>
      let l := s.rows p t.idx
      a.step s (x.wx rd (BitVec.ofNat 32 (if d.outbound then streamCredits t l else waitingRows l d.station)))

/-- SL.DRAW. -/
def State.slDraw (s : State) (a : GAt) (x : Grain) (rd rs1 rs2 : Nat) : GOut :=
  if rs1 ≠ 0 ∨ rs2 ≠ 0 then .fault GF.illegal 0
  else
    let (ws, s) := s.takeWords (grainLane a.die a.brick a.g) 1
    a.step s (x.wx rd (BitVec.ofNat 32 (nth ws 0 0)))

/-- SL.DRAWF: the top 24 bits times 2^-24. -/
def State.slDrawf (s : State) (a : GAt) (x : Grain) (rd rs1 rs2 : Nat) : GOut :=
  if rs1 ≠ 0 ∨ rs2 ≠ 0 then .fault GF.illegal 0
  else
    let (ws, s) := s.takeWords (grainLane a.die a.brick a.g) 1
    a.step s (x.wf rd (packF32 .rne (.fin false (nth ws 0 0 / 256) (-24))).1)

/-- SL.WAITB: the grain waits for the release, which writes rd (R45). -/
def State.slWaitb (s : State) (a : GAt) (x : Grain) (rd rs1 rs2 : Nat) : GOut :=
  if rs1 ≠ 0 ∨ rs2 ≠ 0 then .fault GF.illegal 0
  else a.step s { x with run := .waitBoundary, waitRd := rd, ended := x.ended || decide (x.role = 2) }

/-- SL.FMA2. -/
def State.slFma2 (s : State) (a : GAt) (x : Grain) (rd rs1 rs2 rs3 rm : Nat) : GOut :=
  if rd % 2 = 1 ∨ rs1 % 2 = 1 ∨ rs2 % 2 = 1 ∨ rs3 % 2 = 1 then .fault GF.illegal 0
  else match Rv.rmode rm x.frm.toNat with
    | none => .fault GF.illegal 0
    | some m =>
      let one (k : Nat) : Nat × Nat :=
        fp32.fmaLane m (x.rf (rs1 + k)).toNat (x.rf (rs2 + k)).toNat (x.rf (rs3 + k)).toNat
      let d (k : Nat) : Bool := x.df [rs1 + k, rs2 + k, rs3 + k]
      a.step s (((x.wf rd (BitVec.ofNat 32 (one 0).1) (d 0)).wf (rd + 1) (BitVec.ofNat 32 (one 1).1) (d 1)).flag
        ((one 0).2 ||| (one 1).2))

/-- The two BF16 halves of one register. -/
def bfmaWord (p q r : Nat) : Nat × Nat :=
  let lo := bf16.fmaLane .rne (p % 65536) (q % 65536) (r % 65536)
  let hi := bf16.fmaLane .rne (p / 65536) (q / 65536) (r / 65536)
  (lo.1 % 65536 + hi.1 * 65536, lo.2 ||| hi.2)

/-- SL.BFMA4. -/
def State.slBfma4 (s : State) (a : GAt) (x : Grain) (rd rs1 rs2 rs3 rm : Nat) : GOut :=
  if rd % 2 = 1 ∨ rs1 % 2 = 1 ∨ rs2 % 2 = 1 ∨ rs3 % 2 = 1 ∨ (rm ≠ 0 ∧ rm ≠ 7) then .fault GF.illegal 0
  else
    let one (k : Nat) : Nat × Nat :=
      bfmaWord (x.rf (rs1 + k)).toNat (x.rf (rs2 + k)).toNat (x.rf (rs3 + k)).toNat
    let d (k : Nat) : Bool := x.df [rs1 + k, rs2 + k, rs3 + k]
    a.step s (((x.wf rd (BitVec.ofNat 32 (one 0).1) (d 0)).wf (rd + 1) (BitVec.ofNat 32 (one 1).1) (d 1)).flag
      ((one 0).2 ||| (one 1).2))

/-- Custom-0 (R39). -/
def State.custom0 (s : State) (a : GAt) (x : Grain) (w : Nat) : GOut :=
  let d := Rv.rd w
  let p := Rv.rs1 w
  let q := Rv.rs2 w
  match Rv.f3 w, Rv.f7 w with
  | 0, 0 => s.slRld a x d p q
  | 1, 0 => s.slRst a x d p q
  | 2, fn => s.slRred a x d p q fn
  | 3, 0 => s.slPush a x d p q
  | 4, 0 => s.slPop a x d p q
  | 5, 0 => s.slCred a x d p q
  | 6, 0 => s.slDraw a x d p q
  | 6, 1 => s.slDrawf a x d p q
  | 7, 0 => s.slWaitb a x d p q
  | _, _ => .fault GF.illegal 0

/-- Custom-1 (R39). -/
def State.custom1 (s : State) (a : GAt) (x : Grain) (w : Nat) : GOut :=
  match bits w 26 25 with
  | 0 => s.slFma2 a x (Rv.rd w) (Rv.rs1 w) (Rv.rs2 w) (Rv.rs3 w) (Rv.f3 w)
  | 1 => s.slBfma4 a x (Rv.rd w) (Rv.rs1 w) (Rv.rs2 w) (Rv.rs3 w) (Rv.f3 w)
  | _ => .fault GF.illegal 0

/-! ## One instruction -/

/-- EBREAK (R31). -/
def State.ebreakOp (s : State) (a : GAt) : GOut :=
  if s.getB R.BRK_DBG_EN (lBrick a.die a.brick) then .halt else .fault GF.ebreak 0

/-- A jump: the link register takes the next address. -/
def GAt.jump (a : GAt) (s : State) (x : Grain) (rd : Nat) (target : Word) : GOut :=
  .done s { x.wx rd (x.pc + BitVec.ofNat 32 a.len) with pc := target }

/-- The integer register instructions: OP-IMM and OP. -/
def State.aluInsn (s : State) (a : GAt) (x : Grain) (w : Nat) (imm : Bool) : GOut :=
  let p := x.rx (Rv.rs1 w)
  let q := if imm then Rv.immI w else x.rx (Rv.rs2 w)
  let d := x.dx (if imm then [Rv.rs1 w] else [Rv.rs1 w, Rv.rs2 w])
  let alt := Rv.f7 w == 0x20
  let shift := Rv.f3 w == 1 || Rv.f3 w == 5
  if imm && !shift then a.step s (x.wx (Rv.rd w) (Rv.alu (Rv.f3 w) false p q) d)
  else if Rv.f7 w = 0 ∨ (alt ∧ (Rv.f3 w = 5 ∨ (!imm ∧ Rv.f3 w = 0))) then
    a.step s (x.wx (Rv.rd w) (Rv.alu (Rv.f3 w) alt p q) d)
  else if !imm ∧ Rv.f7 w = 1 then a.step s (x.wx (Rv.rd w) (Rv.mulDiv (Rv.f3 w) p q) d)
  else .fault GF.illegal 0

/-- Executes a 32-bit instruction word (R30, R31, R39). -/
def State.execWord (s : State) (a : GAt) (x : Grain) (w : Nat) : GOut :=
  match Rv.opcode w with
  | 0x37 => a.step s (x.wx (Rv.rd w) (Rv.immU w))
  | 0x17 => a.step s (x.wx (Rv.rd w) (x.pc + Rv.immU w))
  | 0x6F => a.jump s x (Rv.rd w) (x.pc + Rv.immJ w)
  | 0x67 =>
    if Rv.f3 w = 0 then a.jump s x (Rv.rd w) ((x.rx (Rv.rs1 w) + Rv.immI w) &&& 0xFFFFFFFE)
    else .fault GF.illegal 0
  | 0x63 =>
    match Rv.branch (Rv.f3 w) (x.rx (Rv.rs1 w)) (x.rx (Rv.rs2 w)) with
    | none => .fault GF.illegal 0
    | some true => .done s { x with pc := x.pc + Rv.immB w }
    | some false => a.step s x
  | 0x03 => s.loadInsn a x w
  | 0x23 =>
    if Rv.f3 w < 3 then s.storeInsn a x w (2 ^ Rv.f3 w) (x.rx (Rv.rs2 w)) (x.dx [Rv.rs2 w])
    else .fault GF.illegal 0
  | 0x13 => s.aluInsn a x w true
  | 0x33 => s.aluInsn a x w false
  | 0x0F => if Rv.f3 w < 2 then a.step s x else .fault GF.illegal 0
  | 0x73 =>
    if w = 0x00000073 then .fault GF.ecall 0
    else if w = 0x00100073 then s.ebreakOp a
    else if Rv.f3 w % 4 ≠ 0 then s.csrInsn a x w
    else .fault GF.illegal 0
  | 0x07 => if Rv.f3 w = 2 then s.flwInsn a x w else .fault GF.illegal 0
  | 0x27 => if Rv.f3 w = 2 then s.storeInsn a x w 4 (x.rf (Rv.rs2 w)) (x.df [Rv.rs2 w]) else .fault GF.illegal 0
  | 0x43 => s.fmaInsn a x w
  | 0x47 => s.fmaInsn a x w
  | 0x4B => s.fmaInsn a x w
  | 0x4F => s.fmaInsn a x w
  | 0x53 => s.fpInsn a x w
  | 0x0B => s.custom0 a x w
  | 0x2B => s.custom1 a x w
  | _ => .fault GF.illegal 0

/-! ## How an instruction ends (R31, R46, R53) -/

/-- GCLK cycles that passed while the grain was not issuing: they count in `cycle` and not for the watchdog (R38,
R46). How many passed is a free value (log 113). -/
def Grain.waited (x : Grain) (n : Nat) : Grain := { x with cycle := x.cycle + n }

/-- The grain runs instructions, or retries one that waits on a stream. -/
def Grain.active (x : Grain) : Bool := x.role != 0 && (x.run == .run || x.run == .waitStream)

/-- Applies the end of an instruction that took `cyc` GCLK cycles. -/
def State.endInsn (s : State) (a : GAt) (x : Grain) (insn cyc : Nat) (r : GOut) : State :=
  let n := max 1 cyc
  match r with
  | .done t y =>
    let now := if y.run = .waitStream then GrainRun.run else y.run
    t.setGrain a.die a.brick a.g
      { y with run := now, cycle := y.cycle + n, instret := y.instret + 1, wdog := y.wdog + n }
  | .wait => s.setGrain a.die a.brick a.g { x with run := .waitStream, cycle := x.cycle + n }
  | .halt =>
    let t := s.setGrain a.die a.brick a.g
      { x with run := .halted, pc := x.pc + BitVec.ofNat 32 a.len, cycle := x.cycle + n
               instret := x.instret + 1, wdog := x.wdog + n }
    match s.owner a.die a.brick with
    | some p => t.destroyIfReady (s.pan p).job
    | none => t
  | .fault k addr => s.grainFault a.die a.brick a.g k addr x.pc.toNat insn

/-- An instruction word is SL.PUSH. -/
def isPush (w : Nat) : Bool := Rv.opcode w == 0x0B && Rv.f3 w == 3

/-- A corrected memory error is counted (R52). -/
def State.eccFix (s : State) (die b ecc : Nat) : State :=
  if ecc = 1 then s.bump R.BRK_STAT_ECCFIX (lBrick die b) else s

/-- An instruction under the memory error it met (R52): a corrected one is counted, an uncorrectable one raises
MEM_ECC. Under a row that SL.PUSH sends it poisons the row instead, with cause 4h (R112); log 107. -/
def State.withEcc (s : State) (a : GAt) (x : Grain) (insn cyc : Nat) (push : Bool) (f : State → GOut) : State :=
  let s := s.eccFix a.die a.brick a.ecc
  s.endInsn a x insn cyc (if 2 ≤ a.ecc ∧ !push then .fault GF.memEcc 0 else f s)

/-- Runs one Xsliver row of the command table at the grain's pc. -/
def State.runRow (s : State) (die brick g cyc ecc insn : Nat) (f : State → GAt → Grain → GOut) : Out :=
  need (isGrain die brick g) "grain" (.next (
    let x := s.grain die brick g
    let a : GAt := { die := die, brick := brick, g := g, ecc := ecc }
    if x.active then s.withEcc a x insn cyc (isPush insn) (fun s => f s a x) else s))

/-- GRAIN_INSTRUCTION (R30). A WORLD grain at the sentinel waits for its return. -/
def execGrainInstruction (die brick grain cyc ecc : Nat) (s : State) : Out :=
  need (isGrain die brick grain) "grain" (.next (
    let x := s.grain die brick grain
    let a : GAt := { die := die, brick := brick, g := grain, ecc := ecc }
    if !x.active ∨ (x.role = 1 ∧ x.pc = sentinel) then s
    else match s.fetchInsn a x.pc.toNat with
      | none => s.endInsn a x 0 cyc (.fault GF.fetch 0)
      | some (w, len) =>
        let a := { a with len := len }
        match (if len = 4 then some w else Rv.expand w) with
        | some v => s.withEcc a x w cyc (isPush v) (fun s => s.execWord a x v)
        | none => s.endInsn a x w cyc (.fault GF.illegal 0)))

/-- ECALL (R31). -/
def execEcall (die brick grain : Nat) (s : State) : Out :=
  s.runRow die brick grain 1 0 0x00000073 (fun _ _ _ => .fault GF.ecall 0)

/-- EBREAK, or C.EBREAK where the 16 bits at the pc spell it (R31). -/
def execEbreak (die brick grain : Nat) (s : State) : Out :=
  need (isGrain die brick grain) "grain" (.next (
    let x := s.grain die brick grain
    let a : GAt := { die := die, brick := brick, g := grain }
    let short := decide (s.fetchInsn a x.pc.toNat = some (0x9002, 2))
    let a := { a with len := if short then 2 else 4 }
    if x.active then s.endInsn a x (if short then 0x9002 else 0x00100073) 1 (s.ebreakOp a) else s))

/-- SL.RLD (R39). -/
def execSlRld (die brick grain rd rs1 rs2 cyc ecc : Nat) (s : State) : Out :=
  s.runRow die brick grain cyc ecc (Rv.encR 0x0B 0 0 rd rs1 rs2) (fun s a x => s.slRld a x rd rs1 rs2)
/-- SL.RST (R39). -/
def execSlRst (die brick grain rd rs1 rs2 cyc ecc : Nat) (s : State) : Out :=
  s.runRow die brick grain cyc ecc (Rv.encR 0x0B 1 0 rd rs1 rs2) (fun s a x => s.slRst a x rd rs1 rs2)
/-- SL.RRED (R41). -/
def execSlRred (die brick grain rd rs1 rs2 fn cyc ecc : Nat) (s : State) : Out :=
  s.runRow die brick grain cyc ecc (Rv.encR 0x0B 2 fn rd rs1 rs2) (fun s a x => s.slRred a x rd rs1 rs2 fn)
/-- SL.PUSH (R39). -/
def execSlPush (die brick grain rd rs1 rs2 cyc ecc : Nat) (s : State) : Out :=
  s.runRow die brick grain cyc ecc (Rv.encR 0x0B 3 0 rd rs1 rs2) (fun s a x => s.slPush a x rd rs1 rs2)
/-- SL.POP (R39). -/
def execSlPop (die brick grain rd rs1 rs2 cyc ecc : Nat) (s : State) : Out :=
  s.runRow die brick grain cyc ecc (Rv.encR 0x0B 4 0 rd rs1 rs2) (fun s a x => s.slPop a x rd rs1 rs2)
/-- SL.CRED (R39). -/
def execSlCred (die brick grain rd rs1 rs2 cyc ecc : Nat) (s : State) : Out :=
  s.runRow die brick grain cyc ecc (Rv.encR 0x0B 5 0 rd rs1 rs2) (fun s a x => s.slCred a x rd rs1 rs2)
/-- SL.DRAW (R39). -/
def execSlDraw (die brick grain rd rs1 rs2 cyc ecc : Nat) (s : State) : Out :=
  s.runRow die brick grain cyc ecc (Rv.encR 0x0B 6 0 rd rs1 rs2) (fun s a x => s.slDraw a x rd rs1 rs2)
/-- SL.DRAWF (R39). -/
def execSlDrawf (die brick grain rd rs1 rs2 cyc ecc : Nat) (s : State) : Out :=
  s.runRow die brick grain cyc ecc (Rv.encR 0x0B 6 1 rd rs1 rs2) (fun s a x => s.slDrawf a x rd rs1 rs2)
/-- SL.WAITB (R39). -/
def execSlWaitb (die brick grain rd rs1 rs2 cyc ecc : Nat) (s : State) : Out :=
  s.runRow die brick grain cyc ecc (Rv.encR 0x0B 7 0 rd rs1 rs2) (fun s a x => s.slWaitb a x rd rs1 rs2)

/-- Bits of a custom-1 word. -/
def enc1 (fmt rd rs1 rs2 rs3 rm : Nat) : Nat := Rv.encR 0x2B rm (rs3 * 4 + fmt) rd rs1 rs2

/-- SL.FMA2 (R40). -/
def execSlFma2 (die brick grain rd rs1 rs2 rs3 rm cyc ecc : Nat) (s : State) : Out :=
  s.runRow die brick grain cyc ecc (enc1 0 rd rs1 rs2 rs3 rm) (fun s a x => s.slFma2 a x rd rs1 rs2 rs3 rm)
/-- SL.BFMA4 (R40). -/
def execSlBfma4 (die brick grain rd rs1 rs2 rs3 rm cyc ecc : Nat) (s : State) : Out :=
  s.runRow die brick grain cyc ecc (enc1 1 rd rs1 rs2 rs3 rm) (fun s a x => s.slBfma4 a x rd rs1 rs2 rs3 rm)

/-- WATCHDOG (R46). -/
def execWatchdog (die brick grain : Nat) (s : State) : Out :=
  need (isGrain die brick grain) "grain" (.next (
    let x := s.grain die brick grain
    let lim := s.getF R.BRK_WDOG_CYCLES (lBrick die brick)
    let a : GAt := { die := die, brick := brick, g := grain }
    if x.active ∧ lim ≠ 0 ∧ lim ≤ x.wdog then
      s.endInsn a x (((s.fetchInsn a x.pc.toNat).map (·.1)).getD 0) 1 (.fault GF.watchdog 0)
    else s))

/-! ## World entries (R49, R50) -/

/-- The grains of a DEV world. -/
def State.worldGrains (s : State) (d : DevWorldDecl) : List Nat :=
  let n := match (mgetD s.bricks (brickKey d.die d.brick) {}).desc with
    | some k => k.grains
    | none => 1
  (List.range n).map (fun i => d.grain0 + i)

/-- A grain at an entry of its kernel: pc, a0 to a3 and ra. The other registers keep what they held. -/
def Grain.enter (x : Grain) (pc a0 a1 a2 a3 : Nat) (reset : Bool) : Grain :=
  let x := ((x.wx 10 (BitVec.ofNat 32 a0)).wx 11 (BitVec.ofNat 32 a1)).wx 12 (BitVec.ofNat 32 a2)
  let x := (x.wx 13 (BitVec.ofNat 32 a3)).wx 1 sentinel
  { x with pc := BitVec.ofNat 32 pc, run := .run, ended := false, inReset := reset, waitRd := 0 }

/-- Address of a kernel entry. -/
def State.kernelAt (s : State) (die b : Nat) (reset : Bool) : Nat :=
  let k := ((mgetD s.bricks (brickKey die b) {}).desc).getD {}
  0x10000000 + s.getF R.BRK_KAREA_BASE (lBrick die b) + (if reset then k.resetEntry else k.stepEntry)

/-- Every grain of a world starts at the step entry, after the cycles it has waited (R38). -/
def State.enterStep (s : State) (step : Nat) (d : DevWorld) : State :=
  let c := d.decl
  forEach (s.worldGrains c) s (fun s g =>
    let (n, s) := s.draw 32
    s.modGrain c.die c.brick g (fun x =>
      let x := x.enter (s.kernelAt c.die c.brick false) c.world (g - c.grain0) (0x10000000 + c.obsSlot)
        (0x10000000 + c.actSlot) false
      (((x.wx 14 (BitVec.ofNat 32 step)).wx 15 (BitVec.ofNat 32 (b2n d.fallback))).wx 2 0x2000).waited n))

/-- Every grain of a world starts at the reset entry. -/
def State.enterReset (s : State) (d : DevWorld) : State :=
  let c := d.decl
  forEach (s.worldGrains c) s (fun s g =>
    let (n, s) := s.draw 32
    s.modGrain c.die c.brick g (fun x =>
      (x.enter (s.kernelAt c.die c.brick true) c.world (g - c.grain0) (0x10000000 + c.obsSlot) d.episode true).waited n))

/-- Changes a DEV world of a pan. -/
def State.modDev (s : State) (pan w : Nat) (f : DevWorld → DevWorld) : State :=
  s.modPan pan (fun p => { p with worlds := p.worlds.map (fun d => if d.decl.world = w then f d else d) })

/-- A world resets in stage 1: its old sequence is cancelled, a new episode opens (R13, R50). -/
def State.resetWorld (s : State) (pan : Nat) (d : DevWorld) : State :=
  let s := match d.seq with
    | some q => s.cancelSeq q
    | none => s
  let d' := { d with episode := if d.fresh then d.episode else d.episode + 1, fresh := false, first := true
                     seq := none }
  (s.modDev pan d.decl.world (fun _ => d')).enterReset d'

/-- The world's step entry has returned on every grain: it resets when it is done, truncated or new. DESIGN CHOICE
(log 106): in the first step after the attach the step entry runs first and the reset entry after it. -/
def State.worldReturned (s : State) (pan w : Nat) : State :=
  match (s.pan pan).worlds.find? (fun d => d.decl.world = w) with
  | none => s
  | some d =>
    let gs := (s.worldGrains d.decl).map (fun g => s.grain d.decl.die d.decl.brick g)
    if gs.all (fun x => x.ended && !x.inReset) ∧ (d.done ∨ d.trunc ∨ d.fresh) then s.resetWorld pan d else s

/-- SENTINEL_RETURN (R49): the grain ends its part; grain 0's a0 and fa0 are the result of the step entry. -/
def execSentinelReturn (die brick grain : Nat) (s : State) : Out :=
  need (isGrain die brick grain) "grain" (.next (
    let x := s.grain die brick grain
    match s.owner die brick with
    | none => s
    | some p =>
      if x.role ≠ 1 ∨ x.run ≠ .run ∨ x.pc ≠ sentinel then s
      else
        let s := s.setGrain die brick grain { x with run := .waitBoundary, ended := true }
        let s := if x.inWorld = 0 ∧ !x.inReset then
            s.modDev p x.world (fun d => { d with
              done := bit (x.rx 10).toNat 0, trunc := bit (x.rx 10).toNat 1, reward := x.rf 10 })
          else s
        s.worldReturned p x.world))

end Sys2Proof.Machine
end

