-- ==== Sys2Proof/Machine/Place.lean ====
section
/-!
DEFINITION. Placing pans: bricks, grains, lanes and per-pan registers as a load leaves them (R28, R29, R35,
R48, R165, R347, R380, R381), and the application of a resize (R352).
-/

namespace Sys2Proof.Machine

/-! ## Per-pan and per-ring registers (R381) -/

/-- The per-pan register fields of compute dies and of the keeper. -/
def panFlds : List Fld :=
  (R.schFields ++ R.attFields ++ R.movFields ++ R.epcCFields ++ R.clkFields).filter (fun f => f.count = 256)

/-- Fields of an index return to reset on dies 0 to 15 and in the keeper's file. -/
def clearRegs (l : List Fld) (i : Nat) (m : AMap Nat) : AMap Nat :=
  let keys := l.flatMap (fun f => (List.range 17).map (fun d => f.key (lIdx d i)))
  m.filter (fun e => !keys.contains e.1)

/-- Every per-pan register of an index returns to its reset value, on every die. -/
def State.resetPanRegs (s : State) (p : Nat) : State := { s with csr := clearRegs panFlds p s.csr }

/-- The same for the registers of a ring that a load declares. -/
def State.resetRingRegs (s : State) (r : Nat) : State :=
  { s with csr := clearRegs (R.expFields.filter (fun f => f.count = 64)) r s.csr }

/-! ## Grains (R28, R35, R42) -/

/-- A CLAMP record of a load (R386): the section's kind, and the field's offset, which the manual leaves to the
image's listing when the load's content does not carry it. -/
def State.auditLoadClamp (s : State) (o : Origin) (job pan kind off written eff : Nat) : State :=
  if written = eff then s
  else s.audit1 (originDie o 16) (s.mkRec 0x03 o (job := job) (pan := pan) (addr := kind + off * 256)
    (written := written) (old := written) (eff := eff) (clamped := true))

/-- A window that would cover part of the kernel area ends at its base. -/
def clampWin (kbase size : Nat) (w : WinDecl) : WinDecl :=
  if 0 < size ∧ w.base < kbase + size ∧ kbase < w.limit then { w with limit := kbase } else w

/-- A window as loaded, its clamp audited. -/
def State.loadWin (s : State) (o : Origin) (job pan kbase size : Nat) (w : WinDecl) : WinDecl × State :=
  let c := clampWin kbase size w
  if c.limit = w.limit then (c, s)
  else
    let (off, s) := s.draw 56
    (c, s.auditLoadClamp o job pan 2 off w.limit c.limit)

/-- The descriptor in a brick's kernel area, where grains in WORLD role run a kernel (R47). -/
def brickDesc (d : BrickDecl) : Option KernelDesc :=
  if d.grains.any (fun g => g.role = 1) then some (readKernel (d.kernel.take 32)) else none

/-- Where a SLIVER grain begins: the kernel area, after its descriptor when it holds one. -/
def sliverStart (d : BrickDecl) : Nat := 0x10000000 + d.kbase + (if (brickDesc d).isSome then 32 else 0)

/-- What a declared grain holds: its role, windows, ports and place in its world. -/
def Grain.declared (x : Grain) (g : GrainDecl) (w0 w1 : WinDecl) : Grain :=
  { x with
    role := g.role, win0 := w0, win1 := w1, world := g.world, inWorld := g.inWorld
    ports := g.ports.foldl (fun m (q : PortDecl) => mput m q.port q) [] }

/-- A grain that receives a role: SLIVER grains wait for the release, WORLD grains have ended their part. -/
def freshGrain (d : BrickDecl) : Grain :=
  { run := .waitBoundary, ended := true, pc := BitVec.ofNat 32 (sliverStart d) }

/-- Places one grain. A grain that keeps a role keeps its state; one that was IDLE has its local memory zeroed (R29). -/
def State.placeGrain (s : State) (o : Origin) (job pan : Nat) (d : BrickDecl) (g : GrainDecl) : State :=
  let size := d.kernel.length
  let (w0, s) := s.loadWin o job pan d.kbase size g.win0
  let (w1, s) := s.loadWin o job pan d.kbase size g.win1
  let old := s.grain d.die d.brick g.grain
  if g.role = 0 then { s with grains := mdel s.grains (grainKey d.die d.brick g.grain) }
  else if old.role = g.role then s.setGrain d.die d.brick g.grain (old.declared g w0 w1)
  else
    let s := if old.role = 0 then s.clrMem 0 (sramAddr d.die d.brick (localBase g.grain)) 8192 else s
    s.setGrain d.die d.brick g.grain ((freshGrain d).declared g w0 w1)

/-! ## Bricks -/

/-- A brick becomes owned by a pan. -/
def State.ownBrick (s : State) (p die b : Nat) : State :=
  let l := lBrick die b
  (((s.wipeCounters die b).setF R.BRK_OWNER_PAN l p).setF R.BRK_OWNER_PANGEN l (s.pan p).gen).setF R.BRK_OWNER_OWNED l 1

/-- The brick's part of sections 2 and 3: kernel area, descriptor, array ports, grains. -/
def State.loadBrick (s : State) (o : Origin) (job p : Nat) (perf : Bool) (d : BrickDecl) : State :=
  let l := lBrick d.die d.brick
  let s := (s.wrBrick d.die d.brick d.kbase d.kernel).setF R.BRK_KAREA_BASE l d.kbase
  let s := s.setF R.BRK_KAREA_SIZE l d.kernel.length
  let br : Brick :=
    { desc := brickDesc d, ports := d.ports.foldl (fun m (q : PortDecl) => mput m q.port q) [], perfUser := perf }
  let s := { s with bricks := mput s.bricks (brickKey d.die d.brick) br }
  let named := d.grains.map (·.grain)
  let lo := grainKey d.die d.brick 0
  let s := { s with grains := s.grains.filter (fun g =>
    decide (g.1 < lo) || decide (lo + 512 ≤ g.1) || named.contains (g.1 - lo)) }
  forEach d.grains s (fun s (g : GrainDecl) => s.placeGrain o job p d g)

/-- A brick's declaration; a brick that section 2 does not name has no grain in a role. -/
def brickDecl (l : List BrickDecl) (die b : Nat) : BrickDecl :=
  (l.find? (fun d => d.die = die ∧ d.brick = b)).getD { die := die, brick := b }

/-- Places bricks that were FREE: owned, their lanes at n = 0. -/
def State.addBricks (s : State) (p : Nat) (l : List (Nat × Nat)) : State :=
  forEach l s (fun s (x : Nat × Nat) =>
    (s.ownBrick p x.1 x.2).zeroBrickLanes x.1 x.2)

/-- Writes sections 2 to 5 to bricks. -/
def State.loadBricks (s : State) (o : Origin) (job p : Nat) (perf : Bool) (ds : List BrickDecl)
    (l : List (Nat × Nat)) : State :=
  forEach l s (fun s (x : Nat × Nat) => s.loadBrick o job p perf (brickDecl ds x.1 x.2))

/-- The lanes of sieves that a pan binds and did not bind before stand at n = 0. -/
def State.bindSieves (s : State) (old new : List StationDecl) : State :=
  let had := old.flatMap (·.sieves)
  s.zeroSieveLanes ((new.flatMap (·.sieves)).filter (fun x => !had.contains x))

/-! ## DEV worlds (R16, R50) -/

/-- Bytes of a brick's action slots. -/
def actBytes (ds : List BrickDecl) (w : DevWorldDecl) : Nat :=
  match brickDesc (brickDecl ds w.die w.brick) with
  | some k => k.actBytes
  | none => 64

/-- A DEV world is placed: its action slot zeroed, its generation one the manual does not number. -/
def State.placeDev (s : State) (ds : List BrickDecl) (w : DevWorldDecl) : DevWorld × State :=
  let (g, s) := s.draw 32
  ({ decl := w, gen := g }, s.clrMem 0 (sramAddr w.die w.brick w.actSlot) (actBytes ds w))

/-- The DEV worlds of a pan under a new image: retained ones stay as they are. -/
def placeDevs (ds : List BrickDecl) (old : List DevWorld) : List DevWorldDecl → State → List DevWorld × State
  | [], s => ([], s)
  | w :: rest, s =>
    let (d, s) := match old.find? (fun d => d.decl.world = w.world) with
      | some d => ({ d with decl := w }, s)
      | none => s.placeDev ds w
    let (l, s) := placeDevs ds old rest s
    (d :: l, s)

/-! ## A pan (R347, R380) -/

/-- A pan leaves FREE for LOADING: the generation, the per-pan registers, its bricks. -/
def State.openPan (s : State) (d : PanDecl) : State :=
  let g := ((s.pan d.pan).gen + 1) % 2 ^ 32
  let s := (s.setPan d.pan { gen := g, job := d.job, cfg := d }).resetPanRegs d.pan
  let s := { s with tier := { s.tier with
    frames := s.tier.frames.filter (fun f => f.1 / 4 ≠ d.pan) } }
  (s.panTo d.pan .loading).addBricks d.pan d.bricks

/-- Sections 2 to 5 of a pan are written to its units. -/
def State.fillPan (s : State) (o : Origin) (d : PanDecl) (ds : List BrickDecl) : State :=
  let s := (s.loadBricks o d.job d.pan d.perfUser ds d.bricks).bindSieves [] d.stations
  let (ws, s) := placeDevs ds [] d.worlds s
  s.modPan d.pan (fun p => { p with worlds := ws })

/-! ## Resizing (R352) -/

/-- Bricks that a resize adds, and those it releases. -/
def addedBricks (old new : PanDecl) : List (Nat × Nat) := new.bricks.filter (fun x => !old.bricks.contains x)

/-- Step 2: the added bricks are placed and take no work yet. -/
def State.placeAdded (s : State) (o : Origin) (p : Nat) (d : PanDecl) (ds : List BrickDecl) : State :=
  let l := addedBricks (s.pan p).cfg d
  (s.addBricks p l).loadBricks o d.job p d.perfUser ds l

/-- A brick leaves a pan at a resize: zeroed, fenced and FREE. -/
def State.dropBrick (s : State) (die b : Nat) : State :=
  (s.clrMem 0 (sramAddr die b 0) 0x600000).releaseBrick die b

/-- Step 3: the new image replaces the old one. -/
def State.applyResize (s : State) (o : Origin) (p : Nat) (d : PanDecl) (ds : List BrickDecl) : State :=
  let old := s.pan p
  let gone := addedBricks d old.cfg
  let keep := d.bricks.filter (fun x => old.cfg.bricks.contains x)
  let s := forEach (old.worlds.filter (fun w => !d.worlds.any (fun x => x.world = w.decl.world))) s
    (fun s (w : DevWorld) => match w.seq with
      | some q => s.cancelSeq q
      | none => s)
  let s := (s.loadBricks o d.job p d.perfUser ds keep).bindSieves old.cfg.stations d.stations
  let now := d.stations.flatMap (·.sieves)
  let s := s.zeroSieveLanes ((old.cfg.stations.flatMap (·.sieves)).filter (fun x => !now.contains x))
  let s := forEach gone s (fun s (x : Nat × Nat) => s.dropBrick x.1 x.2)
  let m := old.master
  let s := s.modPan p (fun b => { b with cfg := d, resize := none })
  let m' := (s.pan p).master
  let s := { s with csr := panFlds.foldl (fun (c : AMap Nat) f =>
    if m = m' then c
    else csrSet (csrSet c f (lIdx m' p) (mgetD c (f.key (lIdx m p)) f.reset)) f (lIdx m p) f.reset) s.csr }
  let (ws, s) := placeDevs ds old.worlds d.worlds s
  s.modPan p (fun b => { b with worlds := ws })

end Sys2Proof.Machine
end

