-- ==== Sys2Proof/Machine/Cut.lean ====
section
/-!
DEFINITION. Releasing a pan's step (R20 action 7, R45), taking cuts at boundaries (R358 to R363, R368), and
putting a job back to a cut (R372, R193, R180, R166, R139, R51).
-/

namespace Sys2Proof.Machine

/-! ## Releasing steps (R118, R119, R347) -/

/-- The master sends RELEASE of the pan's step: the step's state starts afresh, port worlds give their rows. -/
def State.releasePan (s : State) (p : Nat) : State :=
  let l := s.panLoc p
  let s := s.modPan p (fun b => { b with
    released := true, woken := [], sent := [], dones := [], retired := [], relTime := s.time
    placeVotes := [], cutVote := none, pubDone := [] })
  (((s.giveRows p).listRows p).setF R.SCH_PBND_POISONED l 0).setF R.SCH_PBND_LATE l 0

/-- The steward's write of MXA_MODE of a brick, with its audit record (R76, R386). -/
def State.stewardMode (s : State) (j p die brick v : Nat) : State :=
  let a := lBrick die brick
  let t := s.requestMode die brick v
  let word (s : State) : Nat := s.getF R.MXA_MODE_ELASTIC a + 2 * s.getF R.MXA_MODE_PENDING a
    + 256 * s.getF R.MXA_MODE_EFFECTIVE a
  (s.audit1 die (s.mkRec 0x01 .internal (job := j) (pan := p) (addr := R.MXA_MODE_ELASTIC.key a / 64) (written := v)
    (old := word s) (eff := word t))).requestMode die brick v

/-- The steward requests a mode for every brick of a pan (R76). -/
def State.panMode (s : State) (p v : Nat) : State :=
  forEach (s.pan p).cfg.bricks s (fun s (x : Nat × Nat) => s.stewardMode (s.pan p).job p x.1 x.2 v)

/-- A FENCED pan runs: SERVICE requested, the first epoch adopted, its step released. -/
def State.startPan (s : State) (p : Nat) : State :=
  let b := s.pan p
  let s := s.panMode p 0
  let s := if b.epoch = 0 then s.adopt p (s.bestEpoch p) else s
  (s.panTo p .running).releasePan p

/-! ## A job's cuts -/

def State.ckpJob (s : State) (j : Nat) : Ckp := mgetD s.ckp.jobs j {}
def State.setCkp (s : State) (j : Nat) (c : Ckp) : State :=
  { s with ckp := { s.ckp with jobs := mput s.ckp.jobs j c } }
def State.modCkp (s : State) (j : Nat) (f : Ckp → Ckp) : State := s.setCkp j (f (s.ckpJob j))

/-- Buddy cuts are enabled for a job. -/
def State.cutsOn (s : State) (j : Nat) : Bool := s.getB R.CKP_JCFG_BUDDY (lKeepI j)

/-- The job's declarations. -/
def State.jobDecl (s : State) (j : Nat) : JobDecl := ((s.job j).decl).getD { job := j }

/-- The devices of the job's cut group. -/
def State.roster (s : State) (j : Nat) : List Nat :=
  match mget s.col.groups (s.jobDecl j).cutGroup with
  | some g => if g.job = j then g.devices else []
  | none => []

/-- A single-device job has no buddy (R367). -/
def State.alone (s : State) (j : Nat) : Bool := decide ((s.roster j).length ≤ 1)

/-- This member's bit of the cut barrier (R359, R365). -/
def Ckp.bit (c : Ckp) : Bool :=
  (match c.cut with
    | some k => k.unacked.isEmpty && c.partsDue.isEmpty
    | none => true) && c.durableBusy.isNone && !c.buddyLost

/-! ## Shards (R361) -/

/-- The shards captured in a pan's part. -/
def panKind (k : Nat) : Bool := k == 2 || k == 6 || k == 9

/-- The shards whose bytes all stand in tiers. -/
def memKind (k : Nat) : Bool := k == 3 || k == 4 || k == 5 || k == 9 || k == 10

/-- Whether a shard belongs to the part of pan `p`. -/
def inPart (d : ShardDecl) (p : Nat) (anchor : Bool) : Bool :=
  if panKind d.kind then d.index == p else anchor

/-- A DEV world's state image: the per-grain bytes and the shared bytes (R51). -/
def State.worldImage (s : State) (w : DevWorldDecl) : List (Nat × Nat × Nat) :=
  match (mgetD s.bricks (brickKey w.die w.brick) {}).desc with
  | none => []
  | some k =>
    let g0 := s.grain w.die w.brick w.grain0
    (s.worldGrains w).map (fun g => (0, sramAddr w.die w.brick (localBase g), k.stateBytes))
      ++ [(0, sramAddr w.die w.brick g0.win1.base, k.sharedBytes)]

/-- The slots of a weight set that a cut holds. -/
def State.cutSlots (s : State) (ws : Nat) : List (Nat × Nat × Nat) :=
  match s.wset ws with
  | none => []
  | some w =>
    let cur (i : Nat) : Bool := s.sch.pans.any (fun p => p.2.st ≠ .free ∧ p.2.cfg.ws = ws ∧ p.2.slot = i)
    ([0, 1].filter (fun i => w.stateOf (w.slot i) = .confirmed ∧ (w.decl.kind = 1 ∨ i = w.keep ∨ cur i))).map
      (fun i => (1, if i = 0 then w.decl.slot0 else w.decl.slot1, w.decl.payload))

/-- The tier ranges of a shard: space, offset, bytes. -/
def State.shardRanges (s : State) (d : ShardDecl) : List (Nat × Nat × Nat) :=
  match d.kind with
  | 2 => (s.pan d.index).cfg.persist.map (fun x => (0, sramAddr x.1 x.2.1 x.2.2.1, x.2.2.2))
  | 9 => (s.pan d.index).worlds.flatMap (fun w => s.worldImage w.decl)
  | 5 => s.cutSlots d.index
  | 3 => [(d.tier, d.base, d.bytes)]
  | 4 => [(d.tier, d.base, d.bytes)]
  | 10 => [(d.tier, d.base, d.bytes)]
  | _ => []

/-- The bytes of shard number `i`, as they stand. -/
def State.shardMem (s : State) (i : Nat) (d : ShardDecl) : List ShardMem :=
  (s.shardRanges d).map (fun r =>
    { shard := i, space := r.1, off := r.2.1, data := s.rdTier r.1 r.2.1 r.2.2 })

def Cut.memOf (c : Cut) (i : Nat) : List ShardMem := c.mem.filter (fun m => m.shard = i)
def Cut.entryOf (c : Cut) (d : ShardDecl) : Option ShardCopy :=
  c.entries.find? (fun e => e.kind = d.kind ∧ e.index = d.index)

/-- Whether a shard differs from its copy in the last whole cut. -/
def shardChanged (k : Ckp) (c : Cut) (i : Nat) (d : ShardDecl) (now : List ShardMem) : Bool :=
  match k.whole with
  | none => true
  | some w =>
    if c.full || (w.entryOf d).isNone then true
    else if memKind d.kind then decide (w.memOf i ≠ now)
    else match d.kind with
      | 1 => k.configChanged
      | 6 => decide (w.parts.map (·.lanes) ≠ c.parts.map (·.lanes))
      | 7 => decide (w.sets ≠ c.sets)
      | 8 => decide (w.rings ≠ c.rings)
      | _ => true

/-! ### Copies (R363, R364) -/

/-- One of two places. -/
def ofTwo (p : Nat × Nat) (i : Nat) : Nat := if i = 0 then p.1 else p.2

/-- What is written of a shard copy outside the package: with ENCRYPT sealed per 1 MiB chunk under the job's stream key, and
then nothing when there is no key. DESIGN CHOICE (log 131): nonce and additional data name shard, cut and chunk. -/
def State.sealShard (s : State) (j i : Nat) (e : ShardCopy) (data : List Byte) : Option (List Byte) :=
  if s.getB R.EPC_POLICY_ENCRYPT lKeep then
    (s.jobKey j).map (fun k => ((chunks mib (ceilDiv data.length mib) data).zipIdx).flatMap (fun (x : List Byte × Nat) =>
      let name := toLe 4 (0x80000000 + i) ++ toLe 4 e.written ++ toLe 4 x.2
      let r := gcmSeal k name name x.1
      r.1 ++ r.2))
  else some data

/-- Bytes written on VC5 into the region of the buddy. -/
def State.toBuddy (s : State) (j off : Nat) (b : List Byte) : State :=
  match (s.roster j)[(s.jobDecl j).buddyRank]? with
  | none => s
  | some dev =>
    if s.alone j then s
    else forEach (chunks 2048 (ceilDiv b.length 2048) b).zipIdx s (fun s (x : List Byte × Nat) =>
      s.issue { device := dev, space := 2, offset := (s.jobDecl j).buddyBase + off + 2048 * x.2, type := 0x20, vc := 5
                len := x.1.length, job := j, jobgen := (s.job j).gen, payload := x.1 } .other)

/-- Bytes of a cut's region are written: to the home region and to the buddy. -/
def State.toRegions (s : State) (j off : Nat) (b : List Byte) : State :=
  (s.wrTier 2 ((s.jobDecl j).homeBase + off) b).toBuddy j off b

/-- A shard copy leaves for both regions. -/
def State.writeCopy (s : State) (j i : Nat) (d : ShardDecl) (e : ShardCopy) (data : List Byte) : State :=
  match s.sealShard j i e data with
  | none => s
  | some b => s.toRegions j (ofTwo d.copyAt e.copy) b

/-- Free bytes, of a free number. -/
def State.drawForm (s : State) : List Byte × State :=
  let (n, s) := s.draw 32
  s.drawBytes n

/-- The plaintext of shard number `i` of a cut. -/
def Cut.plain (c : Cut) (i : Nat) (e : ShardCopy) : List Byte :=
  if memKind e.kind then (c.memOf i).flatMap (·.data) else e.form

/-- Captures one shard: its bytes, and its manifest entry, new or kept from the last whole cut (R364). The form
of the shards that hold more than tier bytes is not in the manual, so their bytes are free values. -/
def State.captureShard (s : State) (j i : Nat) (d : ShardDecl) : State :=
  let k := s.ckpJob j
  match k.cut with
  | none => s
  | some c =>
    let now := s.shardMem i d
    let c := { c with mem := c.mem ++ now }
    let old := match k.whole with | some w => w.entryOf d | none => none
    if shardChanged k c i d now then
      let mk := memKind d.kind
      let (form, s) := if mk then ([], s) else s.drawForm
      let data := if mk then now.flatMap (·.data) else form
      let e : ShardCopy :=
        { kind := d.kind, index := d.index, copy := 1 - ((old.map (·.copy)).getD 1), bytes := data.length
          written := c.step, digest := sha256 data, form := form }
      (s.setCkp j { k with cut := some { c with
        entries := c.entries ++ [e], unacked := c.unacked ++ [i] } }).writeCopy j i d e data
    else
      s.setCkp j { k with cut := some { c with entries := c.entries ++ old.toList } }

/-! ## Parts (R359, R360) -/

/-- A cut's record of one pan; `next` is the step after the recorded one. -/
def State.panPart (s : State) (p next : Nat) : CutPart :=
  let b := s.pan p
  { pan := p, next := next, epoch := b.epoch, slot := b.slot, split := b.split
    worlds := b.worlds.map (fun w => (w.decl.world, w.episode))
    lanes := s.lanes.filter (fun l => s.laneOwner l.1 = some p) }

/-- A manifest entry, of a copy at an offset of its region. -/
def entryBytes (e : ShardCopy) (copy off : Nat) : List Byte :=
  toLe 1 e.kind ++ toLe 1 copy ++ toLe 2 e.index ++ toLe 4 0 ++ toLe 8 off ++ toLe 8 e.bytes ++ toLe 8 e.written
    ++ fitTo 32 e.digest

/-- The declaration of the shard that an entry describes. -/
def shardOf (d : JobDecl) (e : ShardCopy) : ShardDecl :=
  (d.shards.find? (fun x => x.kind = e.kind ∧ x.index = e.index)).getD { kind := e.kind, index := e.index }

/-- Offset of a shard in the flash region, in one of the two durable checkpoints (R369). -/
def flashOff (d : JobDecl) (x : ShardDecl) (k : Nat) : Nat := k * d.durableBytes + x.copyAt.1

/-- The manifest entries of a cut: of its copies in the home and buddy regions, or in flash. -/
def manifestEntries (d : JobDecl) (c : Cut) (kind : Nat) : List Byte :=
  c.entries.flatMap (fun e =>
    if kind = 0 then entryBytes e e.copy (ofTwo (shardOf d e).copyAt e.copy)
    else entryBytes e c.durable (flashOff d (shardOf d e) c.durable))

/-- The manifest of a cut (R363): kind 0 BUDDY, 1 DURABLE. -/
def State.manifest (s : State) (j : Nat) (c : Cut) (kind : Nat) : List Byte :=
  let b := s.job j
  let m := toLe 4 0x4E414D43 ++ toLe 2 1 ++ toLe 2 c.entries.length ++ toLe 8 c.step ++ toLe 8 c.time ++ toLe 2 s.device
    ++ toLe 2 b.rank ++ toLe 1 j ++ toLe 1 kind ++ toLe 2 (s.getF R.AON_BOOTCNT_BOOT (lDie 16)) ++ toLe 4 b.gen
    ++ toLe 4 (b2n c.full) ++ fitTo 32 s.hcx.bsDigest ++ fitTo 56 [] ++ manifestEntries (s.jobDecl j) c kind
  let d := sha384 m
  m ++ fitTo 96 (P384.sign signScalar (Config.ecdsaNonce d) d)

/-- The manifest follows every shard of the cut, to the place that the manifest of the last whole cut does not have. -/
def State.writeManifest (s : State) (j : Nat) : State :=
  let k := s.ckpJob j
  match k.cut with
  | none => s
  | some c =>
    let c := { c with place := 1 - ((k.whole.map (·.place)).getD 1) }
    let m := s.manifest j c 0
    (s.setCkp j { k with cut := some { c with manifest := m } }).toRegions j (ofTwo (s.jobDecl j).manifestAt c.place) m

/-- A durable write falls due with a cut that has become whole (R368, R369). -/
def State.durableDue (s : State) (j : Nat) (c : Cut) : State :=
  let k := s.ckpJob j
  let n := s.getF R.CKP_JCFG_DURABLE_K (lKeepI j)
  if !(k.durableDue || (n != 0 && k.wholeCount % n == 0)) then s
  else if k.durableBusy.isSome then s.bump R.CKP_JCNT_DURSKIP (lKeepI j)
  else s.setCkp j { k with
    durableBusy := some c, durableRun := k.durableCmds, durableCmds := [], durableDue := false }

/-- The last taken cut becomes whole. -/
def State.makeWhole (s : State) (j : Nat) : State :=
  let k := s.ckpJob j
  match k.cut with
  | none => s
  | some c =>
    let s := s.setCkp j { k with whole := some c, cut := none, wholeCount := k.wholeCount + 1, prot := [] }
    (s.setF R.CKP_JWHOLE_LASTWHOLE (lKeepI j) c.step).durableDue j c

/-- Copies may leave the package: in the clear, or under a key. -/
def State.canSeal (s : State) (j : Nat) : Bool := !s.getB R.EPC_POLICY_ENCRYPT lKeep || (s.jobKey j).isSome

/-- All parts of a cut are taken: its manifest follows, and a single-device job's cut is whole (R367). -/
def State.settleCut (s : State) (j : Nat) : State :=
  if !(s.ckpJob j).partsDue.isEmpty then s
  else
    let s := s.writeManifest j
    if s.alone j ∧ s.canSeal j then
      (s.modCkp j (fun k => { k with cut := k.cut.map (fun c => { c with unacked := [] }) })).makeWhole j
    else s

/-- Takes the part of a pan. -/
def State.takePart (s : State) (j p next : Nat) (anchor : Bool) : State :=
  let k := s.ckpJob j
  match k.cut with
  | none => s
  | some c =>
    let c := { c with parts := c.parts ++ [s.panPart p next] }
    let s := s.setCkp j { k with cut := some c, partsDue := k.partsDue.filter (fun x => x ≠ p) }
    let s := forEach (s.jobDecl j).shards.zipIdx s (fun s (d : ShardDecl × Nat) =>
      if inPart d.1 p anchor then s.captureShard j d.2 d.1 else s)
    s.settleCut j

/-- A new cut at the boundary of anchor step `n`. -/
def State.takeCut (s : State) (j p n : Nat) : State :=
  let k := s.ckpJob j
  let others := (s.jobPans j).filter (fun x => x ≠ p)
  let c : Cut :=
    { step := n, time := s.time, seed := (s.job j).seed, full := k.fullNext
      config := (s.job j).content
      sets := s.epc.sets.filter (fun w => w.2.job = j), rings := s.rings.filter (fun r => r.2.job = j) }
  let s := s.setCkp j { k with
    cut := some c, firstBarrier := false, fullNext := false, mismatches := [], prot := [], partsDue := others }
  let s := (s.setF R.CKP_JCUT_LASTCUT (lKeepI j) n).takePart j p (n + 1) true
  let s := s.modCkp j (fun k => { k with configChanged := false })
  forEach (others.filter (fun x => (s.pan x).st = .fenced)) s (fun s x => s.takePart j x (s.pan x).step false)

/-- Action 5 at the boundary of a pan's step `n`. -/
def State.cutAtBoundary (s : State) (p n : Nat) : State :=
  let j := (s.pan p).job
  if !s.cutsOn j then s
  else if (s.jobDecl j).anchor = some p then
    match (s.pan p).cutVote with
    | none => s
    | some v =>
      if v then (s.makeWhole j).takeCut j p n
      else if (s.ckpJob j).firstBarrier then s.takeCut j p n
      else s.bump R.CKP_JCNT_SKIPPED (lKeepI j)
  else if (s.ckpJob j).partsDue.contains p then s.takePart j p (n + 1) false
  else s

/-! ## Going back to a cut (R372) -/

/-- The bricks whose grains run DEV worlds of a pan. -/
def Pan.worldBricks (p : Pan) : List (Nat × Nat) :=
  p.cfg.bricks.filter (fun x => p.worlds.any (fun w => w.decl.die = x.1 ∧ w.decl.brick = x.2))

/-- Free values for `n` registers from number `i`. -/
def drawRegs (i : Nat) : Nat → State → AMap Word × State
  | 0, s => ([], s)
  | n + 1, s =>
    let (v, s) := s.draw 32
    let (m, s) := drawRegs (i + 1) n s
    ((i, BitVec.ofNat 32 v) :: m, s)

/-- Registers and local memory of a WORLD grain hold undefined values at the first entry after a restore. -/
def State.blurGrain (s : State) (die b g : Nat) : State :=
  let (x, s) := drawRegs 1 31 s
  let (f, s) := drawRegs 0 32 s
  let (m, s) := s.drawBytes 0x2000
  let (c, s) := s.draw 48
  (s.wrBrick die b (localBase g) m).modGrain die b g (fun y =>
    { y with x := x, f := f, fflags := BitVec.ofNat 5 c, frm := BitVec.ofNat 3 (c / 32), slfmt := slfmtClamp (c / 256) })

/-- The tile store outside the state images too; the kernel area stays. -/
def State.blurBrick (s : State) (die b : Nat) : State :=
  let l := lBrick die b
  let base := s.getF R.BRK_KAREA_BASE l
  let kernel := s.rdBrick die b base (s.getF R.BRK_KAREA_SIZE l)
  let (m, s) := s.drawBytes 0x200000
  let s := (s.wrBrick die b 0 m).wrBrick die b base kernel
  forEach (List.range 512) s (fun s g => if (s.grain die b g).role = 1 then s.blurGrain die b g else s)

/-- Sequences of a pan return to FREE (R139). -/
def State.forgetSeqs (s : State) (p : Nat) : State :=
  let l := s.panSeqs p
  let old := l.filter (fun i => !(s.seq i).live)
  let s := forEach old (s.endSeqs p) (fun s i => s.modSeq i (fun q => { q with gen := (q.gen + 1) % 2 ^ 32 }))
  forEach l s (fun s i => s.modSeq i (fun q => { q with st := .free }))

/-- A pan is fenced at once, its operations and sequences dropped. -/
def State.haltPan (s : State) (p : Nat) : State :=
  let s := (((s.quietPan p).forgetSeqs p).endMoves p).unwait p
  let s := (s.panTo p .fenced).panMode p 1
  s.modPan p (fun b => { b with worlds := b.worlds.map (fun w => { w with seq := none, done := false, trunc := false }) })

/-- HOLDERS of an epoch after a restore: the pans whose current slot holds it. -/
def State.countHolders (s : State) (ws : Nat) (w : WSet) (e : Nat) : Nat :=
  if w.decl.kind = 1 then (if w.slot0 = e then s.baseHolders ws w else 0)
  else (s.sch.pans.filter (fun p => p.2.st ≠ .free ∧ p.2.cfg.ws = ws ∧ p.2.epoch = e)).length

/-- An entry of a number that was issued after the cut: what has been CONFIRMED since is RETIRED, as nothing holds it any
more; a DRAFT or PROVISIONAL epoch is still to be RETRACTED (R182). -/
def EpochEntry.rolledBack (t : EpochEntry) : EpochEntry :=
  { t with st := if t.st = .confirmed then .retired else t.st, holders := 0, records := 0, remote := [] }

/-- The table of a cut, with the entries of numbers issued since at places that the cut has free. -/
def WSet.restoredTable (w : WSet) (live : AMap EpochEntry) : AMap EpochEntry :=
  (live.filter (fun t => w.next ≤ t.2.epoch ∧ t.2.st ≠ .free)).foldl (fun m t =>
    let old := mgetD m t.1 {}
    if old.st = .free ∨ old.st = .retired then mput m t.1 t.2.rolledBack else m)
    (w.table.map (fun t => (t.1, { t.2 with remote := [] })))

/-- A weight set as the cut recorded it, with no number issued twice: `newest` holds what other surviving devices report
(R180, R193). -/
def State.restoreSet (s : State) (newest : List (Nat × Nat)) (ws : Nat) (w : WSet) : State :=
  let live := s.wset ws
  let s := match live, s.epc.img with
    | some v, some i => if i.ws = ws then s.failImage v i 8 else s
    | _, _ => s
  let next := (newest.filter (fun n => n.1 = ws)).foldl (fun m n => max m (n.2 + 1))
    (max w.next ((live.map (·.next)).getD 1))
  s.setWset ws { w with
    table := w.restoredTable ((live.map (·.table)).getD [])
    decl := (live.map (·.decl)).getD w.decl
    next := next, writer := none, check := none, snaps := 0, changes := [] }

/-- Epochs that stand as DRAFT or PROVISIONAL become RETRACTED with cause 7h. -/
def State.retractDrafts (s : State) (ws : Nat) : State :=
  match s.wset ws with
  | none => s
  | some w => forEach w.unfinished s (fun s e => s.retractEpoch ws e 7)

/-- A ring as the cut recorded it; blocks recorded as WRITING become DEAD. -/
def State.restoreRing (s : State) (r : Nat) (g : RingSt) : State :=
  let g := { g with decl := ((s.ring r).map (·.decl)).getD g.decl }
  forEach (List.range g.decl.stripes.length) (s.setRing r g) (fun s i => s.killOpen r i)

/-- Epoch and slot on which a pan resumes: the recorded ones, or the keep slot when the cut has the epoch as DRAFT or
PROVISIONAL (R193). -/
def CutPart.resumeOn (c : CutPart) (w : Option WSet) : Nat × Nat :=
  match w with
  | some v =>
    if v.stateOf c.epoch = EpochRun.draft ∨ v.stateOf c.epoch = EpochRun.provisional then (v.lastConf, v.keep)
    else (c.epoch, c.slot)
  | none => (c.epoch, c.slot)

/-- A DEV world's episode count as recorded; its reset entry does not run. -/
def CutPart.devWorld (c : CutPart) (w : DevWorld) : DevWorld :=
  { w with
    episode := ((c.worlds.find? (fun x => x.1 = w.decl.world)).map (·.2)).getD w.episode
    fresh := false }

/-- A pan's part: step, slot or keep slot, slice rows, episode counts, lanes. -/
def State.restorePart (s : State) (sets : AMap WSet) (c : CutPart) : State :=
  let b := s.pan c.pan
  let r := c.resumeOn (mget sets b.cfg.ws)
  let s := s.modPan c.pan (fun b => { b with
    step := c.next, epoch := r.1, slot := r.2, split := c.split, worlds := b.worlds.map c.devWorld })
  let s := s.setF R.SCH_SPLIT_ROWS (s.panLoc c.pan) c.split
  let rest := s.lanes.filter (fun l => s.laneOwner l.1 ≠ some c.pan)
  { s with lanes := c.lanes.foldl (fun m (l : Nat × Nat) => mset m l.1 0 l.2) rest }

/-- Recounts HOLDERS of a weight set, and tells the other devices. -/
def State.recount (s : State) (ws : Nat) : State :=
  let s := s.modWset ws (fun w => { w with
    table := w.table.map (fun t => (t.1, { t.2 with holders := s.countHolders ws w t.2.epoch })) })
  match s.wset ws with
  | none => s
  | some w =>
    forEach ((w.table.map (·.2)).filter (fun t => t.st ≠ .free ∧ t.st ≠ .retired)) s (fun s t =>
      (s.reportEpoch ws t.epoch).retireIfDone ws t.epoch)

/-- Everything a restore puts back on this device. `newest` is as in `restoreSet`. -/
def State.restoreCut (s : State) (j : Nat) (c : Cut) (newest : List (Nat × Nat)) : State :=
  let ps := s.jobPans j
  let s := forEach ps s State.haltPan
  let s := s.holdWorlds (fun w => decide (w.job = j))
  let s := forEach ps s (fun s p => forEach (s.pan p).worldBricks s (fun s (x : Nat × Nat) => s.blurBrick x.1 x.2))
  let s := forEach c.mem s (fun s (m : ShardMem) => s.wrTier m.space m.off m.data)
  let s := forEach c.sets s (fun s (w : Nat × WSet) => s.restoreSet newest w.1 w.2)
  let s := forEach c.rings s (fun s (r : Nat × RingSt) => s.restoreRing r.1 r.2)
  let s := forEach c.sets s (fun s (w : Nat × WSet) => s.retractDrafts w.1)
  let s := forEach c.parts s (fun s p => s.restorePart c.sets p)
  forEach c.sets s (fun s (w : Nat × WSet) => s.recount w.1)

/-- The job enters RESTORING: JOBGEN advances, its other commands go on. -/
def State.enterRestore (s : State) (j : Nat) : State := (s.jobTo j .restoring).nextJobGen j

/-- The spare's adoption is over, and SPARE_ADOPT completes (R371). -/
def State.endAdoption (s : State) (j status : Nat) : State :=
  match s.ckp.adopting with
  | none => s
  | some a =>
    if a.own ≠ some j then s
    else
      let s := { s with ckp := { s.ckp with adopting := none } }
      (s.setF R.CKP_STATE_ADOPT_MS lKeep ((s.time - a.started) / 1000000)).finishRef a.cmd status 0 0

/-- Restore complete: every pan runs the step after its recorded one. -/
def State.resumeJob (s : State) (j : Nat) : State :=
  let s := s.jobTo j .running
  forEach (s.jobPans j) s State.startPan

end Sys2Proof.Machine
end

