-- ==== Sys2Proof/Machine/Sections.lean ====
section
/-!
DEFINITION. Writing an image's sections to their units with their clamps (R377, R380, R383, R322), WO1 writes and
locks (R382, R384), and the application of a resize (R352).
-/

namespace Sys2Proof.Machine

/-! ## Clamps (R380) -/

/-- A clamped field of an image: section kind, written and effective value. -/
structure Clamp where
  kind : Nat
  written : Nat
  eff : Nat
deriving DecidableEq, Repr

def clampOf (kind w e : Nat) : List Clamp := if w = e then [] else [{ kind, written := w, eff := e }]

/-- Audits the clamps of a load. Offsets inside entries stand in the image's listing: free values. -/
def State.auditClamps (s : State) (o : Origin) (job pan : Nat) (l : List Clamp) : State :=
  forEach l s (fun s (c : Clamp) =>
    let (off, s) := s.draw 56
    s.auditLoadClamp o job pan c.kind off c.written c.eff)

def clampStream (d : StreamDecl) : StreamDecl × List Clamp :=
  let n := clampN 1 (if d.perRow then 8192 else 64) d.depth
  ({ d with depth := n }, clampOf 4 d.depth n)

/-- Segments and their length in range, and their product at most 1,048,576 (R218). -/
def clampDraw (d : DrawDecl) : DrawDecl × List Clamp :=
  let n := clampN 1 4096 d.n
  let l := min (clampN 1 65536 d.len) (1048576 / n)
  ({ d with n := n, len := l }, clampOf 3 d.n n ++ clampOf 3 d.len l)

def clampStation (d : StationDecl) : StationDecl × List Clamp :=
  let p := min d.priority 3
  let v := min d.vstage 7
  let w := d.draw.map clampDraw
  ({ d with priority := p, vstage := v, draw := w.map (·.1) },
    clampOf 3 d.priority p ++ clampOf 3 d.vstage v ++ ((w.map (·.2)).getD []))

/-- The next lower multiple of 64. -/
def down64 (n : Nat) : Nat := n / 64 * 64

/-- A window with 64-byte aligned base and limit (R35). DESIGN CHOICE (log 109): the nearest lower multiples. -/
def alignWin (w : WinDecl) : WinDecl := { w with base := down64 w.base, limit := down64 w.limit }

def winClamps (w : WinDecl) : List Clamp := clampOf 2 w.base (down64 w.base) ++ clampOf 2 w.limit (down64 w.limit)

/-- A brick's windows and its kernel area in range: BASE aligned, at most 262,144 bytes (R35, R55). -/
def clampBrick (d : BrickDecl) : BrickDecl × List Clamp :=
  ({ d with
      kbase := down64 d.kbase, kernel := d.kernel.take 262144
      grains := d.grains.map (fun g => { g with win0 := alignWin g.win0, win1 := alignWin g.win1 }) },
    clampOf 2 d.kbase (down64 d.kbase) ++ clampOf 2 d.kernel.length (min d.kernel.length 262144)
      ++ d.grains.flatMap (fun g => winClamps g.win0 ++ winClamps g.win1))

def clampWs (d : WsDecl) : WsDecl × List Clamp :=
  let n := clampN 6 16 d.log2ent
  let r := clampN 1 128 d.rank
  ({ d with log2ent := n, rank := r }, clampOf 1 d.log2ent n ++ (if d.kind = 2 then clampOf 1 d.rank r else []))

def clampRing (d : RingDecl) : RingDecl × List Clamp :=
  let n := clampN 10 32 d.log2cap
  ({ d with log2cap := n, stripes := d.stripes.map (fun x => { x with stride := clampN 1 256 x.stride }) },
    clampOf 1 d.log2cap n ++ d.stripes.flatMap (fun x => clampOf 1 x.stride (clampN 1 256 x.stride)))

/-- An integer field held between two integers. -/
def clampI (lo hi v : Int) : Int := if v < lo then lo else if hi < v then hi else v

/-- A vector of ACTBYTES bytes. -/
def clampVec (n : Nat) (v : List Byte) : List Byte × List Clamp := (fitTo n v, clampOf 8 v.length n)

/-- A world schedule in range: PERIOD, PHASE, DEADLINE, OBS_CLOSE, OBS_OPEN, then the rest in order (R322). -/
def clampWorld (d : WorldSched) : WorldSched × List Clamp :=
  let p := clampN 50000 1000000000 d.period
  let ph := min d.phase (p - 1)
  let dl := clampN 10000 (p - 1000) d.deadline
  let half : Int := ((p / 2 : Nat) : Int)
  let cl := clampI (1 - half) ((dl : Int) - 10000) d.obsClose
  let op := clampI (-half) (cl - 1) d.obsOpen
  let age := min d.age 255
  let fb := if d.fallback ≤ 2 then d.fallback else 0
  let act := clampN 64 4096 d.actBytes
  let table := d.table.map (clampVec act)
  let rest := clampVec act d.rest
  let ramp := clampN 1 4096 d.ramp
  let fmt := if d.actFmt = 0 ∨ d.actFmt = 1 ∨ d.actFmt = 12 then d.actFmt else 0
  let obs := clampN 64 1048576 d.obsBytes
  let port := min d.port 7
  let pcp := min d.pcp 7
  ({ d with
      period := p, phase := ph, deadline := dl, obsClose := cl, obsOpen := op, age := age, fallback := fb
      table := table.map (·.1), rest := rest.1, ramp := ramp, actFmt := fmt, obsBytes := obs, actBytes := act
      port := port, pcp := pcp },
    clampOf 8 d.period p ++ clampOf 8 d.phase ph ++ clampOf 8 d.deadline dl
      ++ clampOf 8 (uInt 64 d.obsClose) (uInt 64 cl) ++ clampOf 8 (uInt 64 d.obsOpen) (uInt 64 op)
      ++ clampOf 8 d.age age ++ clampOf 8 d.fallback fb ++ table.flatMap (·.2) ++ rest.2
      ++ clampOf 8 d.ramp ramp ++ clampOf 8 d.actFmt fmt ++ clampOf 8 d.obsBytes obs
      ++ clampOf 8 d.actBytes act ++ clampOf 8 d.port port ++ clampOf 8 d.pcp pcp)

/-- A pan's streams and stations in range. -/
def clampPan (d : PanDecl) : PanDecl × List Clamp :=
  let st := d.streams.map clampStream
  let sn := d.stations.map clampStation
  ({ d with streams := st.map (·.1), stations := sn.map (·.1) }, sn.flatMap (·.2) ++ st.flatMap (·.2))

/-- A job's weight sets and rings in range. -/
def clampJob (d : JobDecl) : JobDecl × List Clamp :=
  let w := d.weightSets.map clampWs
  let r := d.rings.map clampRing
  ({ d with weightSets := w.map (·.1), rings := r.map (·.1) }, w.flatMap (·.2) ++ r.flatMap (·.2))

/-- The content of an image with every value in range, and the clamps made. -/
def clampContent (c : Content) : Content × List Clamp :=
  let js := c.jobs.map clampJob
  let ps := c.pans.map clampPan
  let bs := c.bricks.map clampBrick
  let ws := c.scheds.map clampWorld
  let vw := c.vcWeights.map (fun l => l.map (clampN 1 255))
  ({ c with jobs := js.map (·.1), pans := ps.map (·.1), bricks := bs.map (·.1), scheds := ws.map (·.1), vcWeights := vw },
    js.flatMap (·.2) ++ bs.flatMap (·.2) ++ ps.flatMap (·.2)
      ++ (match c.vcWeights with | some l => l.flatMap (fun x => clampOf 6 x (clampN 1 255 x)) | none => [])
      ++ ws.flatMap (·.2))

/-! ## Jobs (sections 1 and 8) -/

/-- Link class of the first routing alternative towards a device. -/
def State.classTo (s : State) (dest : Nat) : Nat :=
  let e := (s.route 18 dest false).toNat
  s.getF R.FAB_PSTAT_LCLASS (fabLoc (bits e 4 0))

/-- A group whose traffic meets a worse class than the cut map expects (R310). -/
def State.slowGroup (s : State) (g : GroupDecl) : Bool :=
  g.devices.any (fun d => d ≠ s.device ∧ g.expectClass < s.classTo d)

/-- Declares the weight sets of a job; one already declared keeps its epochs, a new one has a table of FREE entries. -/
def State.loadSets (s : State) (j : Nat) (l : List WsDecl) : State :=
  forEach l s (fun s (d : WsDecl) =>
    match (s.wset d.ws).filter (fun w => w.job = j) with
    | some w => s.setWset d.ws { w with decl := d }
    | none => (s.zeroTier 1 d.tableBase (16 * 2 ^ d.log2ent)).setWset d.ws { decl := d, job := j })

def State.loadRings (s : State) (j : Nat) (l : List RingDecl) : State :=
  forEach l s (fun s (d : RingDecl) =>
    match s.ring d.ring with
    | some g => if g.job = j then s.setRing d.ring { g with decl := d } else s
    | none =>
      let g : RingSt := { decl := d, job := j }
      let words := if d.tier = 3 then sumBy (List.range d.stripes.length) g.share else 0
      let s := if d.host.isSome then s
        else ((s.zeroTier 1 d.mapBase (16 * sumBy d.stripes stripeBlocks)).zeroTier 1 d.indexBase
          (16 * sumBy d.stripes (·.cap))).zeroTier 1 d.stateBase (8 * words)
      (s.resetRingRegs d.ring).setRing d.ring g)

/-- Declares the groups of a job; CUT_LINK_SLOW names the slow ones. -/
def State.loadGroups (s : State) (j : Nat) (l : List GroupDecl) : State :=
  forEach l s (fun s (d : GroupDecl) =>
    let g : GroupSt := { decl := d, job := j, devices := d.devices, rank := d.devices.idxOf s.device }
    let s := { s with col := { s.col with groups := mput s.col.groups d.group g } }
    if s.slowGroup d then s.alarm Kind.cutLinkSlow j (alarmKey s.device d.group) else s)

/-- A job's part of section 1. -/
def State.loadJob (s : State) (d : JobDecl) : State :=
  let j := d.job
  let slow := (d.groups.filter s.slowGroup).length
  let s := s.modJob j (fun b => { b with decl := some d, rank := d.rank, cutSlow := min slow 65535 })
  ((s.loadSets j d.weightSets).loadRings j d.rings).loadGroups j d.groups

def State.loadScheds (s : State) (l : List WorldSched) : State :=
  { s with wpt := { s.wpt with
      scheds := l.foldl (fun m (d : WorldSched) => mput m (d.job * 65536 + d.sched) d) s.wpt.scheds } }

def State.loadGates (s : State) (l : List GateDecl) : State :=
  forEach l s (fun s (g : GateDecl) =>
    let s := { s with wpt := { s.wpt with gates := mput s.wpt.gates g.port g } }
    (s.setB R.WPT_PSTAT_JUMBO (portLoc g.port) g.jumbo).setF R.WPT_PSTAT_GCLEN (portLoc g.port)
      (min g.entries 255))

/-! ## Device-wide sections (6, 7, 9, 10) -/

def vcFlds : List Fld := [R.ROUTE_VCW_W1, R.ROUTE_VCW_W2, R.ROUTE_VCW_W3, R.ROUTE_VCW_W4, R.ROUTE_VCW_W5, R.ROUTE_VCW_W6]

def State.loadWeights (s : State) (l : List Nat) : State :=
  forEach (vcFlds.zip l) s (fun s (p : Fld × Nat) => (s.setF p.1 (lDie 18) p.2).setF p.1 (lDie 19) p.2)

/-- Tier policies: range declarations, audit extension, trace rings. -/
def State.loadTiers (s : State) (d : TierDecl) : State :=
  let s := { s with
    tier := { s.tier with policy := d }
    obsv := { s.obsv with traceCfg := d.trace.foldl (fun m (t : Nat × Nat × Nat) => mput m t.1 t.2) s.obsv.traceCfg } }
  let s := forEach (List.range 16) s (fun s die => s.setF R.HBM_DIMAP_RANGES (lDie die) d.hbmInterleaved)
  s.setF R.AUDIT_SIZE_RECORDS (lDie 16) (262144 + min d.auditMib 4096 * 16384)

/-- The first write of a WO1 field since reset takes effect and is audited; one that finds its value in force
does nothing (R382, R380). -/
def State.wo1Load (s : State) (o : Origin) (f : Fld) (l : Loc) (v : Nat) : State :=
  let k := f.key l
  if s.wo1.contains k then s
  else
    let old := s.getF f l * 2 ^ f.lsb
    let s := s.audit1 (originDie o 16) (s.mkRec 0x01 o (addr := k / 64) (written := v * 2 ^ f.lsb) (old := old)
      (eff := v * 2 ^ f.lsb))
    { s.setF f l v with wo1 := k :: s.wo1 }

/-- The security section's WO1 fields with their homes. -/
def secWrites (d : SecDecl) : List (Fld × Loc × Nat) :=
  (match d.encrypt with | some b => [(R.EPC_POLICY_ENCRYPT, lKeep, b2n b)] | none => [])
    ++ (match d.signed with
      | some b => [(R.SEC_POLICY_SIGNED, lDie 16, b2n b), (R.SEC_POLICY_SIGNED, lDie 17, b2n b)]
      | none => [])
    ++ (match d.testEnable with
      | some b => (List.range 20).map (fun x => (R.TST_MODE_ENABLE, lDie x, b2n b))
      | none => [])

/-- The lowest key slot not in use. -/
def State.freeKey (s : State) : Option Nat :=
  lowest 256 (fun i => !s.keys.any (fun k => k.slot = i))

/-- A key enters a slot; the record names slot, identity and KIND (R389). -/
def State.addKey (s : State) (o : Origin) (k : KeySlot) : State :=
  match s.freeKey with
  | none => s
  | some i =>
    let s := s.audit1 (originDie o 16) (s.mkRec 0x0A o (job := if k.kind = 1 then k.job else 0xFF) (addr := i)
      (written := leNat k.identity) (eff := k.kind))
    { s with keys := s.keys ++ [{ k with slot := i }] }

def State.loadSecurity (s : State) (o : Origin) (d : SecDecl) : State :=
  let s := forEach (secWrites d) s (fun s (w : Fld × Loc × Nat) => s.wo1Load o w.1 w.2.1 w.2.2)
  let s := { s with fab := { s.fab with managers := d.managers, spares := d.spares } }
  forEach d.rosterKeys s (fun s (k : Nat × List Byte) =>
    s.addKey o { kind := 2, identity := keyIdentity k.2, key := k.2, device := k.1 })

/-! ## Locks (R384) -/

/-- The blocks of a die (R4). -/
def dieBlocks (die : Nat) : List Nat :=
  if die < 16 then [0x00, 0x08, 0x10, 0x18, 0x20, 0x28, 0x30, 0x38, 0x40, 0x48, 0x50, 0x58, 0x60]
  else if die < 18 then
    [0x00, 0x08, 0x10, 0x18, 0x20, 0x28, 0x30, 0x38, 0x40, 0x48, 0x50, 0x58, 0x60, 0x68]
  else if die < 20 then [0x00, 0x08, 0x10, 0x18, 0x20, 0x50, 0x58]
  else []

/-- The blocks that a BLOCK value names. -/
def blocksNamed (v : Nat) : List (Nat × Nat) :=
  if bit v 31 then (List.range 20).flatMap (fun d => (dieBlocks d).map (fun b => (d, b)))
  else if (dieBlocks (bits v 12 8)).contains (bits v 7 0) then [(bits v 12 8, bits v 7 0)]
  else []

/-- Locks one block: the number of newly locked blocks. -/
def State.lockOne (s : State) (o : Origin) (d b : Nat) : State :=
  let l := lKeepI (d / 4)
  let s := s.audit1 (originDie o 16) (s.mkRec 0x0B o (addr := d * 256 + b) (eff := 1))
  s.setF R.CFG_LOCK_LOCKS l (s.getF R.CFG_LOCK_LOCKS l ||| 2 ^ (16 * (d % 4) + b / 8))

/-- The blocks named that are not yet locked. -/
def State.newLocks (s : State) (v : Nat) : List (Nat × Nat) :=
  (blocksNamed v).filter (fun x => !s.lockedBlk x.1 x.2)

def State.lockBlocks (s : State) (o : Origin) (v : Nat) : State :=
  forEach (s.newLocks v) s (fun s (x : Nat × Nat) => s.lockOne o x.1 x.2)

/-! ## Resizing at a boundary (R352) -/

/-- The origin of a command. -/
def cmdOrigin (r : CmdRef) : Origin := .queue r.pair

/-- The sections of a per-pan image that do not belong to bricks. -/
def State.loadPanSections (s : State) (c : Content) : State :=
  ((forEach c.jobs s State.loadJob).loadScheds c.scheds).loadGates c.gates

/-- What a job's loads have placed, after another load: its pans and their bricks replaced, the rest added. -/
def mergeContent (j : Nat) (old new : Content) : Content :=
  let ps := new.pans.filter (fun d => d.job = j)
  let bs := ps.flatMap (·.bricks)
  let gone := (old.pans.filter (fun d => ps.any (fun x => x.pan = d.pan))).flatMap (·.bricks)
  let ss := new.scheds.filter (fun d => d.job = j)
  { jobs := if new.jobs.any (fun d => d.job = j) then new.jobs.filter (fun d => d.job = j) else old.jobs
    pans := old.pans.filter (fun d => !ps.any (fun x => x.pan = d.pan)) ++ ps
    bricks := old.bricks.filter (fun d => !gone.contains (d.die, d.brick))
      ++ new.bricks.filter (fun d => bs.contains (d.die, d.brick))
    scheds := old.scheds.filter (fun d => !ss.any (fun x => x.sched = d.sched)) ++ ss }

/-- Records a load in the job's content. -/
def State.keepContent (s : State) (j : Nat) (c : Content) : State :=
  s.modJob j (fun b => { b with content := mergeContent j b.content c })

/-- Action 6 of R20, or at once for a FENCED pan: the new image replaces the old one and the command completes. -/
def State.resizeNow (s : State) (p : Nat) : State :=
  match (s.pan p).resize with
  | none => s
  | some (r, c) =>
    match c.pans.find? (fun d => d.pan = p) with
    | none => s
    | some d =>
      let s := (s.applyResize (cmdOrigin r) p d c.bricks).loadPanSections c
      ((s.keepContent d.job c).modCkp d.job (fun k => { k with configChanged := true })).finishRef r Status.ok 0 0

end Sys2Proof.Machine
end

