-- ==== Sys2Proof/Machine/Rings.lean ====
section
/-!
DEFINITION. Whistle rings and cells: their layout, the fold of results, and the issue of whistle operations
(R293 to R301, R304, R306).
-/

namespace Sys2Proof.Machine

/-! ## Cells (R295, R298) -/

def cellFlags (c : Cell) : Nat :=
  b2n c.rep + 2 * b2n c.edge + 4 * b2n c.down + 8 * b2n c.empty + 16 * b2n c.fb

/-- The 40 bytes before the CRC. -/
def cellBody (c : Cell) : List Byte :=
  toLe 1 c.type ++ toLe 1 (c.pos + 64 * c.level) ++ toLe 2 c.opnum ++ toLe 1 c.wgroup ++ toLe 1 c.opc
    ++ toLe 1 (cellFlags c) ++ toLe 1 c.term ++ fitTo 32 c.payload

def cellBytes (c : Cell) : List Byte := cellBody c ++ toLe 4 (crc32 (cellBody c)).toNat

def readCell (l : List Byte) : Cell :=
  let p := fieldAt l 1 1
  let f := fieldAt l 6 1
  { type := fieldAt l 0 1, pos := p % 64, level := p / 64, opnum := fieldAt l 2 2, wgroup := fieldAt l 4 1 % 64
    opc := fieldAt l 5 1, rep := bit f 0, edge := bit f 1, down := bit f 2, empty := bit f 3, fb := bit f 4
    term := fieldAt l 7 1, payload := (l.drop 8).take 32 }

def cellCrcOk (l : List Byte) : Bool := decide ((crc32 (l.take 40)).toNat = fieldAt l 40 4)

def cellTypeOk (t : Nat) : Bool := (1 ≤ t && t ≤ 5) || t == 7 || t == 8

/-- Two payloads under an OPC: [2:0] the operation, [5:3] the element type. -/
def foldPair (opc : Nat) (a b : List Byte) : List Byte :=
  let op := opc % 8
  if opc / 8 % 8 = 3 then
    (a.zip b).map (fun x => if op = 3 then x.1 &&& x.2 else x.1 ||| x.2)
  else
    let e : Elem := if opc / 8 % 8 = 0 then .fp32 else if opc / 8 % 8 = 1 then .int32 else .int64
    msRun (if op = 0 then .add else if op = 1 then .min else .max) e a b []

/-- The fold of the non-EMPTY payloads in ascending position. -/
def foldCells (opc : Nat) (cells : AMap (Option (List Byte))) : Option (List Byte) :=
  (cells.filterMap (·.2)).foldl (fun (m : Option (List Byte)) p =>
    match m with
    | none => some (fitTo 32 p)
    | some a => some (foldPair opc a (fitTo 32 p))) none

/-! ## Rings (R293, R304, R308) -/

/-- Registers of a level; the LLP block is that of FD0. -/
def lRing (level : Nat) : Loc := lIdx 18 level

namespace RingRun
def down := 0
def training := 1
def running := 2
def degraded := 3
def fallback := 4
end RingRun

def State.ringState (s : State) (level : Nat) : Nat := s.getF R.LLP_RSTAT_STATE (lRing level)
def State.ringTo (s : State) (level st : Nat) : State := s.setF R.LLP_RSTAT_STATE (lRing level) st

def posFld (level : Nat) : Fld :=
  if level = 0 then R.LLP_ID_POS0 else if level = 1 then R.LLP_ID_POS1 else R.LLP_ID_POS2

/-- This device's position in its ring of a level. -/
def State.ringPos (s : State) (level : Nat) : Nat := s.getF (posFld level) (lDie 18)

/-- Whether the device is a member of a ring of the level. -/
def State.onRing (s : State) (level : Nat) : Bool :=
  level == 0 || (level == 1 && s.getB R.LLP_ID_BRIDGE1 (lDie 18)) || (level == 2 && s.getB R.LLP_ID_BRIDGE2 (lDie 18))

def State.isMaster (s : State) (level : Nat) : Bool :=
  s.getF R.LLP_RSTAT_MASTER (lRing level) == s.ringPos level

def State.deadAt (s : State) (level pos : Nat) : Bool := bit (s.getF R.LLP_DEAD_POSITIONS (lRing level)) pos
def State.bypassedAt (s : State) (level pos : Nat) : Bool := bit (s.getF R.LLP_BYPASS_POSITIONS (lRing level)) pos

def State.wring (s : State) (level : Nat) : WRing := mgetD s.col.rings level {}
def State.setWring (s : State) (level : Nat) (w : WRing) : State :=
  { s with col := { s.col with rings := mput s.col.rings level w } }
def State.modWring (s : State) (level : Nat) (f : WRing → WRing) : State := s.setWring level (f (s.wring level))

/-- The member takes part over VC7: its ring has fallen back, or it is bypassed. -/
def State.overFabric (s : State) (level : Nat) : Bool :=
  s.ringState level == RingRun.fallback || s.bypassedAt level (s.ringPos level)

/-! ## Groups (R283, R299) -/

def State.group (s : State) (g : Nat) : Option GroupSt := mget s.col.groups g

def GroupSt.positions (g : GroupSt) (level : Nat) : List Nat := nth g.decl.maps level []
def GroupSt.top (g : GroupSt) : Nat := g.decl.maps.length - 1
def GroupSt.oneRing (g : GroupSt) : Bool := decide (g.decl.maps.length = 1)

/-- The device at a position of a ring, as the maps of the groups name it. -/
def State.ringDevice (s : State) (level pos : Nat) : Option Nat :=
  (s.col.groups.filterMap (fun g =>
    if g.2.oneRing then if level = 0 then g.2.devices[(g.2.positions 0).idxOf pos]? else none
    else (g.2.decl.ringMap.find? (fun m => m.1 = level ∧ m.2.1 = pos)).map (·.2.2))).head?

/-! ## Fallback packets (R306) -/

/-- A contribution or result travels over VC7. -/
def State.sendFb (s : State) (dev : Nat) (job : Nat) (c : Cell) : State :=
  let p : Packet := { device := dev, src := s.device, type := 0x72, vc := 7, len := 40, job := job
                      jobgen := (s.job job).gen, boot := s.bootLow, payload := cellBody c }
  (s.bump R.LLP_FB_SENT (lDie 18)).transmit 18 p

/-- This member's contribution goes to the ring's master. -/
def State.fbToMaster (s : State) (level job : Nat) (c : Cell) : State :=
  match s.ringDevice level (s.getF R.LLP_RSTAT_MASTER (lRing level)) with
  | some d => s.sendFb d job c
  | none => s

/-! ## Operations (R296) -/

def WOp.is (o : WOp) (level wgroup opnum : Nat) : Bool :=
  o.level == level && o.wgroup == wgroup && o.opnum == opnum

def State.wop (s : State) (level wgroup opnum : Nat) : Option WOp := s.col.ops.find? (fun o => o.is level wgroup opnum)

def State.modOp (s : State) (level wgroup opnum : Nat) (f : WOp → WOp) : State :=
  { s with col := { s.col with ops := s.col.ops.map (fun o => if o.is level wgroup opnum then f o else o) } }

/-- The cell of this member's contribution to an operation. -/
def State.ownCell (s : State) (o : WOp) : Cell :=
  { type := o.type, pos := s.ringPos o.level, level := o.level, opnum := o.opnum, wgroup := o.wgroup, opc := o.opc
    empty := o.own.isNone, payload := o.own.getD [] }

def cellValue (c : Cell) : Option (List Byte) := if c.empty then none else some c.payload

def WOp.addCell (o : WOp) (c : Cell) : WOp := { o with cells := mput o.cells c.pos (cellValue c) }

/-- An operation begins at this member: its contribution is queued for the ring or sent to the master, and the
cells that came before it are taken. -/
def State.startOp (s : State) (o : WOp) : State :=
  let c := s.ownCell o
  let mine (x : Nat × Cell) : Bool := x.1 == o.level && x.2.wgroup == o.wgroup && x.2.opnum == o.opnum
  let kept := (s.col.cells.filter mine).map (·.2)
  let extra := kept.filter (fun x => x.fb && s.isMaster o.level)
  let o := { kept.foldl WOp.addCell (o.addCell c) with fbFrom := extra.map (fun (x : Cell) => x.pos) }
  let s := if s.overFabric o.level then s else s.modWring o.level (fun w => { w with fb := w.fb ++ extra })
  let s := { s with col := { s.col with
    ops := s.col.ops ++ [{ o with fallback := s.overFabric o.level }], cells := s.col.cells.filter (fun x => !mine x) } }
  if !s.overFabric o.level then s.modWring o.level (fun w => { w with toSend := w.toSend ++ [c] })
  else if s.isMaster o.level then s
  else s.fbToMaster o.level o.job c

/-- A station's whistle operation takes the next OPNUM of its whistle group. -/
def State.issueOp0 (s : State) (g : GroupSt) (o : WOp) : State × Nat :=
  let n := mgetD s.col.opnums g.decl.wgroup 0
  let s := { s with col := { s.col with opnums := mput s.col.opnums g.decl.wgroup ((n + 1) % 65536) } }
  (s.startOp { o with level := 0, wgroup := g.decl.wgroup, opnum := n, group := g.decl.group, job := g.job }, n)

end Sys2Proof.Machine
end

