-- ==== Sys2Proof/Machine/Collective.lean ====
section
/-!
DEFINITION. The collective engines: chunks, ordered reductions, DONE packets, unequal all-to-all, completion and
dead members (R283 to R292).
-/

namespace Sys2Proof.Machine

/-! ## Exchanges -/

def exchKey (pan station : Nat) : Nat := pan * 65536 + station

def State.exch (s : State) (k : Nat) : Option Exch := mget s.col.exchs k
def State.setExch (s : State) (k : Nat) (x : Exch) : State :=
  { s with col := { s.col with exchs := mput s.col.exchs k x } }

/-- The die of an EXCHANGE's engine. -/
def Exch.die (x : Exch) : Nat := x.decl.stage.1

def kib64 : Nat := 65536

/-- A range of `n` bytes as chunks of 64 KiB. -/
def blockChunks (rank src dst n : Nat) : List Chunk :=
  (List.range (ceilDiv n kib64)).map (fun c =>
    { rank := rank, src := src + c * kib64, dst := dst + c * kib64, bytes := min kib64 (n - c * kib64) })

/-- Segment `r` of a vector of `n` bytes held by `d` members (R288): its offset and length. -/
def vecSegment (n d r : Nat) : Nat × Nat :=
  let u := n / 64
  let q := u / d
  let m := u % d
  (64 * (r * q + min r m), 64 * (q + if r < m then 1 else 0))

/-- Reads and writes at space * 2^44 + offset. -/
def State.rdAt (s : State) (a n : Nat) : List Byte := s.rdTier (a / 2 ^ 44) (a % 2 ^ 44) n
def State.wrAt (s : State) (a : Nat) (b : List Byte) : State := s.wrTier (a / 2 ^ 44) (a % 2 ^ 44) b

/-- The memory-side operation of a reduction. -/
def redOp (red : Nat) : MsOp := if red = 0 then .add else if red = 1 then .min else .max

/-- Memory-side operations on a run of bytes, one 32-byte vector after the other. -/
def State.reduceAt (s : State) (a : Nat) (op : MsOp) (e : Elem) (b : List Byte) : State :=
  forEach (chunks 32 (ceilDiv b.length 32) b).zipIdx s (fun s (x : List Byte × Nat) =>
    (s.msApply (a / 2 ^ 44) (a % 2 ^ 44 + 32 * x.2) op e x.1 []).2)

/-- The chunks of an operation at rank `r` of `d` (R284, R288, R289). -/
def Exch.chunks (x : Exch) : List Chunk :=
  let c := x.decl
  let d := x.devices.length
  let each (f : Nat → List Chunk) : List Chunk := (List.range d).flatMap f
  match c.op with
  | 0 => each (fun t => blockChunks t (c.src + t * c.block) (c.dst + x.rank * c.block) c.block)
  | 4 =>
    if c.tree.isSome then (blockChunks x.rank c.src (c.dst + x.rank * c.block) c.block).map (fun k => { k with tree := c.tree })
    else each (fun t => blockChunks t c.src (c.dst + x.rank * c.block) c.block)
  | 5 =>
    if x.rank ≠ c.root then []
    else if c.tree.isSome then (blockChunks x.rank c.src c.dst c.block).map (fun k => { k with tree := c.tree })
    else each (fun t => blockChunks t c.src c.dst c.block)
  | _ => each (fun t =>
    let g := vecSegment c.block d t
    let l := blockChunks t (c.src + g.1) (c.dst + g.1) g.2
    if c.ordered then l.zipIdx.map (fun k => { k.1 with dst := c.landing + (x.rank * 4 + k.2 % 4) * kib64 })
    else l.map (fun k => { k with reduce := true }))

/-- The second half of an ALL_REDUCE: this member's segment goes to every other member (R288). -/
def Exch.gather (x : Exch) : List Chunk :=
  let c := x.decl
  let d := x.devices.length
  let g := vecSegment c.block d x.rank
  let l := fun t => blockChunks t (c.dst + g.1) (c.dst + g.1) g.2
  if c.tree.isSome then (l x.rank).map (fun k => { k with tree := c.tree })
  else ((List.range d).filter (fun t => t ≠ x.rank)).flatMap l

/-! ## Ordered reduction (R289) -/

def State.landing (s : State) (k : Nat) : Landing := mgetD s.col.landings k {}
def State.setLanding (s : State) (k : Nat) (l : Landing) : State :=
  { s with col := { s.col with landings := mput s.col.landings k l } }

/-- The next rank to fold from `r` on: dead ranks have no contribution. -/
def Exch.skip (x : Exch) (r : Nat) : Nat :=
  ((List.range x.devices.length).find? (fun q => r ≤ q ∧ !x.dead.contains q)).getD x.devices.length

/-- The rank whose contribution a piece takes next. -/
def Exch.nextFold (x : Exch) (off : Nat) : Nat := x.skip (mgetD x.folded off 0)

/-- A chunk of the segment is reduced when every piece of it has taken every rank. -/
def Exch.chunkFolded (x : Exch) (off : Nat) : Bool :=
  let g := vecSegment x.decl.block x.devices.length x.rank
  let c := (off - g.1) / kib64
  (List.range (ceilDiv (min kib64 (g.2 - c * kib64)) 2048)).all (fun i =>
    x.nextFold (g.1 + c * kib64 + i * 2048) == x.devices.length)

/-- One contribution is folded: rank 0's is copied, the others are applied in ascending rank. -/
def State.foldPiece (s : State) (k : Nat) (x : Exch) (rank off : Nat) (b : List Byte) : State :=
  let a := x.decl.dst + off
  let s := if rank = x.skip 0 then s.wrAt a b else s.reduceAt a (redOp x.decl.red) x.decl.elem b
  let x := { x with folded := mput x.folded off (rank + 1) }
  let s := s.setExch k x
  if x.nextFold off = x.devices.length ∧ x.chunkFolded off then s.bump R.COL_ORDER_ORDERED (lDie x.die) else s

/-- Contributions that have landed are folded while the next rank's is among them. -/
def foldLanded (k : Nat) : Nat → State → State
  | 0, s => s
  | n + 1, s =>
    match s.exch k with
    | none => s
    | some x =>
      let l := s.landing k
      match l.waiting.find? (fun w => w.1 = x.nextFold w.2.1) with
      | none => s
      | some w =>
        let s := s.setLanding k { l with waiting := l.waiting.filter (fun y => y.1 ≠ w.1 ∨ y.2.1 ≠ w.2.1) }
        foldLanded k n (s.foldPiece k x w.1 w.2.1 w.2.2)

def State.fold (s : State) (k : Nat) : State := foldLanded k (s.landing k).waiting.length s

/-- A contribution of a rank lands at an offset of its vector. -/
def State.land (s : State) (k rank off : Nat) (b : List Byte) : State :=
  let l := s.landing k
  (s.setLanding k { l with waiting := l.waiting ++ [(rank, off, b)] }).fold k

/-- A WRITE that falls into the landing area of an EXCHANGE station is a contribution: its place in the vector
follows from how often its place in the area has been written. -/
def State.landWrite (s : State) (p : Nat) (d : StationDecl) (c : ExchDecl) (a : Nat) (b : List Byte) : State :=
  match s.group c.group with
  | none => s
  | some g =>
    let o := a - c.landing
    let k := exchKey p d.idx
    let l := s.landing k
    let h := mgetD l.hits o 0
    let s := s.setLanding k { l with hits := mput l.hits o (h + 1) }
    let seg := vecSegment c.block g.devices.length g.rank
    s.land k (o / (4 * kib64)) (seg.1 + (4 * h + o / kib64 % 4) * kib64 + o % kib64) b

/-- The ordered stations of a job whose landing area holds an address. -/
def State.landingAt (s : State) (job a : Nat) : Option (Nat × StationDecl × ExchDecl) :=
  (s.sch.pans.flatMap (fun p =>
    if p.2.job ≠ job ∨ p.2.st = .free then []
    else p.2.cfg.stations.filterMap (fun d =>
      match d.exch with
      | some c =>
        let n := (match s.group c.group with | some g => g.devices.length | none => 0)
        if c.ordered ∧ (c.op = 2 ∨ c.op = 3) ∧ c.landing ≤ a ∧ a < c.landing + n * 4 * kib64 then some (p.1, d, c)
        else none
      | none => none))).head?

/-! ## Sending (R286, R287) -/

/-- The packets of a chunk: 2,048 bytes each on VC3. -/
def State.sendChunk (s : State) (k : Nat) (x : Exch) (c : Chunk) (tag : Nat) : State :=
  let b := s.rdAt c.src c.bytes
  let (die, brick, off) := x.decl.stage
  let s := s.wrBrick die brick (off + x.sent % 4 * kib64) b
  let s := if c.tree.isSome then s.wrAt c.dst b else s
  let l := chunks 2048 (ceilDiv b.length 2048) b
  let c := { c with tag := tag }
  let e := match x.decl.elem with | .fp32 => 0 | .bf16 => 1 | .int32 => 2 | .int64 => 3
  let op := (if c.reduce then x.decl.red else 0) + 16 * e
  let s := forEach l.zipIdx s (fun s (y : List Byte × Nat) =>
    let a := c.dst + 2048 * y.2
    s.issue
      { device := match c.tree with | some t => t | none => nth x.devices c.rank 0
        space := a / 2 ^ 44, offset := a % 2 ^ 44, type := if c.reduce then 0x22 else 0x20, vc := 3
        bcast := c.tree.isSome, len := y.1.length, job := x.job, op := if c.reduce then op else 0
        jobgen := (s.job x.job).gen, payload := y.1 } (.coll k x.sent))
  (s.bump R.COL_CHUNKS_SENT (lDie x.die)).setExch k
    { x with inFlight := x.inFlight ++ [(x.sent, c, l.length)], sent := x.sent + 1 }

/-- A chunk for this member itself. -/
def State.ownChunk (s : State) (k : Nat) (x : Exch) (c : Chunk) : State :=
  let b := s.rdAt c.src c.bytes
  if c.reduce then
    (s.reduceAt c.dst (redOp x.decl.red) x.decl.elem b).bump R.COL_ORDER_ARRIVAL (lDie x.die)
  else if x.phase = 1 ∧ x.decl.ordered ∧ (x.decl.op = 2 ∨ x.decl.op = 3) then
    forEach (chunks 2048 (ceilDiv b.length 2048) b).zipIdx s (fun s (y : List Byte × Nat) =>
      s.land k x.rank (c.src - x.decl.src + 2048 * y.2) y.1)
  else s.wrAt c.dst b

/-- The next chunk goes, as a tile operation of the station (R113): one to the member itself ends at once, one to another
needs a free staging chunk. -/
def State.nextChunk (s : State) (k : Nat) (x : Exch) : State :=
  match x.todo, (s.pan x.pan).station x.station with
  | c :: rest, some d =>
    if c.rank = x.rank ∧ c.tree.isNone then
      s.chunkEntry x.die x.pan d (fun tag s =>
        ((s.setExch k { x with todo := rest }).ownChunk k x c).freeEntry x.die (tag % 4096))
    else if 4 ≤ x.inFlight.length then s
    else s.chunkEntry x.die x.pan d (fun tag s => s.sendChunk k { x with todo := rest } c tag)
  | _, _ => s

/-- Sends chunks while they may go. -/
def sendChunks (k : Nat) : Nat → State → State
  | 0, s => s
  | n + 1, s =>
    match s.exch k with
    | some x => sendChunks k n (s.nextChunk k x)
    | none => s

/-- Whether chunks to a rank are still to send or to acknowledge. -/
def Exch.owes (x : Exch) (r : Nat) : Bool :=
  x.todo.any (fun c => c.rank = r ∨ c.tree.isSome) || x.inFlight.any (fun c => c.2.1.rank = r ∨ c.2.1.tree.isSome)

def Exch.others (x : Exch) : List Nat := (List.range x.devices.length).filter (fun r => r ≠ x.rank ∧ !x.dead.contains r)

/-- Whether this member sends to others in the operation. -/
def Exch.sends (x : Exch) : Bool := x.decl.op != 5 || x.rank == x.decl.root

/-- The members that send to this one. -/
def Exch.senders (x : Exch) : List Nat :=
  if x.decl.op = 5 then x.others.filter (fun r => r = x.decl.root) else x.others

/-- A COLL packet to a rank; OP names its kind: DONE of phase 1 or 2, or 3 for a count row. -/
def State.sendColl (s : State) (x : Exch) (r kind : Nat) (b : List Byte) : State :=
  s.issue
    { device := nth x.devices r 0, offset := x.decl.group * 65536 + x.station, type := 0x30, vc := 3, len := b.length
      job := x.job, op := kind, jobgen := (s.job x.job).gen, payload := b } .other

/-- DONE goes to every member whose packets have all been acknowledged. -/
def State.sendDones (s : State) (k : Nat) : State :=
  match s.exch k with
  | none => s
  | some x =>
    if !x.sends ∨ x.phase = 0 then s
    else forEach x.others s (fun s r =>
      match s.exch k with
      | none => s
      | some x =>
        if x.owes r ∨ x.doneSent.contains (x.phase, r) then s
        else (s.setExch k { x with doneSent := x.doneSent ++ [(x.phase, r)] }).sendColl x r x.phase [])

/-! ## Completion (R287, R288, R292) -/

/-- The ordered additions of this member's segment are applied. -/
def Exch.orderedDone (x : Exch) : Bool :=
  !(x.decl.ordered && (x.decl.op == 2 || x.decl.op == 3)) ||
    (let g := vecSegment x.decl.block x.devices.length x.rank
     (List.range (ceilDiv g.2 2048)).all (fun i => x.nextFold (g.1 + i * 2048) == x.devices.length))

/-- The phase is over at this member. -/
def Exch.phaseDone (x : Exch) : Bool :=
  x.todo.isEmpty && x.inFlight.isEmpty && x.senders.all (fun r => x.doneFrom.contains (x.phase, r)) && x.orderedDone

/-- The result row of an EXCHANGE: status, then for ALL_TO_ALL_V the rows received from each source. -/
def Exch.result (x : Exch) : List Byte := toLe 4 x.status ++ x.received.flatMap (toLe 4)

/-- A station's result row of 32-bit words goes to its first output (R291, R292). -/
def State.stationResult (s : State) (pan station : Nat) (b : List Byte) : State :=
  match ((s.pan pan).station station).bind (·.outputs.head?) with
  | some o => s.give pan o (mkRow 12 (b.length / 4) 0 0 0 0 0 b)
  | none => s

/-- The EXCHANGE completes with a status. -/
def State.endExch (s : State) (k : Nat) (x : Exch) (status : Nat) : State :=
  let x := { x with status := status }
  let s := { s with col := { s.col with
    exchs := mput s.col.exchs k x, results := mput s.col.results k (status, x.result)
    landings := mdel s.col.landings k } }
  let s := s.modPan x.pan (fun p => { p with retired := (x.station, 0, 0, 0) :: p.retired })
  let s := s.stationResult x.pan x.station x.result
  if status = 2 then s.bump R.COL_ERR_PEERDEAD (lDie x.die) else s

/-- A chunk leaves its staging chunk, and its operation retires. -/
def State.chunkGone (s : State) (x : Exch) (c : Chunk) : State := s.freeEntry x.die (c.tag % 4096)

/-- Progress of an EXCHANGE: chunks, DONE packets, the gather of an ALL_REDUCE, completion. -/
def State.stepExch (s : State) (k : Nat) : State :=
  let go (s : State) : State :=
    let n := (match s.exch k with | some x => x.todo.length | none => 0)
    (sendChunks k n s).sendDones k
  match s.exch k with
  | none => s
  | some x =>
    if x.status ≠ 0 ∨ x.phase = 0 then s
    else
      let end_ (s : State) (y : Exch) : State := s.endExch k y (if y.dead.isEmpty then 1 else 2)
      let s := go s
      match s.exch k with
      | none => s
      | some x =>
        if !x.phaseDone then s
        else if x.decl.op = 2 ∧ x.phase = 1 then
          let s := go (s.setExch k { x with phase := 2, todo := x.gather })
          match s.exch k with
          | some y => if y.phaseDone then end_ s y else s
          | none => s
        else end_ s x

/-- A packet of a chunk is acknowledged. -/
def State.chunkAck (s : State) (k chunk : Nat) : State :=
  match s.exch k with
  | none => s
  | some x =>
    match x.inFlight.find? (fun c => c.1 = chunk) with
    | none => s
    | some c =>
      if 1 < c.2.2 then
        s.setExch k { x with inFlight := x.inFlight.map (fun y => if y.1 = chunk then (y.1, y.2.1, y.2.2 - 1) else y) }
      else
        let s := if c.2.1.reduce then s.bump R.COL_ORDER_ARRIVAL (lDie x.die) else s
        ((s.chunkGone x c.2.1).setExch k { x with inFlight := x.inFlight.filter (fun y => y.1 ≠ chunk) }).stepExch k

/-! ## Unequal all-to-all (R290, R291) -/

/-- Row counts as this member declares them: each at most the largest of its entry. -/
def clampCounts (w : Nat) (l : List Nat) : List Nat := l.map (fun n => min n (2 ^ w - 1))

/-- Rows of sources before `r` for destination `d`. -/
def rowsBefore (m : AMap (List Nat)) (d r : Nat) : Nat :=
  (List.range r).foldl (fun n i => n + nth (mgetD m i []) d 0) 0

/-- Rows of source `r` for destination `d` that DST has room for. -/
def rowsKept (m : AMap (List Nat)) (cap d r : Nat) : Nat :=
  min (nth (mgetD m r []) d 0) (cap - rowsBefore m d r)

/-- Imbalance of rows received per member (R314). -/
def rowsImb (m : AMap (List Nat)) (d : Nat) : Nat :=
  let l := (List.range d).map (fun t => rowsBefore m t d)
  let total := l.foldl (· + ·) 0
  if total = 0 then 1024 else 1024 * l.foldl max 0 * d / total

/-- The whole count matrix is held: the rows that fit are sent. -/
def State.countsHeld (s : State) (k : Nat) : State :=
  match s.exch k with
  | none => s
  | some x =>
    let c := x.decl
    let d := x.devices.length
    if x.phase ≠ 0 ∨ !(List.range d).all (fun r => (mget x.counts r).isSome) then s
    else
      let cap := c.dstBytes / c.rowBytes
      let start (t : Nat) : Nat := (x.own.take t).foldl (· + ·) 0
      let todo := (List.range d).flatMap (fun t =>
        blockChunks t (c.src + c.rowBytes * start t) (c.dst + c.rowBytes * rowsBefore x.counts t x.rank)
          (c.rowBytes * rowsKept x.counts cap t x.rank))
      let lost := (List.range d).foldl (fun n t => n + (nth x.own t 0 - rowsKept x.counts cap t x.rank)) 0
      let s := s.bump R.COL_ERR_TRUNCROWS (lDie x.die) lost
      let s := s.modJob x.job (fun j => { j with rowsImb := min (rowsImb x.counts d) 65535 })
      (s.setExch k { x with phase := 1, todo := todo, received := (List.range d).map (rowsKept x.counts cap x.rank) }).stepExch k

/-- A count row of a rank. -/
def State.countRow (s : State) (k rank : Nat) (row : List Nat) : State :=
  match s.exch k with
  | none => s
  | some x => (s.setExch k { x with counts := mput x.counts rank row }).countsHeld k

/-- Chunks that a rank sends to this member in the phase. -/
def Exch.chunksFrom (x : Exch) (rank : Nat) : Nat :=
  let c := x.decl
  let seg (r : Nat) : Nat := (vecSegment c.block x.devices.length r).2
  ceilDiv (if c.op = 1 then c.rowBytes * nth x.received rank 0
    else if c.op = 2 ∧ x.phase = 2 then seg rank
    else if c.op = 2 ∨ c.op = 3 then seg x.rank
    else c.block) kib64

/-- The buffer that holds an address is poisoned with cause 1h. -/
def State.poisonAt (s : State) (a : Nat) : State :=
  forEach (s.tier.buffers.filter (fun b => b.2.st = .allocated ∧ b.2.tier = a / 2 ^ 44 ∧ b.2.addr ≤ a % 2 ^ 44 ∧
      a % 2 ^ 44 < b.2.addr + b.2.bytes)) s (fun s b => s.poisonBuf b.1 1 [])

/-- A member is dead: chunks to and from it are poisoned, and the EXCHANGE goes on to complete at the survivors
with PEER_DEAD (R292). -/
def State.exchDead (s : State) (k rank : Nat) : State :=
  match s.exch k with
  | none => s
  | some x =>
    if x.status ≠ 0 ∨ x.dead.contains rank then s
    else
      let gone := x.inFlight.filter (fun c => c.2.1.rank = rank ∧ c.2.1.tree.isNone)
      let out := (x.todo.filter (fun c => c.rank = rank ∧ c.tree.isNone)).length + gone.length
      let due := if x.senders.contains rank ∧ !x.doneFrom.contains (x.phase, rank) then x.chunksFrom rank else 0
      let s := if 0 < out + due then (s.bump R.COL_ERR_POISONED (lDie x.die) (out + due)).poisonOuts x.pan x.die 1 (out + due)
        else s
      let s := if 0 < due then s.poisonAt x.decl.dst else s
      let s := forEach gone s (fun s c => s.chunkGone x c.2.1)
      let x := { x with
        dead := x.dead ++ [rank], todo := x.todo.filter (fun c => c.rank ≠ rank ∨ c.tree.isSome)
        inFlight := x.inFlight.filter (fun c => c.2.1.rank ≠ rank ∨ c.2.1.tree.isSome)
        counts := if x.phase = 0 ∧ (mget x.counts rank).isNone then mput x.counts rank [] else x.counts }
      (((s.setExch k x).fold k).countsHeld k).stepExch k

def packRow (w : Nat) (l : List Nat) : List Byte := l.flatMap (toLe (w / 8))
def unpackRow (w d : Nat) (b : List Byte) : List Nat := (List.range d).map (fun i => fieldAt b (i * (w / 8)) (w / 8))

/-! ## DONE packets and count rows in (R287) -/

/-- The EXCHANGE of a job that a group and station name. -/
def State.exchOf (s : State) (job group station : Nat) : Option Nat :=
  (s.col.exchs.find? (fun x => x.2.job = job ∧ x.2.decl.group = group ∧ x.2.station = station ∧ x.2.status = 0)).map (·.1)

/-- A COLL packet is taken. -/
def State.collIn (s : State) (p : Packet) : State :=
  let g := p.offset / 65536
  let st := p.offset % 65536
  match s.group g with
  | none => s
  | some gr =>
    let r := gr.devices.idxOf p.src
    match s.exchOf p.job g st with
    | some k =>
      match s.exch k with
      | none => s
      | some x =>
        if p.op = 3 then s.countRow k r (unpackRow x.decl.countw gr.devices.length p.payload)
        else
          ((s.bump R.COL_CHUNKS_DONE (lDie x.die)).setExch k { x with doneFrom := x.doneFrom ++ [(p.op, r)] }).stepExch k
    | none =>
      if p.op = 3 then
        let w := if gr.devices.length = 0 then 8 else 8 * (p.payload.length / gr.devices.length)
        { s with col := { s.col with
            earlyCounts := s.col.earlyCounts ++ [(p.job, g, st, r, unpackRow w gr.devices.length p.payload)] } }
      else { s with col := { s.col with early := s.col.early ++ [(p.job, g, st, p.op, r)] } }

/-! ## Starting (R285, R297) -/

/-- Operations the whistle takes: BARRIER, and ALL_REDUCE and BROADCAST of at most 32 bytes in a form of R295's cells,
which have none for BF16 elements (log 133). -/
def whistleSize (d : ExchDecl) : Bool :=
  d.op == 6 || (decide (d.block ≤ 32) && (d.op == 5 || (d.op == 2 && d.elem != .bf16)))

/-- An engine has an EXCHANGE in progress. -/
def State.engineBusy (s : State) (die engine : Nat) : Bool :=
  s.col.exchs.any (fun x => x.2.status = 0 ∧ x.2.die = die ∧ x.2.decl.engine = engine)

/-- A device that its ring's master has declared dead (R301). -/
def State.knownDead (s : State) (dev : Nat) : Bool :=
  (List.range 3).any (fun l => (List.range 64).any (fun p => s.deadAt l p && s.ringDevice l p == some dev))

/-- The EXCHANGE or BARRIER a station may start: its operation may issue, its group is its job's. -/
def State.exchStation (s : State) (pan station op : Nat) : Option (StationDecl × ExchDecl × GroupSt) :=
  let b := s.pan pan
  match b.station station with
  | none => none
  | some d =>
    match d.exch with
    | none => none
    | some c =>
      match s.group c.group with
      | none => none
      | some g => if c.op = op ∧ g.job = b.job ∧ s.mayIssue c.stage.1 pan d 0 0 then some (d, c, g) else none

/-- Members already dead when an EXCHANGE begins. -/
def State.deadMembers (s : State) (k : Nat) : State :=
  match s.exch k with
  | none => s
  | some x => forEach (x.others.filter (fun r => s.knownDead (nth x.devices r 0))) s (fun s r => s.exchDead k r)

/-- An EXCHANGE begins on the engine; what came early for it is taken. -/
def State.beginExch (s : State) (pan station : Nat) (c : ExchDecl) (g : GroupSt) (counts : Option (List Nat)) : State :=
  let k := exchKey pan station
  let mine (e : Nat × Nat × Nat × Nat × Nat) : Bool := e.1 == g.job && e.2.1 == c.group && e.2.2.1 == station
  let mineC (e : Nat × Nat × Nat × Nat × List Nat) : Bool := e.1 == g.job && e.2.1 == c.group && e.2.2.1 == station
  let x : Exch :=
    { pan := pan, station := station, decl := c, job := g.job, rank := g.rank, devices := g.devices
      step := (s.pan pan).step, doneFrom := (s.col.early.filter mine).map (fun e => (e.2.2.2.1, e.2.2.2.2)) }
  let n := (s.col.early.filter mine).length
  let rows := s.col.earlyCounts.filter mineC
  let s := (s.bump R.COL_CHUNKS_DONE (lDie x.die) n)
  let s := { s with col := { s.col with
    early := s.col.early.filter (fun e => !mine e), earlyCounts := s.col.earlyCounts.filter (fun e => !mineC e) } }
  match counts with
  | none => (((s.setExch k { x with todo := x.chunks }).fold k).stepExch k).deadMembers k
  | some l => s.setExch k { x with
      phase := 0, own := l
      counts := rows.foldl (fun m e => mput m e.2.2.2.1 e.2.2.2.2) (mput [] g.rank (clampCounts c.countw l)) }

/-- The count rows go over VC3 (R290). -/
def State.countsOverFabric (s : State) (k : Nat) : State :=
  match s.exch k with
  | none => s
  | some x =>
    let row := packRow x.decl.countw (mgetD x.counts x.rank [])
    let s := forEach x.others s (fun s r => s.sendColl x r 3 row)
    (s.bump R.COL_COUNTS_PREPHASE (lDie x.die)).countsHeld k

/-- EXCHANGEs of a pan go on: chunks that waited for an entry of the scoreboard are tried again. -/
def State.stepExchs (s : State) (pan : Nat) : State :=
  forEach (s.col.exchs.filter (fun x => x.2.pan = pan ∧ x.2.status = 0)) s (fun s x => s.stepExch x.1)

end Sys2Proof.Machine
end

