-- ==== Sys2Proof/Machine/Sched.lean ====
section
/-!
DEFINITION. Tile operations, the step boundary and its actions, step release, late boundaries and the mortar's
links (R20, R45, R113 to R134, R316 to R318).
-/

namespace Sys2Proof.Machine

/-! ## Expert placement (R313, R316 to R318) -/

/-- The entry of an expert as a load places it (R313): one replica. -/
def firstEntry (c : CutDecl) (e : Nat) : Nat × Nat × List Nat :=
  let d := max 1 c.expertDevices
  (1, e / d, [e % d])

def placeKey (job table : Nat) : Nat := job * 256 + table

/-- A placement table of a job. -/
def State.placeTab (s : State) (job table : Nat) : PlaceTab :=
  let c := (s.jobDecl job).cut
  mgetD s.sch.place (placeKey job table) { entries := (List.range c.experts).map (firstEntry c) }

/-- A copy of a placement table in HBM: the header and an entry for each expert (R316). -/
def tableBytes (version : Nat) (l : List (Nat × Nat × List Nat)) : List Byte :=
  toLe 4 version ++ toLe 2 l.length ++ List.replicate 10 0 ++ l.flatMap (fun x =>
    toLe 1 x.1 ++ [0] ++ toLe 2 x.2.1 ++ (List.range 4).flatMap (fun i => toLe 2 (nth x.2.2 i 0)) ++ toLe 4 0)

/-- A placement table changes, and with it its copies in HBM. -/
def State.setPlace (s : State) (job table : Nat) (t : PlaceTab) : State :=
  let s := { s with sch := { s.sch with place := mput s.sch.place (placeKey job table) t } }
  match (s.jobDecl job).cut.tables.find? (fun x => x.1 = table) with
  | some x => (s.wrTier 1 x.2.1 (tableBytes t.version t.entries)).wrTier 1 x.2.2 (tableBytes t.shadowVersion t.shadow)
  | none => s

/-- Whether a rank's weight set declares expert `e` at a local slot. -/
def declares (c : CutDecl) (e slot r : Nat) : Bool :=
  (decide (r < c.expertDevices) && e % max 1 c.expertDevices == r && e / max 1 c.expertDevices == slot)
    || c.replicas.contains (r, e, slot)

/-- The ranks an entry names: N of 0 reads as 1. -/
def entryRanks (x : Nat × Nat × List Nat) : List Nat := x.2.2.take (max 1 x.1)

/-- An entry that keeps the rule of R316. -/
def entryOk (c : CutDecl) (e : Nat) (x : Nat × Nat × List Nat) : Bool :=
  decide (x.1 ≤ 4) && decide ((entryRanks x).length = max 1 x.1) && (entryRanks x).all (declares c e x.2.1)

/-- The replicas of an expert: an entry that breaks the rule reads as one replica on its first rank. -/
def State.replicas (s : State) (job table e : Nat) : List Nat × Bool :=
  let c := (s.jobDecl job).cut
  let x := nth (s.placeTab job table).entries e (firstEntry c e)
  if entryOk c e x then (entryRanks x, true) else ((firstEntry c e).2.2, false)

/-- A routed row goes to replica s mod N of the committed entry (R317). -/
def State.routeRow (s : State) (job table srcRank e : Nat) : State :=
  let (rs, ok) := s.replicas job table e
  let s := if ok then s else s.modJob job (fun b => { b with placeRefused := min (b.placeRefused + 1) (2 ^ 32 - 1) })
  { s with sch := { s.sch with routed := nth rs (srcRank % max 1 rs.length) 0 } }

/-- The bit a member votes in a placement commit barrier. -/
def PlaceTab.ready (t : PlaceTab) : Bool := t.complete && t.shadowVersion == t.version + 1

/-- Action 2 for one table on which a commit barrier of the step has voted. -/
def State.placeCommit (s : State) (job table : Nat) (result : Bool) : State :=
  let t := s.placeTab job table
  if t.shadowVersion ≠ t.version + 1 then s
  else if result && t.complete then
    (s.setPlace job table { t with entries := t.shadow, version := t.shadowVersion }).modJob job (fun b =>
      { b with placeVer := t.shadowVersion, placeCommits := min (b.placeCommits + 1) (2 ^ 32 - 1) })
  else
    (s.alarm Kind.tableCommitRefused job (alarmKey s.device table)).modJob job (fun b =>
      { b with placeRefused := min (b.placeRefused + 1) (2 ^ 32 - 1) })

/-! ## Issue (R106, R114, R117) -/

/-- The work that a station of a kind issues (R106). -/
def worksAt (d : StationDecl) (w : OpWork) : Bool :=
  match w with
  | .array _ => d.kind == 2 || d.kind == 3
  | .sliver _ _ => d.kind == 4 || d.kind == 5 || d.kind == 9 || d.kind == 0xA
  | .attend _ _ | .prefixReuse _ _ _ | .tree _ _ _ _ => d.kind == 5
  | .recompute _ _ _ _ _ => d.kind == 5 && (match d.att with | some a => a.recompute | none => false)
  | .route _ _ _ => d.kind == 4 || d.kind == 0xC
  | .observe => d.kind == 0 || d.kind == 1
  | .act => d.kind == 0
  | .placement t _ _ _ => d.shadowTable == some t
  | .move _ _ _ => d.kind == 0xD

/-- Rows that a stream holds at most. -/
def streamRows (d : StreamDecl) : Nat := if d.perRow then d.depth else d.depth * 128

/-- A stream holds `n` rows of a slice for a consumer, or as many as it can hold (log 118). -/
def State.rowsThere (s : State) (pan c mb slice n i : Nat) : Bool :=
  match (s.pan pan).stream i with
  | some d => decide (min n (streamRows d) ≤ waitingOf (s.rows pan i) c mb slice)
  | none => false

/-- The next command of a station's plan for a slice on a brick, with its rows (R69). -/
def State.nextCommand (s : State) (die pan : Nat) (d : StationDecl) (mb slice b : Nat) :
    Option ((U64 × U64 × U64 × U64) × Nat) :=
  let p := s.pan pan
  (p.plan d slice)[(p.issued.filter (fun x => x = (d.idx, mb, slice, brickKey die b))).length]?

/-- Worlds of a station that have been observed in the step. -/
def Pan.observed (p : Pan) (d : StationDecl) : Nat := (p.retired.filter (fun r => r.1 = d.idx ∧ r.2.2.2 ≠ actCode)).length

/-- The next world to observe, and its row. -/
def Pan.nextObserved (p : Pan) (d : StationDecl) : Option Nat := (p.rowsOf d)[p.observed d]?

/-- A world's part of stage 1 has ended: every grain of a DEV world has; a port world's row stands at the release. -/
def State.stageEnded (s : State) (pan w : Nat) : Bool :=
  match (s.pan pan).worlds.find? (fun x => x.decl.world = w) with
  | some x => (s.worldGrains x.decl).all (fun g => (s.grain x.decl.die x.decl.brick g).ended)
  | none => true

/-- Every row that an operation needs is present (R114). -/
def State.inputsReady (s : State) (die pan : Nat) (d : StationDecl) (mb slice : Nat) (w : OpWork) : Bool :=
  let there (n : Nat) (l : List Nat) : Bool := l.all (s.rowsThere pan d.idx mb slice n)
  match w, d.att with
  | .array b, _ =>
    match s.nextCommand die pan d mb slice b with
    | none => false
    | some (t, n) =>
      bit t.2.1.toNat 25 || (match s.arrayPort die b (bits t.1.toNat 39 32) with
        | some x => s.rowsThere pan x.station mb slice n x.stream
        | none => false)
  | .sliver _ _, _ => there (ceilDiv ((s.pan pan).sliceRows d slice) (max 1 d.ops)) d.inputs
  | .attend _ n, some a => there n (a.map :: (a.qs ++ a.ks ++ a.vs))
  | .tree _ _ _ ps, some a => there ps.length (a.qs ++ a.ks ++ a.vs)
  | .recompute _ _ _ _ ps, some a => there ps.length (a.qs ++ a.ks ++ a.vs)
  | .observe, _ =>
    match (s.pan pan).nextObserved d with
    | some v => s.stageEnded pan v
    | none => false
  | .act, _ => there 1 (d.inputs.take 1)
  | _, _ => true

/-- Every output stream gives a credit. -/
def State.creditsReady (s : State) (pan : Nat) (d : StationDecl) : Bool :=
  d.outputs.all (fun o => match (s.pan pan).stream o with
    | some x => canEmit x (s.rows pan o) && (s.outq pan o).isEmpty
    | none => false)

/-- The code of an operation among those of its station (R125). -/
def opLayer : OpWork → Nat
  | .attend l _ => l + 1
  | .tree l _ _ _ => l + 1
  | .act => actCode
  | _ => 0

/-- The predecessors have retired; an ATTEND of slice k follows the KV writes that the earlier slices make in its layer
(R114, R125). Stage 1 has no predecessor: those that a WORLD station names are stage 5's. -/
def Pan.edgesDone (p : Pan) (d : StationDecl) (mb slice : Nat) (w : OpWork) : Bool :=
  let n := match d.att with | some a => max 1 a.layerOps | none => 1
  (w == .observe || p.predsDone d mb slice) &&
    (opLayer w == 0 || opLayer w == actCode || (List.range slice).all (fun k =>
      decide (n ≤ (p.retired.filter (fun r => r = (d.idx, mb, k, opLayer w))).length)))

/-- The sequences of the next rows of a station, as its row map names them. -/
def State.mapNext (s : State) (pan c mb slice n : Nat) (a : AttDecl) : List AttRow :=
  (((s.rows pan a.map).filter (fun r => !r.taken.contains c && rowIn r.row mb slice)).take n).map (fun r =>
    { seq := (mapRow r.row).1, gen := (mapRow r.row).2, k := [], v := [], q := [] })

/-- The executing unit is free: the grains of a sliver invocation, an array that is not under self-test (R426), pages that
do not move (R147). -/
def State.unitFree (s : State) (die pan : Nat) (d : StationDecl) (mb slice : Nat) (w : OpWork) : Bool :=
  match w, d.att with
  | .sliver b gs, _ => (s.busy die).all (fun e => e.brick ≠ b ∨ e.isArray ∨ gs.all (fun g => !e.grains.contains g))
  | .array b, _ => !s.bistOn die b
  | .attend l n, some a =>
    let rows := s.mapNext pan d.idx mb slice n a
    !s.attWaits die l a rows (s.eyesBefore l (slice * (s.pan pan).split) rows)
  | .tree l q g ps, some a =>
    let rows := ps.map (fun _ => ({ seq := q, gen := g, k := [], v := [], q := [] } : AttRow))
    !s.attWaits die l { a with mask := 0 } rows (s.eyesBefore l 0 rows)
  | .move e _ _, _ => !s.unitOut die 0x30 e
  | _, _ => true

/-- The ladle entry that the station consumes next, when the pan's next entry is for it. -/
def Pan.ladleNext (p : Pan) (d : StationDecl) : Bool :=
  match p.cfg.prefetch[p.fetch.consumed]? with
  | some x => x.station == d.idx
  | none => false

/-- Stage 5 of a DEV world: a clean action goes to the slot, a poisoned one leaves the fallback (R16). -/
def State.devAct (s : State) (pan w : Nat) (data : List Byte) (cause : Nat) : State :=
  match (s.pan pan).worlds.find? (fun d => d.decl.world = w) with
  | none => s
  | some d =>
    if cause ≠ 0 then s.modDev pan w (fun d => { d with fallback := true })
    else
      let n := match (mgetD s.bricks (brickKey d.decl.die d.decl.brick) {}).desc with
        | some k => k.actBytes
        | none => 64
      (s.wrBrick d.decl.die d.decl.brick d.decl.actSlot (data.take n)).modDev pan w
        (fun d => { d with fallback := false })

/-- Stage 5 of the next world of a WORLD station, by its row. -/
def State.actNext (s : State) (pan : Nat) (d : StationDecl) (mb slice : Nat) : State :=
  match d.inputs with
  | [] => s
  | i :: _ =>
    match s.takeSlice pan i d.idx mb slice 1 with
    | ([r], s) =>
      match ((s.pan pan).rowsOf d)[rowNum r]? with
      | some w => s.devAct pan w r.data r.cause
      | none => s
    | (_, s) => s

/-- The observation row of a world: a DEV world's slot, a port world's last good observation; none is masked (R49, R324). -/
def State.obsRow (s : State) (pan w n : Nat) : Option (List Byte × Nat) :=
  match (s.pan pan).worlds.find? (fun x => x.decl.world = w) with
  | some x =>
    let c := x.decl
    some (s.rdBrick c.die c.brick c.obsSlot n, inherited [b2n (s.descends c.die c.brick c.obsSlot n)])
  | none =>
    match s.wpt.worlds.find? (fun x => x.2.pan = pan ∧ x.2.inPan = w ∧ x.2.row) with
    | some x => x.2.given.map (fun g => (fitTo n g.data, 0))
    | none => none

/-- Stage 1 of the next world: its row goes to the station's first output (R11). -/
def State.observeNext (s : State) (die pan : Nat) (d : StationDecl) (mb optag : Nat) : State :=
  let p := s.pan pan
  match p.nextObserved d, d.outputs.head?.bind p.stream with
  | some w, some o =>
    let slice := p.observed d / p.split
    let n := rowBytes o.fmt o.width
    match s.obsRow pan w n with
    | some (b, cause) =>
      let s := if cause = 0 then s else s.poisonOut pan die cause
      s.give pan o.idx (mkRow o.fmt o.width cause optag mb slice 0 b)
    | none => s.give pan o.idx (mkRow o.fmt 0 0 optag mb slice 0 (List.replicate n 0))
  | _, _ => s

/-- An array command issues with its rows and tag in place (R64, R69). -/
def State.issueArray (s : State) (die pan : Nat) (d : StationDecl) (mb slice optag b : Nat) : State :=
  match s.nextCommand die pan d mb slice b with
  | none => s
  | some (t, n) =>
    let s := s.modPan pan (fun p => { p with issued := (d.idx, mb, slice, brickKey die b) :: p.issued })
    s.mxaIssue die b (BitVec.ofNat 64 (t.1.toNat / 2 ^ 32 * 2 ^ 32 + n)) t.2.1 t.2.2.1 (withOptag t.2.2.2 optag)

/-- The work of an operation begins. -/
def State.startWork (s : State) (die pan : Nat) (d : StationDecl) (mb slice optag : Nat) (w : OpWork) : State :=
  let j := (s.pan pan).job
  match w, d.att with
  | .array b, _ => s.issueArray die pan d mb slice optag b
  | .attend l n, some a =>
    let (rows, s) := s.attInputs pan d a mb slice n
    s.attend die pan l optag mb slice d a rows
  | .tree l q g ps, some a =>
    let (rows, s) := s.seqInputs pan d a q g mb slice ps.length
    s.onSeq die q g (fun s => s.attendTree die pan l q optag mb slice d a ps rows)
  | .recompute l q g page ps, some a =>
    let (rows, s) := s.seqInputs pan d a q g mb slice ps.length
    s.onSeq die q g (fun s => s.recomputePage l q page (ps.zip rows))
  | .prefixReuse q g toks, some a => s.onSeq die q g (fun s => s.prefixReuse q toks a.resultAt)
  | .route t r e, _ => s.routeRow j t r e
  | .observe, _ => s.observeNext die pan d mb optag
  | .act, _ => s.actNext pan d mb slice
  | .placement t v es done, _ =>
    let tab := { s.placeTab j t with shadow := es, shadowVersion := v, complete := done }
    let s := s.setPlace j t tab
    if tab.shadowVersion = tab.version + 1 then s.dueCommit pan 0 else s
  | .move e o t, _ => s.moveStart die e o t
  | _, _ => s

/-- The entry of an operation. -/
def newEntry (pan step : Nat) (d : StationDecl) (mb slice : Nat) (w : OpWork) : ScoreEntry :=
  let e : ScoreEntry := { pan, step, station := d.idx, mb, slice, layer := opLayer w }
  match w with
  | .array b => { e with brick := b, isArray := true }
  | .sliver b gs => { e with brick := b, grains := gs }
  | .move _ o _ => { e with obj := some o }
  | _ => e

/-- A ready operation takes an entry and begins; stages 1 and 5 of a world end at once. -/
def State.issueOp (s : State) (die pan : Nat) (d : StationDecl) (mb slice : Nat) (w : OpWork) : State :=
  match s.takeEntry die (newEntry pan (s.pan pan).step d mb slice w) with
  | none => s
  | some (tag, s) =>
    let s := if (s.pan pan).ladleNext d then s.modPan pan (fun p =>
      { p with fetch := { p.fetch with consumed := p.fetch.consumed + 1 } }) else s
    let s := s.startWork die pan d mb slice tag w
    if w = .observe ∨ w = .act then s.freeEntry die (tag % 4096) else s

/-- Everything that R114 asks but for the quota and a prefetch. -/
def State.opReady (s : State) (die pan : Nat) (d : StationDecl) (mb slice : Nat) (w : OpWork) : Bool :=
  worksAt d w && (s.pan pan).running die && s.inputsReady die pan d mb slice w && s.creditsReady pan d
    && s.unitFree die pan d mb slice w && (s.pan pan).edgesDone d mb slice w

/-- The prefetch that the operation consumes has not arrived. -/
def Pan.ladleLate (p : Pan) (d : StationDecl) : Bool := p.ladleNext d && !p.fetch.present.contains p.fetch.consumed

/-- A consumer finds its entry not present: a late entry is counted once (R249). -/
def State.missed (s : State) (pan : Nat) : State :=
  let l := (s.pan pan).fetch
  if l.late.contains l.consumed then s
  else (s.modPan pan (fun p => { p with fetch := { l with late := l.consumed :: l.late } })).bumpPan R.MOV_PLADLE_LATE pan

/-- The unit for which operations of a die compete: an array, a brick's grains, the walkers; other work competes for
none. -/
def unitOf : OpWork → Option Nat
  | .array b => some b
  | .sliver b _ => some (128 + b)
  | .attend _ _ | .tree _ _ _ _ | .recompute _ _ _ _ _ | .prefixReuse _ _ _ => some 256
  | _ => none

/-- The order of R117: higher priority, lower micro-batch, lower slice, higher virtual stage. -/
def opRank (d : StationDecl) (mb slice : Nat) : Nat :=
  (((3 - d.priority) * 65536 + mb) * 65536 + slice) * 8 + (7 - d.vstage)

/-- An offered operation that could issue now, with its rank. -/
def State.offerRank (s : State) (o : Offer) : Option Nat :=
  match (s.pan o.pan).station o.station with
  | none => none
  | some d =>
    if s.opReady o.die o.pan d o.mb o.slice o.work && !(s.pan o.pan).ladleLate d && s.quotaFree o.pan o.die then
      some (opRank d o.mb o.slice)
    else none

/-- The operation that the scheduler picks among the ready ones that compete with `o` for its unit. -/
def State.pickOffer (s : State) (o : Offer) : Option Offer :=
  let l := s.sch.offers.filter (fun x => decide (x = o) || x.die == o.die && (unitOf o.work).isSome && unitOf x.work == unitOf o.work)
  (argMin (·.2) (l.filterMap (fun x => (s.offerRank x).map (fun n => (x, n))))).map (·.1)

/-- The picked operation issues. -/
def State.issueOffer (s : State) (o : Offer) : State :=
  match (s.pan o.pan).station o.station with
  | none => s
  | some d =>
    ({ s with sch := { s.sch with offers := s.sch.offers.filter (fun x => x ≠ o) } }).issueOp o.die o.pan d o.mb o.slice o.work

/-- The operation is presented. What is not ready stays offered; a full quota and a late prefetch are counted; when ready
operations compete for its unit, the first of them in the order of R117 issues (log 118). -/
def State.tryIssue (s : State) (o : Offer) (d : StationDecl) (waited : Nat) : State :=
  let p := s.pan o.pan
  let s := if s.sch.offers.contains o then s else { s with sch := { s.sch with offers := s.sch.offers ++ [o] } }
  if !s.opReady o.die o.pan d o.mb o.slice o.work then s
  else if !s.quotaFree o.pan o.die then s.bump R.SCH_FULL_CYCLES (lDie o.die) waited
  else if p.ladleLate d then s.missed o.pan
  else match s.pickOffer o with
    | some x => s.issueOffer x
    | none => s

/-- TILE_OP_ISSUE (R114). -/
def execTileOpIssue (die pan station mb slice waited : Nat) (work : OpWork) (s : State) : Out :=
  need (isCompute die) "compute die" (whenThere (decide (die ∈ (s.pan pan).dies)) s (
    match (s.pan pan).station station with
    | none => .next s
    | some d => .next (s.tryIssue { die, pan, station, mb, slice, work } d waited)))

/-! ## Retirement (R113, R116, R118) -/

/-- The array still executes an operation's command, or holds its rows. -/
def ArraySt.executes (a : ArraySt) (optag : Nat) : Bool :=
  (match a.cur with | some c => c.optag == optag | none => false)
    || a.queue.any (fun c => c.optag == optag) || a.drain.any (fun r => r.row.hdr.optag == optag)
    || (match a.loading with | some l => l.2.2 == optag | none => false)

/-- An operation may retire: its array has done with it, its rows have left, its move, publication or exchange has
ended. -/
def State.opEnded (s : State) (die optag : Nat) (e : ScoreEntry) : Bool :=
  let p := s.pan e.pan
  !(e.isArray && (s.array die e.brick).executes optag) &&
    (match p.station e.station with
      | some d => (d.kind != 0xB || p.pubDone.contains d.idx) &&
          d.outputs.all (fun o => (s.outq e.pan o).all (fun r => r.hdr.optag != optag))
      | none => true) &&
    (match e.obj with
      | some o => s.tier.moves.all (fun m => m.2.obj ≠ o ∨ m.2.st = .redirect) && s.tier.waits.all (fun w => w.obj ≠ o)
      | none => true) &&
    s.col.exchs.all (fun x => x.2.pan ≠ e.pan ∨ x.2.station ≠ e.station ∨ x.2.status ≠ 0) &&
    s.col.ops.all (fun o => o.job ≠ p.job ∨ o.pan ≠ e.pan ∨ o.station ≠ e.station)

/-- The operation retires; a poison that it created is an output of its own. -/
def State.retireOp (s : State) (die entry cause : Nat) (e : ScoreEntry) : State :=
  let s := s.freeEntry die entry
  if cause = 0 then s else s.poisonOut e.pan die cause

/-- TILE_OP_RETIRE (R116): a tag of another generation is dropped and counted. -/
def execTileOpRetire (optag cause : Nat) (s : State) : Out :=
  let die := bits optag 15 12
  let e := s.board die (optag % 4096)
  .next (
    if !e.busy ∨ e.gen ≠ bits optag 31 16 then s.bump R.SCH_FULL_STALE (lDie die)
    else
      let s := if e.isArray then s.drainArray die e.brick 255 else s
      if s.opEnded die (optag % 2 ^ 32) e then (s.retireOp die (optag % 4096) cause e).stepExchs e.pan else s)

/-! ## Local boundaries and DONE (R45, R119) -/

/-- The grains of a pan on a die have ended their part of the step. -/
def State.grainsDone (s : State) (pan die : Nat) : Bool :=
  ((s.pan pan).cfg.bricks.filter (fun b => b.1 = die)).all (fun b =>
    let lo := grainKey b.1 b.2 0
    (s.grains.filter (fun g => lo ≤ g.1 ∧ g.1 < lo + 512)).all (fun g => g.2.role == 0 || g.2.ended))

/-- Stage 6 of a learner's step has ended, or is not released in it (R8, R18, R346). -/
def Pan.stage6Done (p : Pan) : Bool :=
  p.cfg.stations.all (fun d => d.kind != 0xB || p.pubDone.contains d.idx || (d.onCommand && !p.pubReleased))

/-- A write that a stub holds back. -/
def Access.writes : Access → Bool
  | .read _ _ _ => false
  | _ => true

/-- Every write of the pan that has been issued is acknowledged: those to a tier, those that wait in a stub (R119, R236),
those to other devices (R121). -/
def State.writesDone (s : State) (pan : Nat) : Bool :=
  s.tier.reqs.all (fun r => r.2.pan ≠ pan ∨ !r.2.write ∨ r.2.ended) &&
    s.tier.moves.all (fun m => m.2.pan ≠ pan ∨ m.2.queue.all (fun a => !Access.writes a)) &&
    s.fab.reqs.all (fun r => r.2.use ≠ .write pan) && s.fab.blocked.all (fun r => r.2 ≠ .write pan)

/-- A cut is due at the boundary of a pan, and its barrier has not voted (R121). -/
def State.cutWaits (s : State) (pan : Nat) : Bool :=
  let p := s.pan pan
  s.cutsOn p.job && (s.jobDecl p.job).anchor == some pan && p.cutVote.isNone

/-- The conditions of R119 on a die; the vote on a due cut is there, stage 6 of a learner has ended, no opening waits (R18, R135). -/
def State.localDone (s : State) (pan die : Nat) : Bool :=
  let p := s.pan pan
  (s.busy die).all (fun e => e.pan ≠ pan ∨ e.step ≠ p.step) && s.grainsDone pan die && s.writesDone pan &&
    s.col.exchs.all (fun x => x.2.pan ≠ pan ∨ x.2.status ≠ 0) && p.stage6Done &&
    s.att.waits.all (fun w => w.pan ≠ pan) && !s.cutWaits pan

/-- LOCAL_BOUNDARY (R119): the die sends DONE to the master. -/
def execLocalBoundary (die pan : Nat) (s : State) : Out :=
  let p := s.pan pan
  whenThere (decide (die ∈ p.dies)) s (.next (
    if p.released && p.woken.contains die && !p.sent.contains die && s.localDone pan die then
      s.modPan pan (fun p => { p with sent := die :: p.sent })
    else s))

/-! ## The step boundary (R20) -/

/-- Pending modes of a pan's bricks, its slice rows and its attention mode come into force (R76, R126, R155). -/
def State.applyPending (s : State) (p : Nat) : State :=
  let l := s.panLoc p
  let s := forEach (s.pan p).cfg.bricks s (fun s (x : Nat × Nat) =>
    if s.getB R.MXA_MODE_PENDING (lBrick x.1 x.2) ∧ !s.bistOn x.1 x.2 then s.applyMode x.1 x.2 else s)
  let rows := s.getF R.SCH_SPLIT_ROWS l
  let s := (s.modPan p (fun b => { b with split := rows })).setF R.SCH_SPLIT_PENDING l 0
  (s.setF R.ATT_PMODE_EFFECTIVE l (s.getF R.ATT_PMODE_DROP l)).setF R.ATT_PMODE_PENDING l 0

/-- Action 2: every table rebuilt in the step is committed. -/
def State.commitTables (s : State) (p : Nat) : State :=
  let b := s.pan p
  let s := forEach b.placeVotes s (fun s (v : Nat × Bool) => s.placeCommit b.job v.1 v.2)
  let s := (((s.prefixCommit b.job).labCommit p).moveBoundary p).applyPending p
  let waits := s.sch.place.any (fun t => decide (t.1 / 256 = b.job) && t.2.shadowVersion == t.2.version + 1)
  s.setF R.SCH_PBND_TCOMMIT (s.panLoc p) (b2n waits)

/-- A DEV world's results belong to the step that ends. -/
def DevWorld.nextStep (d : DevWorld) : DevWorld := { d with done := false, trunc := false, first := false }

/-- The step number advances and the step's own state goes. -/
def Pan.advance (p : Pan) (now : Nat) : Pan :=
  { p with
    fetch := p.ahead.getD {}, ahead := none, latched := none
    step := (p.step + 1) % 2 ^ 64, released := false, lastDone := now, lens := (now - p.relTime) :: p.lens.take 7
    retired := [], issued := [], pubDone := [], worlds := p.worlds.map DevWorld.nextStep }

/-- Action 7: the next step is released, or a quiescing pan is FENCED. -/
def State.releaseOrFence (s : State) (p : Nat) : State :=
  if (s.pan p).st = .running then s.releasePan p
  else if (s.pan p).st = .quiescing then s.panTo p .fenced
  else s

/-- JOB_STOP completes when every pan of the job is FENCED. -/
def State.stopIfReady (s : State) (j : Nat) : State :=
  match (s.job j).stopCmd with
  | some r =>
    if (s.jobPans j).all (fun p => (s.pan p).st = .fenced) then
      (s.modJob j (fun b => { b with stopCmd := none })).finishRef r Status.ok 0 0
    else s
  | none => s

/-- The boundary that ends a pan's step: the actions of R20 in order, which take `ns` from the last DONE to RELEASE. -/
def State.boundary (s : State) (p ns : Nat) : State :=
  let n := (s.pan p).step
  let j := (s.pan p).job
  let poisoned := s.getB R.SCH_PBND_POISONED (s.panLoc p)
  let s := s.commitBlocks p n
  let s := s.commitTables p
  let s := ((s.dropSeqFetch p).seqBoundary p).moverFreed
  let s := s.adoptAtBoundary p
  let s := s.cutAtBoundary p n
  let s := (s.discardOrphans p).checkBoundary p poisoned
  let s := s.modPan p (fun b => b.advance s.time)
  let s := (s.resizeNow p).bistBoundary p
  let s := ((s.until (s.time + ns)).setF R.SCH_PBND_LAST_NS (s.panLoc p) (min ns (2 ^ 32 - 1))).releaseOrFence p
  (s.stopIfReady j).destroyIfReady j

/-- DONE (R119): with DONE from every die the step boundary falls, `ns` after which RELEASE goes out. -/
def execDone (pan die step ns : Nat) (s : State) : Out :=
  let p := s.pan pan
  whenThere (decide (die ∈ p.dies)) s (.next (
    if p.released ∧ step = p.step ∧ p.sent.contains die ∧ !p.dones.contains die then
      if p.dies.all (fun d => decide (d = die) || p.dones.contains d) then
        s.whenRoom [16] (2, pan) (fun s => (s.modPan pan (fun p => { p with dones := die :: p.dones })).boundary pan ns)
      else s.modPan pan (fun p => { p with dones := die :: p.dones })
    else s))

/-! ## Release (R45, R49, R118) -/

/-- A SLIVER grain that waits goes on: STEPLO in the register its SL.WAITB names. -/
def Grain.wake (x : Grain) (step : Nat) : Grain :=
  let y := if x.waitRd = 0 then x else x.wx x.waitRd (BitVec.ofNat 32 step)
  { y with run := .run, ended := false, waitRd := 0, epoch := 0, wdog := 0 }

/-- SLIVER grains of a brick that wait for the boundary wake, all in one cycle (R45): the cycles they have waited are
one free value. -/
def State.wakeBrick (s : State) (die b step : Nat) : State :=
  let lo := grainKey die b 0
  let (n, s) := s.draw 32
  { s with grains := s.grains.map (fun g =>
      if lo ≤ g.1 ∧ g.1 < lo + 512 ∧ g.2.role = 2 ∧ g.2.run = .waitBoundary then (g.1, (g.2.wake step).waited n) else g) }

/-- WORLD grains' watchdogs start afresh. -/
def State.freshWorlds (s : State) (die b : Nat) : State :=
  let lo := grainKey die b 0
  { s with grains := s.grains.map (fun g =>
      if lo ≤ g.1 ∧ g.1 < lo + 512 ∧ g.2.role = 1 then (g.1, { g.2 with wdog := 0, epoch := 0 }) else g) }

/-- STEP_RELEASE (R45): all the pan's grains of the die wake together; its DEV worlds start their step entry. -/
def State.wakeDie (s : State) (die p step : Nat) : State :=
  let b := s.pan p
  let s := s.modPan p (fun b => { b with woken := die :: b.woken })
  let s := forEach (b.cfg.bricks.filter (fun x => x.1 = die)) s (fun s (x : Nat × Nat) =>
    (s.wakeBrick x.1 x.2 (step % 2 ^ 32)).freshWorlds x.1 x.2)
  forEach (b.worlds.filter (fun w => w.decl.die = die)) s (fun s (w : DevWorld) => s.enterStep (step % 2 ^ 32) w)

def execStepRelease (die pan step : Nat) (s : State) : Out :=
  let p := s.pan pan
  whenThere (decide (die ∈ p.dies)) s (.next (
    if p.released ∧ step = p.step ∧ !p.woken.contains die then s.wakeDie die pan step else s))

/-! ## A late boundary (R123) -/

/-- BOUNDARY_LATE: the alarm names the pan and the dies that have not sent DONE. -/
def execBoundaryLate (pan : Nat) (s : State) : Out :=
  let p := s.pan pan
  let l := s.panLoc pan
  let us := s.getF R.SCH_BNDLIM_US (lDie p.master)
  whenThere (decide (p.st ≠ .free)) s (.next (
    if !p.released ∨ us = 0 ∨ s.getB R.SCH_PBND_LATE l then s
    else
      let s := s.until (p.relTime + us * 1000 + 1)
      let slow := p.dies.filter (fun d => !p.sent.contains d)
      (s.setF R.SCH_PBND_LATE l 1).alarm Kind.boundaryLate p.job
        (alarmKey p.master (pan * 65536 + (slow.map (fun d => 2 ^ d)).foldl (· + ·) 0))))

/-! ## The mortar (R131, R132) -/

def d2dLoc (die port : Nat) : Loc := lIdx die port

/-- Poisons the tile of the row at a position of a stream with cause 7h: every row of it. -/
def poisonTileAt (l : List StreamRow) (i : Nat) : List StreamRow :=
  match l[i]? with
  | none => l
  | some x =>
    let h := x.row.hdr
    l.map (fun (r : StreamRow) =>
      if r.row.hdr.mb = h.mb ∧ r.row.hdr.slice = h.slice ∧ r.row.hdr.row0 = h.row0 then
        { r with row := { r.row with cause := 7, hdr := { r.row.hdr with poison := true, cause := 7 } } }
      else r)

/-- A tile in flight is poisoned, and counted as poisoned output of the die. -/
def State.linkPoison (s : State) (die port : Nat) (t : Nat × Nat × Nat) : State :=
  let s := s.setRows t.1 t.2.1 (poisonTileAt (s.rows t.1 t.2.1) t.2.2)
  (s.poisonOut t.1 die 7).bump R.D2D_LERR_POISONED (d2dLoc die port)

/-- Both ends of a link: the port, and the port of a compute die at its far end that faces the die. -/
def State.linkEnds (s : State) (die port : Nat) : List Loc :=
  let peer := s.getF R.D2D_LSTAT_PEER (d2dLoc die port)
  d2dLoc die port ::
    ((lowest 4 (fun k => decide (peer < 16) && s.getF R.D2D_LSTAT_PEER (d2dLoc peer k) == die)).map (d2dLoc peer)).toList

/-- Both ends of a link enter a state. -/
def State.linkTo (s : State) (die port st : Nat) : State :=
  forEach (s.linkEnds die port) s (fun s l => s.setF R.D2D_LSTAT_STATE l st)

/-- D2D_RETRAIN (R132): flits that UCIe retry recovered are counted; the loss of one that it cannot recover takes an ACTIVE
link to RETRAIN and poisons the tiles in flight; packets that go around a link out of service are counted. -/
def execD2dRetrain (die port : Nat) (inFlight : List (Nat × Nat × Nat)) (rerouted retries : Nat) (s : State) : Out :=
  need (isCompute die && decide (port < 4)) "die-to-die port" (.next (
    let l := d2dLoc die port
    let st := s.getF R.D2D_LSTAT_STATE l
    if st < 2 then s
    else
      let s := (s.bump R.D2D_LERR_RETRY l retries).bump R.D2D_REROUTE_PACKETS l rerouted
      if st ≠ 2 then s
      else
        let s := forEach (s.linkEnds die port) s (fun s l => s.bump R.D2D_LERR_RETRAINS l)
        let s := forEach inFlight (s.linkTo die port 3) (fun s t => s.linkPoison die port t)
        { s with sch := { s.sch with d2dSince := mput s.sch.d2dSince (die * 4 + port) s.time } }))

/-- D2D_RETRAIN_DONE (R132). -/
def execD2dRetrainDone (die port rerouted : Nat) (s : State) : Out :=
  need (isCompute die && decide (port < 4)) "die-to-die port" (.next (
    if s.getF R.D2D_LSTAT_STATE (d2dLoc die port) = 3 then
      (s.linkTo die port 2).bump R.D2D_REROUTE_PACKETS (d2dLoc die port) rerouted
    else s))

/-- D2D_RETRAIN_TIMEOUT (R132): after 100 µs in RETRAIN, DISABLED until reset; row-first routing stays in force. -/
def execD2dRetrainTimeout (die port rerouted : Nat) (s : State) : Out :=
  need (isCompute die && decide (port < 4)) "die-to-die port" (.next (
    if s.getF R.D2D_LSTAT_STATE (d2dLoc die port) = 3 then
      let s := (s.until (mgetD s.sch.d2dSince (die * 4 + port) s.time + 100000)).bump R.D2D_REROUTE_PACKETS
        (d2dLoc die port) rerouted
      forEach (s.linkEnds die port) (s.linkTo die port 4) (fun s l => s.setF R.D2D_LSTAT_DEGRADED l 1)
    else s))

end Sys2Proof.Machine
end

