-- ==== Sys2Proof/Machine/Whistle.lean ====
section
/-!
DEFINITION. Whistle operations to their end, frames, cells, ring states, the fallback, and the EXCHANGE and
BARRIER stations' starts (R293 to R306, R318, R359, R371).
-/

namespace Sys2Proof.Machine

/-! ## Results (R296, R299) -/

/-- Whether a position of the group is DEAD in a ring of the device. -/
def State.groupDead (s : State) (g : GroupSt) (level : Nat) : Bool := (g.positions level).any (s.deadAt level)

/-- The table a placement commit BARRIER votes on. -/
def State.barrierTable (s : State) (o : WOp) : Nat :=
  match (s.pan o.pan).station o.station with
  | some d => (match d.exch with | some c => c.table | none => 0)
  | none => 0

/-- The die of an operation's station. -/
def State.opDie (s : State) (o : WOp) : Nat :=
  ((((s.pan o.pan).station o.station).bind (·.exch)).map (·.stage.1)).getD 0

/-- The result of a count exchange by rank: a dead member's row is empty. -/
def State.gatherRows (s : State) (g : GroupSt) (o : WOp) : State :=
  let k := exchKey o.pan o.station
  match s.exch k with
  | none => s
  | some x =>
    (s.setExch k { x with counts := (List.range g.devices.length).foldl (fun m r =>
      let row : List Byte := match mget o.cells (nth (g.positions 0) r 64) with
        | some (some b) => b
        | _ => []
      mput m r (unpackRow x.decl.countw g.devices.length row)) x.counts }).countsHeld k

/-- What a finished operation brings at its station. A barrier with PEER_DEAD counts as 0. -/
def State.opResult (s : State) (g : GroupSt) (o : WOp) (dead : Bool) (res : List Byte) : State :=
  let b := !dead && bit (fieldAt res 0 1) 0
  let st := if dead then 2 else 1
  let s := { s with col := { s.col with results := mput s.col.results (exchKey o.pan o.station) (st, res) } }
  let s := match o.tag with
    | some t => (s.freeEntry (bits t 15 12) (t % 4096)).stationResult o.pan o.station (toLe 4 st)
    | none => s
  let s := if dead ∧ (o.purpose = 5 ∨ o.purpose = 6) then s.bump R.COL_ERR_PEERDEAD (lDie (s.opDie o)) else s
  match o.purpose with
  | 1 => s.modPan o.pan (fun p => { p with cutVote := some b })
  | 2 =>
    let t := s.barrierTable o
    s.modPan o.pan (fun p => { p with placeVotes := p.placeVotes ++ [(t, b)] })
  | 3 =>
    if dead then s
    else (s.modCkp g.job (fun k => { k with adopting := false, voted := false })).resumeJob g.job |>.endAdoption g.job Status.ok
  | 4 => s.gatherRows g o
  | 5 | 6 => s.wrAt o.dst (res.take o.bytes)
  | _ => s

/-- A queued cell of an operation leaves the queue. -/
def WRing.unqueue (w : WRing) (o : WOp) : WRing :=
  { w with toSend := w.toSend.filter (fun c => c.down || !(c.wgroup == o.wgroup && c.opnum == o.opnum && c.type == o.type)) }

/-- An operation is over at a level: its result is recorded, members below and over VC7 get it. -/
def State.closeOp (s : State) (o : WOp) (res : List Byte) : State :=
  let key := o.level * 64 + o.wgroup
  let s := { s with col := { s.col with
    ops := s.col.ops.filter (fun x => !x.is o.level o.wgroup o.opnum)
    lastOwn := mput s.col.lastOwn key (s.ownCell o), lastResult := mput s.col.lastResult key (o.opnum, res) } }
  let s := s.bump R.LLP_OPS_DONE (lRing o.level)
  let s := if o.fallback then s.bump R.LLP_OPS_FALLBACK (lRing o.level) else s
  let out : Cell := { (s.ownCell o) with down := true, empty := false, payload := res }
  let all := s.ringState o.level == RingRun.fallback
  let ps := match s.group o.group with | some g => g.positions o.level | none => []
  if !s.isMaster o.level then s
  else forEach (ps.filter (fun p => p ≠ s.ringPos o.level ∧ (all ∨ o.fbFrom.contains p))) s (fun s p =>
    match s.ringDevice o.level p with
    | some d => s.sendFb d o.job out
    | none => s)

/-- A final result at a level: it goes down to the level below, whose members take it as final. -/
def State.opFinal (s : State) (wgroup opnum : Nat) (res : List Byte) : Nat → State
  | 0 =>
    match s.wop 0 wgroup opnum with
    | none => s
    | some o =>
      match s.group o.group with
      | none => s
      | some g =>
        let s := (s.closeOp o res).setF R.COL_GOP_OPNUM (lIdx 0 o.group) opnum
        s.opResult g o (s.groupDead g 0) res
  | l + 1 =>
    let s := match s.wop (l + 1) wgroup opnum with
      | some o => s.closeOp o res
      | none => s
    let s := match s.wop l wgroup opnum with
      | some o =>
        let c : Cell := { (s.ownCell o) with down := true, empty := false, payload := res }
        if s.overFabric l then s
        else s.modWring l (fun w => { w.unqueue o with toSend := c :: (w.unqueue o).toSend })
      | none => s
    s.opFinal wgroup opnum res l

/-- Every live position of the group has a cell. -/
def State.opComplete (s : State) (g : GroupSt) (o : WOp) : Bool :=
  (g.positions o.level).all (fun p => s.deadAt o.level p || (mget o.cells p).isSome)

/-- The result a level's cells give. -/
def opFold (g : GroupSt) (o : WOp) : Option (List Byte) :=
  match o.type with
  | 3 => foldCells o.opc o.cells
  | 4 => (o.cells.filterMap (·.2)).head?
  | 5 => some ((g.positions o.level).flatMap (fun p => match mget o.cells p with | some (some b) => fitTo 32 b | _ => []))
  | _ => some []

/-- An operation whose cells are complete is final at its group's top level; below it the bridge carries its result
up as its own contribution. -/
def State.settleOp (s : State) (wgroup opnum : Nat) : Nat → Nat → State
  | 0, _ => s
  | n + 1, level =>
    match s.wop level wgroup opnum with
    | none => s
    | some o =>
      match s.group o.group with
      | none => s
      | some g =>
        if (o.fallback && !s.isMaster level) || !s.opComplete g o then s
        else if g.top ≤ level then s.opFinal wgroup opnum ((opFold g o).getD []) level
        else if s.isMaster level && s.onRing (level + 1) && (s.wop (level + 1) wgroup opnum).isNone then
          (s.startOp { o with level := level + 1, cells := [], own := opFold g o, nacks := 0, fbFrom := [] }).settleOp
            wgroup opnum n (level + 1)
        else s

def State.settle (s : State) (level wgroup opnum : Nat) : State := s.settleOp wgroup opnum 3 level

/-- Every operation of a level is looked at again. -/
def State.settleAll (s : State) (level : Nat) : State :=
  forEach (s.col.ops.filter (fun o => o.level = level)) s (fun s (o : WOp) => s.settle level o.wgroup o.opnum)

/-- A cell of an operation: taken by it, kept for one not yet issued, ignored when it is over. -/
def State.opCell (s : State) (level : Nat) (c : Cell) : State :=
  match s.wop level c.wgroup c.opnum with
  | some _ =>
    if c.down then s.opFinal c.wgroup c.opnum c.payload level
    else (s.modOp level c.wgroup c.opnum (fun o => o.addCell c)).settle level c.wgroup c.opnum
  | none =>
    let n := mgetD s.col.opnums c.wgroup 0
    if (c.opnum + 65536 - n) % 65536 < 32768 ∨ (0 < level ∧ (s.wop 0 c.wgroup c.opnum).isSome) then
      { s with col := { s.col with cells := s.col.cells ++ [(level, c)] } }
    else s

/-! ## Dead members (R292, R301, R365) -/

/-- A device is dead: its EXCHANGEs complete with PEER_DEAD, an epoch being written to it is retracted (R187), and a buddy's
loss is alarmed. -/
def State.deviceDead (s : State) (dev : Nat) : State :=
  let s := forEach s.col.exchs s (fun s (x : Nat × Exch) =>
    if x.2.devices.contains dev then s.exchDead x.1 (x.2.devices.idxOf dev) else s)
  let s := forEach s.epc.sets s (fun s (w : Nat × WSet) => s.targetDead w.1 dev)
  forEach (s.hcx.jobs.map (·.1)) s (fun s j =>
    if s.cutsOn j ∧ !(s.ckpJob j).buddyLost ∧ (s.roster j)[(s.jobDecl j).buddyRank]? = some dev ∧ dev ≠ s.device then
      (s.modCkp j (fun k => { k with buddyLost := true })).alarm Kind.buddyLost j (alarmKey dev (s.jobDecl j).buddyRank)
    else s)

/-- RUNNING or DEGRADED, as the bitmaps say (R304). -/
def State.ringHealth (s : State) (level : Nat) : State :=
  let a := lRing level
  if s.ringState level = RingRun.running ∨ s.ringState level = RingRun.degraded then
    s.ringTo level (if s.getF R.LLP_DEAD_POSITIONS a = 0 ∧ s.getF R.LLP_BYPASS_POSITIONS a = 0 then RingRun.running
      else RingRun.degraded)
  else s

/-- New DEAD and BYPASS bitmaps come into force at this member. -/
def State.setMaps (s : State) (level dead bypass : Nat) : State :=
  let a := lRing level
  let old := s.getF R.LLP_DEAD_POSITIONS a
  let s := ((s.setF R.LLP_DEAD_POSITIONS a dead).setF R.LLP_BYPASS_POSITIONS a bypass).ringHealth level
  let s := forEach ((List.range 64).filter (fun p => bit dead p && !bit old p)) s (fun s p =>
    match s.ringDevice level p with
    | some d => s.deviceDead d
    | none => s)
  s.settleAll level

/-- A ring falls back: operations under way go over VC7 (R304, R306). -/
def State.fallBack (s : State) (level : Nat) : State :=
  let s := s.ringTo level RingRun.fallback
  let s := forEach (s.col.ops.filter (fun o => o.level = level)) s (fun s (o : WOp) =>
    let s := (s.modOp level o.wgroup o.opnum (fun o => { o with fallback := true })).modWring level (fun w => w.unqueue o)
    if s.isMaster level then s else s.fbToMaster level o.job (s.ownCell o))
  s.settleAll level

/-! ## Frames (R294, R296, R300, R303, R304) -/

/-- The CTRL cell of the master. -/
def State.ctrlCell (s : State) (level : Nat) (w : WRing) : Cell :=
  let a := lRing level
  { type := 8, level := level, payload := toLe 8 w.resync ++ toLe 8 (s.getF R.LLP_BYPASS_POSITIONS a)
      ++ toLe 8 (s.getF R.LLP_DEAD_POSITIONS a) ++ toLe 8 0 }

/-- NACKs for operations that lack a cell discarded in the frame; after the third the master gives the result. -/
def State.nackLost (s : State) (level : Nat) (lost : List Nat) : State :=
  if lost.isEmpty then s
  else forEach (s.col.ops.filter (fun o => o.level = level ∧ !o.fallback ∧ lost.any (fun p =>
      (mget o.cells p).isNone && (match s.group o.group with | some g => (g.positions level).contains p | none => false))))
    s (fun s (o : WOp) =>
      if 3 ≤ o.nacks then
        (s.modOp level o.wgroup o.opnum (fun o => { o with fallback := true })).fbToMaster level o.job (s.ownCell o)
      else
        let c : Cell := { type := 7, pos := s.ringPos level, level := level, opnum := o.opnum, wgroup := o.wgroup }
        let s := (s.modOp level o.wgroup o.opnum (fun o => { o with nacks := o.nacks + 1 })).bump R.LLP_OPS_REPEATS
          (lRing level)
        s.modWring level (fun w => { w with toSend := w.toSend ++ [c] }))

/-- The master looks at the EDGE reports of the frame: three in a row set RESYNC, an event within 16 frames after
it moves the upstream position to BYPASS. -/
def State.edgeReports (s : State) (level : Nat) : State :=
  if !s.isMaster level then s
  else
    let w := s.wring level
    let n := max 1 (s.getF R.LLP_RSTAT_MEMBERS (lRing level))
    let reps := if w.edge then s.ringPos level :: w.reports else w.reports
    let run := reps.foldl (fun m p => mput m p (mgetD w.edgeRun p 0 + 1)) ([] : AMap Nat)
    let up (p : Nat) : Nat := (p + n - 1) % n
    let bad := reps.filter (fun p => (mget w.sinceResync (up p)).isSome)
    let due := (run.filter (fun e => 3 ≤ e.2 ∧ (mget w.sinceResync (up e.1)).isNone)).map (fun e => up e.1)
    let since := (w.sinceResync.filter (fun e => e.2 < 15 ∧ !bad.any (fun p => up p = e.1))).map (fun e => (e.1, e.2 + 1))
    let byp := bad.foldl (fun v p => v ||| 2 ^ up p) (s.getF R.LLP_BYPASS_POSITIONS (lRing level))
    let s := s.setWring level { w with
      edgeRun := run.filter (fun e => e.2 < 3), reports := []
      sinceResync := due.foldl (fun m p => mput m p 0) since
      resync := due.foldl (fun v p => v ||| 2 ^ p) 0
      ctrlDue := w.ctrlDue || !due.isEmpty || !bad.isEmpty }
    if bad.isEmpty then s else s.setMaps level (s.getF R.LLP_DEAD_POSITIONS (lRing level)) byp

/-- Position discovery: the members heard, and this member in the place that none of them takes. -/
def State.discover (s : State) (level : Nat) (heard : List Nat) : State :=
  let own := (lowest 64 (fun p => !heard.contains p)).getD 0
  let n := heard.length + 1
  let f := nth s.tier.policy.slots level 0
  let a := lRing level
  let s := (s.setF (posFld level) (lDie 18) own).setF R.LLP_RSTAT_MEMBERS a n
  s.setF R.LLP_RSTAT_SLOTS a (clampN (max 16 n) 64 f)

/-- Clean frames: 16 of them with the same members end training, and let a bypassed member rejoin. -/
def State.cleanFrame (s : State) (level : Nat) : State :=
  let w := s.wring level
  let a := lRing level
  let clean := !w.edge && w.lost.isEmpty
  let same := w.heard == w.before && !w.heard.isEmpty
  let n := if clean ∧ (same ∨ w.rejoin) then w.cleanFrames + 1 else 0
  let s := s.setWring level { w with cleanFrames := n, before := w.heard, heard := [], lost := [] }
  if s.ringState level = RingRun.training then
    if 16 ≤ n then (s.discover level w.heard).ringTo level RingRun.running else s
  else if w.rejoin ∧ 16 ≤ n then
    let own := s.ringPos level
    let byp := s.getF R.LLP_BYPASS_POSITIONS a
    (s.modWring level (fun w => { w with rejoin := false, cleanFrames := 0 })).setMaps level
      (s.getF R.LLP_DEAD_POSITIONS a) (if bit byp own then byp - 2 ^ own else byp)
  else s

/-- Puts a cell on the ring. -/
def State.putCell (s : State) (level : Nat) (c : Cell) : State :=
  let c := { c with term := s.getF R.LLP_RSTAT_TERM (lRing level) % 256 }
  { s with col := { s.col with sentCells := s.col.sentCells ++ [(level, c)] } }

/-- The cell for this member's slot: the master's CTRL, the queue, a heartbeat, or the idle pattern. -/
def State.writeSlot (s : State) (level : Nat) : State :=
  let w := s.wring level
  let pos := s.ringPos level
  let due := decide (w.lastSent + 10000 ≤ s.time)
  let ctrl := s.isMaster level && (w.ctrlDue || (w.toSend.isEmpty && due))
  let next : Option (Cell × List Cell) :=
    if ctrl then some (s.ctrlCell level w, w.toSend)
    else match w.toSend with
      | c :: rest => some (c, rest)
      | [] => if w.edge || due then some ({ type := 1, level := level }, []) else none
  let s := forEach w.fb s (fun s c => s.putCell level c)
  match next with
  | none => s.setWring level { w with fb := [], edge := false }
  | some (c, rest) =>
    (s.putCell level { c with pos := pos, edge := w.edge }).setWring level { w with
      toSend := rest, fb := [], edge := false, lastSent := s.time
      ctrlDue := w.ctrlDue && !ctrl, resync := if ctrl then 0 else w.resync }

/-- A frame starts at this member. -/
def State.frameStart (s : State) (level : Nat) : State :=
  let st := s.ringState level
  if st = RingRun.down ∨ st = RingRun.fallback then s
  else
    let lost := (s.wring level).lost
    let s := (s.modWring level (fun w => { w with lastFrame := s.time, realign := false })).edgeReports level
    let s := (s.nackLost level lost).cleanFrame level
    if s.bypassedAt level (s.ringPos level) then s.modWring level (fun w => { w with edge := false })
    else s.writeSlot level

/-- FRAME_START (R294): the master starts a frame, and at the other members it passes. -/
def execFrameStart (level : Nat) (s : State) : Out :=
  need (decide (level < 3)) "whistle level" (.next (if s.onRing level then s.frameStart level else s))

/-! ## Cells in (R295, R300 to R303) -/

/-- The bitmaps of a CTRL cell. -/
def State.ctrlIn (s : State) (level : Nat) (c : Cell) : State :=
  let a := lRing level
  let own := s.ringPos level
  let t := s.getF R.LLP_RSTAT_TERM a
  let d := (c.term + 256 - t % 256) % 256
  let s := if 0 < d ∧ d < 128 then (s.setF R.LLP_RSTAT_TERM a ((t + d) % 2 ^ 32)).setF R.LLP_RSTAT_MASTER a c.pos else s
  if 128 ≤ d then s
  else
    let s := if bit (fieldAt c.payload 0 8) own then
        (s.bump R.LLP_EDGE_RESYNC a).modWring level (fun w => { w with realign := true })
      else s
    s.setMaps level (fieldAt c.payload 16 8) (fieldAt c.payload 8 8)

/-- A NACK: a member that has contributed writes its cell again. -/
def State.nackIn (s : State) (level : Nat) (c : Cell) : State :=
  let own : Option Cell := match s.wop level c.wgroup c.opnum with
    | some o => some (s.ownCell o)
    | none => match mget s.col.lastOwn (level * 64 + c.wgroup) with
      | some x => if x.opnum = c.opnum then some x else none
      | none => none
  match own with
  | none => s
  | some x => s.modWring level (fun w =>
      if w.toSend.any (fun y => y.rep && y.wgroup == x.wgroup && y.opnum == x.opnum) then w
      else { w with toSend := w.toSend ++ [{ x with rep := true }] })

/-- The master hears again from a position that was bypassed or dead. -/
def State.returned (s : State) (level pos : Nat) : State :=
  let a := lRing level
  let d := s.getF R.LLP_DEAD_POSITIONS a
  let b := s.getF R.LLP_BYPASS_POSITIONS a
  if s.isMaster level ∧ (bit d pos ∨ bit b pos) then
    (s.modWring level (fun w => { w with ctrlDue := true })).setMaps level (if bit d pos then d - 2 ^ pos else d)
      (if bit b pos then b - 2 ^ pos else b)
  else s

/-- A good cell. -/
def State.goodCell (s : State) (level : Nat) (c : Cell) (edge : Bool) : State :=
  let s := s.modWring level (fun w => { w with
    lastHeard := mput w.lastHeard c.pos s.time
    heard := if w.heard.contains c.pos then w.heard else insertBy (fun a b => decide (a ≤ b)) c.pos w.heard
    reports := if c.edge ∧ !w.reports.contains c.pos then w.reports ++ [c.pos] else w.reports
    edge := w.edge || edge })
  if s.ringState level = RingRun.training then s
  else
    let s := if c.fb then s else s.returned level c.pos
    match c.type with
    | 1 => s
    | 7 => s.nackIn level c
    | 8 => s.ctrlIn level c
    | _ => s.opCell level c

/-- A cell is discarded. -/
def State.lostCell (s : State) (level slot : Nat) (edge : Bool) : State :=
  (s.bump R.LLP_EDGE_LOST (lRing level)).modWring level (fun w => { w with
    lost := if w.lost.contains slot then w.lost else w.lost ++ [slot], edge := w.edge || edge })

/-- A cell is timed against the slot clock, checked, and taken or discarded. -/
def State.cellIn (s : State) (level slot : Nat) (b : List Byte) (off : Int) : State :=
  let a := lRing level
  let s := s.setF R.LLP_SKEW_LAST_PS a (uInt 16 off)
  let s := s.peak R.LLP_SKEW_MAX_PS a (min off.natAbs 65535)
  let c := readCell b
  let good := cellCrcOk b && cellTypeOk c.type && b.length == 44
  if off < -1000 ∨ 2100 < off then s.lostCell level slot true
  else if !good then s.lostCell level slot false
  else if s.ringState level ≠ RingRun.training ∧ c.pos = s.ringPos level then s
  else
    let late := decide (1000 < off)
    let s := if late then s.bump R.LLP_EDGE_LATE_EDGE a else s
    s.goodCell level c late

/-- CELL_RECEIVE (R302). -/
def execCellReceive (level slot : Nat) (bytes : List Byte) (offsetPs : Int) (s : State) : Out :=
  need (decide (level < 3)) "whistle level" (.next (
    let st := s.ringState level
    if !s.onRing level ∨ st = RingRun.down ∨ st = RingRun.fallback then s else s.cellIn level slot bytes offsetPs))

/-! ## Masters and ring states (R301, R304) -/

/-- WHISTLE_DEAD_TIMEOUT (R301). -/
def execWhistleDeadTimeout (level pos : Nat) (s : State) : Out :=
  need (decide (level < 3 ∧ pos < 64)) "whistle position" (.next (
    if !s.isMaster level ∨ s.deadAt level pos ∨ pos = s.ringPos level ∨
        (s.ringState level ≠ RingRun.running ∧ s.ringState level ≠ RingRun.degraded) then s
    else
      let s := s.until (mgetD (s.wring level).lastHeard pos 0 + 1000000)
      let dev := (s.ringDevice level pos).getD s.device
      let s := (s.alarm Kind.deviceDead 0xFF (alarmKey dev (level * 64 + pos))).modWring level (fun w =>
        { w with ctrlDue := true })
      s.setMaps level (s.getF R.LLP_DEAD_POSITIONS (lRing level) ||| 2 ^ pos)
        (s.getF R.LLP_BYPASS_POSITIONS (lRing level))))

/-- MASTER_ELECTION (R301): the old master is no longer live. -/
def execMasterElection (level : Nat) (s : State) : Out :=
  need (decide (level < 3)) "whistle level" (.next (
    let a := lRing level
    let old := s.getF R.LLP_RSTAT_MASTER a
    if s.ringState level ≠ RingRun.running ∧ s.ringState level ≠ RingRun.degraded then s
    else
      let s := s.until ((s.wring level).lastFrame + 10000)
      match lowest (s.getF R.LLP_RSTAT_MEMBERS a) (fun p => p ≠ old && !s.deadAt level p) with
      | some p => (s.setF R.LLP_RSTAT_MASTER a p).setF R.LLP_RSTAT_TERM a
          ((s.getF R.LLP_RSTAT_TERM a + 1) % 2 ^ 32)
      | none => s))

/-- RING_TRAINING_TIMEOUT (R304). -/
def execRingTrainingTimeout (level : Nat) (s : State) : Out :=
  need (decide (level < 3)) "whistle level" (.next (
    if s.ringState level = RingRun.training then s.fallBack level else s))

/-- RING_FALLBACK (R304): operations of the rings that span it fall back too. -/
def execRingFallback (level : Nat) (s : State) : Out :=
  need (decide (level < 3)) "whistle level" (.next (
    if s.ringState level = RingRun.running ∨ s.ringState level = RingRun.degraded then s.fallBack level else s))

/-- RING_RETRAIN_TIMER (R304). -/
def execRingRetrainTimer (level : Nat) (success : Bool) (s : State) : Out :=
  need (decide (level < 3)) "whistle level" (.next (
    if s.ringState level = RingRun.fallback ∧ success then s.ringTo level RingRun.running else s))

/-- LLP_RCTL.REJOIN written 1 (R303). -/
def State.rejoin (s : State) (level : Nat) : State :=
  if s.bypassedAt level (s.ringPos level) then s.modWring level (fun w => { w with rejoin := true, cleanFrames := 0 })
  else s

/-- LLP_RCTL.RETRAIN written 1 (R304). -/
def State.retrainRing (s : State) (level : Nat) : State :=
  if s.ringState level = RingRun.down ∨ s.ringState level = RingRun.fallback then
    (s.setWring level {}).ringTo level RingRun.training
  else s

/-! ## Fallback packets in (R306) -/

/-- A result from the master is final; a contribution is folded by the master, written into the member's slot of a
DEGRADED ring, or answered with the result of an operation already over. -/
def State.fbIn (s : State) (level : Nat) (src : Nat) (job : Nat) (c : Cell) : State :=
  let s := s.bump R.LLP_FB_RECEIVED (lDie 18)
  if c.down then
    match s.wop level c.wgroup c.opnum with
    | some o =>
      let s := if o.fallback then s else s.modOp level c.wgroup c.opnum (fun o => { o with fallback := true })
      s.opFinal c.wgroup c.opnum c.payload level
    | none => s
  else if !s.isMaster level then s
  else
    match s.wop level c.wgroup c.opnum, mget s.col.lastResult (level * 64 + c.wgroup) with
    | none, some r =>
      if r.1 = c.opnum then s.sendFb src job { c with down := true, empty := false, payload := r.2 }
      else s.opCell level { c with fb := true }
    | none, none => s.opCell level { c with fb := true }
    | some _, _ =>
      let s := if s.ringState level = RingRun.fallback then s
        else s.modWring level (fun w => { w with fb := w.fb ++ [{ c with fb := true }] })
      (s.modOp level c.wgroup c.opnum (fun o => { o.addCell c with
        fbFrom := if o.fbFrom.contains c.pos then o.fbFrom else o.fbFrom ++ [c.pos] })).settle level c.wgroup c.opnum

/-- WHISTLE_FB (R306). -/
def execWhistleFb (level : Nat) (p : Packet) (s : State) : Out :=
  need (decide (level < 3)) "whistle level" (.next (s.fbIn level p.src p.job (readCell p.payload)))

/-! ## EXCHANGE and BARRIER stations start (R284, R290, R296, R297) -/

/-- The OPC of a station's reduction. -/
def ExchOpc (c : ExchDecl) : Nat :=
  let e := if c.red = 3 ∨ c.red = 4 then 3 else match c.elem with
    | .fp32 => 0 | .bf16 => 0 | .int32 => 1 | .int64 => 2
  c.red + 8 * e

/-- Whether PATH sends an operation of at most 32 bytes to the whistle. -/
def onWhistle (c : ExchDecl) : Bool := whistleSize c && c.path != 1

/-- A whistle operation of a station is issued, and settled when nobody else takes part. -/
def State.issueWop (s : State) (g : GroupSt) (o : WOp) : State :=
  let (s, n) := s.issueOp0 g o
  s.settle 0 g.decl.wgroup n

/-- A whistle operation is an operation of its station, until its result is there. -/
def State.stationWop (s : State) (pan : Nat) (d : StationDecl) (c : ExchDecl) (g : GroupSt) (o : WOp) : State :=
  s.issueEntry c.stage.1 pan d 0 0 (fun tag s => s.issueWop g { o with tag := some tag })

/-- The small form of an ALL_REDUCE or BROADCAST. -/
def State.whistleExch (s : State) (pan station : Nat) (d : StationDecl) (c : ExchDecl) (g : GroupSt) : State :=
  let b := fitTo 32 (s.rdAt c.src c.block)
  let o : WOp := { level := 0, wgroup := 0, opnum := 0, group := 0, pan := pan, station := station, dst := c.dst
                   bytes := c.block, type := 3, opc := ExchOpc c, own := some b, purpose := 5 }
  if c.op = 2 then s.stationWop pan d c g o
  else s.stationWop pan d c g { o with type := 4, opc := 0, own := if g.rank = c.root then some b else none, purpose := 6 }

/-- An EXCHANGE station starts an operation, when its engine is free. -/
def State.startExch (s : State) (pan station op : Nat) : State :=
  match s.exchStation pan station op with
  | none => s
  | some (d, c, g) =>
    if (op = 2 ∨ op = 5) ∧ onWhistle c then s.whistleExch pan station d c g
    else if s.engineBusy c.stage.1 c.engine then s.stepExchs pan
    else s.beginExch pan station c g none

/-- ALL_TO_ALL (R284). -/
def execAllToAll (pan station : Nat) (s : State) : Out := .next (s.startExch pan station 0)

/-- The ring of the device is RUNNING or DEGRADED. -/
def State.ringWorks (s : State) (level : Nat) : Bool :=
  s.ringState level == RingRun.running || s.ringState level == RingRun.degraded

/-- One count for each member. -/
def fitCounts (n : Nat) (l : List Nat) : List Nat := l.take n ++ List.replicate (n - l.length) 0

/-- The GATHER of a count exchange. -/
def countOp (pan station : Nat) (row : List Byte) : WOp :=
  { level := 0, wgroup := 0, opnum := 0, group := 0, pan := pan, station := station, type := 5, opc := 0
    own := some row, purpose := 4 }

/-- ALL_TO_ALL_V (R290): the count exchange begins. -/
def execAllToAllV (pan station : Nat) (counts : List Nat) (s : State) : Out :=
  .next (
    match s.exchStation pan station 1 with
    | none => s
    | some (_, c, g) =>
      if s.engineBusy c.stage.1 c.engine then s.stepExchs pan
      else
        let k := exchKey pan station
        let s := s.beginExch pan station c g (some (fitCounts g.devices.length counts))
        let s := s.deadMembers k
        if g.devices.length * c.countw ≤ 256 ∧ g.oneRing ∧ s.ringWorks 0 then
          let s := s.bump R.COL_COUNTS_WHISTLE (lDie c.stage.1)
          s.issueWop g (countOp pan station (packRow c.countw (clampCounts c.countw (fitCounts g.devices.length counts))))
        else s.countsOverFabric k)

/-- ALL_REDUCE (R288). -/
def execAllReduce (pan station : Nat) (s : State) : Out := .next (s.startExch pan station 2)

/-- REDUCE_SCATTER (R289). -/
def execReduceScatter (pan station : Nat) (s : State) : Out := .next (s.startExch pan station 3)

/-- ALL_GATHER (R284). -/
def execAllGather (pan station : Nat) (s : State) : Out := .next (s.startExch pan station 4)

/-- BROADCAST (R284). -/
def execBroadcast (pan station : Nat) (s : State) : Out := .next (s.startExch pan station 5)

/-- The bit this member brings to a BARRIER: its own for a cut or a placement commit (R318, R359). -/
def State.barrierBit (s : State) (job : Nat) (c : ExchDecl) (b : Bool) : Bool :=
  match c.purpose with
  | 1 => (s.ckpJob job).bit
  | 2 => (s.placeTab job c.table).ready
  | _ => b

/-- The cut barrier of an anchor whose job is RESTORING under an adoption carries the adoption vote (R371). -/
def State.adoptionVote (s : State) (pan station : Nat) : Option GroupSt :=
  let b := s.pan pan
  match b.station station with
  | none => none
  | some d =>
    match d.exch with
    | none => none
    | some c =>
      match s.group c.group with
      | none => none
      | some g =>
        if (c.purpose = 1 ∨ c.purpose = 3) ∧ g.job = b.job ∧ (s.job b.job).st = .restoring ∧ (s.ckpJob b.job).adopting ∧
            !(s.ckpJob b.job).voted then some g
        else none

/-- A barrier of one bit: a plain BARRIER has no payload. -/
def barrierOp (pan station purpose : Nat) (bit : Bool) : WOp :=
  { level := 0, wgroup := 0, opnum := 0, group := 0, pan := pan, station := station, purpose := purpose
    type := if purpose = 0 then 2 else 3, opc := if purpose = 0 then 0 else 27
    own := some (if purpose = 0 then [] else toLe 32 (b2n bit)) }

/-- BARRIER (R297). -/
def execBarrier (pan station : Nat) (bit : Bool) (s : State) : Out :=
  .next (
    match s.adoptionVote pan station with
    | some g =>
      (s.modCkp g.job (fun k => { k with voted := true })).issueWop g (barrierOp pan station 3 true)
    | none =>
      match s.exchStation pan station 6 with
      | none => s
      | some (d, c, g) =>
        s.stationWop pan d c g (barrierOp pan station (c.purpose % 3) (s.barrierBit g.job c bit)))

end Sys2Proof.Machine
end

