-- ==== Sys2Proof/Machine/Packets.lean ====
section
/-!
DEFINITION. Requests served for other devices, responses to this device's own, and the order and once-only rules
they keep (R261, R266, R270 to R275, R279).
-/

namespace Sys2Proof.Machine

/-! ## Answers -/

def portFd (port : Nat) : Nat := 18 + port / 16

/-- A response to a request's source, on the request's VC. -/
def State.respond (s : State) (port : Nat) (p : Packet) (type : Nat) (b : List Byte) (status : Nat := 0) (poison : Bool := false) :
    State :=
  s.transmit (portFd port)
    { device := p.src, space := p.space, offset := p.offset, src := s.device, type := type, vc := p.vc, poison := poison
      len := b.length, job := p.job, op := status, tagIdx := p.tagIdx, tagGen := p.tagGen, jobgen := p.jobgen, boot := s.bootLow
      payload := b }

/-- A request is refused with a NAK to its source (R280). -/
def State.refuse (s : State) (port : Nat) (p : Packet) (reason : Nat) : State :=
  s.out (s.bestPort (portFd port) p.src 0)
    { device := p.src, src := s.device, type := 2, op := reason, offset := p.seq, tagIdx := p.tagIdx, tagGen := p.tagGen
      boot := s.bootLow }

/-- Acknowledgement of a broadcast to the parent; it carries the source in its address. -/
def State.ackParent (s : State) (port : Nat) (p : Packet) : State :=
  s.offer port
    { device := s.getF R.FAB_PSTAT_PEER (fabLoc port), offset := p.src, src := s.device, type := 0x21, vc := p.vc
      bcast := true, job := p.job, tagIdx := p.tagIdx, tagGen := p.tagGen, jobgen := p.jobgen, boot := s.bootLow }

/-! ## Access (R261, R271) -/

/-- What a request meets. -/
inductive Access3 where
  | granted | stale | denied
deriving DecidableEq, Repr

/-- The job of a packet and its generation. -/
def State.jobAccess (s : State) (p : Packet) : Access3 :=
  let j := s.job p.job
  if j.st = .none ∨ j.st = .destroyed then .denied else if p.jobgen ≠ j.gen then .stale else .granted

/-- A range of a fixed pool that the bit-stream grants to the packet's job. -/
def State.rangeAccess (s : State) (p : Packet) (n : Nat) : Access3 :=
  match s.jobAccess p with
  | .granted =>
    if p.space ≤ 2 ∧ (s.jobDecl p.job).grants.any (fun g =>
        g.1 = p.space ∧ g.2.1 ≤ p.offset ∧ p.offset + n ≤ g.2.1 + g.2.2) then .granted
    else .denied
  | a => a

/-- An EPOCH packet names a weight set of the job. -/
def State.epochAccess (s : State) (p : Packet) : Access3 :=
  match s.jobAccess p with
  | .granted => match s.wset (fieldAt p.payload 0 1) with
    | some w => if w.job = p.job then .granted else .denied
    | none => .denied
  | a => a

/-- Serves a granted request; a stale one is dropped and counted, a denied one is a violation. -/
def State.guarded (s : State) (port : Nat) (p : Packet) (a : Access3) (f : State → State) : State :=
  match a with
  | .granted => f s
  | .stale => s.bump R.FAB_STALE_JOBGEN (lDie (portFd port))
  | .denied => (s.refuse port p 6).violation port 6

/-! ## Effects -/

/-- The operation and element type of an MSOP or ATOMIC; their encoding in OP is the model's. -/
def packetElem (p : Packet) : Elem :=
  match p.op / 16 with
  | 0 => .fp32
  | 1 => .bf16
  | 2 => .int32
  | _ => .int64

/-- A granted request to unmapped bytes is counted (R231). -/
def State.orUnmapped (s : State) (p : Packet) (n : Nat) (f : State → State) : State :=
  if s.mapped p.space p.offset n then f s else s.bump R.MOV_ERR_UNMAPPED (lDie (s.msDie p.space p.offset))

/-- A WRITE lands: contributions to an ordered reduction are noticed, and buddy data counted. -/
def State.landPacket (s : State) (p : Packet) : State :=
  let s := s.wrTier p.space p.offset p.payload
  let s := if p.space = 1 then s.hbmTouched p.offset p.payload.length else s
  let s := match s.landingAt p.job (p.space * 2 ^ 44 + p.offset) with
    | some (k, d, c) => s.landWrite k d c (p.space * 2 ^ 44 + p.offset) p.payload
    | none => s
  if p.vc = 5 then
    let n := s.ckp.rx + p.len
    { s with ckp := { s.ckp with rx := n % 1048576 } }.bump R.CKP_BUDDY_RXMIB lKeep (n / 1048576)
  else s

/-- An MSOP packet: one element, or vectors of 32 bytes. -/
def State.msopPacket (s : State) (p : Packet) : State :=
  let op := redOp (p.op % 16)
  let e := packetElem p
  let n := if p.len ≤ 32 then p.len else 32
  if p.space = 0 ∨ !msLegal op e p.offset n ∨ p.len % max 1 n ≠ 0 then s
  else forEach (chunks n (ceilDiv p.len (max 1 n)) p.payload).zipIdx s (fun s (x : List Byte × Nat) =>
    (s.msApply p.space (p.offset + n * x.2) op e x.1 []).2)

/-- Results older than RCACHE_MS leave the atomic result cache. -/
def State.purgeCache (s : State) : State :=
  let t := s.getF R.FAB_LIMIT_RCACHE_MS (lDie 18) * 1000000
  s.setFab { s.fab with rcache := s.fab.rcache.filter (fun r => s.time < r.stored + t) }

/-- The cached result of an ATOMIC. -/
def State.cached (s : State) (p : Packet) : Option RcEntry :=
  s.fab.rcache.find? (fun r => r.src = p.src ∧ r.boot = p.boot ∧ r.tagIdx = p.tagIdx ∧ r.tagGen = p.tagGen)

/-- FETCH_ADD (OP 0) or CAS (OP 1: the new value, then the compare value). -/
def State.atomicPacket (s : State) (port : Nat) (p : Packet) : State :=
  let e := packetElem p
  let op : MsOp := if p.op % 16 = 0 then .fetchAdd else .cas
  let n := if op = .cas then p.len / 2 else p.len
  let ok := p.space != 0 && msLegal op e p.offset n
  let s := if ok then s.orUnmapped p n id else s
  let (old, s) :=
    if ok && s.mapped p.space p.offset n then
      s.msApply p.space p.offset op e (p.payload.take n) (p.payload.drop n)
    else ([], s)
  let r : RcEntry := { src := p.src, boot := p.boot, tagIdx := p.tagIdx, tagGen := p.tagGen, value := old, stored := s.time }
  let s := if ok && p.space == 1 then s.hbmTouched p.offset n else s
  (s.setFab { s.fab with rcache := s.fab.rcache ++ [r] }).respond port p 0x24 old

/-- Destination stream of a source on a VC. -/
def State.ordSt (s : State) (src vc : Nat) : OrdSt := mgetD s.fab.streams (src * 8 + vc) {}
def State.setOrd (s : State) (src vc : Nat) (o : OrdSt) : State :=
  s.setFab { s.fab with streams := mput s.fab.streams (src * 8 + vc) o }

/-- Every request a FENCE lists has been applied. -/
def State.fenceMet (s : State) (p : Packet) : Bool :=
  (List.range 6).all (fun i =>
    decide (((s.ordSt p.src (i + 1)).next + 65535 - fieldAt p.payload (2 * i) 2) % 65536 < 32768))

/-- FENCEs whose requests have all been applied are acknowledged. -/
def State.answerFences (s : State) (port : Nat) : State :=
  let l := s.fab.fences
  forEach (l.filter s.fenceMet) (s.setFab { s.fab with fences := l.filter (fun p => !s.fenceMet p) })
    (fun s p => s.respond port p 0x2F [])

/-- An epoch state change (OP 0), a piece of a weight chunk (OP 1), or a device's counts of an epoch (OP 2); this form is
the model's (log 64). The status of the acknowledgement is 1 when the piece ends a chunk that is not good. -/
def State.epochPacket (s : State) (p : Packet) : State × Nat :=
  let b := p.payload
  let ws := fieldAt b 0 1
  match p.op with
  | 0 => (s.applyChange ws { epoch := fieldAt b 4 4, st := fieldAt b 1 1, cause := fieldAt b 2 1, step := fieldAt b 8 8
                             image := bit (fieldAt b 3 1) 0 }, 0)
  | 1 => s.streamPiece b
  | _ => (s.reported ws (fieldAt b 4 4) p.src (fieldAt b 8 4) (fieldAt b 12 4), 0)

/-- Applies a request in its turn; false when it is refused and its turn stays. -/
def State.applyReq (s : State) (port : Nat) (p : Packet) : State × Bool :=
  match p.type with
  | 0x10 => (s.guarded port p (s.rangeAccess p p.len) (fun s =>
      let bad := !s.mapped p.space p.offset p.len
      (s.orUnmapped p p.len id).respond port p 0x11 (s.rdTier p.space p.offset p.len) 0 bad), true)
  | 0x20 => (s.guarded port p (s.rangeAccess p p.len) (fun s =>
      (s.orUnmapped p p.len (·.landPacket p)).respond port p 0x21 []), true)
  | 0x22 => (s.guarded port p (s.rangeAccess p p.len) (fun s =>
      (s.orUnmapped p p.len (·.msopPacket p)).respond port p 0x21 []), true)
  | 0x23 =>
    let s := s.purgeCache
    match s.cached p with
    | some r => (s.respond port p 0x24 r.value, true)
    | none =>
      if 32768 ≤ s.fab.rcache.length then
        ((s.bump R.FAB_RCACHE_BUSY (lDie (portFd port))).refuse port p 9, false)
      else (s.guarded port p (s.rangeAccess p p.len) (fun s => s.atomicPacket port p), true)
  | 0x2E => (s.setFab { s.fab with fences := s.fab.fences ++ [p] }, true)
  | 0x30 => (s.guarded port p (s.jobAccess p) (fun s => (s.collIn p).respond port p 0x21 []), true)
  | 0x40 => (s.guarded port p (s.epochAccess p) (fun s =>
      let r := s.epochPacket p
      r.1.respond port p 0x21 [] r.2), true)
  | _ => (s.setFab { s.fab with telem := s.fab.telem ++ [p] }, true)

/-! ## Order (R274) -/

/-- Held successors apply in turn. -/
def drainHeld (src vc : Nat) : Nat → State → State
  | 0, s => s
  | n + 1, s =>
    let o := s.ordSt src vc
    match o.held.find? (fun h => h.2.ord = o.next) with
    | none => s
    | some h =>
      let s := s.setOrd src vc { o with held := o.held.filter (fun x => x.2.ord ≠ o.next) }
      let (s, ok) := s.applyReq h.1 h.2
      if ok then
        let o := s.ordSt src vc
        drainHeld src vc n (s.setOrd src vc { o with next := (o.next + 1) % 65536 })
      else s

/-- Packets in the reorder buffer of a fabric die. -/
def State.heldOn (s : State) (fd : Nat) : Nat :=
  s.fab.streams.foldl (fun n o => n + (o.2.held.filter (fun h => portFd h.1 = fd)).length) 0

/-- A duplicate. -/
def State.duplicate (s : State) (port : Nat) (p : Packet) : State :=
  let s := s.bump R.FAB_ORDER_DUP (lDie (portFd port))
  match p.type with
  | 0x10 => (s.applyReq port p).1
  | 0x23 =>
    let s := s.purgeCache
    match s.cached p with
    | some r => s.respond port p 0x24 r.value
    | none => s
  | 0x2E => s.respond port p 0x2F []
  | 0x60 => s
  | _ => s.respond port p 0x21 []

/-- A request meets its stream. -/
def State.ordered (s : State) (port : Nat) (p : Packet) : State :=
  let o := s.ordSt p.src p.vc
  let d := (p.ord + 65536 - o.next) % 65536
  if d = 0 then
    let (s, ok) := s.applyReq port p
    if ok then
      let o := s.ordSt p.src p.vc
      (drainHeld p.src p.vc o.held.length (s.setOrd p.src p.vc { o with next := (o.next + 1) % 65536 })).answerFences port
    else s
  else if d ≤ 255 then
    if o.held.any (fun h => h.2.ord = p.ord) then s
    else if 4096 ≤ s.heldOn (portFd port) then (s.bump R.FAB_RCACHE_BUSY (lDie (portFd port))).refuse port p 9
    else s.setOrd p.src p.vc { o with held := o.held ++ [(port, p)] }
  else if 32768 ≤ d then s.duplicate port p
  else s.refuse port p 2

/-! ## Broadcast (R279) -/

/-- A broadcast goes down the tree; with no child left it is acknowledged to the parent. -/
def State.relayDown (s : State) (port : Nat) (p : Packet) (answer : Bool) : State :=
  let all := (s.children (portFd port) p.device).filter (fun c => c ≠ port)
  let l := if p.hops ≤ 1 then [] else all
  let s := if p.hops ≤ 1 ∧ !all.isEmpty then s.bump R.FAB_PXFER_TTLDROP (fabLoc port) else s
  let kids := l.map (fun c => s.getF R.FAB_PSTAT_PEER (fabLoc c))
  let s := forEach l s (fun s c => s.offer c { p with hops := p.hops - 1 })
  if !answer then s
  else if kids.isEmpty then s.ackParent port p
  else s.setFab { s.fab with relays := s.fab.relays ++ [{ parent := some port, pkt := p, children := kids }] }

/-- A broadcast WRITE is applied here and relayed. -/
def State.bcastWrite (s : State) (port : Nat) (p : Packet) : State :=
  let a := s.rangeAccess p p.len
  (s.guarded port p a (fun s => s.orUnmapped p p.len (·.landPacket p))).relayDown port p (decide (a = .granted))

/-! ## Arrival (R271) -/

/-- The boot generation of a packet: an older one is dropped, a newer one starts the source's streams again. -/
def State.bootCheck (s : State) (port : Nat) (p : Packet) : State × Bool :=
  let d := match mget s.fab.boots p.src with
    | none => 0
    | some b => (p.boot + 65536 - b) % 65536
  if 32768 ≤ d then (s.bump R.FAB_STALE_BOOT (lDie (portFd port)), false)
  else
    let st := if d = 0 then s.fab.streams else s.fab.streams.filter (fun o => o.1 / 8 ≠ p.src)
    (s.setFab { s.fab with boots := mput s.fab.boots p.src p.boot, streams := st }, true)

/-- The port a packet came through, and the packet out of the inbox. -/
def State.takeIn (s : State) (p : Packet) : Nat × State :=
  match s.fab.inbox.find? (fun x => x.2 = p) with
  | some x => (x.1, s.setFab { s.fab with inbox := s.fab.inbox.erase x })
  | none => (0, s)

/-- A packet for this device, of the type its row names. -/
def State.arrive (s : State) (p : Packet) (f : State → Nat → State) : State :=
  let (port, s) := s.takeIn p
  match packetWrong p true with
  | some r => (s.refuse port p r).violation port r
  | none =>
    let (s, ok) := s.bootCheck port p
    if ok then f s port else s

/-- A request of a stream. -/
def State.request1 (s : State) (p : Packet) (type : Nat) : State :=
  let q := { p with type := type }
  let (port, s) := s.takeIn p
  ({ s with fab := { s.fab with inbox := (port, q) :: s.fab.inbox } }).arrive q (fun s port =>
    if q.bcast then s.bcastWrite port q else s.ordered port q)

/-- READ (R274). -/
def execRead (p : Packet) (s : State) : Out := .next (s.request1 p 0x10)

/-- WRITE (R275, R279). -/
def execWrite (p : Packet) (s : State) : Out := .next (s.request1 p 0x20)

/-- MSOP (R266). -/
def execMsop (p : Packet) (s : State) : Out := .next (s.request1 p 0x22)

/-- ATOMIC (R273). -/
def execAtomic (p : Packet) (s : State) : Out := .next (s.request1 p 0x23)

/-- FENCE (R275). -/
def execFence (p : Packet) (s : State) : Out := .next (s.request1 p 0x2E)

/-- EPOCH (R266, R183). -/
def execEpoch (p : Packet) (s : State) : Out := .next (s.request1 p 0x40)

/-- TELEM (R266). -/
def execTelem (p : Packet) (s : State) : Out := .next (s.request1 p 0x60)

/-- COLL_DONE (R287). -/
def execCollDone (p : Packet) (s : State) : Out := .next (s.request1 p 0x30)

/-! ## Responses (R270, R275) -/

/-- An outstanding request ends with its answer's bytes, and what it served goes on. -/
def State.complete (s : State) (idx : Nat) (r : OutReq) (answer : List Byte) : State :=
  let s := s.endReq idx
  match r.use with
  | .coll k c => s.chunkAck k c
  | .claim _ ring i k => s.claimAnswer ring i k (if answer.length = 8 then some (fieldAt answer 0 8) else none)
  | .write _ | .other => s

/-- A child's acknowledgement of a broadcast. -/
def State.treeAck (s : State) (p : Packet) : State :=
  let mine (r : Relay) : Bool := r.pkt.src == p.offset && r.pkt.tagIdx == p.tagIdx && r.pkt.tagGen == p.tagGen
  match s.fab.relays.find? (fun r => mine r && r.children.contains p.src) with
  | none => s
  | some r =>
    let left := r.children.erase p.src
    let rest := s.fab.relays.filter (fun x => !mine x)
    if !left.isEmpty then s.setFab { s.fab with relays := rest ++ [{ r with children := left }] }
    else
      let s := s.setFab { s.fab with relays := rest }
      match r.parent with
      | some port => s.ackParent port r.pkt
      | none => match mget s.fab.reqs p.tagIdx with
        | some q => if q.pkt.tagGen = p.tagGen then s.complete p.tagIdx q [] else s
        | none => s

/-- A response: it ends its request, or is dropped as stale. -/
def State.response1 (s : State) (p : Packet) (type : Nat) (keep : Bool) : State :=
  let q := { p with type := type }
  let (port, s) := s.takeIn p
  let (s, ok) := s.bootCheck port q
  if !ok then s
  else if q.bcast then s.treeAck q
  else match mget s.fab.reqs q.tagIdx with
    | some r =>
      if r.pkt.tagGen = q.tagGen then
        let s := if keep then { s with tier := { s.tier with results := s.tier.results ++ [(q.tagIdx, q.payload)] } } else s
        s.complete q.tagIdx r q.payload
      else s.bump R.FAB_STALE_TAG (lDie (portFd port))
    | none => s.bump R.FAB_STALE_TAG (lDie (portFd port))

/-- READ_RSP (R270). -/
def execReadRsp (p : Packet) (s : State) : Out := .next (s.response1 p 0x11 true)

/-- WRITE_ACK (R275). -/
def execWriteAck (p : Packet) (s : State) : Out := .next (s.response1 p 0x21 false)

/-- ATOMIC_RSP (R270). -/
def execAtomicRsp (p : Packet) (s : State) : Out := .next (s.response1 p 0x24 true)

/-- FENCE_ACK (R275). -/
def execFenceAck (p : Packet) (s : State) : Out := .next (s.response1 p 0x2F false)

/-! ## Remote requests that end (R251, R292) -/

/-- The rank a chunk of an EXCHANGE goes to. -/
def State.chunkRank (s : State) (k chunk : Nat) : Option Nat :=
  match s.exch k with
  | none => none
  | some x => (x.inFlight.find? (fun c => c.1 = chunk)).map (·.2.1.rank)

/-- A remote request has ended under R251: its EXCHANGE treats the member as dead. -/
def State.remoteEnd (s : State) (idx : Nat) : State :=
  match mget s.fab.reqs idx with
  | none => s
  | some r =>
    match r.use with
    | .write _ | .other => s.endReq idx
    | .claim _ ring i k => (s.endReq idx).claimAnswer ring i k none
    | .coll k c =>
      let rank := s.chunkRank k c
      let s := s.endReq idx
      match rank with
      | some q => s.exchDead k q
      | none => s

/-- TIER_TIMEOUT (R251). -/
def execTierTimeout (req : Nat) (s : State) : Out :=
  .next (
    match mget s.tier.reqs req with
    | none => s
    | some r =>
      if r.ended then s
      else match r.dest with
        | .remote idx => (s.tierTimeout req).remoteEnd idx
        | _ => s.tierTimeout req)

end Sys2Proof.Machine
end

