-- ==== Sys2Proof/Machine/Clock.lean ====
section
/-!
DEFINITION. Device TIME, the keeper lease, resets and bring-up, power and thermal limits (R320, R396 to R410, R436,
R437, R441).
-/

namespace Sys2Proof.Machine

def State.setClk (s : State) (c : ClkSt) : State := { s with clk := c }

/-! ## Device TIME (R320, R396, R397) -/

/-- One period of SCLK, 5 ns: a pending correction is slewed at 200 ppm, a thousandth of a ns per period. -/
def State.tick (s : State) : State :=
  let c := s.clk
  if c.slew = 0 then { s with time := s.time + 5 }
  else if c.slewRem < 999 then { s with time := s.time + 5, clk := { c with slewRem := c.slewRem + 1 } }
  else if 0 < c.slew then { s with time := s.time + 6, clk := { c with slewRem := 0, slew := c.slew - 1 } }
  else { s with time := s.time + 4, clk := { c with slewRem := 0, slew := c.slew + 1 } }

/-- A correction of TIME by `off` ns: a step before READY, a slew from then on; the alarm when it takes more than
100 ms of slewing. -/
def State.correct (s : State) (off : Int) : State :=
  if !s.clk.ready then { s with time := ((s.time : Int) + off).toNat }
  else
    let s := s.setClk { s.clk with slew := off }
    if 20000 < off.natAbs then s.alarm Kind.timeSlew 0xFF (alarmKey s.device 0) else s

/-- GPTP_SYNC (R320, R396): a grandmaster takes no Sync; TIME follows it while SRC is 01b. -/
def execGptpSync (hd : Nat) (offsetNs : Int) (s : State) : Out :=
  need (decide (hd < 2)) "host die" (.next (
    let l := lDie (16 + hd)
    if s.getB R.WPT_TSYNC_GM l then s
    else
      let s := ((s.setF R.WPT_TSYNC_LOCKED l 1).setF R.WPT_TSYNC_HOLDOVER l 0).setF R.WPT_TSYNC_OFFSET_NS l
        (uInt 32 (-offsetNs))
      if s.getF R.CLK_TSRC_SRC lKeep = 1 then (s.setF R.CLK_TSTAT_LOCKED lKeep 1).correct (-offsetNs) else s))

/-- TIME_HOLDOVER (R320). -/
def execTimeHoldover (hd : Nat) (s : State) : Out :=
  need (decide (hd < 2)) "host die" (.next (
    let l := lDie (16 + hd)
    if s.getB R.WPT_TSYNC_LOCKED l then
      let s := (s.setF R.WPT_TSYNC_LOCKED l 0).setF R.WPT_TSYNC_HOLDOVER l 1
      let s := if s.getF R.CLK_TSRC_SRC lKeep = 1 then s.setF R.CLK_TSTAT_LOCKED lKeep 0 else s
      s.alarm Kind.timeHoldover 0xFF (alarmKey (16 + hd) 0)
    else s))

/-- The master's TIME leaves in a MGMT packet on VC7. PRESUMED (log 135): on broadcast tree 0, TIME as its payload. -/
def State.sendTimeOut (s : State) : State :=
  let p : Packet := { device := 0, src := s.device, type := 0x70, vc := 7, bcast := true, len := 8, boot := s.bootLow
                      hops := 32, payload := toLe 8 s.time }
  s.sendReq p

/-- FABRIC_TIME (R396): the master sends its TIME; a device that it names as master is followed, corrected by half the
round trip. -/
def execFabricTime (src time halfRtt : Nat) (s : State) : Out :=
  .next (
    if s.getF R.CLK_TSRC_SRC lKeep ≠ 2 ∨ s.getF R.CLK_TSRC_MASTER lKeep ≠ src then s
    else if src = s.device then s.sendTimeOut
    else
      (s.setF R.CLK_TSTAT_LOCKED lKeep 1).correct ((time + halfRtt : Nat) - (s.time : Int)))

/-- PPS_PULSE (R441): the pins pulse at the next whole second of TIME, while locked. -/
def execPpsPulse (s : State) : Out :=
  .next (
    if s.getB R.WPT_TSYNC_LOCKED (lDie 16) || s.getB R.WPT_TSYNC_LOCKED (lDie 17) then
      let t := ceilDiv s.time 1000000000 * 1000000000
      let s := s.until t
      s.setClk { s.clk with pps := s.clk.pps + 1, ppsUntil := t + 1000 }
    else s)

/-! ## The keeper lease (R398 to R402) -/

def State.role (s : State) (hd : Nat) : LeaseRun := if hd = 0 then s.clk.role0 else s.clk.role1

def State.setRole (s : State) (hd : Nat) (r : LeaseRun) : State :=
  s.setClk (if hd = 0 then { s.clk with role0 := r } else { s.clk with role1 := r })

/-- A RENEW is the last one of which a die knows, its own among them. -/
def State.renewed (s : State) (hd : Nat) : State :=
  s.setClk (if hd = 0 then { s.clk with lastRenew0 := s.time } else { s.clk with lastRenew1 := s.time })

/-- A die sees a RENEW or a claim of the other. -/
def State.saw (s : State) (hd : Nat) : State :=
  s.setClk (if hd = 0 then { s.clk with seen0 := some s.time } else { s.clk with seen1 := some s.time })

def State.heard (s : State) (hd : Nat) : State := (s.renewed hd).saw hd

/-- A die's view takes a term. -/
def State.view (s : State) (hd term : Nat) : State := s.setF R.AON_LEASE_TERM (lDie (16 + hd)) term

/-- A keeper becomes a follower. -/
def State.unkeep (s : State) (hd : Nat) : State :=
  (s.setRole hd .follower).setF R.AON_LEASE_KEEPER (lDie (16 + hd)) 0

/-- A keeper is fenced by a higher term. -/
def State.fence (s : State) (hd term : Nat) : State :=
  (((s.unkeep hd).setF R.AON_LEASE_FENCED (lDie (16 + hd)) 1).view hd term).bump R.AON_LCNT_CONFLICTS (lDie (16 + hd))

/-- The keeper sends RENEW of its term. -/
def State.sendRenew (s : State) (hd : Nat) : State :=
  (s.setClk { s.clk with sentRenew := some (hd, s.term hd, s.time) }).renewed hd

/-- A claim wins: the witness and the die's view take the next term. -/
def State.win (s : State) (hd : Nat) : State :=
  let t := (s.clk.witTerm + 1) % 2 ^ 32
  let s := s.setClk { s.clk with witTerm := t, witHolder := 16 + hd }
  let l := lDie (16 + hd)
  ((((s.setRole hd .keeper).view hd t).setF R.AON_LEASE_KEEPER l 1).setF R.AON_LEASE_FENCED l 0)

/-- RENEW (R398, R399): the keeper sends its term to the other die; a higher term of the witness fences it. -/
def execRenew (hd : Nat) (s : State) : Out :=
  need (decide (hd < 2)) "host die" (.next (
    if s.role hd ≠ .keeper then s
    else if s.term hd < s.clk.witTerm then s.fence hd s.clk.witTerm
    else s.sendRenew hd))

/-- RENEW_RECEIVE (R399): keeps a follower; a higher term fences a keeper. -/
def execRenewReceive (hd term : Nat) (s : State) : Out :=
  need (decide (hd < 2)) "host die" (.next (
    if term < s.term hd then s
    else match s.role hd with
      | .keeper => if s.term hd < term then (s.fence hd term).heard hd else s
      | .follower => (s.view hd term).heard hd
      | .claiming => if s.term hd < term then ((s.setRole hd .follower).view hd term).heard hd else s))

/-- LEASE_TIMEOUT (R399): a healthy follower claims after 100 µs without RENEW. -/
def execLeaseTimeout (hd : Nat) (healthy : Bool) (s : State) : Out :=
  need (decide (hd < 2)) "host die" (.next (
    if s.role hd ≠ .follower ∨ !s.stewardUp ∨ s.clk.off.contains (16 + hd) then s
    else
      let s := s.until ((if hd = 0 then s.clk.lastRenew0 else s.clk.lastRenew1) + 100000)
      if healthy then s.setRole hd .claiming else s))

/-- The witness applies one claim (R400). -/
def State.applyClaim (s : State) (hd : Nat) : State :=
  if s.role hd ≠ .claiming then s
  else
    let s := s.saw (1 - hd)
    if s.clk.witTerm = s.term hd then ((s.win hd).sendRenew hd).bump R.AON_LCNT_TAKEOVERS (lDie (16 + hd))
    else ((s.setRole hd .follower).view hd s.clk.witTerm).bump R.AON_LCNT_CONFLICTS (lDie (16 + hd))

/-- WITNESS_CAS (R400): claims of one SCLK cycle, HD0's first. -/
def execWitnessCas (claims : List Nat) (s : State) : Out :=
  .next (forEach ([0, 1].filter (fun hd => claims.contains hd)) s State.applyClaim)

/-- YIELD (R399): no effect on a follower. -/
def State.yieldLease (s : State) (hd : Nat) : State := if s.role hd = .keeper then s.unkeep hd else s

/-- STEWARD_WATCHDOG (R399). -/
def execStewardWatchdog (hd : Nat) (s : State) : Out :=
  need (decide (hd < 2)) "host die" (.next (s.yieldLease hd))

/-- HOST_DIE_LOST (R402): HD0 loses main power; the audit log takes no record from then on. -/
def execHostDieLost (s : State) : Out :=
  .next (
    if s.clk.hd0Lost then s
    else
      let s := (s.unkeep 0).setClk { (s.unkeep 0).clk with hd0Lost := true, off := 16 :: s.clk.off }
      s.alarm Kind.hostDieLost 0xFF (alarmKey 16 0))

/-! ## Resets (R403, R441) -/

/-! Causes in AON_RST.CAUSE (R412). -/

namespace Cause
def cold := 1
def pin := 2
def warm := 3
def thermal := 4
def supply := 5
end Cause

/-- Register fields that outlast a reset in the AON island: the boot generation always, the device number and BIST
but for a cold reset. -/
def State.aonKept (s : State) (cold advance : Bool) (cause : Nat) (t : State) : State :=
  let l := lDie 16
  let t := (t.setF R.AON_BOOTCNT_BOOT l (s.getF R.AON_BOOTCNT_BOOT l + b2n advance)).setF R.AON_RST_CAUSE l cause
  if cold then t
  else
    let keep (t : State) (f : Fld) : State := t.setF f l (s.getF f l)
    keep (keep (keep t R.AON_DEVNUM_DEVICE) R.AON_DEVNUM_VALID) R.AON_RST_BIST

/-- The state as a reset begins: TIME 0, jobs, keys and registers gone; flash keeps its data and its map. -/
def State.afterReset (s : State) (cause : Nat) (advance : Bool) : State :=
  let cold := cause == Cause.cold
  let c : ClkSt :=
    { witTerm := if cold then 0 else s.clk.witTerm
      witHolder := if cold then 16 else s.clk.witHolder
      i3cAddr := s.clk.i3cAddr, perst0 := s.clk.perst0, perst1 := s.clk.perst1, vin48 := s.clk.vin48, vsb33 := s.clk.vsb33
      bootStep := if cold then 1 else 2 }
  s.aonKept cold advance cause
    { pending := s.pending, free := s.free
      mem := s.mem.filter (fun x => x.1 / 2 ^ 44 = 3)
      tier := { flash := s.tier.flash }
      clk := c }

/-! ## Bring-up (R404) -/

def State.atStep (s : State) (n : Nat) : State := s.setClk { s.clk with bootStep := n }

/-- A step fails: FAIL and its CODE. -/
def State.bootFails (s : State) (code : Nat) : State := s.setClk { s.clk with bootFail := true, bootCode := code % 256 }

/-- A failed self-test of a unit (R426): a brick is unavailable, any other unit disabled until reset. -/
def State.unitFails (s : State) (block : Nat) : State :=
  let code := bits block 7 0
  let die := bits block 12 8
  let s := s.alarm Kind.bistFail 0xFF (alarmKey die (block % 2 ^ 24))
  if 0x80 ≤ code then s.setF R.BRK_STAT_AVAIL (lBrick die (code - 0x80)) 0
  else { s with obsv := { s.obsv with disabled := block % 2 ^ 20 :: s.obsv.disabled } }

/-- Steps 7 and 8: self-test when AON_RST.BIST is set, READY. -/
def State.boot7 (s : State) (b : BootIn) : State :=
  let s := s.atStep 7
  let s := if s.getB R.AON_RST_BIST (lDie 16) then forEach b.bistFailed s State.unitFails else s
  let s := s.atStep 8
  s.setClk { s.clk with ready := true, pinReady := true }

/-- A mortar port trains, or is DISABLED when it faces no die (R131). -/
def State.trainMortar (s : State) (b : BootIn) (i : Nat) : State :=
  let l := lIdx (i / 4) (i % 4)
  match mortarPeer (i / 4) (i % 4) with
  | some p =>
    ((s.setF R.D2D_LSTAT_STATE l 2).setF R.D2D_LSTAT_PEER l p).setF R.D2D_LSTAT_REPAIRED l (nth b.mortarRepaired i 0)
  | none => s.setF R.D2D_LSTAT_STATE l 4

/-- Step 6: the links. Fabric ports and whistle rings begin training; their outcomes are commands of their own. -/
def State.boot6 (s : State) (b : BootIn) : State :=
  let s := s.atStep 6
  let s := s.setClk { s.clk with bootWait := 0, bootCode := 0 }
  let n := s.getF R.AON_DEVNUM_DEVICE (lDie 16)
  let s := (s.setF R.FAB_ID_DEVICE (lDie 18) n).setF R.FAB_ID_DEVICE (lDie 19) n
  let s := { s with wo1 := R.FAB_ID_DEVICE.key (lDie 18) :: R.FAB_ID_DEVICE.key (lDie 19) :: s.wo1 }
  let s := forEach (List.range 64) s (fun s i => s.trainMortar b i)
  let s := forEach (List.range 32) s State.enablePort
  let s := forEach (List.range 8) s (fun s q =>
    if s.unitOut (portDie q) 0x18 (q % 4) then s else s.setF R.WPT_PSTAT_STATE (portLoc q) 1)
  let s := (s.setB R.LLP_ID_BRIDGE1 (lDie 18) b.bridge1).setB R.LLP_ID_BRIDGE2 (lDie 18) b.bridge2
  let levels := 0 :: ((if b.bridge1 then [1] else []) ++ (if b.bridge2 then [2] else []))
  (forEach levels s State.retrainRing).boot7 b

/-- HBM stacks (R243, R244): true when one is unrepairable. -/
def State.trainHbm (s : State) (t : Training) : Bool × State :=
  let x (i : Nat) : Bool × Nat := nth t.hbm i (true, 0)
  ((List.range 16).any (fun i => (x i).1),
    forEach (List.range 16) s (fun s i =>
      (s.setF R.HBM_TRAIN_STATE (lDie i) (if (x i).1 then 3 else 2)).setF R.HBM_TRAIN_REPAIRED (lDie i) (x i).2))

/-- LPDDR interfaces (R244, R245): a configuration that is not supported fails. -/
def State.trainLpd (s : State) (t : Training) : State :=
  let x (i : Nat) : Bool × Nat × Bool × Nat := nth t.lpd i (false, 0, false, 0)
  let good (i : Nat) : Bool := (x i).1 && decide ((x i).2.1 ≤ 2) && [8, 16, 32, 48, 64].contains (x i).2.2.2
  let s := forEach (List.range 16) s (fun s i =>
    let l := lpdLoc i
    if good i then
      ((((s.setF R.LPD_CFG_PRESENT l 1).setF R.LPD_CFG_RATE l (x i).2.1).setB R.LPD_CFG_RANKS2 l (x i).2.2.1).setF
        R.LPD_CFG_GIB l (x i).2.2.2).setF R.LPD_STAT_STATE l 2
    else s.setF R.LPD_STAT_STATE l 3)
  let view := s.lpdBytes 0 != 0 && (List.range 16).all (fun i => s.lpdBytes i == s.lpdBytes 0)
  (s.setB R.LPD_VIEW_DI (lDie 16) view).setB R.LPD_VIEW_DI (lDie 17) view

/-- A fabric die's flash is formatted at its first training: factory-marked blocks excluded, seven eighths of the
good capacity logical (R247). -/
def State.formatFlash (s : State) (t : Training) (fd gib : Nat) : State :=
  let f := s.flash fd
  let s := if f.raw ≠ 0 then s.setFlash fd f.scan
    else
      let bad := (t.factory.filter (fun x => x.1 = fd)).map (·.2)
      let raw := gib * 16
      s.setFlash fd { f with
        raw := raw, logical := (raw - bad.length) * 7 / 8
        blocks := bad.foldl (fun m b => mput m b { factory := true }) f.blocks }
  let f := s.flash fd
  let s := s.setF R.NVT_BAD_FACTORY (lDie fd) (f.blocks.filter (fun b => b.2.factory)).length
  ((s.setF R.NVT_SPACE_LOGICAL_GIB (lDie fd) (f.logical / 16)).flashSpare fd).flashWear fd

/-- ONFI channels (R243, R244, R246). -/
def State.trainOnfi (s : State) (t : Training) : State :=
  let x (i : Nat) : Bool × Bool × Nat × Nat := nth t.onfi i (false, false, 0, 0)
  let s := forEach (List.range 16) s (fun s i =>
    let l := lIdx (18 + i / 8) (i % 8)
    if (x i).1 then
      (((s.setF R.NVT_CHSTAT_STATE l 2).setB R.NVT_CHSTAT_SLOW l (x i).2.1).setF R.NVT_CHSTAT_TARGETS l (x i).2.2.1).setF
        R.NVT_CHSTAT_RAW_GIB l (x i).2.2.2
    else s.setF R.NVT_CHSTAT_STATE l 3)
  let gib (fd : Nat) : Nat :=
    (((List.range 8).map (fun c => x ((fd - 18) * 8 + c))).map (fun y => if y.1 then y.2.2.2 else 0)).foldl (· + ·) 0
  (s.formatFlash t 18 (gib 18)).formatFlash t 19 (gib 19)

/-- Step 5: memory training; then the wait for the device number (R405). -/
def State.boot5 (s : State) (b : BootIn) : State :=
  let s := s.atStep 5
  let (bad, s) := s.trainHbm b.training
  let s := (s.trainLpd b.training).trainOnfi b.training
  if bad then
    let (code, s) := s.draw 8
    s.bootFails code
  else if s.getB R.AON_DEVNUM_VALID (lDie 16) then s.boot6 b
  else (s.atStep 6).setClk { (s.atStep 6).clk with bootWait := 2, bootCode := 2, bootIn := b }

/-- The first keeper: both dies are followers without RENEW, and HD0's claim is applied first (R399, R400). -/
def State.firstLease (s : State) : State :=
  ((s.view 0 s.clk.witTerm).view 1 s.clk.witTerm).win 0

/-- Step 4: the steward firmware. -/
def State.boot4 (s : State) (b : BootIn) : State :=
  let s := s.atStep 4
  if b.firmwareOk then
    let s := s.setClk { s.clk with fwDigest := b.fwDigest }
    s.firstLease.boot5 b
  else
    let (code, s) := s.draw 8
    s.bootFails code

/-- Step 3: VIN48 must be within range (R436). -/
def State.boot3 (s : State) (b : BootIn) : State :=
  let s := (s.atStep 3).setClk { (s.atStep 3).clk with vin48 := b.vin48, bootFail := false, bootCode := 0, bootWait := 0 }
  if b.vin48 then s.boot4 b
  else s.setClk { s.clk with bootFail := true, bootCode := 1, bootWait := 1 }

/-- COLD_RESET (R403): from step 1. -/
def execColdReset (boot : BootIn) (s : State) : Out :=
  .next (
    let s := s.afterReset Cause.cold true
    (s.setClk { s.clk with vsb33 := true, i3cAddr := boot.i3cAddr % 8 }).boot3 boot)

/-- WARM_RESET (R403): from step 2. -/
def execWarmReset (byPin : Bool) (boot : BootIn) (s : State) : Out :=
  .next ((s.afterReset (if byPin then Cause.pin else Cause.warm) true).boot3 boot)

/-- BOOT_STEP_TIMEOUT (R404): waits are not counted in a step's time. -/
def execBootStepTimeout (s : State) : Out :=
  .next (
    if s.clk.ready ∨ s.clk.bootWait ≠ 0 ∨ s.clk.bootFail ∨ s.clk.bootStep = 0 then s
    else
      let (code, s) := s.draw 8
      s.bootFails code)

/-- VIN48_ARRIVAL (R436): a device that waits at step 3 retries. -/
def execVin48Arrival (boot : BootIn) (s : State) : Out :=
  .next (
    if s.clk.bootWait = 1 then s.boot3 { boot with vin48 := true } else s.setClk { s.clk with vin48 := true })

/-- A device that waits at step 6 goes on once the number is valid (R405). -/
def State.numberArrives (s : State) (boot : BootIn) : State :=
  if s.clk.bootWait = 2 ∧ s.getB R.AON_DEVNUM_VALID (lDie 16) then s.boot6 boot else s

/-- PERST_RELEASE (R406): until step 4 ends, requests are answered with Request Retry Status. -/
def execPerstRelease (hd : Nat) (s : State) : Out :=
  need (decide (hd < 2)) "host die" (.next (
    s.setClk (if hd = 0 then { s.clk with perst0 := true } else { s.clk with perst1 := true })))

/-! ## Supplies (R437) -/

/-- Whether a VIN48 excursion is a fault. -/
def vin48Bad (milliVolts us : Nat) : Bool :=
  decide (60000 < milliVolts) || (decide (58000 < milliVolts) && decide (100000 < us))
    || (decide (milliVolts < 38000) && decide (10 < us)) || (decide (milliVolts < 40000) && decide (1000 < us))

/-- VIN48_FAULT: a supply-fault reset that waits at step 3; a VSB33 fault comes before it. -/
def execVin48Fault (milliVolts us : Nat) (s : State) : Out :=
  .next (if s.clk.vsb33 && vin48Bad milliVolts us then (s.afterReset Cause.supply true).boot3 { vin48 := false } else s)

/-- VSB33_FAULT: the regulators go off; the cold reset follows when VSB33 returns. -/
def execVsb33Fault (us : Nat) (s : State) : Out :=
  .next (
    if 10 < us then
      let t := s.afterReset Cause.cold false
      t.setClk { t.clk with vsb33 := false, bootStep := 0, off := List.range 20 }
    else s)

/-! ## Power (R353, R409) -/

/-- A pan holds a DRAW or PUBLISH station. -/
def Pan.learns (p : Pan) : Bool := p.cfg.stations.any (fun d => d.kind == 8 || d.kind == 0xB)

/-- The class of a pan in the order of throttling, 1 to 3. -/
def State.dutyClass (s : State) (p : Nat) : Nat :=
  if s.liveServing p then 3 else if (s.pan p).learns then 1 else 2

def State.duty (s : State) (p : Nat) : Nat := s.getF R.CLK_PDUTY_DUTY (lKeepI p)

def State.dutyFloor (s : State) (p : Nat) : Nat :=
  if s.dutyClass p = 3 then s.getF R.CLK_PDUTY_RESERVE (lKeepI p) else 1

/-- `a` is throttled before `b`: class, then highest duty, then lowest index. -/
def State.throttleFirst (s : State) (a b : Nat) : Bool :=
  let ca := s.dutyClass a
  let cb := s.dutyClass b
  decide (ca < cb) || (ca == cb && (decide (s.duty b < s.duty a) || (s.duty b == s.duty a && decide (a < b))))

/-- The pans that are not FREE and meet a condition. -/
def State.dutyPans (s : State) (f : Nat → Bool) : List Nat :=
  (s.sch.pans.filter (fun p => p.2.st ≠ .free ∧ f p.1)).map (·.1)

/-- The first of some pans in an order. -/
def pickPan (before : Nat → Nat → Bool) (l : List Nat) : Option Nat :=
  l.foldl (fun m p => match m with
    | none => some p
    | some q => if before p q then some p else some q) none

def State.setDuty (s : State) (p v : Nat) : State :=
  (s.setF R.CLK_PDUTY_DUTY (lKeepI p) v).bump R.CLK_THR_STEPS lKeep

/-- Precedence level of a pan's guarantee (R353). -/
def State.guarantee (s : State) (p : Nat) : Nat := if s.liveServing p then 2 else 4

/-- A reduction that favours another job's pan is a yield of the power cap. -/
def State.yieldPower (s : State) (p : Nat) : State :=
  let others := s.dutyPans (fun q => decide ((s.pan q).job ≠ (s.pan p).job))
  match pickPan (fun a b => s.throttleFirst b a) others with
  | none => s
  | some q =>
    let s := (s.bump R.HCX_YIELD_COUNT (lDie (16 + s.keeper.getD 0))).setF R.HCX_YIELD_LAST
      (lDie (16 + s.keeper.getD 0)) (s.guarantee p)
    s.alarm Kind.guaranteeYield (s.pan p).job (alarmKey 16
      (2 * 2 ^ 32 + (s.pan p).job * 2 ^ 24 + s.guarantee p * 2 ^ 16 + (s.pan q).job * 2 ^ 8 + s.guarantee q))

/-- Lowers the duty of the first pan above its floor among some; none when all stand at theirs. -/
def State.lowerDuty (s : State) (f : Nat → Bool) : Option State :=
  match pickPan s.throttleFirst (s.dutyPans (fun p => f p && decide (s.dutyFloor p < s.duty p))) with
  | none => none
  | some p => some ((s.setDuty p (s.duty p - 1)).yieldPower p)

/-- A pan has a brick on a die that is being cooled (R410). -/
def State.onHot (s : State) (p : Nat) : Bool := (s.pan p).cfg.bricks.any (fun b => s.clk.hot.contains b.1)

/-- Raises the duty of the last pan in the order of throttling; one on a die that is being cooled stays. -/
def State.raiseDuty (s : State) : State :=
  match pickPan (fun a b => s.throttleFirst b a) (s.dutyPans (fun p => decide (s.duty p < 16) && !s.onHot p)) with
  | none => s
  | some p => s.setDuty p (s.duty p + 1)

/-- POWER_COMPARE (R409), every 100 µs. -/
def execPowerCompare (watts : Nat) (s : State) : Out :=
  .next (
    let s := s.setF R.CLK_CAP_MEASURED lKeep (min watts 16383)
    let cap := s.getF R.CLK_CAP_WATTS lKeep
    if cap < watts then
      let s := s.setClk { s.clk with lowUs := 0 }
      match s.lowerDuty (fun _ => true) with
      | some t => t
      | none => (s.bump R.CLK_THR_UNMET lKeep).alarm Kind.powerCapUnmet 0xFF (alarmKey 16 0)
    else if watts * 100 < cap * 95 then
      let low := s.clk.lowUs + 100
      let s := s.setClk { s.clk with lowUs := low }
      if 1000 ≤ low then s.raiseDuty else s
    else s.setClk { s.clk with lowUs := 0 })

/-! ## Temperature (R410) -/

/-- A die without power: its registers, grains, arrays and RAM. -/
def State.dieOff (s : State) (die : Nat) : State :=
  { s with
    csr := s.csr.filter (fun e => e.1 / 2 ^ 30 ≠ die)
    grains := s.grains.filter (fun g => g.1 / 65536 ≠ die)
    arrays := s.arrays.filter (fun a => a.1 / 128 ≠ die)
    mem := s.mem.filter (fun x => !((x.1 / 2 ^ 44 == 0 && x.1 % 2 ^ 44 / 2 ^ 30 == die)
      || (x.1 / 2 ^ 44 == 1 && x.1 % 2 ^ 44 / 2 ^ 36 == die)))
    clk := { s.clk with off := die :: s.clk.off } }

/-- Jobs with bricks on a compute die, or traffic over the fabric. -/
def State.jobsOn (s : State) (die : Nat) : List Nat :=
  (s.hcx.jobs.filter (fun j =>
    if isFabric die then s.col.groups.any (fun g => g.2.job = j.1 ∧ 1 < g.2.devices.length)
    else (s.jobPans j.1).any (fun p => (s.pan p).cfg.bricks.any (fun b => b.1 = die)))).map (·.1)

/-- A compute or fabric die at 110 °C: its jobs fault, it is powered off, and the device is in a thermal reset in
which the host dies' ports go on. -/
def State.tripDie (s : State) (die : Nat) : State :=
  let s := forEach (s.jobsOn die) s (fun s j => s.faultJob j 0 0)
  let s := s.dieOff die
  let s := s.aonKept false true Cause.thermal s
  { s with keys := [], clk := { s.clk with ready := false, pinReady := false, pinTherm := false, bootStep := 2 } }

/-- A host die at 110 °C: the whole device but AON goes off. -/
def State.tripHost (s : State) : State :=
  let t := s.afterReset Cause.thermal true
  t.setClk { t.clk with off := List.range 20, pinTherm := false }

/-- THERMAL_SAMPLE (R410): `temp` in 1/16 °C. -/
def execThermalSample (die : Nat) (temp : Int) (watts : Nat) (s : State) : Out :=
  need (decide (die < 20)) "die" (.next (
    let l := lDie die
    let peak := sInt 16 (s.getF R.DIE_TEMP_PEAK l)
    let s := (s.setF R.DIE_TEMP_NOW l (uInt 16 temp)).setF R.DIE_TEMP_PEAK l (uInt 16 (if peak < temp then temp else peak))
    let s := s.setF R.DIE_POWER_WATTS l (min watts 65535)
    let warn : Int := ((s.getF R.CLK_THERM_WARN lKeep * 16 : Nat) : Int)
    if 1760 ≤ temp then (if isHost die then s.tripHost else s.tripDie die)
    else if warn < temp ∨ (s.clk.hot.contains die ∧ warn - 48 < temp) then
      let s := s.setClk { s.clk with hot := if s.clk.hot.contains die then s.clk.hot else die :: s.clk.hot }
      (s.lowerDuty (fun p => (s.pan p).cfg.bricks.any (fun b => b.1 = die))).getD s
    else s.setClk { s.clk with hot := s.clk.hot.filter (fun d => d ≠ die) }))

end Sys2Proof.Machine
end

