-- ==== Sys2Proof/Machine/Images.lean ====
section
/-!
DEFINITION. Device keys, weight images, snapshots and the epoch commands of the host (R182, R194 to R203, R346,
R389).
-/

namespace Sys2Proof.Machine

/-! ## Wrapped keys (R198, R389) -/

/-- The key-encryption key of an exchange with shared secret `z` for the key with an identity. -/
def wrapKey (z identity : List Byte) : List Byte := hkdf384 identity z (ascii "RGX20-WKEY") 32

/-- Opens a wrapped content key sealed for this device. -/
def unwrap (ephem identity iv wrapped tag aad : List Byte) : Option (List Byte) :=
  match P384.ecdh agreeScalar ephem with
  | none => none
  | some z => gcmOpen (wrapKey z identity) iv aad wrapped tag

/-- A held key of a kind with an identity. -/
def State.keyOf (s : State) (kind : Nat) (identity : List Byte) : Option KeySlot :=
  s.keys.find? (fun k => k.kind = kind ∧ k.identity = identity)

/-- A signature by a VERIFY key that the device holds. -/
def State.verified (s : State) (identity digest sig : List Byte) : Bool :=
  match s.keyOf 3 identity with
  | some k => P384.verify k.key digest sig
  | none => false

/-! ## Image headers (R197) -/

def hdrFlag (h : List Byte) (i : Nat) : Bool := bit (fieldAt h 6 2) i
def hdrKind (h : List Byte) : Nat := fieldAt h 6 2 / 4 % 4
def hdrPayload (h : List Byte) : Nat := fieldAt h 0x10 8
def hdrPart (h : List Byte) (o n : Nat) : List Byte := (h.drop o).take n

/-- Bytes of a whole image. -/
def imageLen (h : List Byte) : Nat :=
  512 + hdrPayload h + (if hdrFlag h 0 then fieldAt h 0xC 4 * 16 else 0)

/-- Order 1 of R200, with the signature of a snapshot (R203). -/
def State.formBad (s : State) (h : List Byte) (len : Nat) (sigKey : List Byte) : Bool :=
  fieldAt h 0x190 4 != (crc32 (hdrPart h 0 0x190)).toNat || fieldAt h 0 4 != 0x4D495752 || fieldAt h 4 2 != 1
    || fieldAt h 8 4 == 0 || decide (16777216 < fieldAt h 8 4) || fieldAt h 0xC 4 != ceilDiv (hdrPayload h) mib
    || len != imageLen h
    || (hdrFlag h 1 && (leNat sigKey == 0 || !s.verified sigKey (sha384 (hdrPart h 0 0x130)) (hdrPart h 0x130 96)))

/-- Order 2: layout, kind, tiles and bytes. -/
def layoutBad (h : List Byte) (d : WsDecl) : Bool :=
  hdrPart h 0x20 32 != d.layout || hdrKind h != d.kind || fieldAt h 8 4 != d.tiles || hdrPayload h != d.payload

/-- The content key of an encrypted image, when DEVKEY names this device and the wrap opens. -/
def contentKey (h : List Byte) : Option (List Byte) :=
  if hdrPart h 0x60 8 ≠ keyIdentity agreePub then none
  else unwrap (hdrPart h 0x70 97) (hdrPart h 0x60 8) (hdrPart h 0xE0 12) (hdrPart h 0xF0 32) (hdrPart h 0x110 16)
    (hdrPart h 0 0x70)

/-- Order 5: no free slot, or no free table entry. -/
def State.noSlot (s : State) (ws : Nat) (w : WSet) : Bool :=
  w.exhausted || w.occupant == .held
    || (if w.decl.kind = 1 then
          match w.entry w.slot0 with
          | some t => s.baseHolders ws w + t.allHolders - t.holders != 0 || t.st == .draft
          | none => false
        else w.nextHeld || w.anyProvisional)

/-- The first header check that fails: its reason. -/
def State.headerFail (s : State) (h : List Byte) (len ws : Nat) (sigKey : List Byte) (w : WSet) : Option Nat :=
  if s.formBad h len sigKey then some 1
  else if layoutBad h w.decl then some 2
  else if s.getB R.EPC_POLICY_ENCRYPT lKeep && !hdrFlag h 0 then some 3
  else if hdrFlag h 0 && (contentKey h).isNone then some 4
  else if s.noSlot ws w then some 7
  else none

/-! ## IMAGE_LOAD (R195, R200) -/

/-- The slot an image goes to. -/
def WSet.imageSlot (w : WSet) : Nat := if w.decl.kind = 1 then 0 else w.nextSlot

/-- A held table entry raises EPOCH_TABLE_FULL (R190). -/
def State.tableFull (s : State) (ws : Nat) (w : WSet) : State :=
  if w.occupant = .held then s.alarm Kind.epochTableFull w.job (alarmKey 16 ws) else s

/-- An image load refused by a header check. -/
def State.imageRefused (s : State) (c : Cmd) (ws reason : Nat) (w : WSet) : State :=
  let s := if reason = 7 then s.tableFull ws w else s
  (s.setF R.EPC_IMG_REASON lKeep reason).finish c Status.refused 0 0

/-- An image past its header checks takes the next number. -/
def State.imageBegin (s : State) (c : Cmd) (ws : Nat) (h key : List Byte) (w : WSet) : State :=
  let e := w.next
  let s := s.issueEpoch ws w.imageSlot 0 (fun e =>
    { image := true, epoch := e, step := 0, chunks := chunksOf w.decl.payload })
  let s := (s.setF R.EPC_IMG_BUSY lKeep 1).setF R.EPC_IMG_CHUNKS lKeep 0
  { s with epc := { s.epc with img := some { cmd := c.ref, ws := ws, epoch := e, header := h, key := key } } }.beginCmd c

/-- A payload leaves for the other targets, chunk by chunk. -/
def State.sendPayload (s : State) (ws e : Nat) (b : List Byte) : State :=
  match s.wset ws with
  | none => s
  | some w => forEach (s.farTargets w) s (fun s t =>
      forEach (chunks mib (ceilDiv b.length mib) b).zipIdx s (fun s (x : List Byte × Nat) => s.sendWeights w t e x.2 x.1))

/-- The copy of another job's BASE (R195). -/
def State.copyBase (s : State) (c : Cmd) (ws src : Nat) (w : WSet) : State :=
  match s.wset src with
  | none => s.finish c Status.stale 0 0
  | some v =>
    let a := s.job w.job
    let b := s.job v.job
    if v.job = w.job ∨ w.decl.kind ≠ 1 ∨ v.decl.kind ≠ 1 ∨ a.client ≠ b.client ∨ !a.share ∨ !b.share ∨
        v.stateOf v.slot0 ≠ .confirmed then
      s.finish c Status.refused 0 0
    else if v.decl.layout ≠ w.decl.layout ∨ v.decl.payload ≠ w.decl.payload then s.imageRefused c ws 2 w
    else if s.noSlot ws w then s.imageRefused c ws 7 w
    else
      let e := w.next
      let s := s.issueEpoch ws 0 0 (fun e => { image := true, epoch := e, step := 0, chunks := 0 })
      let b := s.rdTier 1 v.decl.slot0 v.decl.payload
      let s := (s.wrTier 1 w.decl.slot0 b).sendPayload ws e b
      (s.confirmEpoch ws e).finish c Status.ok e 0

/-- IMAGE_LOAD (R200): the header checks. One load runs at a time. -/
def execImageLoad (cmd : CmdRef) (header : List Byte) (s : State) : Out :=
  .next (s.onCmd cmd 0x02 (fun c s =>
    if s.epc.img.isSome then s
    else
      let ws := fieldAt c.params 16 1
      match s.wset ws with
      | none => s.finish c Status.stale 0 0
      | some w =>
        if w.job ≠ c.job then s.finish c Status.stale 0 0
        else if fieldAt c.params 17 1 ≠ 0xFF then s.copyBase c ws (fieldAt c.params 17 1) w
        else
          let h := fitTo 512 header
          match s.headerFail h (fieldAt c.params 8 8) ws (hdrPart c.params 18 8) w with
          | some r => s.imageRefused c ws r w
          | none => s.imageBegin c ws h ((contentKey h).getD []) w))

/-- Nonce and additional data of chunk `i` (R198). -/
def chunkIv (h : List Byte) (i : Nat) : List Byte := hdrPart h 0x120 8 ++ toLe 4 i
def chunkAad (h : List Byte) (i : Nat) : List Byte := hdrPart h 0 0x70 ++ toLe 4 i

/-- The plaintext of the next chunk; none when its tag fails. -/
def ImgLoad.openChunk (i : ImgLoad) (data tag : List Byte) : Option (List Byte) :=
  if hdrFlag i.header 0 then gcmOpen i.key (chunkIv i.header i.done) (chunkAad i.header i.done) data tag
  else some data

/-- A payload check fails: what was written is zeroed, the epoch retracted with cause 8h. -/
def State.payloadFail (s : State) (w : WSet) (i : ImgLoad) (reason : Nat) : State :=
  (s.failImage w i reason).retractEpoch i.ws i.epoch 8

/-- One chunk of the payload, written into the slot of every target; sealed ones are counted on the die that opens them. -/
def State.imageChunk (s : State) (w : WSet) (i : ImgLoad) (data tag : List Byte) : State :=
  let n := chunkSize w.decl.payload i.done
  let off := w.baseOf i.epoch + i.done * mib
  match i.openChunk (fitTo n data) tag with
  | none => (s.countSealed off false).payloadFail w i 5
  | some b =>
    let s := if hdrFlag i.header 0 then s.countSealed off true else s
    let s := forEach (s.farTargets w) (s.wrTier 1 off b) (fun s t => s.sendWeights w t i.epoch i.done b)
    let i := { i with done := i.done + 1, plain := i.plain ++ b }
    let s := { s with epc := { s.epc with img := some i } }
    let s := s.setF R.EPC_IMG_CHUNKS lKeep i.done
    if i.done < chunksOf w.decl.payload then s
    else if sha256 i.plain ≠ hdrPart i.header 0x40 32 then s.payloadFail w i 6
    else
      let s := { s with epc := { s.epc with img := none } }
      ((s.setF R.EPC_IMG_BUSY lKeep 0).confirmEpoch i.ws i.epoch).finishRef i.cmd Status.ok i.epoch 0

/-- IMAGE_CHUNK (R200): the payload checks, chunk by chunk. -/
def execImageChunk (ws : Nat) (data tag : List Byte) (s : State) : Out :=
  match s.wset ws with
  | none => .next s
  | some w => .next (
    match s.epc.img with
    | some i => if i.ws = ws then s.whenRoom [16] (1, ws) (fun s => s.imageChunk w i data tag) else s
    | none => s)

/-! ## SNAPSHOT (R202) -/

/-- Bytes the device draws for a snapshot. -/
def State.fresh (s : State) : List Byte × State := (Config.freshBytes s.free, { s with free := s.free + 1 })

/-- The header of a snapshot up to its signature. -/
def snapHead (w : WSet) (epoch step : Nat) (enc : Bool) (digest devkey ephem wrapIv wrapped wrapTag chunkIv : List Byte) :
    List Byte :=
  toLe 4 0x4D495752 ++ toLe 2 1 ++ toLe 2 (b2n enc + 2 + 4 * w.decl.kind) ++ toLe 4 w.decl.tiles
    ++ toLe 4 (chunksOf w.decl.payload) ++ toLe 8 w.decl.payload ++ toLe 4 epoch ++ toLe 4 step
    ++ fitTo 32 w.decl.layout ++ fitTo 32 digest ++ fitTo 8 devkey ++ toLe 8 0 ++ fitTo 97 ephem ++ toLe 15 0
    ++ fitTo 12 wrapIv ++ toLe 4 0 ++ fitTo 32 wrapped ++ fitTo 16 wrapTag ++ fitTo 12 chunkIv ++ toLe 4 0

/-- Completes a header: signature, HCRC. -/
def sealHead (h : List Byte) : List Byte :=
  let d := sha384 h
  let b := h ++ fitTo 96 (P384.sign signScalar (Config.ecdsaNonce d) d)
  fitTo 512 (b ++ toLe 4 (crc32 b).toNat)

/-- The chunks of an encrypted snapshot, each followed by its tag. -/
def sealChunks (key iv head : List Byte) (payload : List Byte) : List Byte :=
  (chunks mib (ceilDiv payload.length mib) payload).zipIdx.flatMap (fun c =>
    let r := gcmSeal key (iv.take 8 ++ toLe 4 c.2) (head.take 0x70 ++ toLe 4 c.2) c.1
    r.1 ++ r.2)

/-- The image of an epoch, sealed for a recipient's agreement key when one is given. -/
def State.snapImage (s : State) (w : WSet) (epoch step : Nat) (payload : List Byte) (rcpt : Option (List Byte)) :
    List Byte × State :=
  match rcpt with
  | none =>
    (sealHead (snapHead w epoch step false (sha256 payload) [] [] [] [] [] []) ++ payload, s)
  | some pk =>
    let (b, s) := s.fresh
    let (x, s) := s.fresh
    let d := Config.scalarOf x
    let key := fitTo 32 b
    let id := keyIdentity pk
    let z := (P384.ecdh d pk).getD []
    let wiv := hdrPart (fitTo 64 b) 32 12
    let civ := hdrPart (fitTo 64 b) 44 12
    let head0 := snapHead w epoch step true (sha256 payload) id (P384.pub d) wiv [] [] civ
    let r := gcmSeal (wrapKey z id) wiv (head0.take 0x70) key
    let head := snapHead w epoch step true (sha256 payload) id (P384.pub d) wiv r.1 r.2 civ
    (sealHead head ++ sealChunks key civ head payload, s)

/-- Writes a snapshot to its destination: host memory, or another device over the fabric. -/
def State.snapOut (s : State) (job dest device : Nat) (b : List Byte) : State :=
  if device = s.device then s.hostWrite dest b
  else forEach (chunks 2048 (ceilDiv b.length 2048) b).zipIdx s (fun s (x : List Byte × Nat) =>
    s.issue
      { device := device, space := dest / 2 ^ 44 % 16, offset := dest % 2 ^ 44 + 2048 * x.2, type := 0x20, vc := 4
        len := x.1.length, job := job, jobgen := (s.job job).gen, payload := x.1 } .other)

/-- SNAPSHOT (R202). -/
def execSnapshot (cmd : CmdRef) (s : State) : Out :=
  .next (s.onCmd cmd 0x0D (fun c s =>
    let ws := fieldAt c.params 0 1
    let e := fieldAt c.params 1 4
    let key := hdrPart c.params 15 8
    match s.wset ws with
    | none => s.finish c Status.stale 0 0
    | some w =>
      let slot := w.slotOf e
      let rcpt := s.keyOf 4 key
      if w.job ≠ c.job ∨ e = 0 ∨ w.next ≤ e then s.finish c Status.stale 0 0
      else if leNat key ≠ 0 ∧ rcpt.isNone then s.finish c Status.stale 0 0
      else if w.stateOf e ≠ .confirmed ∨ slot.isNone ∨ (s.getB R.EPC_POLICY_ENCRYPT lKeep ∧ leNat key = 0) then
        s.finish c Status.refused 0 0
      else
        let step := match w.entry e with | some t => t.step | none => 0
        let pk := if leNat key = 0 then none else rcpt.map (·.key)
        let (b, s) := s.snapImage w e step (s.rdTier 1 (w.baseOf e) w.decl.payload) pk
        let s := s.setF R.EPC_IMG_CHUNKS lKeep (chunksOf w.decl.payload)
        (s.snapOut c.job (fieldAt c.params 5 8) (fieldAt c.params 13 2) b).finish c Status.ok 0 0))

/-! ## PUBLISH and RETRACT (R182, R346) -/

/-- A pan of a job with a PUBLISH station of the weight set that waits for a command. -/
def State.commandedPan (s : State) (job ws : Nat) : Option Nat :=
  (s.sch.pans.find? (fun p => p.2.st ≠ .free ∧ p.2.job = job ∧
    p.2.cfg.stations.any (fun d => d.kind = 0xB ∧ d.onCommand ∧ d.ws = ws))).map (·.1)

/-- PUBLISH (R346): releases stage 6; it completes when the epoch leaves PROVISIONAL. -/
def execPublish (cmd : CmdRef) (s : State) : Out :=
  .next (s.onCmd cmd 0x0B (fun c s =>
    let ws := fieldAt c.params 0 1
    match s.wset ws with
    | none => s.finish c Status.stale 0 0
    | some w =>
      if w.job ≠ c.job then s.finish c Status.stale 0 0
      else match s.commandedPan c.job ws with
        | none => s.finish c Status.refused 0 0
        | some p => (s.modPan p (fun b => { b with pubReleased := true })).beginCmd c))

/-- RETRACT (R182). -/
def execRetract (cmd : CmdRef) (s : State) : Out :=
  .next (s.onCmd cmd 0x0C (fun c s =>
    let ws := fieldAt c.params 0 1
    let e := fieldAt c.params 1 4
    match s.wset ws with
    | none => s.finish c Status.stale 0 0
    | some w =>
      if w.job ≠ c.job ∨ e = 0 ∨ w.next ≤ e then s.finish c Status.stale 0 0
      else if w.stateOf e = .draft ∨ w.stateOf e = .provisional then
        let s := match w.entry e with
          | some t => if t.own then s
              else s.epochSend w 0 (EpochChange.bytes { epoch := e, st := EpochRun.retracted.code, cause := 5 } ws)
          | none => s
        (s.retractEpoch ws e 5).finish c Status.ok 0 0
      else s.finish c Status.refused 0 0))

end Sys2Proof.Machine
end

