-- ==== Sys2Proof/Machine/Checks.lean ====
section
/-!
DEFINITION. The trowel's checks of a Dolward image, in the order of R379, with the rules of other chapters that
have it refuse an image.
-/

namespace Sys2Proof.Machine

/-- A failed check: its reason, the section kind (0 for the header section), the entry's offset. -/
structure LoadFail where
  reason : Nat
  kind : Nat := 0
  off : Nat := 0
deriving DecidableEq, Repr

/-- A failure when `b` holds. -/
def failIf (b : Bool) (reason kind off : Nat) : Option LoadFail := if b then some { reason, kind, off } else none

/-- The first failure of a list. -/
def firstFail (l : List (Option LoadFail)) : Option LoadFail := l.findSome? id

/-- The first failure of a check over entries. -/
def eachFail {V : Type} (l : List V) (f : V → Option LoadFail) : Option LoadFail := l.findSome? f

/-! ## The header section (R376, R377) -/

/-- Sections of an image. -/
def imgSects (h : List Byte) : Nat := fieldAt h 7 1
def imgKind (h : List Byte) (i : Nat) : Nat := fieldAt h (0x40 + i * 0x38) 1
def imgDigest (h : List Byte) (i : Nat) : List Byte := (h.drop (0x40 + i * 0x38 + 24)).take 32

/-- The kinds of an image's sections, in order. -/
def imgKinds (h : List Byte) : List Nat := (List.range (imgSects h)).map (imgKind h)

/-- BSDIGEST: SHA-256 of bytes 000h to 26Fh. -/
def bsDigest (h : List Byte) : List Byte := sha256 (h.take 0x270)

/-- Strictly rising. -/
def rising (l : List Nat) : Bool := (l.zip (l.drop 1)).all (fun p => decide (p.1 < p.2))

/-- Reason 1h. -/
def formatBad (h : List Byte) (len : Nat) : Bool :=
  let ks := imgKinds h
  fieldAt h 0 4 != 0x31495744 || fieldAt h 4 2 != 1 || fieldAt h 0x10 2 != 0xB1
    || fieldAt h 0x2FC 4 != (crc32 (h.take 0x2FC)).toNat || imgSects h == 0 || decide (10 < imgSects h)
    || !rising ks || ks.any (fun k => k == 0 || decide (10 < k)) || !ks.contains 1 || fieldAt h 8 8 != len

/-- Reason 2h: SIGNED asks for a signature by a VERIFY key held. -/
def State.signatureBad (s : State) (h : List Byte) : Bool :=
  let sig := (h.drop 0x270).take 96
  let d := sha384 (h.take 0x270)
  s.getB R.SEC_POLICY_SIGNED (lDie 16) &&
    (leNat sig == 0 || !s.keys.any (fun k => k.kind == 3 && P384.verify k.key d sig))

/-- Reason 3h: the first section whose digest differs. -/
def digestFail (h : List Byte) (sections : List (List Byte)) : Option LoadFail :=
  eachFail (List.range (imgSects h)) (fun i =>
    failIf (sha256 (nth sections i []) ≠ imgDigest h i) 3 (imgKind h i) 0)

/-- The content of the sections that an image has. -/
def contentOnly (ks : List Nat) (c : Content) : Content :=
  let has (k : Nat) : Bool := ks.contains k
  let pan (d : PanDecl) : PanDecl :=
    { d with
      stations := if has 3 then d.stations else []
      streams := if has 4 then d.streams else []
      prefetch := if has 5 then d.prefetch else []
      leadNs := if has 5 then d.leadNs else 0 }
  { jobs := c.jobs, pans := c.pans.map pan
    bricks := if has 2 then c.bricks else []
    vcWeights := if has 6 then c.vcWeights else none
    tiers := if has 7 then c.tiers else none
    scheds := if has 8 then c.scheds else []
    gates := if has 8 then c.gates else []
    grandmaster := has 8 && c.grandmaster
    security := if has 9 then c.security else none
    locks := if has 10 then c.locks else [] }

/-! ## Policy and resources -/

/-- Reason 5h: the security section writes a WO1 register already written to another value. -/
def State.policyFail (s : State) (c : Content) : Option LoadFail :=
  match c.security with
  | none => none
  | some d => failIf ((secWrites d).any (fun w =>
      s.wo1.contains (w.1.key w.2.1) && s.getF w.1 w.2.1 != w.2.2)) 5 9 16

/-- The pans that are not FREE, but for the one a load replaces. -/
def State.otherPans (s : State) (repl : Option Nat) : List PanDecl :=
  (s.sch.pans.filter (fun p => p.2.st ≠ .free ∧ some p.1 ≠ repl)).map (fun p => p.2.cfg)

/-- A brick that an image may take: available, and FREE or of the pan that is replaced. -/
def State.brickFree (s : State) (repl : Option Nat) (x : Nat × Nat) : Bool :=
  isBrick x.1 x.2 && s.getB R.BRK_STAT_AVAIL (lBrick x.1 x.2) && !s.clk.off.contains x.1 &&
    (match s.owner x.1 x.2 with
      | none => true
      | some p => some p == repl)

/-- No element twice. -/
def distinct {V : Type} [DecidableEq V] : List V → Bool
  | [] => true
  | x :: r => !r.contains x && distinct r

/-- Bytes of a tier that pools may take. -/
def State.tierBytes (s : State) (tier : Nat) : Nat :=
  match tier with
  | 1 => 16 * 48 * 2 ^ 30
  | 2 => sumBy (List.range 16) s.lpdBytes
  | _ => sumBy [18, 19] (fun fd => (s.flash fd).logical * blockUnits * unitBytes)

/-- Frames of a pan's pool in a tier. -/
def poolFrames (d : PanDecl) (tier : Nat) : Nat :=
  match tier with
  | 1 => d.pool1
  | 2 => d.pool2
  | _ => d.pool3

/-- The pan index can be placed: FREE and out of quarantine, or replaced. -/
def State.indexFree (s : State) (repl : Option Nat) (p : Nat) : Bool :=
  decide (p < 256) && (decide (some p = repl) || (decide ((s.pan p).st = .free) && (s.pan p).quarAt == 0))

/-- Reason 6h for one pan of an image. -/
def State.panResource (s : State) (repl : Option Nat) (ps : List PanDecl) (d : PanDecl) : Option LoadFail :=
  let all := s.otherPans repl ++ ps
  let tight (t : Nat) : Bool := decide (s.tierBytes t < sumBy all (fun x => poolFrames x t * x.frame))
  let quota (die : Nat) : Nat := sumBy all (fun x => sumBy (x.quotas.filter (fun q => q.1 = die)) (·.2))
  let bad := !s.indexFree repl d.pan || d.bricks.isEmpty || !d.bricks.all (s.brickFree repl) || !distinct d.bricks
    || ps.any (fun x => x.pan ≠ d.pan && d.bricks.any (fun b => x.bricks.contains b))
    || d.quotas.any (fun q => decide (4096 < quota q.1)) || decide (65536 < d.seqHi)
    || tight 1 || tight 2 || tight 3
  failIf bad 6 1 d.off

/-- Reason 6h: every pan, the index, worlds (R1) and key slots. -/
def State.resourceFail (s : State) (repl : Option Nat) (c : Content) : Option LoadFail :=
  let worlds := sumBy (s.otherPans repl ++ c.pans) (fun d => d.worlds.length)
    + (s.wpt.worlds.filter (fun w => w.2.st ≠ .detached)).length
  firstFail [eachFail c.pans (s.panResource repl c.pans),
    failIf (decide (65536 < worlds)) 6 2 16,
    failIf (!distinct (c.pans.map (·.pan))) 6 1 16,
    match c.security with
    | some d => failIf (decide (256 < s.keys.length + d.rosterKeys.length)) 6 9 16
    | none => none]

/-! ## Rules of other chapters: jobs and pans (kind 1) -/

/-- R178: numbers, one job each, an ADAPTER's base a BASE of the same job. -/
def State.wsBad (s : State) (j : JobDecl) (d : WsDecl) : Bool :=
  let declared (b : Nat) : Bool :=
    j.weightSets.any (fun x => x.ws == b && x.kind == 1) ||
      (match s.wset b with
        | some w => w.job == j.job && w.decl.kind == 1
        | none => false)
  decide (256 ≤ d.ws) || decide (2 < d.kind) || (d.kind == 2 && !declared d.base) ||
    (match s.wset d.ws with
      | some w => w.job != j.job
      | none => false)

/-- R210: number, owner, tiers, home die, stripes whole multiples within the capacity. -/
def State.ringBad (s : State) (j : Nat) (d : RingDecl) : Bool :=
  decide (64 ≤ d.ring) || d.tier == 0 || decide (3 < d.tier) || !isCompute d.home
    || d.stripes.isEmpty || decide (16 < d.stripes.length)
    || d.stripes.any (fun x => x.worlds == 0 || x.cap % x.worlds != 0)
    || decide (2 ^ clampN 10 32 d.log2cap < sumBy d.stripes (·.cap)) || d.slot % 64 != 0 ||
      (match s.ring d.ring with
        | some g => g.job != j
        | none => false)

/-- R283: number, size, no device twice, one job. -/
def State.groupBad (s : State) (j : Nat) (d : GroupDecl) : Bool :=
  decide (64 ≤ d.group) || d.devices.isEmpty || decide (65536 < d.devices.length) || !distinct d.devices ||
    (match mget s.col.groups d.group with
      | some g => g.job != j
      | none => false)

/-- The rules on a job's entry. -/
def State.jobRule (s : State) (j : JobDecl) : Option LoadFail :=
  firstFail [
    eachFail j.weightSets (fun d => failIf (s.wsBad j d) 7 1 d.off),
    failIf (!distinct (j.weightSets.map (·.ws)) || !distinct (j.rings.map (·.ring))
      || !distinct (j.groups.map (·.group))) 7 1 j.off,
    eachFail j.rings (fun d => failIf (s.ringBad j.job d) 7 1 d.off),
    eachFail j.groups (fun d => failIf (s.groupBad j.job d) 7 1 d.off),
    failIf (decide (8 < j.cut.stageV)) 7 1 j.off]

/-- R210: the pan that writes a stripe here is of the ring's job, and its DEV worlds have their places in a block. -/
def State.stripeBad (s : State) (repl : Option Nat) (c : Content) (j : Nat) (x : StripeDecl) : Bool :=
  x.device.isNone && (s.otherPans repl ++ c.pans).any (fun p => p.pan == x.pan &&
    (p.job != j || p.worlds.any (fun w => decide (x.worlds ≤ w.world))))

/-- Two jobs of an image that name one weight set, ring or group (R178, R210, R283). -/
def jobsShare (c : Content) : Bool :=
  !distinct (c.jobs.flatMap (fun j => j.weightSets.map (·.ws))) || !distinct (c.jobs.flatMap (fun j => j.rings.map (·.ring)))
    || !distinct (c.jobs.flatMap (fun j => j.groups.map (·.group)))

/-- R135: pools of sequence indices are disjoint. -/
def seqOverlap (a b : PanDecl) : Bool := decide (max a.seqLo b.seqLo < min a.seqHi b.seqHi)

/-- R192, R135 on a pan's entry. -/
def State.panRule (s : State) (repl : Option Nat) (c : Content) (d : PanDecl) : Option LoadFail :=
  let live := d.stations.any (fun x => x.kind == 1 && x.live)
  failIf ((d.adoptProv && live)
    || (s.otherPans repl ++ c.pans.filter (fun x => x.pan ≠ d.pan)).any (seqOverlap d)) 7 1 d.off

/-! ## Bricks and grains (kind 2) -/

/-- R47: a descriptor with a value outside its range. -/
def kernelBad (k : KernelDesc) : Bool :=
  k.magic != 0x574B4E4C || k.version != 1 || k.grains == 0 || decide (512 < k.grains)
    || k.stepEntry % 2 != 0 || k.resetEntry % 2 != 0
    || k.reserved != 0 || decide (6144 < k.stateBytes) || k.stateBytes % 64 != 0
    || decide (1048576 < k.sharedBytes) || k.sharedBytes % 64 != 0
    || decide (k.obsBytes < 64) || decide (65536 < k.obsBytes) || decide (k.actBytes < 64) || decide (4096 < k.actBytes)

/-- R48: the grains of a world are consecutive WORLD grains of its brick with one WIN1, which name the world and
their place in it. -/
def worldBad (b : BrickDecl) (w : DevWorldDecl) : Bool :=
  match brickDesc b with
  | none => true
  | some k =>
    let g (i : Nat) : Option GrainDecl := b.grains.find? (fun x => x.grain = w.grain0 + i)
    let win := (g 0).map (·.win1)
    decide (512 < w.grain0 + k.grains) || !(List.range k.grains).all (fun i =>
      match g i with
      | some x => x.role == 1 && decide (some x.win1 = win) && x.world == w.world && x.inWorld == i
      | none => false)

/-- Two worlds of a brick that share a grain. -/
def worldsOverlap (n : Nat) : List DevWorldDecl → Bool
  | [] => false
  | w :: r => r.any (fun v => decide (max w.grain0 v.grain0 < min w.grain0 v.grain0 + n)) || worldsOverlap n r

/-- R42, R47, R48 on a brick's entry. -/
def brickRule (c : Content) (b : BrickDecl) : Option LoadFail :=
  let ws := (c.pans.flatMap (·.worlds)).filter (fun w => w.die = b.die ∧ w.brick = b.brick)
  failIf ((match brickDesc b with
      | some k => kernelBad k || worldsOverlap k.grains ws
      | none => false)
    || b.grains.any (fun g => decide (512 ≤ g.grain) || decide (2 < g.role) || decide (8 < g.ports.length))
    || !distinct (b.grains.map (·.grain)) || ws.any (worldBad b)) 7 2 16

/-- A DEV world on a brick that section 2 does not name, or a world index used twice in a pan. -/
def lostWorlds (c : Content) : Bool :=
  (c.pans.flatMap (·.worlds)).any (fun w => !c.bricks.any (fun b => b.die = w.die ∧ b.brick = w.brick)) ||
    c.pans.any (fun p => !distinct (p.worlds.map (·.world)))

/-! ## Stations and streams (kinds 3 and 4) -/

/-- Class of a format code in R58: 1 to 4 by element width; none for a code no row or set may hold. -/
def fmtClass (f : Nat) : Option Nat :=
  if f = 0 then some 4
  else if f = 1 ∨ f = 2 then some 3
  else if f ≤ 6 then some 2
  else if f ≤ 9 then some 1
  else if f = 10 ∨ f = 11 then some 2
  else none

/-- R66: a template the trowel refuses. -/
def templateBad (t : U64 × U64 × U64 × U64) : Bool :=
  let c : MxCmd := { w0 := t.1, w1 := t.2.1, w2 := t.2.2.1, w3 := t.2.2.2 }
  let i := fmtClass c.inFmt
  i.isNone || (fmtClass c.wFmt).isNone || decide (i ≠ fmtClass c.wFmt) || fmtInt c.inFmt != fmtInt c.wFmt
    || decide (12 < c.outF) || (c.outF == 12 && !fmtInt c.inFmt) || c.mode == 3 || c.scaleSel == 3 || (c.mode == 2 && !c.convert)
    || c.nbank == 0 || decide (32 < c.bank + c.nbank)
    || bits t.2.1.toNat 31 26 != 0 || bits t.2.1.toNat 63 47 != 0 || bits t.2.2.1.toNat 63 30 != 0
    || bits t.2.2.2.toNat 63 32 != 0

/-- A name's byte: a to z, 0 to 9, underscore. -/
def nameByte (c : Nat) : Bool :=
  (decide (97 ≤ c) && decide (c ≤ 122)) || (decide (48 ≤ c) && decide (c ≤ 57)) || c == 95

/-- R107: segments of name bytes parted by full stops (46), none empty. `seg` is whether the segment has begun. -/
def nameOk : Bool → List Nat → Bool
  | seg, [] => seg
  | seg, c :: r => if c = 46 then seg && nameOk false r else nameByte c && nameOk true r

def stationName (d : StationDecl) : Bool :=
  decide (1 ≤ d.name.length) && decide (d.name.length ≤ 63) && nameOk false d.name

/-- Reductions of R284: SUM of every element type, MIN and MAX of all but BF16. -/
def redOk (d : ExchDecl) : Bool := d.red == 0 || (decide (d.red ≤ 2) && d.elem != .bf16)

/-- R285: fields in range. `members` gives the members of a group of the job. -/
def exchRange (d : ExchDecl) (members : Nat → Option Nat) : Bool :=
  decide (d.op ≤ 6) && (members d.group).isSome && decide (64 ≤ d.block) && decide (d.block ≤ 2 ^ 40) && d.block % 64 == 0
    && (d.op != 1 || (decide (64 ≤ d.rowBytes) && decide (d.rowBytes ≤ 65536) && d.rowBytes % 64 == 0
      && (d.countw == 8 || d.countw == 16 || d.countw == 32)))
    && ((d.op != 2 && d.op != 3) || redOk d) && (d.op != 5 || decide (d.root < (members d.group).getD 0))
    && decide (d.path ≤ 2) && decide (d.engine ≤ 1) && decide (d.tree.getD 0 < 65536)

/-- R285 with R297: fields in range, the whistle only for what it carries. BLOCK of an operation that takes the whistle
may be below 64 bytes. -/
def exchBad (d : ExchDecl) (members : Nat → Option Nat) : Bool :=
  let e : ExchDecl := if onWhistle d then { d with block := 64 } else d
  !exchRange e members || (d.path == 2 && !whistleSize d)

/-- Payload bytes of a RECORD station's rows and the ring's slot (R209). -/
def recordBad (p : PanDecl) (st : StationDecl) (rings : List RingDecl) (r : RecordDecl) : Bool :=
  match rings.find? (fun g => g.ring = r.ring) with
  | none => true
  | some g =>
    let lens := (payStreams st r).map (fun i => ((p.streams.find? (fun x => x.idx = i)).map
      (fun x => rowBytes x.fmt x.width)).getD 0)
    let pay := lens.foldl (· + ·) 0
    decide (r.paylen < pay) || decide (g.slot < (64 + r.paylen + 63) / 64 * 64) || decide (g.stripes.length ≤ r.stripe)

/-- The rings, weight sets and groups of a job as they will stand. -/
def State.jobRings (s : State) (c : Content) (j : Nat) : List RingDecl :=
  (c.jobs.filter (fun d => d.job = j)).flatMap (·.rings) ++ (s.rings.filter (fun r => r.2.job = j)).map (·.2.decl)

def State.jobSets (s : State) (c : Content) (j : Nat) : List WsDecl :=
  (c.jobs.filter (fun d => d.job = j)).flatMap (·.weightSets)
    ++ (s.epc.sets.filter (fun w => w.2.job = j)).map (·.2.decl)

/-- Members of a group of a job. -/
def State.jobGroup (s : State) (c : Content) (j g : Nat) : Option Nat :=
  match ((c.jobs.filter (fun d => d.job = j)).flatMap (·.groups)).find? (fun x => x.group = g) with
  | some x => some x.devices.length
  | none => match mget s.col.groups g with
    | some x => if x.job = j then some x.devices.length else none
    | none => none

/-- The rules on one station of a pan. -/
def State.stationBad (s : State) (c : Content) (p : PanDecl) (d : StationDecl) : Bool :=
  decide (4096 ≤ d.idx) || !stationName d || decide (14 < d.kind) || d.templates.any templateBad
    || d.templates.any (fun t => bit t.2.1.toNat 25 != (d.kind == 3))
    || (match d.att with
        | some a => a.ring && a.mask == 3
        | none => false)
    || (d.kind == 6 && (d.sieves.isEmpty || decide (64 < d.sieves.length)
        || !d.sieves.all (fun x => p.bricks.any (fun b => b.1 == x.1))))
    || (d.kind == 0xB && (s.jobSets c p.job).any (fun w => w.ws == d.ws && w.kind == 1))
    || (match d.exch with
        | some e => exchBad e (s.jobGroup c p.job)
        | none => false)
    || (match d.record with
        | some r => recordBad p d (s.jobRings c p.job) r
        | none => false)
    || (match d.draw with
        | some x => !(s.jobRings c p.job).any (fun g => g.ring == x.ring && g.host.isNone) || d.sieves.length != 1
            || !d.sieves.all (fun x => p.bricks.any (fun b => b.1 == x.1))
        | none => false)

/-- A station comes before another along the edges of the graph. -/
def precedes (l : List StationDecl) (a : Nat) : Nat → Nat → Bool
  | 0, _ => false
  | n + 1, b =>
    match l.find? (fun d => d.idx = b) with
    | some d => d.preds.any (fun q => q == a || precedes l a n q)
    | none => false

/-- R318: the writer of a placement shadow precedes the commit BARRIER of its table. -/
def shadowBad (p : PanDecl) (d : StationDecl) : Bool :=
  match d.shadowTable with
  | none => false
  | some t =>
    let commits := p.stations.filter (fun x => match x.exch with
      | some e => e.op == 6 && e.purpose == 2 && e.table == t
      | none => false)
    commits.isEmpty || commits.any (fun x => !precedes p.stations d.idx p.stations.length x.idx)

/-- R108, R127: one producer and 1 to 8 consumers, stations of the pan; a micro-batch goes on to its own virtual stage or
to one next to it. -/
def streamBad (p : PanDecl) (x : StreamDecl) : Bool :=
  let stage (i : Nat) : Option Nat := (p.stations.find? (fun d => d.idx = i)).map (fun d => clampN 0 7 d.vstage)
  decide (16384 ≤ x.idx) || x.consumers.isEmpty || decide (8 < x.consumers.length) || !distinct x.consumers ||
    (match stage x.producer with
      | none => true
      | some v => x.consumers.any (fun c => match stage c with
        | none => true
        | some w => decide (v + 1 < w) || decide (w + 1 < v)))

/-- The sieves that pans bind. -/
def boundSieves (l : List PanDecl) : List (Nat × Nat) := l.flatMap (fun d => d.stations.flatMap (·.sieves))

/-- The rules on a pan's station graph and streams. -/
def State.graphRule (s : State) (repl : Option Nat) (c : Content) (p : PanDecl) : Option LoadFail :=
  firstFail [
    failIf (decide (4096 < p.stations.length) || !distinct (p.stations.map (·.idx))
      || !distinct (p.stations.map (·.name))) 7 3 16,
    eachFail p.stations (fun d => failIf (s.stationBad c p d || shadowBad p d) 7 3 d.off),
    failIf (!distinct (boundSieves (s.otherPans repl ++ c.pans))) 7 3 16,
    failIf (decide (16384 < p.streams.length) || !distinct (p.streams.map (·.idx))) 7 4 16,
    eachFail p.streams (fun x => failIf (streamBad p x) 7 4 x.off)]

/-! ## Tier policies (kind 7) -/

/-- The interleaved LPDDR view exists: every interface trained with equal capacity (R229). -/
def State.lpdView (s : State) : Bool :=
  s.lpdBytes 0 != 0 && (List.range 16).all (fun i => s.lpdBytes i == s.lpdBytes 0)

/-- ENCRYPT as it will stand. -/
def State.encryptAfter (s : State) (c : Content) : Bool :=
  match c.security with
  | some d => d.encrypt.getD (s.getB R.EPC_POLICY_ENCRYPT lKeep)
  | none => s.getB R.EPC_POLICY_ENCRYPT lKeep

/-- Devices of the system, as the image or the one before it gives them. -/
def State.systemSize (s : State) (c : Content) : Nat := ((c.tiers.map (·.systemDevices)).getD s.tier.policy.systemDevices)

/-- R199, R229. -/
def State.tierRule (s : State) (c : Content) : Option LoadFail :=
  match c.tiers with
  | none => none
  | some d =>
    let enc := s.encryptAfter c
    failIf ((enc && d.weightTiers.any (fun t => t == 2 || t == 3))
      || (d.lpdInterleaved != 0 && !s.lpdView)) 7 7 16

/-! ## World schedules (kind 8) -/

/-- Time of a frame on the wire at 100 Gb/s in ps, preamble and gap included: 54 + ACTBYTES bytes and 20 more
(R322, R327). -/
def framePs (d : WorldSched) : Nat := (74 + d.actBytes) * 80

/-- When the last frame of a list ends, each given by the time it is due and its length, in ps. -/
def windowEnd (l : List (Nat × Nat)) : Nat := l.foldl (fun t x => max t x.1 + x.2) 0

/-- Sends of a schedule in the occurrence of a window that starts at `a` ns on TIME: offset in the window and
length, in ps. -/
def sendsIn (a len : Nat) (d : WorldSched) : List (Nat × Nat) :=
  let at0 := d.phase + d.deadline
  let k0 := if a < at0 then 0 else ceilDiv (a - at0) d.period
  (List.range (len / d.period + 1)).filterMap (fun i =>
    let t := at0 + (k0 + i) * d.period
    if a ≤ t ∧ t < a + len then some ((t - a) * 1000, framePs d) else none)

/-- Insertion by first component. -/
def insertPair (x : Nat × Nat) : List (Nat × Nat) → List (Nat × Nat)
  | [] => [x]
  | y :: r => if x.1 ≤ y.1 then x :: y :: r else y :: insertPair x r

def sortPairs (l : List (Nat × Nat)) : List (Nat × Nat) := l.foldl (fun a x => insertPair x a) []

/-- One occurrence of a window holds the frames due in it and one repeat for each world that sends in it. -/
def occurrenceOk (a len : Nat) (l : List WorldSched) : Bool :=
  let sends := sortPairs (l.flatMap (sendsIn a len))
  let again := sumBy (l.filter (fun d => !(sendsIn a len d).isEmpty)) framePs
  decide (windowEnd sends + again ≤ len * 1000)

/-- The windows open at an instant of the cycle. -/
def gateOpen (g : GateDecl) (t : Nat) : Bool :=
  g.windows.any (fun w => decide (w.1 ≤ t) && decide (t < w.1 + w.2))

/-- R321 for one port: every send time in an open window, every window with room. The pattern repeats with the
least common multiple of the cycle and the periods. -/
def portRule (g : GateDecl) (l : List WorldSched) : Bool :=
  let all := l.foldl (fun n d => Nat.lcm n d.period) g.cycle
  decide (0 < g.cycle) &&
    l.all (fun d => (List.range (all / max 1 d.period)).all (fun k =>
      gateOpen g ((d.phase + d.deadline + k * d.period) % g.cycle))) &&
    g.windows.all (fun w => (List.range (2 * all / g.cycle + 2)).all (fun c =>
      occurrenceOk (c * g.cycle + w.1) w.2 l))

/-- A port's gate list as it will stand. -/
def State.gateOf (s : State) (c : Content) (port : Nat) : Option GateDecl :=
  (c.gates.find? (fun g => g.port = port)).orElse (fun _ => mget s.wpt.gates port)

/-- The schedules as they will stand, in range. -/
def State.schedsAfter (s : State) (c : Content) : List WorldSched :=
  let new := c.scheds.map (fun d => (clampWorld d).1)
  new ++ (s.wpt.scheds.filter (fun x => !new.any (fun d => d.job = x.2.job ∧ d.sched = x.2.sched))).map (·.2)

/-- R321, R322 on one schedule. -/
def State.schedBad (s : State) (c : Content) (d : WorldSched) : Bool :=
  let e := (clampWorld d).1
  match s.gateOf c e.port with
  | none => decide (1522 < 54 + e.actBytes)
  | some g =>
    decide ((if g.jumbo then 9022 else 1522) < 54 + e.actBytes)
      || !portRule g ((s.schedsAfter c).filter (fun x => x.port = e.port))

def State.schedRule (s : State) (c : Content) : Option LoadFail :=
  firstFail [
    eachFail c.gates (fun g => failIf (decide (8 ≤ g.port) || decide (256 < g.entries)) 7 8 16),
    eachFail c.scheds (fun d => failIf (s.schedBad c d) 7 8 d.off)]

/-- Reason 7h: every rule, sections in order. -/
def State.ruleFail (s : State) (repl : Option Nat) (c : Content) : Option LoadFail :=
  firstFail [
    eachFail c.jobs s.jobRule,
    failIf (jobsShare c) 7 1 16,
    eachFail c.jobs (fun j => eachFail j.rings (fun d => failIf (d.stripes.any (s.stripeBad repl c j.job)) 7 1 d.off)),
    eachFail c.pans (s.panRule repl c),
    eachFail c.bricks (brickRule c),
    failIf (lostWorlds c) 7 2 16,
    eachFail c.pans (s.graphRule repl c),
    failIf (!s.encryptAfter c && decide (256 < s.systemSize c)) 7 7 16,
    s.tierRule c,
    s.schedRule c]

/-! ## Jobs (reason 8h) -/

/-- The jobs that an image names. -/
def jobsNamed (c : Content) : List Nat := c.jobs.map (·.job) ++ c.pans.map (·.job)

/-- Whole images name jobs in CREATED of client 0; others name only the command's job. -/
def State.noJob (s : State) (c : Content) (own : Option Nat) : Option LoadFail :=
  match own with
  | none => failIf ((jobsNamed c).any (fun j => decide ((s.job j).st ≠ .created) || (s.job j).client != 0)) 8 1 16
  | some j => failIf ((jobsNamed c).any (fun k => k != j)) 8 1 16

/-- Reason 4h for a whole image. -/
def State.wholeScope (s : State) (h : List Byte) : Option LoadFail :=
  failIf (fieldAt h 6 1 != 0 || s.sch.pans.any (fun p => decide (p.2.st ≠ .free))) 4 0 0

/-- What every image of scope 1 keeps: one pan, the command's index and job, no device-wide section. -/
def panScopeBad (h : List Byte) (c : Content) (p j : Nat) : Bool :=
  let ks := imgKinds h
  fieldAt h 6 1 != 1 || c.pans.length != 1 || c.pans.any (fun d => d.pan != p || d.job != j)
    || ks.contains 6 || ks.contains 9 || ks.contains 10

/-- Reason 4h for a per-pan image: the job in CREATED or STEP_HOLD, the replaced pan FENCED and of the job. -/
def State.panScope (s : State) (h : List Byte) (c : Content) (p j : Nat) : Option LoadFail :=
  let st := (s.job j).st
  let b := s.pan p
  failIf (panScopeBad h c p j || !(decide (st = .created) || decide (st = .stepHold))
    || (decide (b.st ≠ .free) && !(decide (b.st = .fenced) && b.job == j))) 4 0 0

/-- Reason 4h for a resize: the pan RUNNING or FENCED, of the job. -/
def State.resizeScope (s : State) (h : List Byte) (c : Content) (p j : Nat) : Option LoadFail :=
  let b := s.pan p
  failIf (panScopeBad h c p j || b.job != j || !(decide (b.st = .running) || decide (b.st = .fenced))) 4 0 0

/-! ## Resizes (R352) -/

/-- Bytes of a world's state image under a brick map. -/
def stateSize (l : List BrickDecl) (w : DevWorldDecl) : Option (Nat × Nat × Nat) :=
  ((l.find? (fun b => b.die = w.die ∧ b.brick = w.brick)).bind brickDesc).map
    (fun k => (k.grains, k.stateBytes, k.sharedBytes))

/-- Bytes of a world's state image as placed. -/
def State.stateSizeNow (s : State) (w : DevWorldDecl) : Option (Nat × Nat × Nat) :=
  ((mgetD s.bricks (brickKey w.die w.brick) {}).desc).map (fun k => (k.grains, k.stateBytes, k.sharedBytes))

/-- What a resize must keep: retained DEV worlds in place with their size, weight sets, rings, sequence pool. -/
def State.resizeRule (s : State) (c : Content) (d : PanDecl) : Option LoadFail :=
  let old := (s.pan d.pan).cfg
  let moved := d.worlds.any (fun w => old.worlds.any (fun v => v.world == w.world &&
    (decide ((v.die, v.brick, v.grain0) ≠ (w.die, w.brick, w.grain0)) || decide (stateSize c.bricks w ≠ s.stateSizeNow v))))
  let sets := c.jobs.any (fun j =>
    j.weightSets.any (fun w => decide ((s.wset w.ws).map (·.decl) ≠ some (clampWs w).1))
      || j.rings.any (fun r => decide ((s.ring r.ring).map (·.decl) ≠ some (clampRing r).1)))
  firstFail [
    failIf moved 7 2 16,
    failIf (d.ws != old.ws || d.seqLo != old.seqLo || d.seqHi != old.seqHi || sets) 7 1 d.off]

/-! ## The checks in order (R379) -/

/-- The checks up to the content: reasons 1h to 3h. -/
def State.headFail (s : State) (i : Image) (len : Nat) : Option LoadFail :=
  let h := fitTo 768 i.header
  firstFail [failIf (formatBad h len) 1 0 0, failIf (s.signatureBad h) 2 0 0, digestFail h i.sections]

def State.wholeFail (s : State) (i : Image) (len : Nat) : Option LoadFail :=
  let h := fitTo 768 i.header
  let c := contentOnly (imgKinds h) i.content
  firstFail [s.headFail i len, s.wholeScope h, s.policyFail c, s.resourceFail none c, s.ruleFail none c, s.noJob c none]

def State.perPanFail (s : State) (i : Image) (len p j : Nat) : Option LoadFail :=
  let h := fitTo 768 i.header
  let c := contentOnly (imgKinds h) i.content
  firstFail [s.headFail i len, s.panScope h c p j, s.resourceFail (some p) c, s.ruleFail (some p) c, s.noJob c (some j)]

def State.resizeFail (s : State) (i : Image) (len p j : Nat) : Option LoadFail :=
  let h := fitTo 768 i.header
  let c := contentOnly (imgKinds h) i.content
  firstFail [s.headFail i len, s.resizeScope h c p j, s.resourceFail (some p) c, s.ruleFail (some p) c,
    eachFail c.pans (s.resizeRule c), s.noJob c (some j)]

end Sys2Proof.Machine
end

