-- ==== Sys2Proof/Machine/Load.lean ====
section
/-!
DEFINITION. Loads of Dolward images (R352, R376 to R380), keys (R389) and locks (R384).
-/

namespace Sys2Proof.Machine

/-! ## Applying an image (R380) -/

/-- Whether a brick that a load places is under self-test, which holds the load (R379). -/
def State.underTest (s : State) (ps : List PanDecl) : Bool :=
  ps.any (fun d => d.bricks.any (fun x => s.bistOn x.1 x.2))

/-- Whether a window of an image is clamped (R35). -/
def winClamped (bs : List BrickDecl) : Bool :=
  bs.any (fun b => b.grains.any (fun g =>
    decide (clampWin b.kbase b.kernel.length g.win0 ≠ g.win0) || decide (clampWin b.kbase b.kernel.length g.win1 ≠ g.win1)))

/-- Step 2 for what does not belong to one pan. -/
def State.loadShared (s : State) (c : Content) : State :=
  let s := match c.vcWeights with
    | some l => s.loadWeights l
    | none => s
  let s := match c.tiers with
    | some d => s.loadTiers d
    | none => s
  let s := ((s.loadScheds c.scheds).loadGates c.gates).setB R.WPT_TSYNC_GM (lDie 16) c.grandmaster
  s.setB R.WPT_TSYNC_GM (lDie 17) c.grandmaster

/-- The jobs of an image, each once. -/
def jobList (c : Content) : List Nat := (List.range 256).filter (fun j => (jobsNamed c).contains j)

/-- A whole image is applied: pans LOADING, sections 1 to 8, security, locks, pans FENCED, jobs STEP_HOLD. -/
def State.applyWhole (s : State) (o : Origin) (c : Content) : State :=
  let js := jobList c
  let s := forEach js s (fun s j => s.jobTo j .loading)
  let s := forEach c.pans s State.openPan
  let s := forEach c.jobs s State.loadJob
  let s := (forEach c.pans s (fun s (d : PanDecl) => s.fillPan o d c.bricks)).loadShared c
  let s := match c.security with
    | some d => s.loadSecurity o d
    | none => s
  let s := forEach c.locks s (fun s v => s.lockBlocks o v)
  let s := (forEach c.pans s (fun s (d : PanDecl) => s.panTo d.pan .fenced)).countBases
  forEach js s (fun s j => (s.keepContent j c).jobTo j .stepHold)

/-- A per-pan image is applied: the pan it replaces goes first. -/
def State.applyPerPan (s : State) (o : Origin) (c : Content) (d : PanDecl) : State :=
  let s := s.jobTo d.job .loading
  let s := if (s.pan d.pan).st = .free then s else s.freePan d.pan
  let s := ((forEach c.jobs (s.openPan d) State.loadJob).fillPan o d c.bricks).loadPanSections c
  let s := (s.panTo d.pan .fenced).countBases.keepContent d.job c
  (s.modCkp d.job (fun k => { k with configChanged := true })).jobTo d.job .stepHold

/-! ## The commands (R346, R378) -/

/-- A load's parameters: LEN, PAN, RESIZE. -/
def Cmd.loadLen (c : Cmd) : Nat := fieldAt c.params 8 8
def Cmd.loadPan (c : Cmd) : Nat := fieldAt c.params 16 1
def Cmd.resizes (c : Cmd) : Bool := bit (fieldAt c.params 17 1) 0

/-- Status of a failed check (R379). -/
def LoadFail.status (f : LoadFail) : Nat :=
  if f.reason = 6 then Status.noResource else if f.reason = 8 then Status.stale else Status.refused

/-- First 8 bytes of BSDIGEST. -/
def bsName (i : Image) : Nat := leNat ((bsDigest (fitTo 768 i.header)).take 8)

/-- A load that fails changes nothing but CFG_LOAD, its count and its record. -/
def State.loadRefused (s : State) (c : Cmd) (i : Image) (job : Nat) (f : LoadFail) : State :=
  let s := s.audit1 (16 + c.ref.pair / 32) (s.mkRec 0x06 (cmdOrigin c.ref) (job := job) (pan := c.loadPan)
    (addr := c.loadPan) (written := bsName i) (aux := f.reason))
  let s := ((s.setF R.CFG_LOAD_REASON lKeep f.reason).setF R.CFG_LOAD_KIND lKeep f.kind).setF R.CFG_LOAD_OFFSET lKeep f.off
  (s.bump R.CFG_COUNT_REFUSED lKeep).finish c f.status 0 0

/-- A load that passed is recorded and counted, and its clamps are audited. -/
def State.loadPassed (s : State) (c : Cmd) (i : Image) (job : Nat) (cl : List Clamp) : State :=
  let s := s.audit1 (16 + c.ref.pair / 32) (s.mkRec 0x05 (cmdOrigin c.ref) (job := job) (pan := c.loadPan)
    (addr := c.loadPan) (written := bsName i))
  (s.auditClamps (cmdOrigin c.ref) job c.loadPan cl).bump R.CFG_COUNT_LOADS lKeep

/-- The content of an image by the sections it has, every value in range, and the clamps made. -/
def imageContent (i : Image) : Content × List Clamp :=
  clampContent (contentOnly (imgKinds (fitTo 768 i.header)) i.content)

/-- The command with CLAMPED set when the load clamped a value. -/
def Cmd.withClamps (c : Cmd) (x : Content × List Clamp) : Cmd :=
  { c with clamped := c.clamped || !x.2.isEmpty || winClamped x.1.bricks }

/-- BSDIGEST of the last whole load. -/
def State.keepDigest (s : State) (i : Image) : State :=
  { s with hcx := { s.hcx with bsDigest := bsDigest (fitTo 768 i.header) } }

/-- WHOLE_LOAD (R378). -/
def execWholeLoad (cmd : CmdRef) (image : Image) (s : State) : Out :=
  .next (s.onCmd cmd 0x01 (fun c s =>
    let x := imageContent image
    if c.loadPan ≠ 0xFF then s
    else match s.wholeFail image c.loadLen with
      | some f => s.loadRefused c image 0xFF f
      | none =>
        if s.underTest x.1.pans then s
        else
          let s := ((s.loadPassed c image 0xFF x.2).applyWhole (cmdOrigin cmd) x.1).keepDigest image
          s.finish (c.withClamps x) Status.ok 0 0))

/-- PER_PAN_LOAD (R378). -/
def execPerPanLoad (cmd : CmdRef) (image : Image) (s : State) : Out :=
  .next (s.onCmd cmd 0x01 (fun c s =>
    let x := imageContent image
    if c.loadPan = 0xFF ∨ c.resizes then s
    else match s.perPanFail image c.loadLen c.loadPan c.job with
      | some f => s.loadRefused c image c.job f
      | none =>
        if s.underTest x.1.pans then s
        else
          let s := s.loadPassed c image c.job x.2
          (forEach x.1.pans s (fun s (d : PanDecl) => s.applyPerPan (cmdOrigin cmd) x.1 d)).finish (c.withClamps x)
            Status.ok 0 0))

/-- Steps 2 and 3 of R352: the added bricks are placed; the image waits for the boundary, or applies at once to
a FENCED pan. -/
def State.beginResize (s : State) (c : Cmd) (x : Content) : State :=
  let s := s.setCmd { c with begun := true }
  forEach x.pans s (fun s (d : PanDecl) =>
    let s := (s.placeAdded (cmdOrigin c.ref) d.pan d x.bricks).modPan d.pan (fun p => { p with resize := some (c.ref, x) })
    if (s.pan d.pan).st = .fenced then s.resizeNow d.pan else s)

/-- RESIZE (R352). A resize waits for an earlier one of its pan. -/
def execResize (cmd : CmdRef) (image : Image) (s : State) : Out :=
  .next (s.onCmd cmd 0x01 (fun c s =>
    let x := imageContent image
    if c.loadPan = 0xFF ∨ !c.resizes ∨ (s.pan c.loadPan).resize.isSome then s
    else match s.resizeFail image c.loadLen c.loadPan c.job with
      | some f => s.loadRefused c image c.job f
      | none =>
        if s.underTest x.1.pans then s
        else (s.loadPassed c image c.job x.2).beginResize (c.withClamps x) x.1))

/-! ## Keys (R389) -/

/-- The key of a stream blob for its job, when the blob opens and names the job's generation. -/
def State.streamKey (s : State) (b : List Byte) : Option KeySlot :=
  let j := fieldAt b 0 1
  let part (o n : Nat) : List Byte := (b.drop o).take n
  if b.length ≠ 165 ∨ (s.job j).st = .none ∨ (s.job j).st = .destroyed ∨ (s.job j).gen ≠ fieldAt b 4 4 then none
  else
    let id := keyIdentity agreePub
    (unwrap (part 8 97) id (part 105 12) (part 117 32) (part 149 16) (Config.blobAad (part 0 8))).map
      (fun k => { kind := 1, identity := keyIdentity k, key := k, job := j })

/-- The key that a blob holds under a KIND. -/
def State.blobKey (s : State) (kind : Nat) (b : List Byte) : Option KeySlot :=
  match kind with
  | 1 => s.streamKey b
  | 2 => if b.length = 101 then
      some { kind := 2, identity := keyIdentity (b.drop 4), key := b.drop 4, device := fieldAt b 0 2 }
    else none
  | _ => if b.length = 97 then some { kind := kind, identity := keyIdentity b, key := b } else none

/-- KEY_LOAD (R389). -/
def execKeyLoad (cmd : CmdRef) (blob : List Byte) (s : State) : Out :=
  .next (s.onCmd cmd 0x03 (fun c s =>
    let w := fieldAt c.params 12 1
    let kind := if 1 ≤ w ∧ w ≤ 4 then w else 3
    let (c, s) := s.clampCmd c 0x1C w kind
    match s.blobKey kind (blob.take (fieldAt c.params 8 4)) with
    | none => (s.bump R.SEC_KEYS_FAILS (lDie 16)).finish c Status.refused 0 0
    | some k =>
      if s.freeKey.isNone then (s.bump R.SEC_KEYS_FAILS (lDie 16)).finish c Status.refused 0 0
      else (s.addKey (cmdOrigin cmd) k).finish c Status.ok 0 0))

/-! ## LOCK (R384) -/

/-- LOCK: RESULT0 is the number of blocks newly locked. -/
def execLock (cmd : CmdRef) (s : State) : Out :=
  .next (s.onCmd cmd 0x15 (fun c s =>
    let v := fieldAt c.params 0 4
    (s.lockBlocks (cmdOrigin cmd) v).finish c Status.ok (s.newLocks v).length 0))

end Sys2Proof.Machine
end

