-- ==== Sys2Proof/Machine/Jobs.lean ====
section
/-!
DEFINITION. The host's job commands (R345 to R350), SEQ_CANCEL (R138), SUMMARY (R354, R355, R315) and LOG_READ
(R388).
-/

namespace Sys2Proof.Machine

/-! ## Jobs -/

/-- A job counts from JOB_CREATE until DESTROYED (R349). -/
def Job.counts (j : Job) : Bool := decide (j.st ≠ .none) && decide (j.st ≠ .destroyed)

/-- Jobs that count against a client. -/
def State.clientJobs (s : State) (client : Nat) : Nat :=
  (s.hcx.jobs.filter (fun j => j.2.counts ∧ j.2.client = client)).length

/-- The lowest free job index: not in use and out of quarantine. -/
def State.freeJob (s : State) : Option Nat :=
  lowest 256 (fun i => !(s.job i).counts && (s.job i).quarAt == 0)

/-- JOB_CREATE (R349): RESULT0 the job, RESULT1 its JOBGEN. -/
def execJobCreate (cmd : CmdRef) (s : State) : Out :=
  .next (s.onCmd cmd 0x04 (fun c s =>
    match s.freeJob with
      | none => s.finish c Status.noResource 0 0
      | some i =>
        if s.getF R.HCX_CLIENT_MAXJOBS (lKeepI c.client) ≤ s.clientJobs c.client then s.finish c Status.noResource 0 0
        else
          let g := max (s.job i).gen 1
          let b : Job :=
            { st := (s.job i).st, gen := g, client := c.client, seed := BitVec.ofNat 64 (fieldAt c.params 0 8)
              share := bit (fieldAt c.params 8 1) 0 }
          ((s.setJob i b).jobTo i .created).finish c Status.ok i g))

/-- JOB_START (R347, R348): from STEP_HOLD with every pan FENCED. -/
def execJobStart (cmd : CmdRef) (s : State) : Out :=
  .next (s.onCmd cmd 0x05 (fun c s =>
    if (s.job c.job).st ≠ .stepHold ∨ !(s.jobPans c.job).all (fun p => decide ((s.pan p).st = .fenced)) then
      s.finish c Status.refused 0 0
    else
      let s := s.jobTo c.job .running
      (forEach (s.jobPans c.job) s State.startPan).finish c Status.ok 0 0))

/-- Running pans of a job release no further step. -/
def State.quiesceJob (s : State) (j : Nat) : State :=
  forEach ((s.jobPans j).filter (fun p => (s.pan p).st = .running)) s (fun s p => s.panTo p .quiescing)

/-- JOB_STOP (R347, R348): completes when every pan is FENCED. -/
def execJobStop (cmd : CmdRef) (s : State) : Out :=
  .next (s.onCmd cmd 0x06 (fun c s =>
    let j := c.job
    if (s.job j).st = .running then
      let s := (s.jobTo j .stepHold).quiesceJob j
      let s := (s.modJob j (fun b => { b with stopCmd := some cmd })).beginCmd c
      s.stopIfReady j
    else if (s.jobPans j).any (fun p => decide ((s.pan p).st = .quiescing)) then s
    else s.finish c Status.ok 0 0))

/-- JOB_DESTROY (R348, R350): the pans quiesce first. -/
def execJobDestroy (cmd : CmdRef) (s : State) : Out :=
  .next (s.onCmd cmd 0x07 (fun c s =>
    let j := c.job
    if (s.job j).destroyCmd.isSome then s
    else if !(s.job j).counts then s.finish c Status.stale 0 0
    else
      let s := (s.modJob j (fun b => { b with destroyCmd := some cmd })).beginCmd c
      ((s.spinWorlds j).quiesceJob j).destroyIfReady j))

/-- INDEX_QUARANTINE_EXPIRY (R347, R348): a freed job or pan index leaves its quarantine. -/
def execIndexQuarantineExpiry (isJob : Bool) (idx : Nat) (s : State) : Out :=
  need (decide (idx < 256)) "index" (.next (
    if isJob then
      let b := s.job idx
      if b.counts ∨ b.quarAt = 0 then s else (s.until b.quarAt).setJob idx { b with quarAt := 0 }
    else
      let b := s.pan idx
      if b.st ≠ .free ∨ b.quarAt = 0 then s else (s.until b.quarAt).setPan idx { b with quarAt := 0 }))

/-! ## SEQ_CANCEL (R138) -/

/-- SEQ_CANCEL: a stale name, or one of another job, has no effect. -/
def execSeqCancel (cmd : CmdRef) (s : State) : Out :=
  .next (s.onCmd cmd 0x11 (fun c s =>
    let i := fieldAt c.params 0 2
    let q := s.seq i
    if !q.live ∨ q.gen ≠ fieldAt c.params 2 4 ∨ (s.pan q.pan).job ≠ c.job then
      (s.bump R.ATT_WALK_STALE (lDie (s.pan q.pan).master)).finish c Status.stale 0 0
    else (s.cancelSeq i).finish c Status.ok 0 0))

/-! ## SUMMARY (R354, R355) -/

/-- ⌊1,024 × largest ÷ mean⌋ of `total` shares over `n`, in 16 bits; 0 when the cut is absent. -/
def imbalance (largest total n : Nat) : Nat :=
  if total = 0 ∨ n = 0 then 0 else min 65535 (1024 * largest * n / total)

/-- Layers of stage slot `k` (R311). -/
def slotLayers (layers slots k : Nat) : Nat := layers / slots + (if k < layers % slots then 1 else 0)

/-- Layers that the rank with most layers holds. -/
def maxLayers (c : CutDecl) : Nat :=
  let p := c.stageDevices
  let n := p * c.stageV
  ((List.range p).map (fun r => sumBy ((List.range n).filter (fun k => k % p = r)) (slotLayers c.layers n))).foldl max 0

/-- The mapping block of a job (R315). -/
def State.mappingEntry (s : State) (j : Nat) : List Byte :=
  let b := s.job j
  let c := (s.jobDecl j).cut
  toLe 2 (c.stageDevices * c.stageV)
    ++ toLe 2 (imbalance (maxLayers c) c.layers c.stageDevices)
    ++ toLe 2 (imbalance (ceilDiv c.heads (max 1 c.headDevices)) c.heads c.headDevices)
    ++ toLe 2 (imbalance (ceilDiv c.experts (max 1 c.expertDevices)) c.experts c.expertDevices)
    ++ toLe 2 b.rowsImb ++ toLe 2 b.cutSlow ++ toLe 4 b.placeVer ++ toLe 4 b.placeCommits
    ++ toLe 4 b.placeRefused ++ toLe 8 0

/-- Attached worlds of a predicate. -/
def State.worldCount (s : State) (p : World → Bool) : Nat := (s.wpt.worlds.filter (fun w => p w.2)).length

def State.jobEntry (s : State) (j : Nat) : List Byte :=
  let b := s.job j
  let ps := s.jobPans j
  let devs := sumBy ps (fun p => (s.pan p).worlds.length)
  toLe 1 j ++ toLe 1 b.st.code ++ toLe 1 b.client ++ toLe 1 (b2n b.share) ++ toLe 4 b.gen ++ toLe 2 b.rank
    ++ toLe 2 ps.length
    ++ toLe 4 (devs + s.worldCount (fun w => decide (w.job = j) && decide (w.st ≠ .detached)))
    ++ toLe 4 (b.faultKind % 256 + b.faultUnit * 256)
    ++ toLe 8 (s.getF R.CKP_JWHOLE_LASTWHOLE (lKeepI j)) ++ toLe 4 0

def State.panEntry (s : State) (p : Nat) : List Byte :=
  let b := s.pan p
  toLe 1 p ++ toLe 1 b.st.code ++ toLe 1 b.job ++ toLe 1 (b2n b.cfg.adoptProv + 2 * b2n (s.liveServing p))
    ++ toLe 4 b.gen ++ toLe 2 b.cfg.bricks.length ++ toLe 1 b.master ++ toLe 1 0 ++ toLe 8 b.step
    ++ toLe 4 b.epoch ++ toLe 1 b.cfg.ws ++ toLe 7 0

/-- Table entries neither FREE nor RETIRED. -/
def WSet.inUse (w : WSet) : Nat :=
  (w.table.filter (fun t => t.2.st ≠ .free ∧ t.2.st ≠ .retired)).length

/-- HOLDERS of a slot. -/
def WSet.slotHolders (w : WSet) (i : Nat) : Nat :=
  match w.entry (w.slot i) with
  | some t => t.holders
  | none => 0

def epochEntryBytes (ws : Nat) (w : WSet) : List Byte :=
  toLe 1 ws ++ toLe 1 w.job ++ toLe 1 w.decl.kind ++ toLe 1 0 ++ toLe 4 w.lastConf ++ toLe 4 (w.next - 1)
    ++ toLe 1 (w.stateOf (w.next - 1)).code ++ toLe 1 w.cause ++ toLe 2 w.inUse ++ toLe 2 (w.slotHolders 0)
    ++ toLe 2 (w.slotHolders 1) ++ toLe 12 0

/-- DEV worlds of a pan, and its port worlds by state. -/
def State.worldEntry (s : State) (p : Nat) : List Byte :=
  let n (t : WorldRun) : List Byte := toLe 2 (s.worldCount (fun w => decide (w.pan = p) && decide (w.st = t)))
  toLe 1 p ++ toLe 3 0 ++ toLe 2 (s.pan p).worlds.length ++ n .attaching ++ n .running ++ n .holding ++ n .spindown
    ++ n .stopped

/-- Bytes of a tier's frames in use; for T0, of the bricks in pans. -/
def State.tierUsed (s : State) (tier : Nat) : Nat :=
  let ps := s.sch.pans.filter (fun p => p.2.st ≠ .free)
  if tier = 0 then sumBy ps (fun p => p.2.cfg.bricks.length * 0x600000)
  else sumBy ps (fun p => (mgetD s.tier.frames (p.1 * 4 + tier) []).length * p.2.cfg.frame)

/-- Uncorrected errors counted in a tier. -/
def State.tierErrors (s : State) (tier : Nat) : Nat :=
  match tier with
  | 1 => sumBy (List.range 16) (fun d => s.getF R.HBM_ECC_UNCORR (lDie d))
  | 2 => sumBy (List.range 16) (fun i => s.getF R.LPD_STAT_UNCORR (lpdLoc i))
  | 3 => s.getF R.NVT_ECC_UNCORR (lDie 18) + s.getF R.NVT_ECC_UNCORR (lDie 19)
  | _ => 0

def State.tierEntry (s : State) (tier : Nat) : List Byte :=
  toLe 1 tier ++ toLe 7 0 ++ toLe 8 (if tier = 0 then 16 * 128 * 0x600000 else s.tierBytes tier)
    ++ toLe 8 (s.tierUsed tier) ++ toLe 8 (s.tierErrors tier)

def linkBytes (cls idx st lclass peer lanes retrains : Nat) : List Byte :=
  toLe 1 cls ++ toLe 1 idx ++ toLe 1 st ++ toLe 1 lclass ++ toLe 4 peer ++ toLe 1 lanes ++ toLe 1 0
    ++ toLe 2 retrains ++ toLe 4 0

/-- LINK entries: mortar ports, fabric ports, whistle levels, world ports, PCIe ports. -/
def State.linkEntries (s : State) : List (List Byte) :=
  ((List.range 64).map (fun i =>
      let l := lIdx (i / 4) (i % 4)
      linkBytes 0 i (s.getF R.D2D_LSTAT_STATE l) 0 (s.getF R.D2D_LSTAT_PEER l) 0 (s.getF R.D2D_LERR_RETRAINS l)))
    ++ ((List.range 32).map (fun i =>
      let l := fabLoc i
      linkBytes 1 i (s.getF R.FAB_PSTAT_STATE l) (s.getF R.FAB_PSTAT_LCLASS l) (s.getF R.FAB_PSTAT_PEER l)
        (s.getF R.FAB_PSTAT_LANES l) (s.getF R.FAB_PLINK_RETRAINS l)))
    ++ ((List.range 3).map (fun i => linkBytes 2 i (s.getF R.LLP_RSTAT_STATE (lIdx 18 i)) 0 0 0 0))
    ++ ((List.range 8).map (fun i => linkBytes 3 i (s.getF R.WPT_PSTAT_STATE (portLoc i)) 0 0 0 0))
    ++ ((List.range 2).map (fun i =>
      let l := lDie (16 + i)
      linkBytes 4 i (s.getF R.PCIE_LINK_UP l) 0 0 (s.getF R.PCIE_LINK_WIDTH l) (s.getF R.PCIE_ERR_RETRAINS l)))

/-- The sections: kind and entries, in directory order. -/
def State.summarySections (s : State) : List (Nat × List (List Byte)) :=
  let js := (s.hcx.jobs.filter (fun j => j.2.counts)).map (·.1)
  let ps := (s.sch.pans.filter (fun p => p.2.st ≠ .free)).map (·.1)
  let worldly (p : Nat) : Bool := !(s.pan p).worlds.isEmpty ||
    s.wpt.worlds.any (fun w => decide (w.2.pan = p) && decide (w.2.st ≠ .detached))
  [(1, js.map s.jobEntry), (2, ps.map s.panEntry), (3, s.epc.sets.map (fun w => epochEntryBytes w.1 w.2)),
    (4, (ps.filter worldly).map s.worldEntry), (5, (List.range 4).map s.tierEntry), (6, s.linkEntries),
    (7, s.obsv.totals.map (fun t => toLe 2 t.1 ++ toLe 2 0 ++ toLe 4 t.2.1 ++ toLe 8 t.2.2)),
    (8, js.map s.mappingEntry)]

/-- Bytes of sections before each, from `o`, with the bytes of each. -/
def placeSections (o : Nat) : List (Nat × List (List Byte)) → List (Nat × Nat × Nat × List Byte)
  | [] => []
  | x :: r => (x.1, x.2.length, o, x.2.flatten) :: placeSections (o + x.2.flatten.length) r

/-- The header of a summary of `len` bytes. -/
def State.summaryHead (s : State) (sects len : Nat) : List Byte :=
  toLe 4 0x53554D59 ++ toLe 2 1 ++ toLe 2 sects ++ toLe 8 len ++ toLe 8 s.time ++ toLe 8 s.nextSeq ++ toLe 2 s.device
    ++ toLe 2 s.bootLow ++ toLe 4 (s.term (s.keeper.getD 0)) ++ toLe 1 (16 + s.keeper.getD 0) ++ toLe 1 0xB1 ++ toLe 6 0
    ++ fitTo 32 s.clk.fwDigest ++ fitTo 32 s.hcx.bsDigest ++ toLe 8 (sumBy s.obsv.totals (fun t => t.2.1)) ++ toLe 8 0

/-- The summary, and the bytes of it that fit in `len`: header, directory and whole sections. -/
def State.summaryBytes (s : State) (len : Nat) : Nat × List Byte :=
  let l := s.summarySections
  let secs := placeSections (128 + 16 * l.length) l
  let total := secs.foldl (fun n x => max n (x.2.2.1 + x.2.2.2.length)) (128 + 16 * l.length)
  let dir := secs.flatMap (fun x => toLe 2 x.1 ++ toLe 2 0 ++ toLe 4 x.2.1 ++ toLe 8 x.2.2.1)
  let head := s.summaryHead l.length total ++ dir
  let fit := (secs.filter (fun x => decide (x.2.2.1 + x.2.2.2.length ≤ len))).flatMap (fun x => x.2.2.2)
  (total, if head.length ≤ len then head ++ fit else [])

/-- SUMMARY (R354): no side effect but what it writes. -/
def execSummary (cmd : CmdRef) (s : State) : Out :=
  .next (s.onCmd cmd 0x12 (fun c s =>
    let r := s.summaryBytes (fieldAt c.params 8 8)
    (s.hostWrite (fieldAt c.params 0 8) r.2).finish c Status.ok r.1 r.2.length))

/-! ## LOG_READ (R386, R388) -/

/-- The 64 bytes of a record. -/
def recBytes (r : AuditRec) : List Byte :=
  let b := toLe 8 r.seq ++ toLe 8 r.time ++ toLe 1 r.origin ++ toLe 1 r.kind ++ toLe 2 r.origid ++ toLe 1 r.job
    ++ toLe 1 r.pan ++ toLe 2 r.flags ++ toLe 8 r.addr ++ toLe 8 r.written ++ toLe 8 r.old ++ toLe 8 r.eff ++ toLe 4 r.aux
  b ++ toLe 4 (crc32 b).toNat

/-- Whether a client sees a record: client 0 all; others those of its jobs and of its own queues. -/
def State.seesRec (s : State) (client : Nat) (r : AuditRec) : Bool :=
  client == 0 || (r.job != 0xFF && (s.job r.job).client == client && decide ((s.job r.job).st ≠ .none))
    || (r.origin == 1 && decide (r.origid < 64) && s.getF R.HCX_QCFG_CLIENT (pairLoc r.origid) == client)

/-- SEQ of the oldest record held. -/
def State.oldestSeq (s : State) : Nat := (s.audit.ring.head?.map (·.seq)).getD s.audit.next

/-- LOG_READ (R388): RESULT0 the records copied, RESULT1 the next SEQ to read. -/
def execLogRead (cmd : CmdRef) (s : State) : Out :=
  .next (s.onCmd cmd 0x13 (fun c s =>
    let asked := fieldAt c.params 16 8
    let from0 := max asked s.oldestSeq
    let (c, s) := s.clampCmd c 0x20 asked from0
    let l := s.audit.ring.filter (fun r => from0 ≤ r.seq ∧ s.seesRec c.client r)
    let n := fieldAt c.params 8 8 / 64
    let out := l.take n
    let next := match l.drop n with
      | r :: _ => r.seq
      | [] => s.audit.next
    (s.hostWrite (fieldAt c.params 0 8) (out.flatMap recBytes)).finish c Status.ok out.length next))

end Sys2Proof.Machine
end

