-- ==== Sys2Proof/Machine/Checkpoint.lean ====
section
/-!
DEFINITION. Buddy cuts, durable checkpoints, restores and the adoption by a spare (R358 to R375).
-/

namespace Sys2Proof.Machine

/-! ## CHECKPOINT (R368) -/

/-- The job's anchor on the device holds the cut BARRIER station of R358. -/
def State.anchored (s : State) (j : Nat) : Bool :=
  match (s.jobDecl j).anchor with
  | none => false
  | some p => decide ((s.pan p).st ≠ .free) && (s.pan p).cfg.stations.any (fun d =>
      match d.exch with
      | some e => e.op == 6 && e.purpose == 1
      | none => false)

/-- CHECKPOINT_ENABLE: MODE 1. -/
def execCheckpointEnable (cmd : CmdRef) (s : State) : Out :=
  .next (s.onCmd cmd 0x0E (fun c s =>
    let j := c.job
    if fieldAt c.params 0 1 ≠ 1 then s
    else if !s.anchored j then s.finish c Status.refused 0 0
    else if s.cutsOn j then s.finish c Status.ok 0 0
    else
      let s := s.setF R.CKP_JCFG_BUDDY (lKeepI j) 1
      (s.modCkp j (fun k => { k with firstBarrier := true, fullNext := true })).finish c Status.ok 0 0))

/-- CHECKPOINT_DISABLE: MODE 2, to which values above it clamp. The cut in progress is given up. -/
def execCheckpointDisable (cmd : CmdRef) (s : State) : Out :=
  .next (s.onCmd cmd 0x0E (fun c s =>
    let m := fieldAt c.params 0 1
    let j := c.job
    if m < 2 then s
    else
      let (c, s) := s.clampCmd c 0x10 m 2
      let s := s.setF R.CKP_JCFG_BUDDY (lKeepI j) 0
      (s.modCkp j (fun k => { k with cut := none, partsDue := [], prot := [], firstBarrier := false })).finish c
        Status.ok 0 0))

/-- CHECKPOINT_DURABLE: MODE 0 marks the next whole cut. -/
def execCheckpointDurable (cmd : CmdRef) (s : State) : Out :=
  .next (s.onCmd cmd 0x0E (fun c s =>
    if fieldAt c.params 0 1 ≠ 0 then s
    else (s.modCkp c.job (fun k =>
      { k with durableDue := true, durableCmds := k.durableCmds ++ [cmd] })).beginCmd c))

/-! ## Streaming a cut (R362, R365, R369) -/

/-- Kind of shard number `i` of a job. -/
def State.shardKind (s : State) (j i : Nat) : Nat := (((s.jobDecl j).shards[i]?).map (·.kind)).getD 0

/-- Bytes of T0 shards still in the cut buffer. -/
def bufferT0 (c : Cut) : Nat :=
  sumBy (c.mem.filter (fun m => m.space = 0 ∧ c.unacked.contains m.shard)) (fun m => m.data.length)

/-- Bytes of the cut buffer in use. -/
def State.bufferUsed (s : State) (j : Nat) : Nat :=
  let k := s.ckpJob j
  k.prot.length * 65536 + (match k.cut with
    | some c => bufferT0 c
    | none => 0)

/-- PROTECTED_WRITE (R362): the first write to a protected extent copies it, or waits for room. -/
def execProtectedWrite (job shard extent : Nat) (s : State) : Out :=
  .next (
    let k := s.ckpJob job
    let kind := s.shardKind job shard
    match k.cut with
    | none => s
    | some c =>
      if !c.unacked.contains shard ∨ kind = 2 ∨ kind = 9 ∨ k.prot.contains (shard, extent) then s
      else if s.bufferUsed job + 65536 ≤ (s.jobDecl job).cutBufMib * 2 ^ 20 then
        s.setCkp job { k with prot := k.prot ++ [(shard, extent)] }
      else s.bump R.CKP_JCNT_PROTWAIT (lKeepI job))

/-- A shard is sent to the buddy again. -/
def State.resendShard (s : State) (j i : Nat) (d : ShardDecl) (c : Cut) : State :=
  match c.entryOf d with
  | none => s
  | some e => match s.sealShard j i e (c.plain i e) with
    | none => s
    | some b => s.toBuddy j (ofTwo d.copyAt e.copy) b

/-- SHARD_ACK (R365): the buddy's digest agrees, or the shard is sent again; the third mismatch loses the buddy. -/
def execShardAck (job shard : Nat) (digest : List Byte) (s : State) : Out :=
  .next (
    let k := s.ckpJob job
    match k.cut, (s.jobDecl job).shards[shard]? with
    | some c, some d =>
      if !c.unacked.contains shard then s
      else if (c.entryOf d).map (·.digest) = some digest then
        s.setCkp job { k with
          cut := some { c with unacked := c.unacked.filter (fun x => x ≠ shard) }
          prot := k.prot.filter (fun x => x.1 ≠ shard) }
      else
        let n := mgetD k.mismatches shard 0 + 1
        let s := (s.setCkp job { k with mismatches := mput k.mismatches shard n }).bump R.CKP_JCNT_RESENT (lKeepI job)
        if n < 3 ∨ k.buddyLost then s.resendShard job shard d c
        else
          let r := (s.jobDecl job).buddyRank
          (s.modCkp job (fun k => { k with buddyLost := true })).alarm Kind.buddyLost job
            (alarmKey (nth (s.roster job) r 0xFFFF) r)
    | _, _ => s)

/-- Bytes are written to a range of flash. -/
def State.toFlash (s : State) (off : Nat) (b : List Byte) : State := (s.wrTier 3 off b).flashTouch none off b.length

/-- The shards of a durable checkpoint, from the home copy. -/
def State.flashShards (s : State) (j : Nat) (c : Cut) : State :=
  let d := s.jobDecl j
  forEach d.shards.zipIdx s (fun s (x : ShardDecl × Nat) =>
    match c.entryOf x.1 with
    | none => s
    | some e => match s.sealShard j x.2 e (c.plain x.2 e) with
      | none => s
      | some b => s.toFlash (d.flashBase + flashOff d x.1 c.durable) b)

/-- DURABLE_WRITE (R369): over the older of two checkpoints, its manifest last. Flash that takes no writes holds it up. -/
def execDurableWrite (job : Nat) (s : State) : Out :=
  .next (
    match (s.ckpJob job).durableBusy with
    | none => s
    | some c =>
      if s.flashClosed then s else
      let k := s.ckpJob job
      let d := s.jobDecl job
      let c := { c with durable := 1 - ((k.durable.head?.map (·.durable)).getD 1) }
      let m := s.manifest job c 1
      let s := s.flashShards job c
      let s := s.toFlash (d.flashBase + c.durable * d.durableBytes + d.manifestAt.1) m
      let s := s.setCkp job { k with
        durable := { c with manifest := m } :: k.durable.take 1, durableBusy := none, durableRun := [] }
      let s := s.setF R.CKP_JDUR_LASTDURABLE (lKeepI job) c.step
      forEach k.durableRun s (fun s (r : CmdRef) => s.finishRef r Status.ok c.step 0))

/-! ## RESTORE (R372) -/

/-- The cut that a RESTORE names: W, or a durable checkpoint present on every device. -/
def Ckp.source (k : Ckp) (src : Nat) (everywhere faulted : Bool) : Option Cut :=
  if src = 0xFFFFFFFFFFFFFFFF then (if faulted then none else k.whole)
  else if everywhere then k.durable.find? (fun c => c.step = src)
  else none

/-- The pans of a FAULTED job can be placed again. -/
def State.canPlace (s : State) (c : Content) : Bool :=
  c.pans.all (fun d => s.indexFree none d.pan && d.bricks.all (s.brickFree none))

/-- Places the pans of a checkpoint's CONFIG shard. -/
def State.placeAgain (s : State) (o : Origin) (c : Content) : State :=
  let s := forEach c.pans s State.openPan
  let s := forEach c.pans s (fun s (d : PanDecl) => s.fillPan o d c.bricks)
  let s := s.loadPanSections c
  (forEach c.pans s (fun s (d : PanDecl) => s.panTo d.pan .fenced)).countBases

/-- A cut in progress ends with a restore. -/
def Ckp.rolledBack (k : Ckp) : Ckp := { k with cut := none, partsDue := [], prot := [], mismatches := [] }

/-- The job goes back to a cut and runs again. -/
def State.restoreJob (s : State) (j : Nat) (d : Cut) (newest : List (Nat × Nat)) : State :=
  let s := ((s.enterRestore j).restoreCut j d newest).modCkp j Ckp.rolledBack
  (s.stopIfReady j).resumeJob j

/-- RESTORE (R372), also from FAULTED. -/
def execRestore (cmd : CmdRef) (presentEverywhere : Bool) (newest : List (Nat × Nat)) (s : State) : Out :=
  .next (s.onCmd cmd 0x0F (fun c s =>
    let j := c.job
    let st := (s.job j).st
    let faulted := decide (st = .faulted)
    if !(faulted || decide (st = .running) || decide (st = .stepHold)) ∨ (s.job j).destroyCmd.isSome then
      s.finish c Status.refused 0 0
    else match (s.ckpJob j).source (fieldAt c.params 0 8) presentEverywhere faulted with
      | none => s.finish c Status.refused 0 0
      | some d =>
        if !faulted then (s.restoreJob j d newest).finish c Status.ok 0 0
        else if !s.canPlace d.config then s.finish c Status.noResource 0 0
        else if s.underTest d.config.pans then s
        else ((s.placeAgain (cmdOrigin cmd) d.config).restoreJob j d newest).finish c Status.ok 0 0))

/-! ## Spares and adoption (R370, R371) -/

/-- The device is in SPARE. -/
def State.isSpare (s : State) : Bool :=
  s.clk.ready && !s.hcx.jobs.any (fun j => j.2.counts) && s.getB R.CKP_CFG_SPARE lKeep

/-- Sends a message of an adoption: 0 FIND, 1 ADOPT, 2 the answer to FIND. -/
def State.sendMsg (s : State) (kind dest : Nat) (words : List Nat) (bytes : List Byte) : State :=
  { s with ckp := { s.ckp with msgs := s.ckp.msgs ++ [(kind, dest, words, bytes)] } }

/-- FIND (R371): the device that holds the failed rank's buddy copy answers with its manifest and the roster. -/
def execFind (src failed job rank : Nat) (s : State) : Out :=
  let holds (j : Nat × Job) : Bool :=
    j.2.counts && decide ((s.roster j.1)[rank]? = some failed) && (s.jobDecl j.1).heldRanks.contains rank
  .next (
    if !s.fab.spares.contains src then s
    else match s.hcx.jobs.find? holds with
      | none => s
      | some j =>
        let (m, s) := s.drawBytes (0xE0 + 0x40 * (s.jobDecl j.1).shards.length)
        s.sendMsg 2 src (failed :: job :: rank :: s.roster j.1) m)

/-- One device stands for another in a list. -/
def replaced (l : List Nat) (old new : Nat) : List Nat := l.map (fun d => if d = old then new else d)

/-- A spare replaces the failed device in a group, whose whistle maps are rebuilt from the new list (R371): `maps` has them
by the group's number. A group without them gives the spare a free position on its one ring. -/
def State.replaceIn (s : State) (maps : List RingMaps) (key : Nat) (g : GroupSt) (old new : Nat) : State :=
  let d := { g.decl with devices := replaced g.decl.devices old new }
  let (d, s) := match maps.find? (fun m => m.group = key) with
    | some m => ({ d with maps := m.maps, ringMap := m.ringMap }, s)
    | none =>
      let (p, s) := s.draw 6
      ({ d with maps := if g.oneRing then d.maps.map (fun (l : List Nat) => l.set (g.devices.idxOf old) p) else d.maps }, s)
  let g' : GroupSt := { g with decl := d, devices := replaced g.devices old new }
  { s with col := { s.col with groups := mput s.col.groups key g' } }

/-- The targets of a weight set and the devices of a ring's stripes, with one device for another. DEDUCED (log 132). -/
def wsReplaced (d : WsDecl) (old new : Nat) : WsDecl :=
  { d with targets := replaced d.targets old new, copies := replaced d.copies old new }
def ringReplaced (d : RingDecl) (old new : Nat) : RingDecl :=
  { d with stripes := d.stripes.map (fun x => { x with device := x.device.map (fun y => if y = old then new else y) }) }

/-- A spare stands for the failed device in a job's weight sets and rings. -/
def State.replaceHolder (s : State) (j old new : Nat) : State :=
  { s with
    epc := { s.epc with sets := s.epc.sets.map (fun w =>
      (w.1, if w.2.job = j then { w.2 with decl := wsReplaced w.2.decl old new } else w.2)) }
    rings := s.rings.map (fun r => (r.1, if r.2.job = j then { r.2 with decl := ringReplaced r.2.decl old new } else r.2)) }

/-- A spare replaces the failed device in every group of a job. -/
def State.replaceDevice (s : State) (maps : List RingMaps) (j old new : Nat) : State :=
  let s := s.replaceHolder j old new
  forEach (s.col.groups.filter (fun g => g.2.job = j ∧ g.2.devices.contains old)) s
    (fun s (g : Nat × GroupSt) => s.replaceIn maps g.1 g.2 old new)

/-- A member goes back to W and waits for its vote. -/
def State.joinAdoption (s : State) (j : Nat) (w : Cut) (newest : List (Nat × Nat)) : State :=
  let s := (s.enterRestore j).restoreCut j w newest
  (s.modCkp j (fun k => { k.rolledBack with adopting := true, voted := false })).stopIfReady j

/-- ADOPT (R371) at a member; the failed device, when it is reached, tears its job down (R374). -/
def execAdopt (src job failed rank : Nat) (newest : List (Nat × Nat)) (maps : List RingMaps) (s : State) : Out :=
  .next (s.whenRoom [16] (3, job) (fun s =>
    let st := (s.job job).st
    let r := s.roster job
    if !s.fab.spares.contains src ∨ r[rank]? ≠ some failed ∨ !(decide (st = .running) || decide (st = .stepHold)) then s
    else if failed = s.device then s.faultJob job 0 0
    else
      let buddy := decide (r[(s.jobDecl job).buddyRank]? = some failed)
      let s := s.replaceDevice maps job failed src
      let s := if buddy then
          s.modCkp job (fun k => { k with fullNext := true, buddyLost := false, mismatches := [] })
        else s
      match (s.ckpJob job).whole with
      | none => s.faultJob job 0 0
      | some w => s.joinAdoption job w newest))

/-- The image of the failed device as the spare loads it: its own job index, its own number at the rank. -/
def adoptedContent (c : Content) (maps : List RingMaps) (j failed own rank : Nat) : Content :=
  let grp (g : GroupDecl) : GroupDecl :=
    let g := { g with devices := replaced g.devices failed own }
    match maps.find? (fun m => m.group = g.group) with
    | some m => { g with maps := m.maps, ringMap := m.ringMap }
    | none => g
  { c with
    jobs := c.jobs.map (fun d => { d with
      job := j, rank := rank, groups := d.groups.map grp
      weightSets := d.weightSets.map (fun w => wsReplaced w failed own)
      rings := d.rings.map (fun r => ringReplaced r failed own) })
    pans := c.pans.map (fun d => { d with job := j })
    scheds := c.scheds.map (fun d => { d with job := j }) }

/-- The cut of the failed device for the spare's own job. -/
def adoptedCut (c : Cut) (j : Nat) (cfg : Content) : Cut :=
  { c with
    sets := c.sets.map (fun w => (w.1, { w.2 with job := j }))
    rings := c.rings.map (fun r => (r.1, { r.2 with job := j }))
    config := cfg }

/-- The spare creates a job of its own and loads CONFIG as the failed rank. -/
def State.adoptJob (s : State) (o : Origin) (j : Nat) (f : CutFound) (c : Content) (rank : Nat) : State :=
  let b : Job :=
    { st := (s.job j).st, gen := max (s.job j).gen 1, seed := f.cut.seed, rank := rank }
  let s := ((s.setJob j b).jobTo j .created).jobTo j .loading
  let s := forEach c.jobs s State.loadJob
  ((s.placeAgain o c).keepContent j c).jobTo j .stepHold

/-- Step 1: the spare broadcasts FIND. -/
def State.beginAdoption (s : State) (c : Cmd) (job rank failed : Nat) : State :=
  let a : Adoption := { cmd := c.ref, job := job, rank := rank, failed := failed, started := s.time }
  ({ s with ckp := { s.ckp with adopting := some a } }.beginCmd c).sendMsg 0 65536 [failed, job, rank] []

/-- Steps 2 and 3: the job, ADOPT to the roster, the shards; a digest mismatch ends the adoption. -/
def State.adoptFound (s : State) (c : Cmd) (a : Adoption) (f : CutFound) : State :=
  match s.freeJob with
  | none => { s with ckp := { s.ckp with adopting := none } }.finish c Status.refused 0 0
  | some j =>
    let x := adoptedContent (imageContent f.image).1 f.maps j a.failed s.device a.rank
    if (s.resourceFail none x).isSome ∨ (s.ruleFail none x).isSome then
      { s with ckp := { s.ckp with adopting := none } }.finish c Status.refused 0 0
    else
      let s := { s with ckp := { s.ckp with adopting := some { a with own := some j } } }
      let s := (s.adoptJob (cmdOrigin c.ref) j f x a.rank).setF R.CKP_STATE_ADOPTJOB lKeep j
      let s := forEach (f.roster.filter (fun d => d ≠ s.device)) s (fun s d => s.sendMsg 1 d [a.failed, a.rank] [])
      if !f.digestsOk then (s.faultJob j 0 0).endAdoption j Status.faulted
      else
        let w := adoptedCut f.cut j x
        (s.modCkp j (fun k => { k with whole := some w })).joinAdoption j w f.newest

/-- SPARE_ADOPT (R370, R371). -/
def execSpareAdopt (cmd : CmdRef) (found : Option CutFound) (s : State) : Out :=
  .next (
    match s.cmdOf cmd with
    | none => s
    | some c =>
      if c.op ≠ 0x10 ∨ !s.auditRoom 16 then s
      else match s.ckp.adopting, found with
        | some a, some f => if a.cmd = cmd ∧ a.own.isNone then s.adoptFound c a f else s
        | some a, none => if a.cmd = cmd then s else s.finish c Status.refused 0 0
        | none, none =>
          if s.isSpare then
            s.beginAdoption c (fieldAt c.params 0 1) (fieldAt c.params 1 2) (fieldAt c.params 3 2)
          else s.finish c Status.refused 0 0
        | none, some _ => if s.isSpare then s else s.finish c Status.refused 0 0)

/-- FIND_TIMEOUT (R371): no answer within 10 ms. -/
def execFindTimeout (s : State) : Out :=
  .next (
    match s.ckp.adopting with
    | none => s
    | some a =>
      if a.own.isSome then s
      else
        let s := s.until (a.started + 10000000)
        { s with ckp := { s.ckp with adopting := none } }.finishRef a.cmd Status.timeout 0 0)

/-- ADOPTION_VOTE_TIMEOUT (R371): a member has not voted; the job faults. -/
def execAdoptionVoteTimeout (job rank : Nat) (s : State) : Out :=
  .next (s.whenRoom [16] (3, job) (fun s =>
    if (s.job job).st = .restoring ∧ (s.ckpJob job).adopting ∧ rank < (s.roster job).length then
      ((s.modCkp job (fun k => { k with adopting := false, voted := false })).faultJob job 0 0).endAdoption job
        Status.faulted
    else s))

/-- STRAGGLER (R374): the cut barrier has waited for one rank. -/
def execStraggler (job rank : Nat) (s : State) : Out :=
  .next (
    match (s.roster job)[rank]? with
    | some d =>
      if d ≠ s.device ∧ s.col.ops.any (fun o => o.job = job ∧ o.purpose = 1) then
        s.alarm Kind.straggler job (alarmKey d rank)
      else s
    | none => s)

end Sys2Proof.Machine
end

