-- ==== Sys2Proof/Machine/Observe.lean ====
section
/-!
DEFINITION. Trace (R419 to R421), self-test (R425 to R427) and scan (R428).
-/

namespace Sys2Proof.Machine

/-! ## Trace (R419 to R421) -/

/-- A trace record. -/
def traceBytes (time die kind trig arg value : Nat) : List Byte :=
  toLe 8 time ++ toLe 1 die ++ toLe 1 kind ++ toLe 1 trig ++ toLe 1 0 ++ toLe 4 arg ++ toLe 8 value ++ toLe 8 0

/-- Writes one record to the die's trace ring; without a ring it is dropped and counted. -/
def State.traceOne (s : State) (die : Nat) (rec : List Byte) : State :=
  let l := lDie die
  let (base, n) := mgetD s.obsv.traceCfg die (0, 0)
  if n ≠ 0 then
    let k := mgetD s.obsv.trace die 0
    let s := s.wrTier 1 (base + k % n * 32) rec
    ({ s with obsv := { s.obsv with trace := mput s.obsv.trace die (k + 1) } }).bump R.PERF_TRSTAT_RECORDS l
  else
    ({ s with obsv := { s.obsv with dropped := mput s.obsv.dropped die (mgetD s.obsv.dropped die 0 + 1) } }).bump
      R.PERF_TRSTAT_DROPS l

/-- A trace record after the DROP record that is due once there is space. -/
def State.traceRec (s : State) (die kind trig arg value : Nat) : State :=
  let d := mgetD s.obsv.dropped die 0
  let s := if d ≠ 0 ∧ (mgetD s.obsv.traceCfg die (0, 0)).2 ≠ 0 then
      ({ s with obsv := { s.obsv with dropped := mdel s.obsv.dropped die } }).traceOne die
        (traceBytes s.time die 2 0 (min d (2 ^ 32 - 1)) 0)
    else s
  s.traceOne die (traceBytes s.time die kind trig arg value)

def State.counter (s : State) (die n : Nat) : Nat := s.getF R.PERF_DCNT_VALUE (lIdx die n)

def State.counterOn (s : State) (die n : Nat) : Bool := s.getB R.PERF_DSEL_ENABLE (lIdx die n)

/-- A counter of clock cycles stands at a value the model leaves open. -/
def State.countCycles (s : State) (die : Nat) : State :=
  forEach (List.range 64) s (fun s n =>
    let e := s.getF R.PERF_DSEL_EVENT (lIdx die n)
    if s.counterOn die n ∧ e ≠ 0 ∧ e % 256 = 0 then
      let (v, s) := s.draw 48
      s.setF R.PERF_DCNT_VALUE (lIdx die n) v
    else s)

/-- Trigger `t` fires: its counter has risen by THRESH since the previous sample. -/
def State.fires (s : State) (die t : Nat) : Bool :=
  let l := lIdx die t
  let n := s.getF R.PERF_TRG_CNT l
  let was := mgetD s.obsv.prev (die * 64 + n) 0
  s.getB R.PERF_TRG_ENABLE l &&
    decide (s.getF R.PERF_TRG_THRESH l ≤ (s.counter die n + 2 ^ 48 - was) % 2 ^ 48)

/-- The union of the actions of triggers: HALT, SNAP, COUNT. -/
def State.actions (s : State) (die : Nat) (ts : List Nat) : Nat :=
  ts.foldl (fun m t => m ||| s.getF R.PERF_TRG_ACTIONS (lIdx die t)) 0

/-- The counters at a sample are the previous ones of the next. -/
def State.keepSample (s : State) (die : Nat) : State :=
  { s with obsv := { s.obsv with
    prev := (List.range 64).foldl (fun m n => mput m (die * 64 + n) (s.counter die n)) s.obsv.prev } }

/-- One sample of a die's triggers. -/
def State.sample (s : State) (die : Nat) : State :=
  let s := s.countCycles die
  let ts := (List.range 4).filter (fun t => s.fires die t)
  let s' :=
    if ts.isEmpty then s
    else
      let acts := s.actions die ts
      let trig := ts.foldl (fun m t => m + 2 ^ t) 0
      let s := s.traceRec die 0 trig 0 0
      let s := if bit acts 0 then (s.setF R.PERF_TRCTL_RUN (lDie die) 0).setF R.PERF_TRCTL_HALTED (lDie die) 1 else s
      let s := if bit acts 1 then
          forEach ((List.range 64).filter (fun n => s.counterOn die n)) s
            (fun s n => s.traceRec die 1 0 n (s.counter die n))
        else s
      if bit acts 2 then forEach ts s (fun s t => s.bump R.PERF_TRGCNT_COUNT (lIdx die t)) else s
  s'.keepSample die

/-- TRACE_SAMPLE (R419, R420). -/
def execTraceSample (die : Nat) (s : State) : Out :=
  need (decide (die < 20)) "die" (.next (if s.getB R.PERF_TRCTL_RUN (lDie die) then s.sample die else s))

/-! ## BIST_RUN (R425) -/

/-- Whether every world of a world-port port is DETACHED. -/
def State.portIdle (s : State) (port : Nat) : Bool :=
  s.wpt.worlds.all (fun w => decide (w.2.st = .detached) || decide (w.2.sched.port ≠ port))

/-- A sieve is bound by a SAMPLE or DRAW station of a pan. -/
def State.sieveBound (s : State) (die i : Nat) : Bool :=
  s.sch.pans.any (fun p => decide (p.2.st ≠ .free) && p.2.cfg.stations.any (fun d => d.sieves.contains (die, i)))

/-- A permitted target whose precondition holds. -/
def State.bistOk (s : State) (die code unit : Nat) (arrayOnly : Bool) : Bool :=
  if isCompute die then
    if 0x80 ≤ code then arrayOnly || (s.owner die (code - 0x80)).isNone
    else if code = 0x18 then decide (unit < 8)
    else if code = 0x30 then decide (unit < 2)
    else code == 0x20 && decide (unit < 4) && !s.sieveBound die unit
  else if isHost die then code == 0x18 && decide (unit < 4) && s.portIdle ((die - 16) * 4 + unit)
  else isFabric die && code == 0x08 && decide (unit < 16)

/-- A test whose fence stands begins: the unit's storage is zeroed (R426). -/
def State.bistStart (s : State) (die : Nat) (b : Bist) : State :=
  let s := s.bistBegin die b
  if 0x80 ≤ b.block then
    if b.arrayOnly then s
    else (s.idleGrains die (b.block - 0x80)).clrMem 0 (sramAddr die (b.block - 0x80) 0) 0x600000
  else if isFabric die then s.disablePort ((die - 18) * 16 + b.unit)
  else if isHost die then s.setF R.WPT_PSTAT_STATE (portLoc ((die - 16) * 4 + b.unit)) 0
  else if b.block = 0x18 then
    { s with att := { s.att with labs := mdel s.att.labs (labKey die b.unit) } }
  else s

/-- Whether the fence must wait: an owned brick for its pan's boundary, a mover for its moves. -/
def State.bistWaits (s : State) (die : Nat) (b : Bist) : Bool :=
  if 0x80 ≤ b.block then
    match s.owner die (b.block - 0x80) with
    | some p => decide ((s.pan p).st = .running) || decide ((s.pan p).st = .quiescing)
    | none => false
  else b.block == 0x30 && s.tier.moves.any (fun m => decide (m.2.die = die) && decide (m.2.engine = b.unit))

/-- BIST_RUN: a die runs one test at a time, and the command waits for the test before it. -/
def execBistRun (cmd : CmdRef) (s : State) : Out :=
  .next (s.onCmd cmd 0x14 (fun c s =>
    let v := fieldAt c.params 0 4
    let code := bits v 7 0
    let die := bits v 12 8
    let unit := if 0x80 ≤ code then 0 else bits v 19 16
    if !s.bistOk die code unit (bit v 24) then s.finish c Status.refused 0 0
    else if (mget s.obsv.bists die).isSome then s
    else
      let b : Bist := { cmd := cmd, block := code, unit := unit, arrayOnly := bit v 24 }
      let s := s.beginCmd c
      if s.bistWaits die b then
        { s with obsv := { s.obsv with bists := mput s.obsv.bists die { b with waiting := true } } }
      else s.bistStart die b))

/-! ## BIST_COMPLETE (R426) -/

/-- The scheduler slice repeats the loads that the test of an owned brick's array cleared. -/
def State.reloadSets (s : State) (die : Nat) (b : Bist) : State :=
  let k := b.block - 0x80
  match b.sets with
  | some (x, y, v) => s.setArray die k { s.array die k with setA := x, setB := y, bgValid := v }
  | none => s

/-- The unit is re-initialised and its fence lifted: links train again, a brick's requested mode is applied. -/
def State.bistRestore (s : State) (die : Nat) (b : Bist) : State :=
  if 0x80 ≤ b.block then (s.reloadSets die b).applyMode die (b.block - 0x80)
  else if isFabric die then s.trainPort ((die - 18) * 16 + b.unit)
  else if isHost die then s.setF R.WPT_PSTAT_STATE (portLoc ((die - 16) * 4 + b.unit)) 1
  else s

/-- A failed test: the unit is marked, and the job of an owned brick faulted. -/
def State.bistFails (s : State) (die : Nat) (b : Bist) : State :=
  let s := s.unitFails (unitBlock die b.block b.unit)
  if 0x80 ≤ b.block then
    let s := s.applyMode die (b.block - 0x80)
    match s.owner die (b.block - 0x80) with
    | some p => s.faultJob (s.pan p).job 0 0
    | none => s
  else s

/-- The test registers of the die after a test. -/
def State.bistResult (s : State) (die : Nat) (pass : Bool) (misr : U64) : State :=
  let l := lDie die
  let s := ((s.setF R.TST_STATUS_BUSY l 0).setF R.TST_STATUS_TARGET l 0).setF R.TST_STATUS_REMAIN_US l 0
  (s.setF R.TST_RESULT_OUTCOME l (if pass then 1 else 2)).setF R.TST_MISR_MISR l misr.toNat

/-- BIST_COMPLETE (R426): held requests are served from then on (R427). -/
def execBistComplete (die : Nat) (misr : U64) (s : State) : Out :=
  need (decide (die < 20)) "die" (.next (
    match mget s.obsv.bists die with
    | some b =>
      if b.waiting then s
      else
        let pass : Bool := misr == Config.signature (b.block + die * 256) b.unit
        let s := { s with obsv := { s.obsv with
          bists := mdel s.obsv.bists die, held := mdel s.obsv.held die } }
        let s := s.bistResult die pass misr
        let s := if pass then s.bistRestore die b else s.bistFails die b
        s.finishRef b.cmd Status.ok (if pass then 0 else 1) misr.toNat
    | none => s))

/-! ## Requests to a fenced unit (R427) -/

/-- A request joins the ingress queue of the fenced unit, or is answered BUSY_TEST. -/
def State.fencedReq (s : State) (die requester : Nat) (cmd : Option CmdRef) : State :=
  let l := lDie die
  let q := mgetD s.obsv.held die []
  if q.length < s.getF R.TST_HOLD_DEPTH l then
    ({ s with obsv := { s.obsv with held := mput s.obsv.held die (q ++ [requester]) } }).bump R.TST_COUNT_HELD l
  else
    let us := s.getF R.TST_STATUS_REMAIN_US l
    let s := s.bump R.TST_COUNT_BUSYTEST l
    match cmd with
    | some r => s.finishRef r Status.busyTest us 0
    | none => { s with obsv := { s.obsv with reissue := s.obsv.reissue ++ [(die, requester, s.time + us * 1000)] } }

/-- A test runs on a die. -/
def State.fencedDie (s : State) (die : Nat) : Bool :=
  match mget s.obsv.bists die with
  | some b => !b.waiting
  | none => false

/-- A host command can be held or answered: it names no command, or one that has not begun. -/
def State.cmdHolds (s : State) (cmd : Option CmdRef) : Bool :=
  match cmd with
  | none => true
  | some r => (match s.cmdOf r with
    | some c => !c.begun
    | none => false)

/-- FENCED_REQUEST. -/
def execFencedRequest (die requester : Nat) (cmd : Option CmdRef) (s : State) : Out :=
  need (decide (die < 20)) "die" (.next (
    if s.fencedDie die && s.cmdHolds cmd then s.fencedReq die requester cmd else s))

/-- BUSY_TEST_REISSUE: after the remaining time the request comes again, to be served or held. -/
def execBusyTestReissue (die requester : Nat) (s : State) : Out :=
  need (decide (die < 20)) "die" (.next (
    match s.obsv.reissue.find? (fun x => x.1 = die ∧ x.2.1 = requester) with
    | some x =>
      let s := { s with obsv := { s.obsv with reissue := s.obsv.reissue.erase x } }
      let s := s.until x.2.2
      if s.fencedDie die then s.fencedReq die requester none else s
    | none => s))

/-! ## Scan (R428) -/

/-- Weight slots and BASE regions, tile stores, accumulators, stationary sets and cut buffers are zeroed. -/
def State.zeroPlain (s : State) : State :=
  let s := forEach s.epc.sets s (fun s (w : Nat × WSet) =>
    let s := s.zeroTier 1 w.2.decl.slot0 w.2.decl.payload
    if w.2.decl.kind = 1 then s else s.zeroTier 1 w.2.decl.slot1 w.2.decl.payload)
  let s := { s with ckp := { s.ckp with jobs := mapVals s.ckp.jobs (fun c => { c with cut := none, partsDue := [], prot := [] }) } }
  { s with
    mem := s.mem.filter (fun x => !(x.1 / 2 ^ 44 == 0 && decide (x.1 % 2 ^ 23 < 0x200000)))
    arrays := mapVals s.arrays (fun a =>
      { a with setA := {}, setB := {}, bgValid := false, acc := [], accPoison := [] }) }

/-- SCAN_ENABLE (R428): jobs torn down, key slots cleared, plaintext stores zeroed. -/
def execScanEnable (die : Nat) (s : State) : Out :=
  need (decide (die < 20)) "die" (.next (
    if (List.range 20).all (fun d => s.getB R.TST_MODE_ENABLE (lDie d)) then
      let s := forEach (s.hcx.jobs.map (·.1)) s (fun s j => s.faultJob j 0 0)
      let s := ({ s with keys := [] }).zeroPlain
      s.setF R.TST_MODE_SCAN (lDie die) 1
    else s))

/-! ## PCIe (R338, R357) -/

/-- The vectors that were pending are signalled as the link comes up. -/
def State.sendPending (s : State) (hd : Nat) : State :=
  let l := lDie (16 + hd)
  let p := s.getF R.PCIE_MSIX_PENDING l
  { s.setF R.PCIE_MSIX_PENDING l 0 with
    hcx := { s.hcx with msix := s.hcx.msix ++ ((List.range 32).filter (fun v => bit p v)).map (fun v => (hd, v)) } }

/-- PCIE_LINK_TRAINING. -/
def execPcieLinkTraining (hd : Nat) (up : Bool) (gen width : Nat) (flit : Bool) (corr nonfatal fatal : Nat)
    (s : State) : Out :=
  need (decide (hd < 2)) "host die" (.next (
    let l := lDie (16 + hd)
    let was := s.getB R.PCIE_LINK_UP l
    let s := ((s.bump R.PCIE_ERR_CORR l corr).bump R.PCIE_ERR_NONFATAL l nonfatal).bump R.PCIE_ERR_FATAL l fatal
    let s := if was then s.bump R.PCIE_ERR_RETRAINS l else s
    if up then
      let s := (s.sendPending hd).setF R.PCIE_LINK_UP l 1
      ((s.setF R.PCIE_LINK_GEN l (max 1 (min gen 6))).setF R.PCIE_LINK_WIDTH l (max 1 (min width 16))).setB
        R.PCIE_LINK_FLIT l flit
    else
      (((s.setF R.PCIE_LINK_UP l 0).setF R.PCIE_LINK_GEN l 0).setF R.PCIE_LINK_WIDTH l 0).setF R.PCIE_LINK_FLIT l 0))

end Sys2Proof.Machine
end

