-- ==== Sys2Proof/Machine/RegRead.lean ====
section
/-!
DEFINITION. What a register reads as: where its fields live (R3 to R6, R133, R161, R205, R206, R224, R256, R307,
R308, R356, R375, R381, R390, R391, R413, R431) and the fields that show structured state.
-/

namespace Sys2Proof.Machine

/-! ## Finding a register (R3, R4) -/

/-- The block with a code on a die; brick windows are codes 80h and above. -/
def blkOf (die code : Nat) : Option Blk :=
  let l : List Blk :=
    if isCompute die then
      if 0x80 ≤ code then [.brick]
      else [.die, .sch, .mxa, .att, .smp, .hbm, .mov, .col, .exp, .epcC, .perf, .tst, .d2d]
    else if isHost die then [.die, .hcx, .pcie, .wpt, .lpd, .cfg, .audit, .sec, .aon, .ckp, .epcH, .perf, .tst, .clk]
    else if isFabric die then [.die, .fab, .route, .llp, .nvt, .perf, .tst]
    else []
  l.find? (fun b => b = .brick ∨ b.code die = code)

/-- The instance of a field that an offset names. -/
def Fld.at? (f : Fld) (off : Nat) : Option Nat :=
  if off = f.off then some 0
  else if 1 < f.count ∧ f.off ≤ off ∧ (off - f.off) % f.stride = 0 ∧ (off - f.off) / f.stride < f.count then
    some ((off - f.off) / f.stride)
  else none

/-- The fields of the register at a CSR offset, with their places. -/
def regFields (csr : Nat) : List (Fld × Loc) :=
  let die := bits csr 28 24
  let code := bits csr 23 16
  let off := bits csr 15 0
  match blkOf die code with
  | none => []
  | some b =>
    if off % 8 ≠ 0 ∨ 2 ^ 29 ≤ csr then []
    else b.fields.filterMap (fun f =>
      (f.at? off).map (fun i => (f, { die := die, unit := if b = .brick then code - 0x80 else 0, idx := i })))

/-! ## Where a register is live -/

/-- A per-pan register: live on the boundary master of a pan that is not FREE. -/
def State.panLive (s : State) (a : Loc) : Option Loc :=
  if (s.pan a.idx).st ≠ .free ∧ (s.pan a.idx).master = a.die then some a else none

/-- A register of the keeper die. -/
def State.keepLive (s : State) (a : Loc) : Option Loc :=
  if s.keeper = some (a.die - 16) then some { a with die := 16 } else none

/-- The AON island's reset, boot and device-number registers are one set, shown on both host dies. -/
def aonShared (f : Fld) : Bool := decide (0x18 ≤ f.off)

/-- The home of a register in the register file, when it is live where it is addressed. -/
def State.regHome (s : State) (f : Fld) (a : Loc) : Option Loc :=
  match f.blk with
  | .sch | .att | .epcC | .mov => if 0x1000 ≤ f.off then s.panLive a else some a
  | .exp =>
    if f.off < 0x1000 then some a
    else match s.ring a.idx with
      | some r => if r.decl.home = a.die ∧ r.decl.host.isNone then some a else none
      | none => none
  | .cfg | .ckp | .epcH => s.keepLive a
  | .clk =>
    if 0x1000 ≤ f.off ∧ (s.pan a.idx).st = .free then none else s.keepLive a
  | .hcx => if 0x2000 ≤ f.off then s.keepLive a else some a
  | .perf => if 0xA00 ≤ f.off then (if isHost a.die then s.keepLive a else none) else some a
  | .audit => if a.die = 16 then some a else none
  | .llp => if a.die = 18 then some a else none
  | .col => if 0x1000 ≤ f.off ∧ a.die ≠ 0 then none else some a
  | .aon => if aonShared f then some { a with die := 16 } else some a
  | _ => some a

/-! ## Fields that show structured state -/

/-- STAMP: TIME[19:4]. -/
def State.stampNow (s : State) : Nat := s.time / 16 % 65536

/-- Grains of a brick in a role; those not listed are IDLE. -/
def State.roleCount (s : State) (die b role : Nat) : Nat :=
  let lo := grainKey die b 0
  (s.grains.filter (fun g => lo ≤ g.1 ∧ g.1 < lo + 512 ∧ g.2.role = role)).length

def GrainRun.code : GrainRun → Nat
  | .gated => 0 | .run => 1 | .waitStream => 2 | .waitBoundary => 3 | .halted => 4 | .faulted => 5

/-- A bit map of a count of items. -/
def bitmap (n : Nat) (p : Nat → Bool) : Nat := (List.range n).foldl (fun m i => if p i then m + 2 ^ i else m) 0

def State.viewGrain (s : State) (f : Fld) (a : Loc) : Nat :=
  let g := s.grain a.die a.unit a.idx
  let w := if f.off = 0x1008 then g.win0 else g.win1
  if f = R.GRN_STATE_ROLE then g.role
  else if f = R.GRN_STATE_STATE then g.run.code
  else if f = R.GRN_STATE_PC then g.pc.toNat
  else if f = R.GRN_PORTS_BOUND then bitmap 8 (fun p => (mget g.ports p).isSome)
  else if f = R.GRN_PORTS_OUT then bitmap 8 (fun p => match mget g.ports p with
    | some d => d.outbound
    | none => false)
  else match f.lsb with
    | 0 => w.base
    | 32 => w.limit
    | 56 => b2n w.rd
    | _ => b2n w.wr

def State.viewBrick (s : State) (f : Fld) (a : Loc) : Option Nat :=
  let x := s.array a.die a.unit
  if f = R.BRK_ID_LOGICAL then some a.unit
  else if f = R.BRK_ID_PHYS then some (nth (physOf a.die (a.unit + 1)) a.unit 0)
  else if f = R.BRK_ID_COURSE then some (a.unit / 16)
  else if f = R.BRK_STAT_DETOUR then some (b2n (Config.detour a.die a.unit))
  else if f = R.BRK_ROLES_WORLD then some (s.roleCount a.die a.unit 1)
  else if f = R.BRK_ROLES_SLIVER then some (s.roleCount a.die a.unit 2)
  else if f = R.BRK_ROLES_IDLE then some (512 - s.roleCount a.die a.unit 1 - s.roleCount a.die a.unit 2)
  else if 0x1000 ≤ f.off ∧ f.off < 0x1020 then some (s.viewGrain f a)
  else if f = R.MXA_STATUS_FG then some (b2n x.fgB)
  else if f = R.MXA_STATUS_BG_VALID then some (b2n x.bgValid)
  else if f = R.MXA_STATUS_BUSY then some (b2n x.cur.isSome)
  else if f = R.MXA_STATUS_FGPOISON then some (b2n (x.fg.poison != 0))
  else if f = R.MXA_STATUS_INFLIGHT then some (min x.drain.length 16)
  else if f = R.MXA_STATUS_REMAIN then some (match x.cur with
    | some c => c.count - c.row
    | none => 0)
  else if f = R.PERF_BCNT_STAMP then some s.stampNow
  else none

def State.viewDie (s : State) (f : Fld) (a : Loc) : Option Nat :=
  if f = R.DIE_ID_DIE then some a.die
  else if f = R.DIE_ID_TYPE then some (if isCompute a.die then 0 else if isHost a.die then 1 else 2)
  else if f = R.DIE_ID_STEPPING then some 0xB1
  else if f = R.DIE_BOOT_STEP then some s.clk.bootStep
  else if f = R.DIE_BOOT_FAIL then some (b2n s.clk.bootFail)
  else if f = R.DIE_BOOT_CODE then some s.clk.bootCode
  else if f = R.DIE_TIME_TIME then some s.time
  else none

def State.viewMxa (s : State) (f : Fld) (a : Loc) : Option Nat :=
  let m (g : Fld) (lo : Nat) : Option Nat := some (bitmap 64 (fun i => s.getB g (lBrick a.die (lo + i))))
  if f = R.MXA_ERRMAP0_BRICKS then m R.MXA_ERR_VALID 0
  else if f = R.MXA_ERRMAP1_BRICKS then m R.MXA_ERR_VALID 64
  else if f = R.MXA_MODEMAP0_BRICKS then m R.MXA_MODE_EFFECTIVE 0
  else m R.MXA_MODE_EFFECTIVE 64

def State.viewSch (s : State) (f : Fld) (a : Loc) : Option Nat :=
  let p := s.pan a.idx
  if f = R.SCH_STATUS_INFLIGHT then some (s.busy a.die).length
  else if f = R.SCH_PSTEP_STEP then some p.step
  else if f = R.SCH_PQUOTA_RESERVED then some (p.quota a.die)
  else if f = R.SCH_PQUOTA_INFLIGHT then some ((s.busy a.die).filter (fun e => e.pan = a.idx)).length
  else if f = R.SCH_PQUOTA_MASTER then some p.master
  else none

def State.viewAtt (s : State) (f : Fld) (a : Loc) : Option Nat :=
  let seqs (st : SeqRun → Bool) : Nat := (s.att.seqs.filter (fun q => q.2.pan = a.idx ∧ st q.2.st)).length
  if f = R.ATT_STATUS_WBUSY then some 0
  else if f = R.ATT_PSEQ_LIVE then some (seqs (fun t => t == .opened || t == .cancelPending))
  else if f = R.ATT_PSEQ_QUAR then some (seqs (fun t => t == .quarantine))
  else if f = R.ATT_PPAGE_T1 then some (s.pagesIn a.idx 1).length
  else if f = R.ATT_PPAGE_T2 then some (s.pagesIn a.idx 2).length
  else if f = R.ATT_PT3_T3 then some (s.pagesIn a.idx 3).length
  else none

def State.viewSmp (s : State) (f : Fld) (a : Loc) : Option Nat :=
  let n := s.getF R.SMP_LSEL_LANE a
  let own : Option Nat := if laneDie n = a.die then s.laneOwner n else none
  if f = R.SMP_STATUS_BUSY then some 0
  else if f = R.SMP_STATUS_BOUND then some (bitmap 4 (fun i => s.sieveBound a.die i))
  else if f = R.SMP_LPOS_POS then some (if own.isSome then s.lanePos n else 0)
  else if f = R.SMP_LJOB_JOB then some ((own.map (fun p => (s.pan p).job)).getD 0)
  else if f = R.SMP_LJOB_VALID then some (b2n own.isSome)
  else none

/-- Mean length of the last steps; the lead before any has run (R250). -/
def Pan.expectNs (p : Pan) : Nat :=
  match p.lens with
  | [] => p.cfg.leadNs
  | l => min (l.foldl (· + ·) 0 / l.length) (2 ^ 32 - 1)

def State.viewMov (s : State) (f : Fld) (a : Loc) : Option Nat :=
  let p := s.pan a.idx
  if f = R.MOV_STATUS_ENG0 then some (s.running a.die 0)
  else if f = R.MOV_STATUS_ENG1 then some (s.running a.die 1)
  else if f = R.MOV_STATUS_STUBS then some (s.stubs a.die 0 + s.stubs a.die 1)
  else if f = R.MOV_PLEAD_LEAD_NS then some p.cfg.leadNs
  else if f = R.MOV_PLEAD_EXPECT_NS then some p.expectNs
  else if f = R.MOV_PBUF_ALLOC then
    some (s.tier.buffers.filter (fun b => b.2.st = .allocated ∧ b.2.pan = a.idx)).length
  else none

/-- The EXCHANGE in progress on an engine of a die (R286). -/
def State.engine (s : State) (die e : Nat) : Option Exch :=
  (s.col.exchs.find? (fun x => x.2.status = 0 ∧ x.2.die = die ∧ x.2.decl.engine = e)).map (·.2)

def State.viewCol (s : State) (f : Fld) (a : Loc) : Option Nat :=
  let staged (i : Nat) : Option Nat := some (match s.engine a.die i with
    | some x => min x.inFlight.length 4
    | none => 0)
  let g := s.group a.idx
  let show1 (v : GroupSt → Nat) : Option Nat := some ((g.map v).getD 0)
  if f = R.COL_STATUS_BUSY then some (bitmap 2 (fun i => (s.engine a.die i).isSome))
  else if f = R.COL_STATUS_STAGED0 then staged 0
  else if f = R.COL_STATUS_STAGED1 then staged 1
  else if f = R.COL_GCFG_MEMBERS then show1 (fun g => g.devices.length - 1)
  else if f = R.COL_GCFG_RANK then show1 (·.rank)
  else if f = R.COL_GCFG_JOB then show1 (·.job)
  else if f = R.COL_GCFG_VALID then some (b2n g.isSome)
  else if f = R.COL_GCFG_ONERING then show1 (fun g => b2n g.oneRing)
  else if f = R.COL_GCFG_WGROUP then show1 (·.decl.wgroup)
  else none

def State.viewExp (s : State) (f : Fld) (a : Loc) : Option Nat :=
  let r := s.ring a.idx
  let show1 (v : RingSt → Nat) : Option Nat := some ((r.map v).getD 0)
  if f = R.EXP_STATUS_WBUSY ∨ f = R.EXP_STATUS_DBUSY then some 0
  else if f = R.EXP_RCFG_TIER then show1 (·.decl.tier)
  else if f = R.EXP_RCFG_STRIPES then show1 (fun r => r.decl.stripes.length - 1)
  else if f = R.EXP_RCFG_LOG2CAP then show1 (·.decl.log2cap)
  else if f = R.EXP_RCFG_SLOT then show1 (fun r => r.decl.slot / 64)
  else if f = R.EXP_RCFG_JOB then show1 (·.job)
  else if f = R.EXP_RCFG_VALID then some (b2n r.isSome)
  else if f = R.EXP_RFILL_COMMITTED then show1 (fun r =>
    min (sumBy (r.blocks.filter (fun b => b.2.st = .committed)) (fun b => b.2.count)) (2 ^ 32 - 1))
  else if f = R.EXP_RFILL_DEAD then show1 (fun r =>
    min (sumBy (r.blocks.filter (fun b => b.2.st = .dead)) (fun b => (r.stripe (keyStripe b.1)).worlds)) (2 ^ 32 - 1))
  else none

def State.viewEpcC (s : State) (f : Fld) (a : Loc) : Option Nat :=
  let p := s.pan a.idx
  if f = R.EPC_PEPOCH_CURRENT then some p.epoch
  else if f = R.EPC_PEPOCH_LATCHED then some p.lastLatch
  else if f = R.EPC_PATTR_ADOPT_PROV then some (b2n p.cfg.adoptProv)
  else if f = R.EPC_PATTR_LIVE then some (b2n (s.liveServing a.idx))
  else if f = R.EPC_PATTR_SLOT then some p.slot
  else if f = R.EPC_PATTR_WS then some p.cfg.ws
  else none

def State.viewEpcH (s : State) (f : Fld) (a : Loc) : Option Nat :=
  let w := s.wset a.idx
  let show1 (v : WSet → Nat) : Option Nat := some ((w.map v).getD 0)
  if f = R.EPC_WSCFG_JOB then show1 (·.job)
  else if f = R.EPC_WSCFG_VALID then some (b2n w.isSome)
  else if f = R.EPC_WSCFG_KIND then show1 (·.decl.kind)
  else if f = R.EPC_WSCFG_BASE then show1 (·.decl.base)
  else if f = R.EPC_WSCFG_LOG2ENT then show1 (·.decl.log2ent)
  else if f = R.EPC_WSEPOCH_LASTCONF then show1 (·.lastConf)
  else if f = R.EPC_WSEPOCH_NEWEST then show1 (fun w => w.next - 1)
  else if f = R.EPC_WSSTATE_STATE then show1 (fun w => (w.stateOf (w.next - 1)).code)
  else if f = R.EPC_WSSTATE_CAUSE then show1 (·.cause)
  else if f = R.EPC_WSSTATE_INUSE then show1 (·.inUse)
  else if f = R.EPC_WSSLOT_KEEP then show1 (·.keep)
  else if f = R.EPC_WSSLOT_HOLD0 then show1 (fun w => w.slotHolders 0)
  else if f = R.EPC_WSSLOT_HOLD1 then show1 (fun w => w.slotHolders 1)
  else none

/-- MiB of flash units written, wrapping. -/
def flashMib (units : Nat) : Nat := units * unitBytes / 2 ^ 20 % 2 ^ 32

def State.viewNvt (s : State) (f : Fld) (a : Loc) : Option Nat :=
  if f = R.NVT_WAF_HOSTW then some (flashMib (s.flash a.die).hostPages)
  else if f = R.NVT_WAF_NANDW then some (flashMib (s.flash a.die).seq)
  else none

def State.viewFab (s : State) (f : Fld) (a : Loc) : Option Nat :=
  if f = R.FAB_ID_BOOT then some s.bootLow
  else if f = R.FAB_RCACHE_USED then some s.fab.rcache.length
  else if f = R.FAB_ORDER_HELD then some (s.heldOn a.die)
  else if f = R.FAB_PVIOL_COUNT then
    let w := s.getF R.FAB_QUAR_WINDOW_MS (lDie a.die) * 1000000
    let p := s.port ((a.die - 18) * 16 + a.idx)
    some (min (p.violAt.filter (fun t => s.time < t + w)).length 65535)
  else none

/-- The shadow entry that ROUTE_SADDR names. -/
def State.shadowKey (s : State) (fd : Nat) : Nat :=
  let tree := s.getB R.ROUTE_SADDR_TREE (lDie fd)
  let dest := s.getF R.ROUTE_SADDR_DEST (lDie fd)
  routeKey fd (1 - s.getF R.ROUTE_SEL_ACTIVE (lDie fd)) tree (if tree then dest % 256 else dest)

def State.viewRoute (s : State) (f : Fld) (a : Loc) : Option Nat :=
  if f.off = 0x10 then
    some (bits (mgetD s.fab.routes (s.shadowKey a.die) 0).toNat (f.lsb + f.w - 1) f.lsb)
  else if f = R.ROUTE_SDONE_DONE then some (s.getF R.ROUTE_SEL_SHADOWOK a)
  else none

def WorldRun.code : WorldRun → Nat
  | .detached => 0 | .attaching => 1 | .running => 2 | .holding => 3 | .spindown => 4 | .stopped => 5

def State.viewWpt (s : State) (f : Fld) (a : Loc) : Option Nat :=
  let i := s.getF R.WPT_WSEL_WORLD (lDie a.die)
  let w := s.world i
  let here : Bool := decide (w.st ≠ .detached) && decide (portDie w.sched.port = a.die)
  let show1 (v : Nat) : Option Nat := some (if here then v else 0)
  if f = R.WPT_STATUS_PORTUP then some (bitmap 4 (fun q => s.portUp ((a.die - 16) * 4 + q)))
  else if f = R.WPT_STATUS_WORLDS then
    some (s.worldCount (fun w => decide (w.st ≠ .detached) && decide (portDie w.sched.port = a.die)))
  else if f = R.WPT_WSTATE_STATE then show1 w.st.code
  else if f = R.WPT_WSTATE_CLASS then show1 (if w.sched.live then 2 else 1)
  else if f = R.WPT_WSTATE_PORT then show1 w.sched.port
  else if f = R.WPT_WSTATE_PAN then show1 w.pan
  else if f = R.WPT_WSTATE_VALID then some (b2n here)
  else if f = R.WPT_WSTATE_WGEN then show1 w.gen
  else if f = R.WPT_WTICK_TICK then show1 ((s.time - w.sched.phase) / max 1 w.sched.period)
  else if f = R.WPT_WMISS_MISSES then show1 w.misses
  else if f = R.WPT_WMISS_CONSEC then show1 (min w.consec 65535)
  else if f = R.WPT_WMISS_STALE then show1 w.stale
  else if f = R.WPT_WPART_LATE then show1 w.late
  else if f = R.WPT_WPART_DUP then show1 w.dup
  else if f = R.WPT_WPART_ORDER then show1 w.order
  else if f = R.WPT_WPART_GAP then show1 w.gap
  else if f = R.WPT_WSEQ_RXSEQ then show1 ((w.good.map (·.seq)).getD 0)
  else if f = R.WPT_WSEQ_TXSEQ then show1 w.txSeq
  else none

def State.viewHcx (s : State) (f : Fld) (a : Loc) : Option Nat :=
  if f = R.HCX_STATUS_KEEPER then some (b2n (s.isKeeper (a.die - 16)))
  else if f = R.HCX_STATUS_JOBS then some (s.hcx.jobs.filter (fun j => j.2.counts)).length
  else if f = R.HCX_CLIENT_JOBS then some (s.clientJobs a.idx)
  else none

/-- Bytes of the shards of the cut in progress that the buddy has still to acknowledge. -/
def State.streamLeft (s : State) (j : Nat) : Nat :=
  match (s.ckpJob j).cut with
  | none => 0
  | some c =>
    let d := s.jobDecl j
    sumBy c.unacked (fun i => match d.shards[i]? with
      | some x => ((c.entries.find? (fun e => e.kind = x.kind ∧ e.index = x.index)).map (·.bytes)).getD 0
      | none => 0)

def State.viewCkp (s : State) (f : Fld) (a : Loc) : Option Nat :=
  let js := (s.hcx.jobs.filter (fun j => j.2.counts)).map (·.1)
  let d := s.jobDecl a.idx
  let mib := sumBy js (fun j => (s.jobDecl j).cutBufMib)
  if f = R.CKP_STATE_STATE then some (if s.ckp.adopting.isSome then 2 else b2n s.isSpare)
  else if f = R.CKP_BUF_USED_MIB then some (ceilDiv (sumBy js s.bufferUsed) (2 ^ 20))
  else if f = R.CKP_BUF_SIZE_MIB then some mib
  else if f = R.CKP_BUDDY_HELD then some (sumBy js (fun j => (s.jobDecl j).heldRanks.length))
  else if f = R.CKP_JCFG_BUDDYRANK then some d.buddyRank
  else if f = R.CKP_JCFG_RANK then some d.rank
  else if f = R.CKP_JSTREAM_BYTES then some (s.streamLeft a.idx)
  else none

/-- The pan whose resize waits for its boundary: a load in progress, of scope 1 (R352, R390). -/
def State.loadingPan (s : State) : Option (Nat × Nat) :=
  (s.sch.pans.find? (fun p => p.2.resize.isSome)).map (fun p => (p.1, p.2.job))

def State.viewCfg (s : State) (f : Fld) (a : Loc) : Option Nat :=
  if f = R.CFG_STATUS_BUSY ∨ f = R.CFG_STATUS_SCOPE then some (b2n s.loadingPan.isSome)
  else if f = R.CFG_STATUS_PAN then some ((s.loadingPan.map (·.1)).getD 0)
  else if f = R.CFG_STATUS_JOB then some ((s.loadingPan.map (·.2)).getD 0)
  else if f = R.CFG_DIGEST_BSDIGEST then some (fieldAt s.hcx.bsDigest (8 * a.idx) 8)
  else none

def State.viewAudit (s : State) (f : Fld) (_a : Loc) : Option Nat :=
  if f = R.AUDIT_NEXT_SEQ then some s.audit.next
  else if f = R.AUDIT_OLDEST_SEQ then some s.oldestSeq
  else none

def State.viewSec (s : State) (f : Fld) (a : Loc) : Option Nat :=
  if f = R.SEC_AGREEID_ID then some (leNat (keyIdentity agreePub))
  else if f = R.SEC_SIGNID_ID then some (leNat (keyIdentity signPub))
  else if f = R.SEC_KEYS_USED then some s.keys.length
  else if f = R.SEC_AGREEPUB_BYTES then some (fieldAt agreePub (8 * a.idx) 8)
  else if f = R.SEC_SIGNPUB_BYTES then some (fieldAt signPub (8 * a.idx) 8)
  else none

/-- The 32 bytes of an alarm entry. -/
def alarmBytes (x : Alarm) : List Byte :=
  toLe 2 x.kind ++ toLe 1 x.job ++ toLe 1 0 ++ toLe 4 x.count ++ toLe 8 x.first ++ toLe 8 x.last ++ toLe 8 x.key

def State.viewPerf (s : State) (f : Fld) (a : Loc) : Option Nat :=
  if f = R.PERF_DCNT_STAMP then some s.stampNow
  else if f = R.PERF_ALDATA_BYTES then
    some (match mget s.obsv.alarms (s.getF R.PERF_ALSEL_ENTRY lKeep) with
      | some x => fieldAt (alarmBytes x) (8 * a.idx) 8
      | none => 0)
  else if f = R.PERF_ALSTAT_USED then some s.obsv.alarms.length
  else none

/-- A host die has seen a RENEW or a claim of the other within 100 µs (R412). -/
def State.peerAlive (s : State) (hd : Nat) : Bool :=
  match if hd = 0 then s.clk.seen0 else s.clk.seen1 with
  | some t => decide (s.time < t + 100000)
  | none => false

/-- The value that structured state gives a field; none for a field that the register file holds. -/
def State.viewFld (s : State) (f : Fld) (a : Loc) : Option Nat :=
  match f.blk with
  | .brick => s.viewBrick f a
  | .die => s.viewDie f a
  | .mxa => s.viewMxa f a
  | .sch => s.viewSch f a
  | .att => s.viewAtt f a
  | .smp => s.viewSmp f a
  | .mov => s.viewMov f a
  | .col => s.viewCol f a
  | .exp => s.viewExp f a
  | .epcC => s.viewEpcC f a
  | .epcH => s.viewEpcH f a
  | .nvt => s.viewNvt f a
  | .fab => s.viewFab f a
  | .route => s.viewRoute f a
  | .wpt => s.viewWpt f a
  | .hcx => s.viewHcx f a
  | .ckp => s.viewCkp f a
  | .cfg => s.viewCfg f a
  | .audit => s.viewAudit f a
  | .sec => s.viewSec f a
  | .perf => s.viewPerf f a
  | .clk => if f = R.CLK_TSTAT_OFFSET_NS then some (uInt 32 s.clk.slew) else none
  | .llp => if f = R.LLP_RCTL_REJOIN then some (b2n (s.wring a.idx).rejoin) else none
  | .aon => if f = R.AON_LEASE_PEERALIVE then some (b2n (s.peerAlive (a.die - 16))) else none
  | .hbm | .lpd | .d2d | .tst | .pcie => none

/-- What a field reads as: zero where its register is not live. -/
def State.readFld (s : State) (f : Fld) (a : Loc) : Nat :=
  match s.regHome f a with
  | none => 0
  | some h => ((s.viewFld f a).getD (s.getF f h)) % 2 ^ f.w

/-- What a register reads as; an unmapped offset and reserved bits read zero (R5). -/
def State.readReg (s : State) (csr : Nat) : Nat :=
  sumBy (regFields csr) (fun x => s.readFld x.1 x.2 * 2 ^ x.1.lsb)

end Sys2Proof.Machine
end

