-- ==== Sys2Proof/Machine/Registers.lean ====
section
/-!
DEFINITION. Register writes: access codes, clamps, locks, audit and the effects of each register's own (R6, R381 to
R388), reads that clear (R6), and management packets (R261).
-/

namespace Sys2Proof.Machine

/-! ## Clamps (R383) -/

/-- The range of a field's table entry. -/
def Fld.clamp (f : Fld) (v : Nat) : Nat :=
  if f.hi = 0 ∨ (f.zero ∧ v = 0) then v else min (max v f.lo) f.hi

/-- An FP32 limit: NaN, negative values and subnormals become +0. -/
def gnormClamp (v : Nat) : Nat :=
  if 2 ^ 31 ≤ v ∨ 0x7F800000 < v ∨ v < 0x00800000 then 0 else v

/-- Whether an event number names a count field of a die, or the cycles of one of its blocks (R415). -/
def eventKnown (die v : Nat) : Bool :=
  match blkOf die (v / 256) with
  | some b => v % 256 == 0 || b.fields.any (fun f => f.evt == v % 256)
  | none => false

/-- Instances of a block's registers (R416). -/
def blkInstances (die v : Nat) : Nat :=
  match blkOf die (v / 256) with
  | some .brick => 0
  | some b => b.fields.foldl (fun m f => if 1 < f.count then max m f.count else m) 0
  | none => 0

/-- The effective value of a written field. -/
def State.clampFld (s : State) (f : Fld) (a : Loc) (v : Nat) : Nat :=
  if f = R.ATT_PMODE_LOW1 then min (max v 10) (s.getF R.ATT_PMODE_HIGH1 a - 1)
  else if f = R.ATT_PMODE_LOW2 then min (max v 10) (s.getF R.ATT_PMODE_HIGH2 a - 1)
  else if f = R.EPC_LIMIT_GNORM then gnormClamp v
  else if f = R.AUDIT_ACK_SEQ then min (max v (s.getF f a)) (max s.audit.next (s.getF f a))
  else if f = R.CLK_TSRC_SRC then (if v = 3 then 0 else v)
  else if f = R.PERF_BSEL_EVENT then (if v = 0 ∨ R.brickFields.any (fun g => g.evt == v) then v else 0)
  else if f = R.PERF_DSEL_EVENT then (if eventKnown a.die v then v else 0)
  else if f = R.PERF_DSEL_INST then
    (if v < blkInstances a.die (s.getF R.PERF_DSEL_EVENT a) then v else 0xFFFF)
  else if f.blk = .tst ∧ 0x30 ≤ f.off then
    (if s.getB R.TST_MODE_ENABLE (lDie a.die) then f.clamp v else 0)
  else f.clamp v

/-! ## Planning a write (R382, R383) -/

/-- What a write does to one field. -/
structure FldWrite where
  fld : Fld
  loc : Loc
  raw : Nat
  new : Nat
  clamped : Bool := false
  refused : Bool := false
deriving DecidableEq, Repr

/-- Fields that a write reaches: those that are writable and live. DIE_OP ignores writes but on compute dies. -/
def State.writable (s : State) (f : Fld) (a : Loc) : Option Loc :=
  if f.acc = .ro ∨ f.acc = .rc ∨ (f.blk = .die ∧ !isCompute a.die) then none else s.regHome f a

/-- The lock that governs a field: of its block, or for brick windows of the die's TST block. -/
def State.lkOn (s : State) (f : Fld) (a : Loc) : Bool :=
  s.lockedBlk a.die (if f.blk = .brick then Blk.tst.code a.die else f.blk.code a.die)

/-- Fields whose effect stands in an operation of their own: the value in the register file stays. -/
def ownEffect (f : Fld) : Bool :=
  f.blk == .route && (f.off == 0x10 || f.off == 0x18 || f == R.ROUTE_SEL_ACTIVE)

/-- Queue addresses do not change while the pair is enabled. -/
def State.fixedBase (s : State) (f : Fld) (a : Loc) : Bool :=
  (f == R.HCX_QSQ_BASE || f == R.HCX_QCQ_BASE) && s.getB R.HCX_QCFG_ENABLE a

/-- The plan for one field; `a` is where the register was addressed, `h` its home. -/
def State.planFld (s : State) (f : Fld) (a h : Loc) (v : Nat) : FldWrite :=
  let raw := bits v (f.lsb + f.w - 1) f.lsb
  let old := s.getF f h
  let keep : FldWrite := { fld := f, loc := h, raw := raw, new := old }
  let set : FldWrite := { keep with new := s.clampFld f h raw, clamped := s.clampFld f h raw != raw }
  match f.acc with
  | .rw => if ownEffect f || s.fixedBase f h then keep else set
  | .lk => if s.lkOn f a then { keep with refused := true } else set
  | .wo1 => if s.wo1.contains (f.key h) then { keep with refused := true } else set
  | .w1c => { keep with new := old &&& (raw ^^^ (2 ^ f.w - 1)) }
  | .w1s => if ownEffect f then keep else { keep with new := old ||| raw }
  | .sc => if f = R.AON_RST_WARM then { keep with new := old ||| raw } else keep
  | .ro | .rc => keep

def State.applyFld (s : State) (p : FldWrite) : State :=
  let s := if p.fld.acc = .wo1 ∧ !p.refused then { s with wo1 := p.fld.key p.loc :: s.wo1 } else s
  s.setF p.fld p.loc p.new

/-- The plan for a register: each field sees the fields before it as written. -/
def State.plan (s : State) (fs : List (Fld × Loc)) (v : Nat) : List FldWrite :=
  (fs.foldl (fun (x : State × List FldWrite) (f : Fld × Loc) =>
    match x.1.writable f.1 f.2 with
    | some h =>
      let p := x.1.planFld f.1 f.2 h v
      (x.1.applyFld p, x.2 ++ [p])
    | none => x) (s, [])).2

/-! ## Effects of registers of their own -/

/-- Halted grains of a brick go on after their EBREAK (R31). -/
def State.resumeBrick (s : State) (die b : Nat) : State :=
  forEach (List.range 512) s (fun s g =>
    if (s.grain die b g).run = .halted then
      let (n, s) := s.draw 32
      s.modGrain die b g (fun x => { x.waited n with run := .run })
    else s)

/-- A write to ROUTE_SDATA: the shadow entry, no longer complete, and the next DEST (R282). -/
def State.writeShadow (s : State) (fd v : Nat) : State :=
  let l := lDie fd
  let w : BitVec 32 := BitVec.ofNat 32 v &&& (if s.getB R.ROUTE_SADDR_TREE l then 0xFFFFFFFF else 0x3F3F3F3F)
  let s := s.setFab { s.fab with routes := mset s.fab.routes (s.shadowKey fd) 0 w }
  (s.setF R.ROUTE_SADDR_DEST l (s.getF R.ROUTE_SADDR_DEST l + 1)).setF R.ROUTE_SEL_SHADOWOK l 0

/-- A write of the other value to ROUTE_SEL.ACTIVE flips, or is refused while the shadow is incomplete (R129, R278). -/
def State.flipRoutes (s : State) (fd v : Nat) : State :=
  let l := lDie fd
  if v = s.getF R.ROUTE_SEL_ACTIVE l then s
  else if s.getB R.ROUTE_SEL_SHADOWOK l then
    ((s.setF R.ROUTE_SEL_ACTIVE l v).setF R.ROUTE_SEL_SHADOWOK l 0).bump R.ROUTE_SEL_FLIPS l
  else s.alarm Kind.tableCommitRefused 0xFF (alarmKey fd 0)

/-- What a written field does beside taking its value. -/
def State.afterFld (s : State) (p : FldWrite) : State :=
  let f := p.fld
  let a := p.loc
  let one : Bool := p.raw == 1
  match f.blk with
  | .brick =>
    if f = R.BRK_DBG_RESUME then (if one then s.resumeBrick a.die a.unit else s)
    else if f = R.MXA_MODE_ELASTIC then s.requestMode a.die a.unit p.new
    else if f = R.PERF_BSEL_EVENT then s.setF R.PERF_BCNT_VALUE a 0
    else s
  | .sch => if f = R.SCH_SPLIT_ROWS then s.setF R.SCH_SPLIT_PENDING a 1 else s
  | .att =>
    if f = R.ATT_PMODE_DROP then s.setB R.ATT_PMODE_PENDING a (decide (p.new ≠ s.getF R.ATT_PMODE_EFFECTIVE a)) else s
  | .fab => if f = R.FAB_PCTL_ENABLE ∧ one then s.enablePort ((a.die - 18) * 16 + a.idx) else s
  | .route =>
    if f = R.ROUTE_SEL_ACTIVE then s.flipRoutes a.die p.raw
    else if f = R.ROUTE_SDONE_DONE ∧ one then s.setF R.ROUTE_SEL_SHADOWOK a 1
    else s
  | .llp =>
    if f = R.LLP_RCTL_REJOIN ∧ one then s.rejoin a.idx
    else if f = R.LLP_RCTL_RETRAIN ∧ one then s.retrainRing a.idx
    else s
  | .aon =>
    if f = R.AON_LCTL_YIELD ∧ one then s.yieldLease (a.die - 16)
    else if f = R.AON_DEVNUM_DEVICE then s.setF R.AON_DEVNUM_VALID a 1
    else s
  | .die => if f = R.DIE_OP_OP then s.settlePoint a.die else s
  | .audit => if f = R.AUDIT_ACK_SEQ then drainStaging s.audit.staging s else s
  | .perf =>
    if f = R.PERF_DSEL_EVENT then
      { s.setF R.PERF_DCNT_VALUE a 0 with obsv := { s.obsv with prev := mdel s.obsv.prev (a.die * 64 + a.idx) } }
    else if f = R.PERF_TRCTL_RUN ∧ one then s.setF R.PERF_TRCTL_HALTED a 0
    else if f = R.PERF_ALSEL_RELEASE ∧ one then
      { s with obsv := { s.obsv with alarms := mdel s.obsv.alarms (s.getF R.PERF_ALSEL_ENTRY lKeep) } }
    else s
  | _ => s

/-- A register takes a planned write, with its effects; ROUTE_SDATA is written as one. -/
def State.applyPlan (s : State) (ps : List FldWrite) (v : Nat) : State :=
  let s := forEach ps s State.applyFld
  match ps with
  | p :: _ =>
    if p.fld.blk = .route ∧ p.fld.off = 0x10 then s.writeShadow p.loc.die v else forEach ps s State.afterFld
  | [] => s

/-! ## The write (R382 to R388) -/

/-- Registers that a BAR0 write of a host die reaches (R338). -/
def bar0Reach (o : Origin) (csr : Nat) : Bool :=
  match o with
  | .bar0 hd => decide (bits csr 28 24 = 16 + hd) &&
      ((bits csr 23 16 == 0x08 && decide (bits csr 15 0 < 0x4000)) || (bits csr 23 16 == 0x10 && decide (bits csr 15 0 < 0x100)))
  | _ => true

/-- The job and the pan that a register concerns, FFh for none. -/
def State.concerns (s : State) (ps : List FldWrite) : Nat × Nat :=
  match ps with
  | [] => (0xFF, 0xFF)
  | p :: _ =>
    let i := p.loc.idx
    match p.fld.blk with
    | .sch | .att | .epcC | .mov | .clk => if 0x1000 ≤ p.fld.off then ((s.pan i).job, i) else (0xFF, 0xFF)
    | .exp => if 0x1000 ≤ p.fld.off then (((s.ring i).map (·.job)).getD 0xFF, 0xFF) else (0xFF, 0xFF)
    | .ckp => if 0x1000 ≤ p.fld.off then (i, 0xFF) else (0xFF, 0xFF)
    | .brick =>
      match s.owner p.loc.die p.loc.unit with
      | some q => ((s.pan q).job, q)
      | none => (0xFF, 0xFF)
    | _ => (0xFF, 0xFF)

/-- The record of a write: REFUSED when no field took it. -/
def State.writeRec (s : State) (o : Origin) (csr v : Nat) (ps : List FldWrite) : AuditRec :=
  let t := s.applyPlan ps v
  let old := s.readReg csr
  let shadow : Bool := ps.any (fun p => p.fld.blk == .route && p.fld.off == 0x10)
  let eff := if shadow then mgetD t.fab.routes (s.shadowKey (bits csr 28 24)) 0 |>.toNat else t.readReg csr
  let c := s.concerns ps
  s.mkRec (if ps.all (·.refused) then 0x02 else 0x01) o (job := c.1) (pan := c.2) (addr := csr) (written := v)
    (old := old) (eff := eff) (clamped := ps.any (·.clamped))

/-- A write whose record is accepted. -/
def State.csrWriteNow (s : State) (o : Origin) (csr v : Nat) : State :=
  let ps := s.plan (regFields csr) v
  if ps.isEmpty then s
  else (s.audit1 (originDie o (bits csr 28 24)) (s.writeRec o csr v ps)).applyPlan ps v

/-- A register write: without room in its die's staging queue it waits (R388). -/
def State.csrWrite (s : State) (o : Origin) (csr : Nat) (value : U64) : State :=
  let die := originDie o (bits csr 28 24)
  if !bar0Reach o csr ∨ (s.plan (regFields csr) value.toNat).isEmpty then s
  else if s.auditRoom die ∧ !s.audit.waiting.any (fun w => originDie w.origin w.die = die) then
    s.csrWriteNow o csr value.toNat
  else
    let w : WaitWrite := { origin := o, die := bits csr 28 24, csr := csr, value := value, at_ := s.time }
    ({ s with audit := { s.audit with waiting := s.audit.waiting ++ [w] } }).bump R.AUDIT_WAIT_EVENTS (lDie 16)

/-- The CSR offset of a register (R3). -/
def csrOf (f : Fld) (a : Loc) : Nat := f.key { a with idx := a.idx } / 64

/-- A write to the register of a field. -/
def State.writeAt (s : State) (o : Origin) (f : Fld) (a : Loc) (value : U64) : State := s.csrWrite o (csrOf f a) value

/-! ## Rows for registers with behaviour of their own -/

/-- BRK_DBG_RESUME (R31). -/
def execBrkDbgResume (origin : Origin) (die brick : Nat) (value : U64) (s : State) : Out :=
  need (isBrick die brick) "brick" (.next (s.writeAt origin R.BRK_DBG_RESUME (lBrick die brick) value))

/-- BRK_FAULT_CLEAR (R54). -/
def execBrkFaultClear (origin : Origin) (die brick : Nat) (value : U64) (s : State) : Out :=
  need (isBrick die brick) "brick" (.next (s.writeAt origin R.BRK_FAULT_VALID (lBrick die brick) value))

/-- MXA_MODE_WRITE (R76). -/
def execMxaModeWrite (origin : Origin) (die brick : Nat) (value : U64) (s : State) : Out :=
  need (isBrick die brick) "brick" (.next (s.writeAt origin R.MXA_MODE_ELASTIC (lBrick die brick) value))

/-- MXA_FLAGS_CLEAR (R94): a flag set in the same cycle stays set. -/
def execMxaFlagsClear (origin : Origin) (die brick reg : Nat) (value coincident : U64) (s : State) : Out :=
  need (isBrick die brick && decide (reg < 2)) "brick" (.next (
    let f := if reg = 0 then R.MXA_FLAGS0_BANKS else R.MXA_FLAGS1_BANKS
    let l := lBrick die brick
    let s := s.writeAt origin f l value
    s.setF f l (s.getF f l ||| coincident.toNat)))

/-- MXA_ERR_CLEAR (R83). -/
def execMxaErrClear (origin : Origin) (die brick : Nat) (value : U64) (s : State) : Out :=
  need (isBrick die brick) "brick" (.next (s.writeAt origin R.MXA_ERR_VALID (lBrick die brick) value))

/-- SCH_SPLIT_WRITE (R126). -/
def execSchSplitWrite (origin : Origin) (die pan : Nat) (value : U64) (s : State) : Out :=
  need (isCompute die && decide (pan < 256)) "pan" (.next (s.writeAt origin R.SCH_SPLIT_ROWS (lIdx die pan) value))

/-- ATT_PMODE_WRITE (R155). -/
def execAttPmodeWrite (origin : Origin) (die pan : Nat) (value : U64) (s : State) : Out :=
  need (isCompute die && decide (pan < 256)) "pan" (.next (s.writeAt origin R.ATT_PMODE_DROP (lIdx die pan) value))

/-- FAB_PCTL_ENABLE (R264). -/
def execFabPctlEnable (origin : Origin) (fd port : Nat) (value : U64) (s : State) : Out :=
  need (isFabric fd && decide (port < 16)) "fabric port" (.next (
    s.writeAt origin R.FAB_PCTL_ENABLE (lIdx fd port) value))

/-- ROUTE_SDATA_WRITE (R282). -/
def execRouteSdataWrite (origin : Origin) (fd : Nat) (value : U64) (s : State) : Out :=
  need (isFabric fd) "fabric die" (.next (s.writeAt origin R.ROUTE_SDATA_ALT0 (lDie fd) value))

/-- ROUTE_SDONE (R278). -/
def execRouteSdone (origin : Origin) (fd : Nat) (value : U64) (s : State) : Out :=
  need (isFabric fd) "fabric die" (.next (s.writeAt origin R.ROUTE_SDONE_DONE (lDie fd) value))

/-- ROUTE_FLIP (R278). -/
def execRouteFlip (origin : Origin) (fd : Nat) (value : U64) (s : State) : Out :=
  need (isFabric fd) "fabric die" (.next (s.writeAt origin R.ROUTE_SEL_ACTIVE (lDie fd) value))

/-- LLP_REJOIN (R303): the REJOIN bit of a write to LLP_RCTL. -/
def execLlpRejoin (origin : Origin) (level : Nat) (value : U64) (s : State) : Out :=
  need (decide (level < 3)) "whistle level" (.next (
    s.writeAt origin R.LLP_RCTL_REJOIN (lIdx 18 level) (BitVec.ofNat 64 (value.toNat % 2))))

/-- LLP_RETRAIN (R304): the RETRAIN bit of a write to LLP_RCTL. -/
def execLlpRetrain (origin : Origin) (level : Nat) (value : U64) (s : State) : Out :=
  need (decide (level < 3)) "whistle level" (.next (
    s.writeAt origin R.LLP_RCTL_RETRAIN (lIdx 18 level) (BitVec.ofNat 64 (value.toNat / 2 % 2 * 2))))

/-- AON_YIELD (R399). -/
def execAonYield (origin : Origin) (hd : Nat) (value : U64) (s : State) : Out :=
  need (decide (hd < 2)) "host die" (.next (s.writeAt origin R.AON_LCTL_YIELD (lDie (16 + hd)) value))

/-- AON_DEVNUM_WRITE (R405): a device that waits at step 6 goes on. -/
def execAonDevnumWrite (origin : Origin) (value : U64) (boot : BootIn) (s : State) : Out :=
  .next ((s.writeAt origin R.AON_DEVNUM_DEVICE (lDie 16) value).numberArrives boot)

/-- DIE_OP_WRITE (R408). -/
def execDieOpWrite (origin : Origin) (die : Nat) (value : U64) (s : State) : Out :=
  need (decide (die < 20)) "die" (.next (s.writeAt origin R.DIE_OP_OP (lDie die) value))

/-- AUDIT_ACK_WRITE (R388). -/
def execAuditAckWrite (origin : Origin) (value : U64) (s : State) : Out :=
  .next (s.writeAt origin R.AUDIT_ACK_SEQ (lDie 16) value)

/-- AUDIT_STAGING_ACCEPT (R387): the first change of a die that waits is applied. -/
def execAuditStagingAccept (die waitedUs : Nat) (s : State) : Out :=
  need (decide (die < 20)) "die" (.next (
    match s.audit.waiting.find? (fun w => originDie w.origin w.die = die) with
    | some w =>
      if s.auditRoom die then
        let s := { s with audit := { s.audit with waiting := s.audit.waiting.erase w } }
        (s.bump R.AUDIT_WAIT_US (lDie 16) waitedUs).csrWriteNow w.origin w.csr w.value.toNat
      else s
    | none => s))

/-- Whether a CSR offset is a counter's selection register. -/
def isSelection (csr : Nat) : Bool :=
  (regFields csr).any (fun x => x.1 == R.PERF_BSEL_EVENT || x.1 == R.PERF_DSEL_EVENT)

/-- PERF_SELECT_WRITE (R414). -/
def execPerfSelectWrite (origin : Origin) (csr : Nat) (value : U64) (s : State) : Out :=
  whenThere (isSelection csr) s (.next (s.csrWrite origin csr value))

/-- ALARM_RELEASE (R431): on the keeper die. -/
def execAlarmRelease (origin : Origin) (value : U64) (s : State) : Out :=
  .next (match s.keeper with
    | some hd => s.writeAt origin R.PERF_ALSEL_RELEASE (lDie (16 + hd)) value
    | none => s)

/-! ## Any register -/

/-- REGISTER_WRITE (R383). A device number lets a device that waits at step 6 go on (R405). -/
def execRegisterWrite (origin : Origin) (csr : Nat) (value : U64) (s : State) : Out :=
  .next (
    let s := s.csrWrite origin csr value
    s.numberArrives s.clk.bootIn)

/-- World counters that clear on a read. -/
def World.clearFld (w : World) (f : Fld) : World :=
  if f = R.WPT_WMISS_MISSES then { w with misses := 0 }
  else if f = R.WPT_WMISS_STALE then { w with stale := 0 }
  else if f = R.WPT_WPART_LATE then { w with late := 0 }
  else if f = R.WPT_WPART_DUP then { w with dup := 0 }
  else if f = R.WPT_WPART_ORDER then { w with order := 0 }
  else if f = R.WPT_WPART_GAP then { w with gap := 0 }
  else w

/-- A read of an RC field clears it. -/
def State.clearRc (s : State) (f : Fld) (a : Loc) : State :=
  if f.acc ≠ .rc then s
  else match s.regHome f a with
    | none => s
    | some h =>
      if f.blk = .wpt ∧ f.off < 0x1000 then
        let i := s.getF R.WPT_WSEL_WORLD (lDie a.die)
        if s.readFld R.WPT_WSTATE_VALID a = 1 then s.modWorld i (fun w => w.clearFld f) else s
      else s.setF f h 0

/-- A read: the value, and the state after it. -/
def State.csrRead (s : State) (csr : Nat) : Nat × State :=
  (s.readReg csr, forEach (regFields csr) s (fun s (x : Fld × Loc) => s.clearRc x.1 x.2))

/-- READ_CLEAR (R6). -/
def execReadClear (origin : Origin) (csr : Nat) (s : State) : Out :=
  .next (if bar0Reach origin csr then (s.csrRead csr).2 else s)

/-! ## Management packets (R261) -/

/-- Consecutive registers read for a management packet. -/
def State.readMany (s : State) (csr : Nat) : Nat → List Byte × State
  | 0 => ([], s)
  | n + 1 =>
    let (v, s) := s.csrRead csr
    let (l, s) := s.readMany (csr + 8) n
    (toLe 8 v ++ l, s)

/-- Consecutive registers written by a management packet. -/
def State.writeMany (s : State) (o : Origin) (csr : Nat) (b : List Byte) : State :=
  forEach (List.range (b.length / 8)) s (fun s i =>
    s.csrWrite o (csr + 8 * i) (BitVec.ofNat 64 (fieldAt b (8 * i) 8)))

/-- A management packet of a listed manager: without payload it reads a register, otherwise it writes. -/
def State.manage (s : State) (port : Nat) (p : Packet) : State :=
  if p.space ≠ 4 ∨ !s.fab.managers.contains p.src then (s.refuse port p 6).violation port 6
  else
    let (b, s) := if p.payload.isEmpty then s.readMany p.offset 1
      else ([], s.writeMany (.fabric p.src) p.offset p.payload)
    if p.bcast then s.relayDown port p true else s.respond port p 0x71 b

/-- MGMT. -/
def execMgmt (p : Packet) (s : State) : Out :=
  let q := { p with type := 0x70 }
  let (port, s) := s.takeIn p
  .next (({ s with fab := { s.fab with inbox := (port, q) :: s.fab.inbox } }).arrive q (fun s port => s.manage port q))

end Sys2Proof.Machine
end

