-- ==== Sys2Proof/Machine/Dispatch.lean ====
section
/-!
DEFINITION. The dispatcher: one arm for each command of spec/opcode_table.json.
-/

namespace Sys2Proof.Machine

def exec (i : Instr) (s : State) : Host.Outcome State Fault Refusal :=
  match i with
  | .grainInstruction die brick grain cyc ecc => Sys2Proof.Machine.execGrainInstruction die brick grain cyc ecc s
  | .ecall die brick grain => Sys2Proof.Machine.execEcall die brick grain s
  | .ebreak die brick grain => Sys2Proof.Machine.execEbreak die brick grain s
  | .slRld die brick grain rd rs1 rs2 cyc ecc => Sys2Proof.Machine.execSlRld die brick grain rd rs1 rs2 cyc ecc s
  | .slRst die brick grain rd rs1 rs2 cyc ecc => Sys2Proof.Machine.execSlRst die brick grain rd rs1 rs2 cyc ecc s
  | .slRred die brick grain rd rs1 rs2 fn cyc ecc => Sys2Proof.Machine.execSlRred die brick grain rd rs1 rs2 fn cyc ecc s
  | .slPush die brick grain rd rs1 rs2 cyc ecc => Sys2Proof.Machine.execSlPush die brick grain rd rs1 rs2 cyc ecc s
  | .slPop die brick grain rd rs1 rs2 cyc ecc => Sys2Proof.Machine.execSlPop die brick grain rd rs1 rs2 cyc ecc s
  | .slCred die brick grain rd rs1 rs2 cyc ecc => Sys2Proof.Machine.execSlCred die brick grain rd rs1 rs2 cyc ecc s
  | .slDraw die brick grain rd rs1 rs2 cyc ecc => Sys2Proof.Machine.execSlDraw die brick grain rd rs1 rs2 cyc ecc s
  | .slDrawf die brick grain rd rs1 rs2 cyc ecc => Sys2Proof.Machine.execSlDrawf die brick grain rd rs1 rs2 cyc ecc s
  | .slWaitb die brick grain rd rs1 rs2 cyc ecc => Sys2Proof.Machine.execSlWaitb die brick grain rd rs1 rs2 cyc ecc s
  | .slFma2 die brick grain rd rs1 rs2 rs3 rm cyc ecc => Sys2Proof.Machine.execSlFma2 die brick grain rd rs1 rs2 rs3 rm cyc ecc s
  | .slBfma4 die brick grain rd rs1 rs2 rs3 rm cyc ecc => Sys2Proof.Machine.execSlBfma4 die brick grain rd rs1 rs2 rs3 rm cyc ecc s
  | .sentinelReturn die brick grain => Sys2Proof.Machine.execSentinelReturn die brick grain s
  | .watchdog die brick grain => Sys2Proof.Machine.execWatchdog die brick grain s
  | .brkDbgResume origin die brick value => Sys2Proof.Machine.execBrkDbgResume origin die brick value s
  | .brkFaultClear origin die brick value => Sys2Proof.Machine.execBrkFaultClear origin die brick value s
  | .mxaCommand die brick w0 w1 w2 w3 => Sys2Proof.Machine.execMxaCommand die brick w0 w1 w2 w3 s
  | .swap die brick cycles => Sys2Proof.Machine.execSwap die brick cycles s
  | .backgroundLoadDone die brick parity => Sys2Proof.Machine.execBackgroundLoadDone die brick parity s
  | .rowAccept die brick accError parity segs groups => Sys2Proof.Machine.execRowAccept die brick accError parity segs groups s
  | .mxaModeWrite origin die brick value => Sys2Proof.Machine.execMxaModeWrite origin die brick value s
  | .mxaFlagsClear origin die brick reg value coincident => Sys2Proof.Machine.execMxaFlagsClear origin die brick reg value coincident s
  | .mxaErrClear origin die brick value => Sys2Proof.Machine.execMxaErrClear origin die brick value s
  | .tileOpIssue die pan station mb slice waited work => Sys2Proof.Machine.execTileOpIssue die pan station mb slice waited work s
  | .tileOpRetire optag cause => Sys2Proof.Machine.execTileOpRetire optag cause s
  | .localBoundary die pan => Sys2Proof.Machine.execLocalBoundary die pan s
  | .done pan die step ns => Sys2Proof.Machine.execDone pan die step ns s
  | .stepRelease die pan step => Sys2Proof.Machine.execStepRelease die pan step s
  | .boundaryLate pan => Sys2Proof.Machine.execBoundaryLate pan s
  | .schSplitWrite origin die pan value => Sys2Proof.Machine.execSchSplitWrite origin die pan value s
  | .d2dRetrain die port inFlight rerouted retries => Sys2Proof.Machine.execD2dRetrain die port inFlight rerouted retries s
  | .d2dRetrainDone die port rerouted => Sys2Proof.Machine.execD2dRetrainDone die port rerouted s
  | .d2dRetrainTimeout die port rerouted => Sys2Proof.Machine.execD2dRetrainTimeout die port rerouted s
  | .seqOpen pan world layers kvheads headdim fmt mode entries table => Sys2Proof.Machine.execSeqOpen pan world layers kvheads headdim fmt mode entries table s
  | .seqQuarantineExpiry seq => Sys2Proof.Machine.execSeqQuarantineExpiry seq s
  | .walk die walker seq gen layer page => Sys2Proof.Machine.execWalk die walker seq gen layer page s
  | .spill pan tier => Sys2Proof.Machine.execSpill pan tier s
  | .attPmodeWrite origin die pan value => Sys2Proof.Machine.execAttPmodeWrite origin die pan value s
  | .discreteDraw pan station => Sys2Proof.Machine.execDiscreteDraw pan station s
  | .continuousDraw pan station => Sys2Proof.Machine.execContinuousDraw pan station s
  | .adoptionPoint pan => Sys2Proof.Machine.execAdoptionPoint pan s
  | .publishBegin pan station waitedUs => Sys2Proof.Machine.execPublishBegin pan station waitedUs s
  | .publishChunkAck ws target chunk answer => Sys2Proof.Machine.execPublishChunkAck ws target chunk answer s
  | .publishChecks ws others => Sys2Proof.Machine.execPublishChecks ws others s
  | .epochChangeMessage ws epoch state cause step => Sys2Proof.Machine.execEpochChangeMessage ws epoch state cause step s
  | .imageChunk ws data tag => Sys2Proof.Machine.execImageChunk ws data tag s
  | .recordWrite pan station => Sys2Proof.Machine.execRecordWrite pan station s
  | .stagingEviction ring extent => Sys2Proof.Machine.execStagingEviction ring extent s
  | .drawIssue pan station waitedUs => Sys2Proof.Machine.execDrawIssue pan station waitedUs s
  | .priorityUpdate ring pos prio => Sys2Proof.Machine.execPriorityUpdate ring pos prio s
  | .moveStart die engine obj dstTier => Sys2Proof.Machine.execMoveStart die engine obj dstTier s
  | .moveCopyDone move result => Sys2Proof.Machine.execMoveCopyDone move result s
  | .moveDrained move => Sys2Proof.Machine.execMoveDrained move s
  | .stubAccess move access => Sys2Proof.Machine.execStubAccess move access s
  | .tierResponse req result => Sys2Proof.Machine.execTierResponse req result s
  | .tierTimeout req => Sys2Proof.Machine.execTierTimeout req s
  | .memorySideOp space offset op elem data cmp => Sys2Proof.Machine.execMemorySideOp space offset op elem data cmp s
  | .patrolScrub die corrected => Sys2Proof.Machine.execPatrolScrub die corrected s
  | .ladlePrefetch pan => Sys2Proof.Machine.execLadlePrefetch pan s
  | .bufferAllocate pan tier bytes movable => Sys2Proof.Machine.execBufferAllocate pan tier bytes movable s
  | .bufferFree pan handle station => Sys2Proof.Machine.execBufferFree pan handle station s
  | .bufferQuarantineExpiry buffer => Sys2Proof.Machine.execBufferQuarantineExpiry buffer s
  | .flashRelocate fd block => Sys2Proof.Machine.execFlashRelocate fd block s
  | .flashProgramFail fd block => Sys2Proof.Machine.execFlashProgramFail fd block s
  | .fabPctlEnable origin fd port value => Sys2Proof.Machine.execFabPctlEnable origin fd port value s
  | .portTrained port training => Sys2Proof.Machine.execPortTrained port training s
  | .portRetrain port => Sys2Proof.Machine.execPortRetrain port s
  | .retrainTimeout port => Sys2Proof.Machine.execRetrainTimeout port s
  | .frameReceive port bytes credit => Sys2Proof.Machine.execFrameReceive port bytes credit s
  | .replayTimeout port => Sys2Proof.Machine.execReplayTimeout port s
  | .ack port seq preempted => Sys2Proof.Machine.execAck port seq preempted s
  | .nak port seq reason tagIdx tagGen => Sys2Proof.Machine.execNak port seq reason tagIdx tagGen s
  | .read p => Sys2Proof.Machine.execRead p s
  | .write p => Sys2Proof.Machine.execWrite p s
  | .msop p => Sys2Proof.Machine.execMsop p s
  | .atomic p => Sys2Proof.Machine.execAtomic p s
  | .fence p => Sys2Proof.Machine.execFence p s
  | .epoch p => Sys2Proof.Machine.execEpoch p s
  | .telem p => Sys2Proof.Machine.execTelem p s
  | .mgmt p => Sys2Proof.Machine.execMgmt p s
  | .readRsp p => Sys2Proof.Machine.execReadRsp p s
  | .writeAck p => Sys2Proof.Machine.execWriteAck p s
  | .atomicRsp p => Sys2Proof.Machine.execAtomicRsp p s
  | .fenceAck p => Sys2Proof.Machine.execFenceAck p s
  | .requestResend tagIdx => Sys2Proof.Machine.execRequestResend tagIdx s
  | .routeSdataWrite origin fd value => Sys2Proof.Machine.execRouteSdataWrite origin fd value s
  | .routeSdone origin fd value => Sys2Proof.Machine.execRouteSdone origin fd value s
  | .routeFlip origin fd value => Sys2Proof.Machine.execRouteFlip origin fd value s
  | .allToAll pan station => Sys2Proof.Machine.execAllToAll pan station s
  | .allToAllV pan station counts => Sys2Proof.Machine.execAllToAllV pan station counts s
  | .allReduce pan station => Sys2Proof.Machine.execAllReduce pan station s
  | .reduceScatter pan station => Sys2Proof.Machine.execReduceScatter pan station s
  | .allGather pan station => Sys2Proof.Machine.execAllGather pan station s
  | .broadcast pan station => Sys2Proof.Machine.execBroadcast pan station s
  | .barrier pan station bit => Sys2Proof.Machine.execBarrier pan station bit s
  | .collDone p => Sys2Proof.Machine.execCollDone p s
  | .frameStart level => Sys2Proof.Machine.execFrameStart level s
  | .cellReceive level slot bytes offsetPs => Sys2Proof.Machine.execCellReceive level slot bytes offsetPs s
  | .whistleDeadTimeout level pos => Sys2Proof.Machine.execWhistleDeadTimeout level pos s
  | .masterElection level => Sys2Proof.Machine.execMasterElection level s
  | .ringTrainingTimeout level => Sys2Proof.Machine.execRingTrainingTimeout level s
  | .ringFallback level => Sys2Proof.Machine.execRingFallback level s
  | .ringRetrainTimer level success => Sys2Proof.Machine.execRingRetrainTimer level success s
  | .whistleFb level p => Sys2Proof.Machine.execWhistleFb level p s
  | .llpRejoin origin level value => Sys2Proof.Machine.execLlpRejoin origin level value s
  | .llpRetrain origin level value => Sys2Proof.Machine.execLlpRetrain origin level value s
  | .obs port time frame => Sys2Proof.Machine.execObs port time frame s
  | .obsWindowClose world tick => Sys2Proof.Machine.execObsWindowClose world tick s
  | .hello port time frame => Sys2Proof.Machine.execHello port time frame s
  | .helloTimer world => Sys2Proof.Machine.execHelloTimer world s
  | .attachTimeout world => Sys2Proof.Machine.execAttachTimeout world s
  | .partnerStop port time frame => Sys2Proof.Machine.execPartnerStop port time frame s
  | .partnerSync port time frame => Sys2Proof.Machine.execPartnerSync port time frame s
  | .actionVerdict pan world time => Sys2Proof.Machine.execActionVerdict pan world time s
  | .frameLatch world tick => Sys2Proof.Machine.execFrameLatch world tick s
  | .sendTime port time => Sys2Proof.Machine.execSendTime port time s
  | .missLimit world => Sys2Proof.Machine.execMissLimit world s
  | .holdLimit world => Sys2Proof.Machine.execHoldLimit world s
  | .silenceLimit world => Sys2Proof.Machine.execSilenceLimit world s
  | .rampEnd world => Sys2Proof.Machine.execRampEnd world s
  | .worldQuarantineExpiry world => Sys2Proof.Machine.execWorldQuarantineExpiry world s
  | .gptpSync hd offsetNs => Sys2Proof.Machine.execGptpSync hd offsetNs s
  | .timeHoldover hd => Sys2Proof.Machine.execTimeHoldover hd s
  | .worldPortLink port up preempt => Sys2Proof.Machine.execWorldPortLink port up preempt s
  | .submissionDoorbell pair value => Sys2Proof.Machine.execSubmissionDoorbell pair value s
  | .completionDoorbell pair value => Sys2Proof.Machine.execCompletionDoorbell pair value s
  | .commandTake pair entry forwardable => Sys2Proof.Machine.execCommandTake pair entry forwardable s
  | .commandTimeout cmd => Sys2Proof.Machine.execCommandTimeout cmd s
  | .wholeLoad cmd image => Sys2Proof.Machine.execWholeLoad cmd image s
  | .perPanLoad cmd image => Sys2Proof.Machine.execPerPanLoad cmd image s
  | .resize cmd image => Sys2Proof.Machine.execResize cmd image s
  | .imageLoad cmd header => Sys2Proof.Machine.execImageLoad cmd header s
  | .keyLoad cmd blob => Sys2Proof.Machine.execKeyLoad cmd blob s
  | .jobCreate cmd => Sys2Proof.Machine.execJobCreate cmd s
  | .jobStart cmd => Sys2Proof.Machine.execJobStart cmd s
  | .jobStop cmd => Sys2Proof.Machine.execJobStop cmd s
  | .jobDestroy cmd => Sys2Proof.Machine.execJobDestroy cmd s
  | .indexQuarantineExpiry isJob idx => Sys2Proof.Machine.execIndexQuarantineExpiry isJob idx s
  | .worldAttach cmd => Sys2Proof.Machine.execWorldAttach cmd s
  | .worldStop cmd => Sys2Proof.Machine.execWorldStop cmd s
  | .worldDetach cmd => Sys2Proof.Machine.execWorldDetach cmd s
  | .publish cmd => Sys2Proof.Machine.execPublish cmd s
  | .retract cmd => Sys2Proof.Machine.execRetract cmd s
  | .snapshot cmd => Sys2Proof.Machine.execSnapshot cmd s
  | .checkpointDurable cmd => Sys2Proof.Machine.execCheckpointDurable cmd s
  | .checkpointEnable cmd => Sys2Proof.Machine.execCheckpointEnable cmd s
  | .checkpointDisable cmd => Sys2Proof.Machine.execCheckpointDisable cmd s
  | .restore cmd presentEverywhere newest => Sys2Proof.Machine.execRestore cmd presentEverywhere newest s
  | .spareAdopt cmd found => Sys2Proof.Machine.execSpareAdopt cmd found s
  | .seqCancel cmd => Sys2Proof.Machine.execSeqCancel cmd s
  | .summary cmd => Sys2Proof.Machine.execSummary cmd s
  | .logRead cmd => Sys2Proof.Machine.execLogRead cmd s
  | .bistRun cmd => Sys2Proof.Machine.execBistRun cmd s
  | .bistComplete die misr => Sys2Proof.Machine.execBistComplete die misr s
  | .fencedRequest die requester cmd => Sys2Proof.Machine.execFencedRequest die requester cmd s
  | .lock cmd => Sys2Proof.Machine.execLock cmd s
  | .protectedWrite job shard extent => Sys2Proof.Machine.execProtectedWrite job shard extent s
  | .shardAck job shard digest => Sys2Proof.Machine.execShardAck job shard digest s
  | .durableWrite job => Sys2Proof.Machine.execDurableWrite job s
  | .find src failed job rank => Sys2Proof.Machine.execFind src failed job rank s
  | .adopt src job failed rank newest maps => Sys2Proof.Machine.execAdopt src job failed rank newest maps s
  | .straggler job rank => Sys2Proof.Machine.execStraggler job rank s
  | .renew hd => Sys2Proof.Machine.execRenew hd s
  | .renewReceive hd term => Sys2Proof.Machine.execRenewReceive hd term s
  | .leaseTimeout hd healthy => Sys2Proof.Machine.execLeaseTimeout hd healthy s
  | .witnessCas claims => Sys2Proof.Machine.execWitnessCas claims s
  | .aonYield origin hd value => Sys2Proof.Machine.execAonYield origin hd value s
  | .stewardWatchdog hd => Sys2Proof.Machine.execStewardWatchdog hd s
  | .coldReset boot => Sys2Proof.Machine.execColdReset boot s
  | .warmReset byPin boot => Sys2Proof.Machine.execWarmReset byPin boot s
  | .bootStepTimeout => Sys2Proof.Machine.execBootStepTimeout s
  | .vin48Arrival boot => Sys2Proof.Machine.execVin48Arrival boot s
  | .aonDevnumWrite origin value boot => Sys2Proof.Machine.execAonDevnumWrite origin value boot s
  | .perstRelease hd => Sys2Proof.Machine.execPerstRelease hd s
  | .vin48Fault milliVolts us => Sys2Proof.Machine.execVin48Fault milliVolts us s
  | .vsb33Fault us => Sys2Proof.Machine.execVsb33Fault us s
  | .hostDieLost => Sys2Proof.Machine.execHostDieLost s
  | .powerCompare watts => Sys2Proof.Machine.execPowerCompare watts s
  | .thermalSample die temp watts => Sys2Proof.Machine.execThermalSample die temp watts s
  | .dieOpWrite origin die value => Sys2Proof.Machine.execDieOpWrite origin die value s
  | .fabricTime src time halfRtt => Sys2Proof.Machine.execFabricTime src time halfRtt s
  | .auditStagingAccept die waitedUs => Sys2Proof.Machine.execAuditStagingAccept die waitedUs s
  | .auditAckWrite origin value => Sys2Proof.Machine.execAuditAckWrite origin value s
  | .perfSelectWrite origin csr value => Sys2Proof.Machine.execPerfSelectWrite origin csr value s
  | .traceSample die => Sys2Proof.Machine.execTraceSample die s
  | .alarmRelease origin value => Sys2Proof.Machine.execAlarmRelease origin value s
  | .scanEnable die => Sys2Proof.Machine.execScanEnable die s
  | .readClear origin csr => Sys2Proof.Machine.execReadClear origin csr s
  | .registerWrite origin csr value => Sys2Proof.Machine.execRegisterWrite origin csr value s
  | .findTimeout => Sys2Proof.Machine.execFindTimeout s
  | .adoptionVoteTimeout job rank => Sys2Proof.Machine.execAdoptionVoteTimeout job rank s
  | .busyTestReissue die requester => Sys2Proof.Machine.execBusyTestReissue die requester s
  | .ackDelayExpiry port => Sys2Proof.Machine.execAckDelayExpiry port s
  | .ppsPulse => Sys2Proof.Machine.execPpsPulse s
  | .pcieLinkTraining hd up gen width flit corr nonfatal fatal => Sys2Proof.Machine.execPcieLinkTraining hd up gen width flit corr nonfatal fatal s
  | .worldPortForeignFrame port kind => Sys2Proof.Machine.execWorldPortForeignFrame port kind s

end Sys2Proof.Machine
end

