-- ==== Sys2Proof/Safety.lean ====
section
/-!
DEFINITION. What counts as a sound state of the block, and the words in which the statements say what a command
did.
-/

namespace Sys2Proof.Machine

/-- The byte map of the tiers keeps its canonical form. -/
def MemSound (s : State) : Prop := Memory.wf s.mem = true

/-- A grain after an instruction of `len` bytes that took `cyc` GCLK cycles has retired (R30, R38, R46). -/
def Grain.retired (g : Grain) (len cyc : Nat) : Grain :=
  { g with
    run := if g.run = .waitStream then .run else g.run
    pc := g.pc + BitVec.ofNat 32 len
    cycle := g.cycle + max 1 cyc
    instret := g.instret + 1
    wdog := g.wdog + max 1 cyc }

/-- The record of a register write from `o` is accepted at once: the origin reaches the register, the staging queue
has room and no earlier change of its die waits (R338, R387, R388). -/
def State.writeOpen (s : State) (o : Origin) (csr : Nat) : Bool :=
  bar0Reach o csr && s.auditRoom (originDie o (bits csr 28 24))
    && !s.audit.waiting.any (fun w => originDie w.origin w.die = originDie o (bits csr 28 24))

/-- A change that makes a record of some dies has room for it, and did not wait (R388). -/
def State.roomNow (s : State) (dies : List Nat) (key : Nat × Nat) : Bool :=
  dies.all s.auditRoom && !s.audit.held.any (fun h => h.1 = key)

/-- A taken command has its effect now: it has not begun, it is its turn, and its records have room (R341, R388). -/
def State.mayBegin (s : State) (c : Cmd) : Bool := !c.begun && !s.outOfTurn c && s.roomNow c.auditDies (0, c.seq)

/-! ## Groups of commands, by the part of the state they act on -/

/-- Commands on worlds and world ports, but for ACTION_VERDICT. -/
def Part.onWorldPort : Instr → Bool
  | .obs .. | .obsWindowClose .. | .hello .. | .helloTimer .. | .attachTimeout .. | .partnerStop ..
  | .partnerSync .. | .frameLatch .. | .sendTime .. | .missLimit .. | .holdLimit .. | .silenceLimit ..
  | .rampEnd .. | .worldQuarantineExpiry .. | .worldPortLink .. | .worldPortForeignFrame .. | .worldStop ..
  | .worldDetach .. | .worldAttach .. => true
  | _ => false

/-- Commands on TIME, lease, power and links of a ring or of PCIe, that reset nothing. -/
def Part.onTimeAndPower : Instr → Bool
  | .gptpSync .. | .timeHoldover .. | .fabricTime .. | .ppsPulse .. | .renew .. | .renewReceive ..
  | .leaseTimeout .. | .witnessCas .. | .stewardWatchdog .. | .hostDieLost .. | .powerCompare ..
  | .perstRelease .. | .masterElection .. | .ringRetrainTimer .. | .pcieLinkTraining ..
  | .bootStepTimeout .. => true
  | _ => false

/-- Commands on queues, keys, locks, reports and cuts. -/
def Part.onQueues : Instr → Bool
  | .submissionDoorbell .. | .completionDoorbell .. | .commandTake .. | .commandTimeout .. | .jobCreate ..
  | .lock .. | .keyLoad .. | .logRead .. | .summary .. | .fencedRequest .. | .busyTestReissue ..
  | .checkpointDurable .. | .checkpointEnable .. | .checkpointDisable .. | .protectedWrite .. | .shardAck ..
  | .durableWrite .. | .find .. | .straggler .. | .findTimeout .. => true
  | _ => false

/-- Commands on links of the fabric. -/
def Part.onLinks : Instr → Bool
  | .portTrained .. | .portRetrain .. | .retrainTimeout .. | .frameReceive .. | .replayTimeout .. | .ack ..
  | .nak .. | .requestResend .. | .ackDelayExpiry .. => true
  | _ => false

/-- Commands on registers. -/
def Part.onRegisters : Instr → Bool
  | .brkDbgResume .. | .brkFaultClear .. | .mxaModeWrite .. | .mxaFlagsClear .. | .mxaErrClear ..
  | .schSplitWrite .. | .attPmodeWrite .. | .fabPctlEnable .. | .routeSdataWrite .. | .routeSdone ..
  | .routeFlip .. | .llpRejoin .. | .llpRetrain .. | .aonYield .. | .aonDevnumWrite .. | .dieOpWrite ..
  | .auditStagingAccept .. | .auditAckWrite .. | .perfSelectWrite .. | .alarmRelease ..
  | .registerWrite .. => true
  | _ => false

/-- Commands on arrays and mortar links. -/
def Part.onArrays : Instr → Bool
  | .swap .. | .backgroundLoadDone .. | .mxaCommand .. | .d2dRetrainDone .. | .d2dRetrainTimeout ..
  | .tileOpRetire .. | .localBoundary .. => true
  | _ => false

/-- Commands on sequences, pages, buffers, media and draws. -/
def Part.onTiers : Instr → Bool
  | .memorySideOp .. | .patrolScrub .. | .flashRelocate .. | .flashProgramFail .. | .bufferAllocate ..
  | .bufferFree .. | .bufferQuarantineExpiry .. | .moveStart .. | .stubAccess .. | .walk .. | .spill ..
  | .seqQuarantineExpiry .. | .ladlePrefetch .. | .discreteDraw .. | .continuousDraw .. | .seqOpen .. => true
  | _ => false

/-- Commands on epochs and rings. -/
def Part.onEpochs : Instr → Bool
  | .adoptionPoint .. | .publishBegin .. | .publishChunkAck .. | .epochChangeMessage .. | .imageChunk ..
  | .retract .. | .recordWrite .. | .stagingEviction .. | .priorityUpdate .. | .drawIssue .. => true
  | _ => false

/-- Of the groups above, commands that may send packets. -/
def Part.sends : Instr → Bool
  | .fabricTime .. | .shardAck .. | .tileOpRetire .. => true
  | _ => false

/-- Of the groups above, commands that write a copy of a shard. -/
def Part.copies : Instr → Bool
  | .shardAck .. | .durableWrite .. => true
  | _ => false

/-- Of the groups above, commands that may end an epoch, whose pages' prefix index goes with it. -/
def Part.endsEpochs : Instr → Bool
  | .publishChunkAck .. | .epochChangeMessage .. | .imageChunk .. | .retract .. => true
  | _ => false

/-- The register block (R4) of a register-file key. -/
def csrBlock (k : Nat) : Nat := k / 2 ^ 22 % 256

/-- The lease as the two host dies and the witness hold it: no keeper's term is above the witness's, and the two
dies are not keepers of one term (R400). -/
def LeaseSound (s : State) : Prop :=
  (s.role 0 = .keeper → s.term 0 ≤ s.clk.witTerm) ∧ (s.role 1 = .keeper → s.term 1 ≤ s.clk.witTerm) ∧
    (s.role 0 = .keeper → s.role 1 = .keeper → s.term 0 ≠ s.term 1)

end Sys2Proof.Machine
end

