-- ==== Sys2Proof/WellFormed.lean ====
section
/-!
DEFINITION. Well-formed commands: each operand that names a unit, a register or a field of fixed width
lies in the range the spec gives it. `exec` also takes commands that are not well-formed, and refuses by name
those whose unit the device does not have.
-/

namespace Sys2Proof

/-- Host dies are 0 and 1 here, queue pairs 0 to 63, host cores 0 to 31, devices 16 bits (R337, R386). -/
def Origin.wf : Origin → Bool
  | .internal => true
  | .bar0 hd => decide (hd < 2)
  | .queue pair => decide (pair < 64)
  | .hostCore hd core => decide (hd < 2) && decide (core < 32)
  | .fabric dev => decide (dev < 65536)
  | .testPort => true
  | .selfTest => true

/-- A pair of 64 and a CID of 16 bits (R340, R341). -/
def CmdRef.wf (c : CmdRef) : Bool := decide (c.pair < 64) && decide (c.cid < 65536)

/-- A packet whose header fields fit (R265). -/
def Packet.wf (p : Packet) : Bool :=
  decide (p.device < 65536) && decide (p.space < 16) && decide (p.offset < 2 ^ 44) && decide (p.src < 65536)
    && decide (p.type < 256) && decide (p.vc < 8) && decide (p.payload.length ≤ 2048)

/-- A world-port frame of a world the port can name (R332). -/
def WpFrame.wf (f : WpFrame) : Bool := decide (f.world < 16384) && decide (f.type < 16)

/-- Compute dies are 0 to 15, bricks 0 to 127 (R1, R25). -/
def Instr.brickOk (die brick : Nat) : Bool := decide (die < 16) && decide (brick < 128)

/-- Grains are 0 to 511 (R28). -/
def Instr.grainOk (die brick grain : Nat) : Bool := Instr.brickOk die brick && decide (grain < 512)

/-- The command names units and fields that the device has. -/
def Instr.wf : Instr → Bool
  | .grainInstruction die brick grain _ ecc => Instr.grainOk die brick grain && decide (ecc < 3)
  | .ecall die brick grain => Instr.grainOk die brick grain
  | .ebreak die brick grain => Instr.grainOk die brick grain
  | .slRld die brick grain rd rs1 rs2 _ ecc =>
    Instr.grainOk die brick grain && decide (ecc < 3) && decide (rd < 32) && decide (rs1 < 32) && decide (rs2 < 32)
  | .slRst die brick grain rd rs1 rs2 _ ecc =>
    Instr.grainOk die brick grain && decide (ecc < 3) && decide (rd < 32) && decide (rs1 < 32) && decide (rs2 < 32)
  | .slRred die brick grain rd rs1 rs2 fn _ ecc =>
    Instr.grainOk die brick grain && decide (ecc < 3) && decide (rd < 32) && decide (rs1 < 32) && decide (rs2 < 32)
      && decide (fn < 128)
  | .slPush die brick grain rd rs1 rs2 _ ecc =>
    Instr.grainOk die brick grain && decide (ecc < 3) && decide (rd < 32) && decide (rs1 < 32) && decide (rs2 < 32)
  | .slPop die brick grain rd rs1 rs2 _ ecc =>
    Instr.grainOk die brick grain && decide (ecc < 3) && decide (rd < 32) && decide (rs1 < 32) && decide (rs2 < 32)
  | .slCred die brick grain rd rs1 rs2 _ ecc =>
    Instr.grainOk die brick grain && decide (ecc < 3) && decide (rd < 32) && decide (rs1 < 32) && decide (rs2 < 32)
  | .slDraw die brick grain rd rs1 rs2 _ ecc =>
    Instr.grainOk die brick grain && decide (ecc < 3) && decide (rd < 32) && decide (rs1 < 32) && decide (rs2 < 32)
  | .slDrawf die brick grain rd rs1 rs2 _ ecc =>
    Instr.grainOk die brick grain && decide (ecc < 3) && decide (rd < 32) && decide (rs1 < 32) && decide (rs2 < 32)
  | .slWaitb die brick grain rd rs1 rs2 _ ecc =>
    Instr.grainOk die brick grain && decide (ecc < 3) && decide (rd < 32) && decide (rs1 < 32) && decide (rs2 < 32)
  | .slFma2 die brick grain rd rs1 rs2 rs3 rm _ ecc =>
    Instr.grainOk die brick grain && decide (ecc < 3) && decide (rd < 32) && decide (rs1 < 32) && decide (rs2 < 32)
      && decide (rs3 < 32) && decide (rm < 8)
  | .slBfma4 die brick grain rd rs1 rs2 rs3 rm _ ecc =>
    Instr.grainOk die brick grain && decide (ecc < 3) && decide (rd < 32) && decide (rs1 < 32) && decide (rs2 < 32)
      && decide (rs3 < 32) && decide (rm < 8)
  | .sentinelReturn die brick grain => Instr.grainOk die brick grain
  | .watchdog die brick grain => Instr.grainOk die brick grain
  | .brkDbgResume origin die brick _ => origin.wf && Instr.brickOk die brick
  | .brkFaultClear origin die brick _ => origin.wf && Instr.brickOk die brick
  | .mxaCommand die brick _ _ _ _ => Instr.brickOk die brick
  | .swap die brick _ => Instr.brickOk die brick
  | .backgroundLoadDone die brick _ => Instr.brickOk die brick
  | .rowAccept die brick accError _ segs groups =>
    Instr.brickOk die brick && decide (accError < 3) && decide (segs < 256) && decide (groups < 256)
  | .mxaModeWrite origin die brick _ => origin.wf && Instr.brickOk die brick
  | .mxaFlagsClear origin die brick reg _ _ => origin.wf && Instr.brickOk die brick && decide (reg < 2)
  | .mxaErrClear origin die brick _ => origin.wf && Instr.brickOk die brick
  | .tileOpIssue die pan station mb _ _ _ =>
    decide (die < 16) && decide (pan < 256) && decide (station < 65536) && decide (mb < 65536)
  | .tileOpRetire optag _ => decide (optag < 2 ^ 32)
  | .localBoundary die pan => decide (die < 16) && decide (pan < 256)
  | .done pan die _ _ => decide (pan < 256) && decide (die < 16)
  | .stepRelease die pan _ => decide (die < 16) && decide (pan < 256)
  | .boundaryLate pan => decide (pan < 256)
  | .schSplitWrite origin die pan _ => origin.wf && decide (die < 16) && decide (pan < 256)
  | .d2dRetrain die port inFlight _ _ =>
    decide (die < 16) && decide (port < 4) && inFlight.all (fun x => decide (x.1 < 256))
  | .d2dRetrainDone die port _ => decide (die < 16) && decide (port < 4)
  | .d2dRetrainTimeout die port _ => decide (die < 16) && decide (port < 4)
  | .seqOpen pan world _ _ _ _ _ _ _ => decide (pan < 256) && world.all (fun w => decide (w < 16384))
  | .seqQuarantineExpiry seq => decide (seq < 65536)
  | .walk die walker seq _ _ _ => decide (die < 16) && decide (walker < 8) && decide (seq < 65536)
  | .spill pan tier => decide (pan < 256) && (tier == 1 || tier == 2)
  | .attPmodeWrite origin die pan _ => origin.wf && decide (die < 16) && decide (pan < 256)
  | .discreteDraw pan station => decide (pan < 256) && decide (station < 65536)
  | .continuousDraw pan station => decide (pan < 256) && decide (station < 65536)
  | .adoptionPoint pan => decide (pan < 256)
  | .publishBegin pan station _ => decide (pan < 256) && decide (station < 65536)
  | .publishChunkAck ws _ _ _ => decide (ws < 256)
  | .publishChecks ws _ => decide (ws < 256)
  | .epochChangeMessage ws _ _ _ _ => decide (ws < 256)
  | .imageChunk ws _ _ => decide (ws < 256)
  | .recordWrite pan station => decide (pan < 256) && decide (station < 65536)
  | .stagingEviction ring _ => decide (ring < 64)
  | .drawIssue pan station _ => decide (pan < 256) && decide (station < 65536)
  | .priorityUpdate ring _ _ => decide (ring < 64)
  | .moveStart die engine _ dstTier =>
    decide (die < 16) && decide (engine < 2) && (dstTier == 1 || dstTier == 2 || dstTier == 3)
  | .moveCopyDone _ _ => true
  | .moveDrained _ => true
  | .stubAccess _ _ => true
  | .tierResponse _ _ => true
  | .tierTimeout _ => true
  | .memorySideOp space _ _ _ _ _ => decide (space < 16)
  | .patrolScrub die _ => decide (die < 16)
  | .ladlePrefetch pan => decide (pan < 256)
  | .bufferAllocate pan tier _ _ => decide (pan < 256) && (tier == 1 || tier == 2 || tier == 3)
  | .bufferFree pan _ station => decide (pan < 256) && station.all (fun x => decide (x < 65536))
  | .bufferQuarantineExpiry _ => true
  | .flashRelocate fd _ => (fd == 18 || fd == 19)
  | .flashProgramFail fd _ => (fd == 18 || fd == 19)
  | .fabPctlEnable origin fd port _ => origin.wf && (fd == 18 || fd == 19) && decide (port < 16)
  | .portTrained port _ => decide (port < 32)
  | .portRetrain port => decide (port < 32)
  | .retrainTimeout port => decide (port < 32)
  | .frameReceive port _ _ => decide (port < 32)
  | .replayTimeout port => decide (port < 32)
  | .ack port seq _ => decide (port < 32) && decide (seq < 2 ^ 24)
  | .nak port seq _ tagIdx _ => decide (port < 32) && decide (seq < 2 ^ 24) && decide (tagIdx < 16384)
  | .read p => p.wf
  | .write p => p.wf
  | .msop p => p.wf
  | .atomic p => p.wf
  | .fence p => p.wf
  | .epoch p => p.wf
  | .telem p => p.wf
  | .mgmt p => p.wf
  | .readRsp p => p.wf
  | .writeAck p => p.wf
  | .atomicRsp p => p.wf
  | .fenceAck p => p.wf
  | .requestResend tagIdx => decide (tagIdx < 16384)
  | .routeSdataWrite origin fd _ => origin.wf && (fd == 18 || fd == 19)
  | .routeSdone origin fd _ => origin.wf && (fd == 18 || fd == 19)
  | .routeFlip origin fd _ => origin.wf && (fd == 18 || fd == 19)
  | .allToAll pan station => decide (pan < 256) && decide (station < 65536)
  | .allToAllV pan station _ => decide (pan < 256) && decide (station < 65536)
  | .allReduce pan station => decide (pan < 256) && decide (station < 65536)
  | .reduceScatter pan station => decide (pan < 256) && decide (station < 65536)
  | .allGather pan station => decide (pan < 256) && decide (station < 65536)
  | .broadcast pan station => decide (pan < 256) && decide (station < 65536)
  | .barrier pan station _ => decide (pan < 256) && decide (station < 65536)
  | .collDone p => p.wf
  | .frameStart level => decide (level < 3)
  | .cellReceive level _ bytes _ => decide (level < 3) && decide (bytes.length = 44)
  | .whistleDeadTimeout level pos => decide (level < 3) && decide (pos < 64)
  | .masterElection level => decide (level < 3)
  | .ringTrainingTimeout level => decide (level < 3)
  | .ringFallback level => decide (level < 3)
  | .ringRetrainTimer level _ => decide (level < 3)
  | .whistleFb level p => decide (level < 3) && p.wf
  | .llpRejoin origin level _ => origin.wf && decide (level < 3)
  | .llpRetrain origin level _ => origin.wf && decide (level < 3)
  | .obs port _ frame => decide (port < 8) && frame.wf
  | .obsWindowClose world _ => decide (world < 16384)
  | .hello port _ frame => decide (port < 8) && frame.wf
  | .helloTimer world => decide (world < 16384)
  | .attachTimeout world => decide (world < 16384)
  | .partnerStop port _ frame => decide (port < 8) && frame.wf
  | .partnerSync port _ frame => decide (port < 8) && frame.wf
  | .actionVerdict pan world _ => decide (pan < 256) && decide (world < 16384)
  | .frameLatch world _ => decide (world < 16384)
  | .sendTime port _ => decide (port < 8)
  | .missLimit world => decide (world < 16384)
  | .holdLimit world => decide (world < 16384)
  | .silenceLimit world => decide (world < 16384)
  | .rampEnd world => decide (world < 16384)
  | .worldQuarantineExpiry world => decide (world < 16384)
  | .gptpSync hd _ => decide (hd < 2)
  | .timeHoldover hd => decide (hd < 2)
  | .worldPortLink port _ _ => decide (port < 8)
  | .submissionDoorbell pair _ => decide (pair < 64)
  | .completionDoorbell pair _ => decide (pair < 64)
  | .commandTake pair entry _ => decide (pair < 64) && decide (entry.length = 64)
  | .commandTimeout cmd => cmd.wf
  | .wholeLoad cmd _ => cmd.wf
  | .perPanLoad cmd _ => cmd.wf
  | .resize cmd _ => cmd.wf
  | .imageLoad cmd header => cmd.wf && decide (header.length = 512)
  | .keyLoad cmd _ => cmd.wf
  | .jobCreate cmd => cmd.wf
  | .jobStart cmd => cmd.wf
  | .jobStop cmd => cmd.wf
  | .jobDestroy cmd => cmd.wf
  | .indexQuarantineExpiry _ idx => decide (idx < 256)
  | .worldAttach cmd => cmd.wf
  | .worldStop cmd => cmd.wf
  | .worldDetach cmd => cmd.wf
  | .publish cmd => cmd.wf
  | .retract cmd => cmd.wf
  | .snapshot cmd => cmd.wf
  | .checkpointDurable cmd => cmd.wf
  | .checkpointEnable cmd => cmd.wf
  | .checkpointDisable cmd => cmd.wf
  | .restore cmd _ _ => cmd.wf
  | .spareAdopt cmd _ => cmd.wf
  | .seqCancel cmd => cmd.wf
  | .summary cmd => cmd.wf
  | .logRead cmd => cmd.wf
  | .bistRun cmd => cmd.wf
  | .bistComplete die _ => decide (die < 20)
  | .fencedRequest die _ cmd => decide (die < 20) && cmd.all CmdRef.wf
  | .lock cmd => cmd.wf
  | .protectedWrite job _ _ => decide (job < 256)
  | .shardAck job _ _ => decide (job < 256)
  | .durableWrite job => decide (job < 256)
  | .find _ _ job _ => decide (job < 256)
  | .adopt _ job _ _ _ _ => decide (job < 256)
  | .straggler job _ => decide (job < 256)
  | .renew hd => decide (hd < 2)
  | .renewReceive hd _ => decide (hd < 2)
  | .leaseTimeout hd _ => decide (hd < 2)
  | .witnessCas claims => claims.all (fun h => decide (h < 2))
  | .aonYield origin hd _ => origin.wf && decide (hd < 2)
  | .stewardWatchdog hd => decide (hd < 2)
  | .coldReset _ => true
  | .warmReset _ _ => true
  | .bootStepTimeout => true
  | .vin48Arrival _ => true
  | .aonDevnumWrite origin _ _ => origin.wf
  | .perstRelease hd => decide (hd < 2)
  | .vin48Fault _ _ => true
  | .vsb33Fault _ => true
  | .hostDieLost => true
  | .powerCompare _ => true
  | .thermalSample die _ _ => decide (die < 20)
  | .dieOpWrite origin die _ => origin.wf && decide (die < 20)
  | .fabricTime _ _ _ => true
  | .auditStagingAccept die _ => decide (die < 20)
  | .auditAckWrite origin _ => origin.wf
  | .perfSelectWrite origin csr _ => origin.wf && decide (csr / 2 ^ 24 < 20)
  | .traceSample die => decide (die < 20)
  | .alarmRelease origin _ => origin.wf
  | .scanEnable die => decide (die < 20)
  | .readClear origin csr => origin.wf && decide (csr / 2 ^ 24 < 20)
  | .registerWrite origin csr _ => origin.wf && decide (csr / 2 ^ 24 < 20)
  | .findTimeout => true
  | .adoptionVoteTimeout job _ => decide (job < 256)
  | .busyTestReissue die _ => decide (die < 20)
  | .ackDelayExpiry port => decide (port < 32)
  | .ppsPulse => true
  | .pcieLinkTraining hd _ _ _ _ _ _ _ => decide (hd < 2)
  | .worldPortForeignFrame port _ => decide (port < 8)

/-- The dies that the command names (R1). -/
def Instr.dies : Instr → List Nat
  | .grainInstruction die _ _ _ _ => [die]
  | .ecall die _ _ => [die]
  | .ebreak die _ _ => [die]
  | .slRld die _ _ _ _ _ _ _ => [die]
  | .slRst die _ _ _ _ _ _ _ => [die]
  | .slRred die _ _ _ _ _ _ _ _ => [die]
  | .slPush die _ _ _ _ _ _ _ => [die]
  | .slPop die _ _ _ _ _ _ _ => [die]
  | .slCred die _ _ _ _ _ _ _ => [die]
  | .slDraw die _ _ _ _ _ _ _ => [die]
  | .slDrawf die _ _ _ _ _ _ _ => [die]
  | .slWaitb die _ _ _ _ _ _ _ => [die]
  | .slFma2 die _ _ _ _ _ _ _ _ _ => [die]
  | .slBfma4 die _ _ _ _ _ _ _ _ _ => [die]
  | .sentinelReturn die _ _ => [die]
  | .watchdog die _ _ => [die]
  | .brkDbgResume _ die _ _ => [die]
  | .brkFaultClear _ die _ _ => [die]
  | .mxaCommand die _ _ _ _ _ => [die]
  | .swap die _ _ => [die]
  | .backgroundLoadDone die _ _ => [die]
  | .rowAccept die _ _ _ _ _ => [die]
  | .mxaModeWrite _ die _ _ => [die]
  | .mxaFlagsClear _ die _ _ _ _ => [die]
  | .mxaErrClear _ die _ _ => [die]
  | .tileOpIssue die _ _ _ _ _ _ => [die]
  | .tileOpRetire _ _ => []
  | .localBoundary die _ => [die]
  | .done _ die _ _ => [die]
  | .stepRelease die _ _ => [die]
  | .boundaryLate _ => []
  | .schSplitWrite _ die _ _ => [die]
  | .d2dRetrain die _ _ _ _ => [die]
  | .d2dRetrainDone die _ _ => [die]
  | .d2dRetrainTimeout die _ _ => [die]
  | .seqOpen _ _ _ _ _ _ _ _ _ => []
  | .seqQuarantineExpiry _ => []
  | .walk die _ _ _ _ _ => [die]
  | .spill _ _ => []
  | .attPmodeWrite _ die _ _ => [die]
  | .discreteDraw _ _ => []
  | .continuousDraw _ _ => []
  | .adoptionPoint _ => []
  | .publishBegin _ _ _ => []
  | .publishChunkAck _ _ _ _ => []
  | .publishChecks _ _ => []
  | .epochChangeMessage _ _ _ _ _ => []
  | .imageChunk _ _ _ => []
  | .recordWrite _ _ => []
  | .stagingEviction _ _ => []
  | .drawIssue _ _ _ => []
  | .priorityUpdate _ _ _ => []
  | .moveStart die _ _ _ => [die]
  | .moveCopyDone _ _ => []
  | .moveDrained _ => []
  | .stubAccess _ _ => []
  | .tierResponse _ _ => []
  | .tierTimeout _ => []
  | .memorySideOp _ _ _ _ _ _ => []
  | .patrolScrub die _ => [die]
  | .ladlePrefetch _ => []
  | .bufferAllocate _ _ _ _ => []
  | .bufferFree _ _ _ => []
  | .bufferQuarantineExpiry _ => []
  | .flashRelocate fd _ => [fd]
  | .flashProgramFail fd _ => [fd]
  | .fabPctlEnable _ fd _ _ => [fd]
  | .portTrained _ _ => []
  | .portRetrain _ => []
  | .retrainTimeout _ => []
  | .frameReceive _ _ _ => []
  | .replayTimeout _ => []
  | .ack _ _ _ => []
  | .nak _ _ _ _ _ => []
  | .read _ => []
  | .write _ => []
  | .msop _ => []
  | .atomic _ => []
  | .fence _ => []
  | .epoch _ => []
  | .telem _ => []
  | .mgmt _ => []
  | .readRsp _ => []
  | .writeAck _ => []
  | .atomicRsp _ => []
  | .fenceAck _ => []
  | .requestResend _ => []
  | .routeSdataWrite _ fd _ => [fd]
  | .routeSdone _ fd _ => [fd]
  | .routeFlip _ fd _ => [fd]
  | .allToAll _ _ => []
  | .allToAllV _ _ _ => []
  | .allReduce _ _ => []
  | .reduceScatter _ _ => []
  | .allGather _ _ => []
  | .broadcast _ _ => []
  | .barrier _ _ _ => []
  | .collDone _ => []
  | .frameStart _ => []
  | .cellReceive _ _ _ _ => []
  | .whistleDeadTimeout _ _ => []
  | .masterElection _ => []
  | .ringTrainingTimeout _ => []
  | .ringFallback _ => []
  | .ringRetrainTimer _ _ => []
  | .whistleFb _ _ => []
  | .llpRejoin _ _ _ => []
  | .llpRetrain _ _ _ => []
  | .obs _ _ _ => []
  | .obsWindowClose _ _ => []
  | .hello _ _ _ => []
  | .helloTimer _ => []
  | .attachTimeout _ => []
  | .partnerStop _ _ _ => []
  | .partnerSync _ _ _ => []
  | .actionVerdict _ _ _ => []
  | .frameLatch _ _ => []
  | .sendTime _ _ => []
  | .missLimit _ => []
  | .holdLimit _ => []
  | .silenceLimit _ => []
  | .rampEnd _ => []
  | .worldQuarantineExpiry _ => []
  | .gptpSync hd _ => [16 + hd]
  | .timeHoldover hd => [16 + hd]
  | .worldPortLink _ _ _ => []
  | .submissionDoorbell _ _ => []
  | .completionDoorbell _ _ => []
  | .commandTake _ _ _ => []
  | .commandTimeout _ => []
  | .wholeLoad _ _ => []
  | .perPanLoad _ _ => []
  | .resize _ _ => []
  | .imageLoad _ _ => []
  | .keyLoad _ _ => []
  | .jobCreate _ => []
  | .jobStart _ => []
  | .jobStop _ => []
  | .jobDestroy _ => []
  | .indexQuarantineExpiry _ _ => []
  | .worldAttach _ => []
  | .worldStop _ => []
  | .worldDetach _ => []
  | .publish _ => []
  | .retract _ => []
  | .snapshot _ => []
  | .checkpointDurable _ => []
  | .checkpointEnable _ => []
  | .checkpointDisable _ => []
  | .restore _ _ _ => []
  | .spareAdopt _ _ => []
  | .seqCancel _ => []
  | .summary _ => []
  | .logRead _ => []
  | .bistRun _ => []
  | .bistComplete die _ => [die]
  | .fencedRequest die _ _ => [die]
  | .lock _ => []
  | .protectedWrite _ _ _ => []
  | .shardAck _ _ _ => []
  | .durableWrite _ => []
  | .find _ _ _ _ => []
  | .adopt _ _ _ _ _ _ => []
  | .straggler _ _ => []
  | .renew hd => [16 + hd]
  | .renewReceive hd _ => [16 + hd]
  | .leaseTimeout hd _ => [16 + hd]
  | .witnessCas _ => []
  | .aonYield _ hd _ => [16 + hd]
  | .stewardWatchdog hd => [16 + hd]
  | .coldReset _ => []
  | .warmReset _ _ => []
  | .bootStepTimeout => []
  | .vin48Arrival _ => []
  | .aonDevnumWrite _ _ _ => []
  | .perstRelease hd => [16 + hd]
  | .vin48Fault _ _ => []
  | .vsb33Fault _ => []
  | .hostDieLost => []
  | .powerCompare _ => []
  | .thermalSample die _ _ => [die]
  | .dieOpWrite _ die _ => [die]
  | .fabricTime _ _ _ => []
  | .auditStagingAccept die _ => [die]
  | .auditAckWrite _ _ => []
  | .perfSelectWrite _ _ _ => []
  | .traceSample die => [die]
  | .alarmRelease _ _ => []
  | .scanEnable die => [die]
  | .readClear _ _ => []
  | .registerWrite _ _ _ => []
  | .findTimeout => []
  | .adoptionVoteTimeout _ _ => []
  | .busyTestReissue die _ => [die]
  | .ackDelayExpiry _ => []
  | .ppsPulse => []
  | .pcieLinkTraining hd _ _ _ _ _ _ _ => [16 + hd]
  | .worldPortForeignFrame _ _ => []

end Sys2Proof
end

