-- ==== Sys2Proof/Certificates/Slice0/Obligations.lean ====
section
/-!
DEFINITION. The statements for the provers.
-/

open Sys2Proof Sys2Proof.Machine

/-- On a grain that runs, SL.FMA2 and SL.BFMA4 with even registers and a legal rounding mode write the two registers
rd and rd + 1 lane by lane, each lane marked as descending from a poisoned row where an operand of it does, or their
flags into fflags, and retire; SL.RRED writes the fold of the SLFMT count of local words. A corrected memory error is
counted; nothing else of the state changes. -/
def Obligations.SliverArithmetic : Prop :=
  (∀ (s : State) (die brick grain rd rs1 rs2 rs3 rm cyc ecc : Nat) (m : RMode),
    isGrain die brick grain = true → (s.grain die brick grain).active = true → ecc < 2 →
    rd % 2 = 0 → rs1 % 2 = 0 → rs2 % 2 = 0 → rs3 % 2 = 0 →
    Rv.rmode rm (s.grain die brick grain).frm.toNat = some m →
    let x := s.grain die brick grain
    let a := fp32.fmaLane m (x.rf rs1).toNat (x.rf rs2).toNat (x.rf rs3).toNat
    let b := fp32.fmaLane m (x.rf (rs1 + 1)).toNat (x.rf (rs2 + 1)).toNat (x.rf (rs3 + 1)).toNat
    exec (.slFma2 die brick grain rd rs1 rs2 rs3 rm cyc ecc) s = .next ((s.eccFix die brick ecc).setGrain die brick
      grain ((((x.wf rd (BitVec.ofNat 32 a.1) (x.df [rs1, rs2, rs3])).wf (rd + 1) (BitVec.ofNat 32 b.1)
        (x.df [rs1 + 1, rs2 + 1, rs3 + 1])).flag (a.2 ||| b.2)).retired 4 cyc))) ∧
  (∀ (s : State) (die brick grain rd rs1 rs2 rs3 rm cyc ecc : Nat),
    isGrain die brick grain = true → (s.grain die brick grain).active = true → ecc < 2 →
    rd % 2 = 0 → rs1 % 2 = 0 → rs2 % 2 = 0 → rs3 % 2 = 0 → (rm = 0 ∨ rm = 7) →
    let x := s.grain die brick grain
    let a := bfmaWord (x.rf rs1).toNat (x.rf rs2).toNat (x.rf rs3).toNat
    let b := bfmaWord (x.rf (rs1 + 1)).toNat (x.rf (rs2 + 1)).toNat (x.rf (rs3 + 1)).toNat
    exec (.slBfma4 die brick grain rd rs1 rs2 rs3 rm cyc ecc) s = .next ((s.eccFix die brick ecc).setGrain die brick
      grain ((((x.wf rd (BitVec.ofNat 32 a.1) (x.df [rs1, rs2, rs3])).wf (rd + 1) (BitVec.ofNat 32 b.1)
        (x.df [rs1 + 1, rs2 + 1, rs3 + 1])).flag (a.2 ||| b.2)).retired 4 cyc))) ∧
  (∀ (s : State) (die brick grain rd rs1 fn cyc ecc : Nat),
    isGrain die brick grain = true → (s.grain die brick grain).active = true → ecc < 2 → fn ≤ 3 →
    ((s.grain die brick grain).rx rs1).toNat + (s.grain die brick grain).slCount * 4 ≤ 0x2000 →
    let x := s.grain die brick grain
    let s0 := s.eccFix die brick ecc
    let o := localBase grain + (x.rx rs1).toNat
    let b := s0.rdBrick die brick o (x.slCount * 4)
    exec (.slRred die brick grain rd rs1 0 fn cyc ecc) s = .next (s0.setGrain die brick grain
      ((x.wf rd (BitVec.ofNat 32 (rred fn ((List.range x.slCount).map (fun i => fieldAt b (i * 4) 4))))
        (s0.descends die brick o (x.slCount * 4))).retired 4 cyc)))

/-- On a grain that runs, with the tile-store address inside a window that permits the access and the local bytes
inside local memory, SL.RLD writes the decoded FP32 words at the local address and SL.RST the encoded elements at the
tile-store address; rd takes the bytes written, fflags the flags of the conversions, and the grain retires. No byte
outside those written changes; the marks of descent follow the elements. -/
def Obligations.SliverMoves : Prop :=
  (∀ (s : State) (die brick grain rd rs1 rs2 cyc ecc o : Nat),
    isGrain die brick grain = true → (s.grain die brick grain).active = true → ecc < 2 →
    let x := s.grain die brick grain
    let s0 := s.eccFix die brick ecc
    let a : GAt := { die := die, brick := brick, g := grain }
    let n := x.slCount
    let w := slBytes x.slCode
    s0.grainTile a x false (x.rx rs1).toNat (n * w) = some o →
    (x.rx rs2).toNat + n * 4 ≤ 0x2000 →
    let d := localBase grain + (x.rx rs2).toNat
    let b := s0.rdBrick die brick o (n * w)
    let es := (List.range n).map (fun i => slDecode x.slCode (fieldAt b (i * w) w))
    exec (.slRld die brick grain rd rs1 rs2 cyc ecc) s = .next
      (((s0.wrBrick die brick d (es.flatMap (fun e => toLe 4 e.1.toNat))).spread s0 a o w d 4 n).setGrain
        die brick grain
        (((x.wx rd (BitVec.ofNat 32 (n * 4))).flag (es.foldl (fun f e => f ||| e.2) 0)).retired 4 cyc))) ∧
  (∀ (s : State) (die brick grain rd rs1 rs2 cyc ecc o : Nat),
    isGrain die brick grain = true → (s.grain die brick grain).active = true → ecc < 2 →
    let x := s.grain die brick grain
    let s0 := s.eccFix die brick ecc
    let a : GAt := { die := die, brick := brick, g := grain }
    let n := x.slCount
    let w := slBytes x.slCode
    (x.rx rs2).toNat + n * 4 ≤ 0x2000 →
    s0.grainTile a x true (x.rx rs1).toNat (n * w) = some o →
    let i := localBase grain + (x.rx rs2).toNat
    let b := s0.rdBrick die brick i (n * 4)
    let es := (List.range n).map (fun i =>
      slEncode x.slCode (bit x.slfmt.toNat 24) (BitVec.ofNat 32 (fieldAt b (i * 4) 4)))
    exec (.slRst die brick grain rd rs1 rs2 cyc ecc) s = .next
      (((s0.wrBrick die brick o (es.flatMap (fun e => toLe w e.1))).spread s0 a i 4 o w n).setGrain die brick grain
        (((x.wx rd (BitVec.ofNat 32 (n * w))).flag (es.foldl (fun f e => f ||| e.2) 0)).retired 4 cyc)))

/-- On a grain that runs, SL.DRAW writes the next word of the grain's lane into rd and SL.DRAWF the top 24 bits of it
times 2^-24 into f rd; the lane stands one word further. SL.WAITB makes the grain wait for the boundary, with rd kept
for the release. -/
def Obligations.SliverDraws : Prop :=
  (∀ (s : State) (die brick grain rd cyc ecc : Nat),
    isGrain die brick grain = true → (s.grain die brick grain).active = true → ecc < 2 →
    let x := s.grain die brick grain
    let r := (s.eccFix die brick ecc).takeWords (grainLane die brick grain) 1
    exec (.slDraw die brick grain rd 0 0 cyc ecc) s = .next (r.2.setGrain die brick grain
      ((x.wx rd (BitVec.ofNat 32 (nth r.1 0 0))).retired 4 cyc))) ∧
  (∀ (s : State) (die brick grain rd cyc ecc : Nat),
    isGrain die brick grain = true → (s.grain die brick grain).active = true → ecc < 2 →
    let x := s.grain die brick grain
    let r := (s.eccFix die brick ecc).takeWords (grainLane die brick grain) 1
    exec (.slDrawf die brick grain rd 0 0 cyc ecc) s = .next (r.2.setGrain die brick grain
      ((x.wf rd (packF32 .rne (.fin false (nth r.1 0 0 / 256) (-24))).1).retired 4 cyc))) ∧
  (∀ (s : State) (die brick grain rd cyc ecc : Nat),
    isGrain die brick grain = true → (s.grain die brick grain).active = true → ecc < 2 →
    ∃ t, exec (.slWaitb die brick grain rd 0 0 cyc ecc) s = .next t ∧
      (t.grain die brick grain).run = .waitBoundary ∧ (t.grain die brick grain).waitRd = rd ∧
      (t.grain die brick grain).pc = (s.grain die brick grain).pc + 4 ∧
      (t.grain die brick grain).x = (s.grain die brick grain).x ∧ t.mem = s.mem ∧
      t.csr = (s.eccFix die brick ecc).csr)

/-- On a grain that runs, with the port bound in the direction the instruction needs: SL.PUSH with room in the stream
emits a row of the local bytes, poisoned with cause 4h under an uncorrectable memory error and with cause 5h where a
byte descends from a poisoned row, and rd takes the credits left; SL.POP of a waiting row writes its data at the local
address, marks it where the row is poisoned, and rd takes its status; SL.CRED writes the credits of an outbound port,
or the waiting rows of an inbound one, and changes the grain alone. -/
def Obligations.SliverStreams : Prop :=
  (∀ (s : State) (die brick grain rd rs1 rs2 cyc ecc p : Nat) (d : PortDecl) (d2 : StreamDecl),
    isGrain die brick grain = true → (s.grain die brick grain).active = true → ecc ≤ 2 →
    rd < 32 → rs1 < 32 → rs2 < 32 →
    let x := s.grain die brick grain
    let a : GAt := { die := die, brick := brick, g := grain }
    let s0 := s.eccFix die brick ecc
    let o := localBase grain + (x.rx rs1).toNat
    let n := rowBytes d2.fmt d2.width
    s0.grainPort a x ((x.rx rs2).toNat % 8) = some (p, d, d2) → d.outbound = true →
    (x.rx rs1).toNat + n ≤ 0x2000 → canEmit d2 (s0.rows p d2.idx) = true →
    let cause := if ecc = 2 then 4 else if s0.descends die brick o n = true then 5 else 0
    ∃ r : Row, r.data = s0.rdBrick die brick o n ∧ r.valid = d2.width ∧ r.cause = cause ∧ r.hdr.epoch = x.epoch ∧
      (let t := if cause = 0 then s0.emit p d2.idx r else (s0.emit p d2.idx r).poisonOut p die cause
       exec (.slPush die brick grain rd rs1 rs2 cyc ecc) s = .next (t.setGrain die brick grain
        ((x.wx rd (BitVec.ofNat 32 (streamCredits d2 (t.rows p d2.idx)))).retired 4 cyc)))) ∧
  (∀ (s : State) (die brick grain rd rs1 rs2 cyc ecc p : Nat) (d : PortDecl) (d2 : StreamDecl) (r : Row),
    isGrain die brick grain = true → (s.grain die brick grain).active = true → ecc < 2 →
    let x := s.grain die brick grain
    let a : GAt := { die := die, brick := brick, g := grain }
    let s0 := s.eccFix die brick ecc
    let o := localBase grain + (x.rx rs1).toNat
    let b := r.data.take (rowBytes d2.fmt d2.width)
    s0.grainPort a x ((x.rx rs2).toNat % 8) = some (p, d, d2) → d.outbound = false →
    (x.rx rs1).toNat + rowBytes d2.fmt d2.width ≤ 0x2000 → nextRow (s0.rows p d2.idx) d.station = some r →
    exec (.slPop die brick grain rd rs1 rs2 cyc ecc) s = .next
      ((((s0.takeRow p d2.idx d.station d2).wrBrick die brick o b).taint die brick o b.length (r.cause != 0)).setGrain
        die brick grain
        ({ x.wx rd (BitVec.ofNat 32 (r.valid % 2 ^ 16 + b2n r.last * 2 ^ 16 + b2n (r.cause != 0) * 2 ^ 17)) with
          epoch := r.hdr.epoch }.retired 4 cyc))) ∧
  (∀ (s : State) (die brick grain rd rs2 cyc ecc p : Nat) (d : PortDecl) (d2 : StreamDecl),
    isGrain die brick grain = true → (s.grain die brick grain).active = true → ecc < 2 →
    let x := s.grain die brick grain
    let a : GAt := { die := die, brick := brick, g := grain }
    let s0 := s.eccFix die brick ecc
    s0.grainPort a x ((x.rx rs2).toNat % 8) = some (p, d, d2) →
    exec (.slCred die brick grain rd 0 rs2 cyc ecc) s = .next (s0.setGrain die brick grain
      ((x.wx rd (BitVec.ofNat 32 (if d.outbound then streamCredits d2 (s0.rows p d2.idx)
        else waitingRows (s0.rows p d2.idx) d.station))).retired 4 cyc)))

/-- On every grain that runs, on a brick of a pan or not: ECALL raises the fault ECALL; EBREAK raises EBREAK while
BRK_DBG.EN is 0, and halts the grain past the instruction while it is 1; WATCHDOG raises WATCHDOG when the limit is
set and reached; an instruction that meets an uncorrectable memory error raises MEM_ECC. A fault on a brick whose
BRK_FAULT.VALID is 0 captures the kind, the grain, the pc and the instruction; the grain of a brick that no pan owns
is FAULTED and no job is involved; the job that owns the brick is FAULTED. -/
def Obligations.GrainTraps : Prop :=
  (∀ (s : State) (die brick grain : Nat),
    isGrain die brick grain = true → (s.grain die brick grain).active = true →
    let pc := (s.grain die brick grain).pc.toNat
    exec (.ecall die brick grain) s = .next (s.grainFault die brick grain 5 0 pc 0x73) ∧
    (s.getB R.BRK_DBG_EN (lBrick die brick) = false → ∃ insn, (insn = 0x00100073 ∨ insn = 0x9002) ∧
      exec (.ebreak die brick grain) s = .next (s.grainFault die brick grain 6 0 pc insn)) ∧
    (s.getF R.BRK_WDOG_CYCLES (lBrick die brick) ≠ 0 →
      s.getF R.BRK_WDOG_CYCLES (lBrick die brick) ≤ (s.grain die brick grain).wdog → ∃ insn,
      exec (.watchdog die brick grain) s = .next (s.grainFault die brick grain 7 0 pc insn)) ∧
    (∀ w cyc, (s.grain die brick grain).pc ≠ sentinel →
      s.fetchInsn { die := die, brick := brick, g := grain } pc = some (w, 4) →
      Rv.opcode w ≠ 0x0B →
      exec (.grainInstruction die brick grain cyc 2) s = .next (s.grainFault die brick grain 8 0 pc w))) ∧
  (∀ (s : State) (die brick grain : Nat),
    isGrain die brick grain = true → (s.grain die brick grain).active = true →
    (∀ p, s.owner die brick = some p → (s.job (s.pan p).job).destroyCmd = none) →
    s.getB R.BRK_DBG_EN (lBrick die brick) = true →
    ∃ t, exec (.ebreak die brick grain) s = .next t ∧ (t.grain die brick grain).run = .halted ∧
      ((t.grain die brick grain).pc = (s.grain die brick grain).pc + 4 ∨
        (t.grain die brick grain).pc = (s.grain die brick grain).pc + 2) ∧ t.csr = s.csr ∧ t.mem = s.mem ∧
      t.hcx = s.hcx ∧ t.sch = s.sch) ∧
  (∀ (s : State) (die brick grain kind addr pc insn : Nat),
    isGrain die brick grain = true → 1 ≤ kind → kind ≤ 8 → pc < 2 ^ 32 → insn < 2 ^ 32 → addr < 2 ^ 32 →
    let t := s.grainFault die brick grain kind addr pc insn
    (s.owner die brick = none → (t.grain die brick grain).run = .faulted ∧ t.mem = s.mem ∧ t.hcx.jobs = s.hcx.jobs ∧
      (s.getB R.BRK_FAULT_VALID (lBrick die brick) = false →
        t.getF R.BRK_FAULT_VALID (lBrick die brick) = 1 ∧ t.getF R.BRK_FAULT_KIND (lBrick die brick) = kind ∧
        t.getF R.BRK_FAULT_GRAIN (lBrick die brick) = grain ∧ t.getF R.BRK_FAULTPC_PC (lBrick die brick) = pc ∧
        t.getF R.BRK_FAULTPC_INSN (lBrick die brick) = insn ∧ t.getF R.BRK_FAULTADDR_ADDR (lBrick die brick) = addr)) ∧
    (∀ p, s.owner die brick = some p → (s.job (s.pan p).job).st = .running ∨ (s.job (s.pan p).job).st = .stepHold →
      (t.job (s.pan p).job).st = .faulted))

/-- A grain that runs, away from the sentinel, fetches the 32-bit word at its pc and executes it. ADD writes the sum
of its registers into rd, x0 excepted; LW of a readable word writes the word; SW of a writable word stores x rs2 there
and changes no other byte; BEQ goes to its target or the next instruction. Each retires, carries the mark of descent
from a poisoned row along, and changes nothing else. -/
def Obligations.GrainInstructions : Prop :=
  ∀ (s : State) (die brick grain cyc ecc w : Nat),
    isGrain die brick grain = true → (s.grain die brick grain).active = true → ecc < 2 →
    (s.grain die brick grain).pc ≠ sentinel →
    let x := s.grain die brick grain
    let a : GAt := { die := die, brick := brick, g := grain }
    let s0 := s.eccFix die brick ecc
    s.fetchInsn a x.pc.toNat = some (w, 4) →
    (∀ rd rs1 rs2 : Nat, rd < 32 → rs1 < 32 → rs2 < 32 → w = Rv.encR 0x33 0 0 rd rs1 rs2 →
      exec (.grainInstruction die brick grain cyc ecc) s = .next (s0.setGrain die brick grain
        ((x.wx rd (x.rx rs1 + x.rx rs2) (x.dx [rs1, rs2])).retired 4 cyc))) ∧
    (∀ rd rs1 o : Nat, rd < 32 → rs1 < 32 → w = Rv.encR 0x03 2 0 rd rs1 0 →
      s0.grainData a x false (x.rx rs1).toNat 4 = some o →
      exec (.grainInstruction die brick grain cyc ecc) s = .next (s0.setGrain die brick grain
        ((x.wx rd (BitVec.ofNat 32 (leNat (s0.rdBrick die brick o 4))) (s0.descends die brick o 4)).retired 4 cyc))) ∧
    (∀ rs1 rs2 o : Nat, rs1 < 32 → rs2 < 32 → w = Rv.encR 0x23 2 0 0 rs1 rs2 →
      s0.grainData a x true (x.rx rs1).toNat 4 = some o →
      exec (.grainInstruction die brick grain cyc ecc) s = .next
        (((s0.wrBrick die brick o (toLe 4 (x.rx rs2).toNat)).taint die brick o 4 (x.dx [rs2])).setGrain die brick
          grain (x.retired 4 cyc))) ∧
    (∀ rs1 rs2 : Nat, rs1 < 32 → rs2 < 32 → w = Rv.encR 0x63 0 0 8 rs1 rs2 →
      exec (.grainInstruction die brick grain cyc ecc) s = .next (s0.setGrain die brick grain
        (if x.rx rs1 = x.rx rs2 then { x.retired 4 cyc with pc := x.pc + 8 } else x.retired 4 cyc)))

/-- A WORLD grain that runs at the sentinel on an owned brick and is not grain 0 of its world ends its part: it waits
for the boundary, and where the world still has a grain that has not ended, nothing else changes. -/
def Obligations.SentinelReturn : Prop :=
  ∀ (s : State) (die brick grain p : Nat) (d : DevWorld),
    isGrain die brick grain = true → s.owner die brick = some p →
    let x := s.grain die brick grain
    x.role = 1 → x.run = .run → x.pc = sentinel → x.inWorld ≠ 0 →
    (s.pan p).worlds.find? (fun d => d.decl.world = x.world) = some d →
    let t := s.setGrain die brick grain { x with run := .waitBoundary, ended := true }
    (∃ g ∈ t.worldGrains d.decl, (t.grain d.decl.die d.decl.brick g).ended = false) →
    exec (.sentinelReturn die brick grain) s = .next t

/-- On a grain that runs on a brick no pan owns, an odd register among rd, rs1, rs2 and rs3 makes SL.FMA2 and SL.BFMA4
raise ILLEGAL_INSN, whatever the others are. With even ones SL.FMA2 rounds as rm says, with 0 to 4 nearest-even,
toward zero, down, up and nearest-magnitude and 7 the mode frm holds, and both set in fflags exactly the flags of
their operations beside those set before. -/
def Obligations.SliverPairs : Prop :=
  ∀ (s : State) (die brick grain rd rs1 rs2 rs3 rm cyc ecc : Nat), isGrain die brick grain = true →
    (s.grain die brick grain).active = true → ecc < 2 →
    let x := s.grain die brick grain
    (rd % 2 = 1 ∨ rs1 % 2 = 1 ∨ rs2 % 2 = 1 ∨ rs3 % 2 = 1 → s.owner die brick = none →
      s.getB R.BRK_FAULT_VALID (lBrick die brick) = false →
      ∃ t u, exec (.slFma2 die brick grain rd rs1 rs2 rs3 rm cyc ecc) s = .next t ∧
        exec (.slBfma4 die brick grain rd rs1 rs2 rs3 rm cyc ecc) s = .next u ∧
        (t.grain die brick grain).run = .faulted ∧ (u.grain die brick grain).run = .faulted ∧
        t.getF R.BRK_FAULT_KIND (lBrick die brick) = 1 ∧ u.getF R.BRK_FAULT_KIND (lBrick die brick) = 1 ∧
        (t.grain die brick grain).f = x.f ∧ (u.grain die brick grain).f = x.f) ∧
    (rd % 2 = 0 → rs1 % 2 = 0 → rs2 % 2 = 0 → rs3 % 2 = 0 → rd < 32 →
      (∀ m, [RMode.rne, .rtz, .rdn, .rup, .rmm][if rm = 7 then x.frm.toNat else rm]? = some m →
        ∃ t, exec (.slFma2 die brick grain rd rs1 rs2 rs3 rm cyc ecc) s = .next t ∧
          let a := fp32.fmaLane m (x.rf rs1).toNat (x.rf rs2).toNat (x.rf rs3).toNat
          let b := fp32.fmaLane m (x.rf (rs1 + 1)).toNat (x.rf (rs2 + 1)).toNat (x.rf (rs3 + 1)).toNat
          (t.grain die brick grain).rf rd = BitVec.ofNat 32 a.1 ∧
          (t.grain die brick grain).rf (rd + 1) = BitVec.ofNat 32 b.1 ∧
          (t.grain die brick grain).fflags = x.fflags ||| BitVec.ofNat _ (a.2 ||| b.2)) ∧
      (rm = 0 ∨ rm = 7 →
        ∃ t, exec (.slBfma4 die brick grain rd rs1 rs2 rs3 rm cyc ecc) s = .next t ∧
          let a := bfmaWord (x.rf rs1).toNat (x.rf rs2).toNat (x.rf rs3).toNat
          let b := bfmaWord (x.rf (rs1 + 1)).toNat (x.rf (rs2 + 1)).toNat (x.rf (rs3 + 1)).toNat
          (t.grain die brick grain).fflags = x.fflags ||| BitVec.ofNat _ (a.2 ||| b.2)))

/-- A write that its die's audit staging accepts. BRK_DBG.RESUME written 1 sets every HALTED grain of the brick
running and no other; BRK_FAULT.VALID and MXA_ERR.VALID written 1 read 0, written 0 keep their value; a requested MXA
mode is in force at once on a brick that is in no pan, and stands PENDING with the mode in force kept on a brick of a
pan that is not FENCED; a bit of MXA_FLAGS written 1 is cleared, and a flag set in the same cycle stays set. Memory
keeps every byte. In every state, room or not, each row is the write of its register. -/
def Obligations.BrickRegisterRows : Prop :=
  (∀ (s : State) (o : Origin) (die brick : Nat) (v : U64), isBrick die brick = true →
    exec (.brkDbgResume o die brick v) s = .next (s.csrWrite o (csrOf R.BRK_DBG_RESUME (lBrick die brick)) v) ∧
    exec (.brkFaultClear o die brick v) s = .next (s.csrWrite o (csrOf R.BRK_FAULT_VALID (lBrick die brick)) v) ∧
    exec (.mxaModeWrite o die brick v) s = .next (s.csrWrite o (csrOf R.MXA_MODE_ELASTIC (lBrick die brick)) v) ∧
    exec (.mxaErrClear o die brick v) s = .next (s.csrWrite o (csrOf R.MXA_ERR_VALID (lBrick die brick)) v)) ∧
  (∀ (s : State) (o : Origin) (die brick : Nat) (v : U64), isBrick die brick = true →
    s.writeOpen o (csrOf R.BRK_DBG_RESUME (lBrick die brick)) = true → bit v.toNat 1 = true →
    ∃ t, exec (.brkDbgResume o die brick v) s = .next t ∧ t.mem = s.mem ∧ t.arrays = s.arrays ∧
      ∀ g, g < 512 → (t.grain die brick g).run =
        if (s.grain die brick g).run = .halted then .run else (s.grain die brick g).run) ∧
  (∀ (s : State) (o : Origin) (die brick : Nat) (v : U64), isBrick die brick = true →
    s.writeOpen o (csrOf R.BRK_FAULT_VALID (lBrick die brick)) = true →
    ∃ t, exec (.brkFaultClear o die brick v) s = .next t ∧ t.mem = s.mem ∧ t.grains = s.grains ∧
      t.getB R.BRK_FAULT_VALID (lBrick die brick) =
        (bit (s.getF R.BRK_FAULT_VALID (lBrick die brick)) 0 && !bit v.toNat 0)) ∧
  (∀ (s : State) (o : Origin) (die brick : Nat) (v : U64), isBrick die brick = true →
    s.writeOpen o (csrOf R.MXA_MODE_ELASTIC (lBrick die brick)) = true → s.bistOn die brick = false →
    s.owner die brick = none →
    ∃ t, exec (.mxaModeWrite o die brick v) s = .next t ∧ t.mem = s.mem ∧ t.grains = s.grains ∧
      t.getF R.MXA_MODE_ELASTIC (lBrick die brick) = v.toNat % 2 ∧
      t.getF R.MXA_MODE_EFFECTIVE (lBrick die brick) = v.toNat % 2 ∧
      t.getF R.MXA_MODE_PENDING (lBrick die brick) = 0) ∧
  (∀ (s : State) (o : Origin) (die brick p : Nat) (v : U64), isBrick die brick = true →
    s.writeOpen o (csrOf R.MXA_MODE_ELASTIC (lBrick die brick)) = true → s.owner die brick = some p →
    (s.pan p).st ≠ .fenced →
    ∃ t, exec (.mxaModeWrite o die brick v) s = .next t ∧
      t.getF R.MXA_MODE_ELASTIC (lBrick die brick) = v.toNat % 2 ∧
      t.getF R.MXA_MODE_EFFECTIVE (lBrick die brick) = s.getF R.MXA_MODE_EFFECTIVE (lBrick die brick) ∧
      t.getF R.MXA_MODE_PENDING (lBrick die brick) = 1) ∧
  (∀ (s : State) (o : Origin) (die brick reg : Nat) (v c : U64), isBrick die brick = true → reg < 2 →
    let f := if reg = 0 then R.MXA_FLAGS0_BANKS else R.MXA_FLAGS1_BANKS
    s.writeOpen o (csrOf f (lBrick die brick)) = true →
    ∃ t, exec (.mxaFlagsClear o die brick reg v c) s = .next t ∧ t.mem = s.mem ∧ t.arrays = s.arrays ∧
      t.getF f (lBrick die brick) =
        (s.getF f (lBrick die brick) &&& (v.toNat ^^^ (2 ^ 64 - 1))) ||| c.toNat) ∧
  (∀ (s : State) (o : Origin) (die brick : Nat) (v : U64), isBrick die brick = true →
    s.writeOpen o (csrOf R.MXA_ERR_VALID (lBrick die brick)) = true →
    ∃ t, exec (.mxaErrClear o die brick v) s = .next t ∧ t.mem = s.mem ∧ t.arrays = s.arrays ∧
      t.getB R.MXA_ERR_VALID (lBrick die brick) =
        (bit (s.getF R.MXA_ERR_VALID (lBrick die brick)) 0 && !bit v.toNat 0))

/-- On the boundary master of a pan that is not FREE, a write that the audit staging accepts sets SCH_SPLIT.ROWS to
the value held between 128 and 65,536 and PENDING; it sets ATT_PMODE.DROP, and PENDING when it differs from the drop
mode in force. On another die, or for a FREE pan, the register is not live and nothing changes. -/
def Obligations.PanRegisterRows : Prop :=
  (∀ (s : State) (o : Origin) (die pan : Nat) (v : U64), die < 16 → pan < 256 →
    (s.pan pan).st ≠ .free → (s.pan pan).master = die →
    s.writeOpen o (csrOf R.SCH_SPLIT_ROWS (lIdx die pan)) = true →
    ∃ t, exec (.schSplitWrite o die pan v) s = .next t ∧ t.mem = s.mem ∧ t.sch = s.sch ∧
      t.getF R.SCH_SPLIT_ROWS (lIdx die pan) = min (max (v.toNat % 2 ^ 17) 128) 65536 ∧
      t.getF R.SCH_SPLIT_PENDING (lIdx die pan) = 1) ∧
  (∀ (s : State) (o : Origin) (die pan : Nat) (v : U64), die < 16 → pan < 256 →
    (s.pan pan).st ≠ .free → (s.pan pan).master = die →
    s.writeOpen o (csrOf R.ATT_PMODE_DROP (lIdx die pan)) = true →
    ∃ t, exec (.attPmodeWrite o die pan v) s = .next t ∧ t.mem = s.mem ∧ t.att = s.att ∧
      t.getF R.ATT_PMODE_DROP (lIdx die pan) = v.toNat % 2 ∧
      t.getB R.ATT_PMODE_PENDING (lIdx die pan) =
        decide (v.toNat % 2 ≠ s.getF R.ATT_PMODE_EFFECTIVE (lIdx die pan))) ∧
  (∀ (s : State) (o : Origin) (die pan : Nat) (v : U64), die < 16 → pan < 256 →
    ((s.pan pan).st = .free ∨ (s.pan pan).master ≠ die) →
    exec (.schSplitWrite o die pan v) s = .next s ∧ exec (.attPmodeWrite o die pan v) s = .next s)

/-- A write that the audit staging accepts. FAB_PCTL.ENABLE written 1 on a DOWN port starts its training, on a
DISABLED port brings it DOWN. ROUTE_SDATA writes the masked entry of the shadow table, moves ROUTE_SADDR.DEST to the
next and clears SHADOWOK; ROUTE_SDONE written 1 sets SHADOWOK. The other value written to ROUTE_SEL.ACTIVE flips the
tables when the shadow is complete and changes nothing of them otherwise. LLP_RCTL.RETRAIN written 1 starts training
of a DOWN or FALLBACK ring, and REJOIN marks a bypassed member for rejoining. In every state, room or not, each row is
the write of its register, and a port under self-test, or that failed one, stays as it is. -/
def Obligations.FabricRegisterRows : Prop :=
  (∀ (s : State) (o : Origin) (fd port : Nat) (v : U64), isFabric fd = true → port < 16 →
    exec (.fabPctlEnable o fd port v) s = .next (s.csrWrite o (csrOf R.FAB_PCTL_ENABLE (lIdx fd port)) v) ∧
    exec (.routeSdataWrite o fd v) s = .next (s.csrWrite o (csrOf R.ROUTE_SDATA_ALT0 (lDie fd)) v) ∧
    exec (.routeSdone o fd v) s = .next (s.csrWrite o (csrOf R.ROUTE_SDONE_DONE (lDie fd)) v) ∧
    exec (.routeFlip o fd v) s = .next (s.csrWrite o (csrOf R.ROUTE_SEL_ACTIVE (lDie fd)) v)) ∧
  (∀ (s : State) (o : Origin) (level : Nat) (v : U64), level < 3 →
    exec (.llpRejoin o level v) s = .next
      (s.csrWrite o (csrOf R.LLP_RCTL_REJOIN (lIdx 18 level)) (BitVec.ofNat 64 (v.toNat % 2))) ∧
    exec (.llpRetrain o level v) s = .next
      (s.csrWrite o (csrOf R.LLP_RCTL_RETRAIN (lIdx 18 level)) (BitVec.ofNat 64 (v.toNat / 2 % 2 * 2)))) ∧
  (∀ (s : State) (o : Origin) (fd port : Nat) (v : U64), isFabric fd = true → port < 16 →
    s.unitOut fd 0x08 port = true →
    ∃ t, exec (.fabPctlEnable o fd port v) s = .next t ∧ t.mem = s.mem ∧ t.fab = s.fab ∧
      t.getF R.FAB_PSTAT_STATE (lIdx fd port) = s.getF R.FAB_PSTAT_STATE (lIdx fd port)) ∧
  (∀ (s : State) (o : Origin) (fd port : Nat) (v : U64), isFabric fd = true → port < 16 →
    s.writeOpen o (csrOf R.FAB_PCTL_ENABLE (lIdx fd port)) = true → bit v.toNat 0 = true →
    s.unitOut fd 0x08 port = false →
    ∃ t, exec (.fabPctlEnable o fd port v) s = .next t ∧ t.mem = s.mem ∧
      (s.getF R.FAB_PSTAT_STATE (lIdx fd port) = PortRun.down →
        t.getF R.FAB_PSTAT_STATE (lIdx fd port) = PortRun.training) ∧
      (s.getF R.FAB_PSTAT_STATE (lIdx fd port) = PortRun.disabled →
        t.getF R.FAB_PSTAT_STATE (lIdx fd port) = PortRun.down)) ∧
  (∀ (s : State) (o : Origin) (fd : Nat) (v : U64), isFabric fd = true →
    s.writeOpen o (csrOf R.ROUTE_SDATA_ALT0 (lDie fd)) = true →
    let mask : BitVec 32 := if s.getB R.ROUTE_SADDR_TREE (lDie fd) then 0xFFFFFFFF else 0x3F3F3F3F
    ∃ t, exec (.routeSdataWrite o fd v) s = .next t ∧ t.mem = s.mem ∧
      mgetD t.fab.routes (s.shadowKey fd) 0 = (BitVec.ofNat 32 v.toNat &&& mask) ∧
      t.getF R.ROUTE_SADDR_DEST (lDie fd) = (s.getF R.ROUTE_SADDR_DEST (lDie fd) + 1) % 2 ^ 16 ∧
      t.getF R.ROUTE_SEL_SHADOWOK (lDie fd) = 0 ∧
      t.getF R.ROUTE_SEL_ACTIVE (lDie fd) = s.getF R.ROUTE_SEL_ACTIVE (lDie fd)) ∧
  (∀ (s : State) (o : Origin) (fd : Nat) (v : U64), isFabric fd = true →
    s.writeOpen o (csrOf R.ROUTE_SDONE_DONE (lDie fd)) = true → bit v.toNat 0 = true →
    ∃ t, exec (.routeSdone o fd v) s = .next t ∧ t.mem = s.mem ∧ t.fab.routes = s.fab.routes ∧
      t.getF R.ROUTE_SEL_SHADOWOK (lDie fd) = 1) ∧
  (∀ (s : State) (o : Origin) (fd : Nat) (v : U64), isFabric fd = true →
    s.writeOpen o (csrOf R.ROUTE_SEL_ACTIVE (lDie fd)) = true →
    v.toNat % 2 ≠ s.getF R.ROUTE_SEL_ACTIVE (lDie fd) % 2 →
    ∃ t, exec (.routeFlip o fd v) s = .next t ∧ t.fab.routes = s.fab.routes ∧
      (s.getB R.ROUTE_SEL_SHADOWOK (lDie fd) = true →
        t.getF R.ROUTE_SEL_ACTIVE (lDie fd) = v.toNat % 2 ∧ t.getF R.ROUTE_SEL_SHADOWOK (lDie fd) = 0) ∧
      (s.getB R.ROUTE_SEL_SHADOWOK (lDie fd) = false →
        t.getF R.ROUTE_SEL_ACTIVE (lDie fd) = s.getF R.ROUTE_SEL_ACTIVE (lDie fd) % 2)) ∧
  (∀ (s : State) (o : Origin) (level : Nat) (v : U64), level < 3 →
    s.writeOpen o (csrOf R.LLP_RCTL_REJOIN (lIdx 18 level)) = true → bit v.toNat 0 = true →
    s.bypassedAt level (s.ringPos level) = true →
    ∃ t, exec (.llpRejoin o level v) s = .next t ∧ t.mem = s.mem ∧ (t.wring level).rejoin = true ∧
      (t.wring level).cleanFrames = 0) ∧
  (∀ (s : State) (o : Origin) (level : Nat) (v : U64), level < 3 →
    s.writeOpen o (csrOf R.LLP_RCTL_RETRAIN (lIdx 18 level)) = true → bit v.toNat 1 = true →
    (s.ringState level = RingRun.down ∨ s.ringState level = RingRun.fallback) →
    ∃ t, exec (.llpRetrain o level v) s = .next t ∧ t.mem = s.mem ∧ t.ringState level = RingRun.training)

/-- A write that the audit staging accepts. AON_LCTL.YIELD written 1 makes a keeper a follower. DIE_OP on a compute
die sets the requested point, held between 4 and 7, and the effective one with it when no pan is RUNNING; DIE_OP of
other dies ignores writes. AUDIT_ACK takes a number from the one it held up to the next to be issued. A write of a
counter's selection sets a known event, or 0, and the counter to 0. ALSEL.RELEASE written 1 on the keeper die frees
the alarm entry that the write names. AON_DEVNUM sets the device number, valid, on a device that does not wait for it,
and lets one that waits go on. In every state, room or not, each row is the write of its register. -/
def Obligations.HostRegisterRows : Prop :=
  (∀ (s : State) (o : Origin) (hd die n : Nat) (v : U64) (boot : BootIn), hd < 2 → die < 20 → n < 64 →
    exec (.aonYield o hd v) s = .next (s.csrWrite o (csrOf R.AON_LCTL_YIELD (lDie (16 + hd))) v) ∧
    exec (.dieOpWrite o die v) s = .next (s.csrWrite o (csrOf R.DIE_OP_OP (lDie die)) v) ∧
    exec (.auditAckWrite o v) s = .next (s.csrWrite o (csrOf R.AUDIT_ACK_SEQ (lDie 16)) v) ∧
    exec (.perfSelectWrite o (csrOf R.PERF_DSEL_EVENT (lIdx die n)) v) s = .next
      (s.csrWrite o (csrOf R.PERF_DSEL_EVENT (lIdx die n)) v) ∧
    (s.keeper = some hd → exec (.alarmRelease o v) s = .next
      (s.csrWrite o (csrOf R.PERF_ALSEL_RELEASE (lDie (16 + hd))) v)) ∧
    exec (.aonDevnumWrite o v boot) s = .next
      ((s.csrWrite o (csrOf R.AON_DEVNUM_DEVICE (lDie 16)) v).numberArrives boot)) ∧
  (∀ (s : State) (o : Origin) (hd : Nat) (v : U64), hd < 2 →
    s.writeOpen o (csrOf R.AON_LCTL_YIELD (lDie (16 + hd))) = true → bit v.toNat 0 = true → s.role hd = .keeper →
    ∃ t, exec (.aonYield o hd v) s = .next t ∧ t.mem = s.mem ∧ t.role hd = .follower ∧
      t.getF R.AON_LEASE_KEEPER (lDie (16 + hd)) = 0) ∧
  (∀ (s : State) (o : Origin) (die : Nat) (v : U64), die < 16 →
    s.writeOpen o (csrOf R.DIE_OP_OP (lDie die)) = true →
    (∀ p ∈ s.sch.pans, p.2.st ≠ .running) →
    ∃ t, exec (.dieOpWrite o die v) s = .next t ∧ t.mem = s.mem ∧
      t.getF R.DIE_OP_OP (lDie die) = min (max (v.toNat % 8) 4) 7 ∧
      t.getF R.DIE_OP_EFFECTIVE (lDie die) = min (max (v.toNat % 8) 4) 7) ∧
  (∀ (s : State) (o : Origin) (die : Nat) (v : U64), 16 ≤ die → die < 20 →
    exec (.dieOpWrite o die v) s = .next s) ∧
  (∀ (s : State) (o : Origin) (v : U64),
    s.writeOpen o (csrOf R.AUDIT_ACK_SEQ (lDie 16)) = true → s.getF R.AUDIT_ACK_SEQ (lDie 16) ≤ v.toNat →
    v.toNat ≤ s.audit.next →
    ∃ t, exec (.auditAckWrite o v) s = .next t ∧ t.mem = s.mem ∧
      t.getF R.AUDIT_ACK_SEQ (lDie 16) = v.toNat) ∧
  (∀ (s : State) (o : Origin) (die n : Nat) (v : U64), die < 20 → n < 64 →
    s.writeOpen o (csrOf R.PERF_DSEL_EVENT (lIdx die n)) = true →
    ∃ t, exec (.perfSelectWrite o (csrOf R.PERF_DSEL_EVENT (lIdx die n)) v) s = .next t ∧ t.mem = s.mem ∧
      t.getF R.PERF_DCNT_VALUE (lIdx die n) = 0 ∧
      t.getF R.PERF_DSEL_EVENT (lIdx die n) =
        if eventKnown die (v.toNat % 2 ^ 16) then v.toNat % 2 ^ 16 else 0) ∧
  (∀ (s : State) (o : Origin) (hd : Nat) (v : U64), s.keeper = some hd → hd < 2 →
    s.writeOpen o (csrOf R.PERF_ALSEL_RELEASE (lDie (16 + hd))) = true → bit v.toNat 16 = true →
    ∃ t, exec (.alarmRelease o v) s = .next t ∧ t.mem = s.mem ∧
      mget t.obsv.alarms (v.toNat % 2 ^ 10) = none) ∧
  (∀ (s : State) (o : Origin) (v : U64) (boot : BootIn),
    s.writeOpen o (csrOf R.AON_DEVNUM_DEVICE (lDie 16)) = true → s.clk.bootWait ≠ 2 →
    ∃ t, exec (.aonDevnumWrite o v boot) s = .next t ∧ t.mem = s.mem ∧
      t.getF R.AON_DEVNUM_DEVICE (lDie 16) = v.toNat % 2 ^ 16 ∧
      t.getF R.AON_DEVNUM_VALID (lDie 16) = 1)

/-- A register write whose record the audit staging accepts appends the record and then takes effect by its plan, and
a device number lets a device that waits for one go on; a write without room waits and is counted.
AUDIT_STAGING_ACCEPT applies the oldest waiting change of the die once its queue has room, and counts the µs waited.
READ_CLEAR sets the RC fields of the register to 0: after a read of FAB_ORDER its DUP count reads 0. -/
def Obligations.RegisterRows : Prop :=
  (∀ (s : State) (o : Origin) (csr : Nat) (v : U64),
    s.plan (regFields csr) v.toNat ≠ [] → s.writeOpen o csr = true →
    let t := (s.audit1 (originDie o (bits csr 28 24))
        (s.writeRec o csr v.toNat (s.plan (regFields csr) v.toNat))).applyPlan
          (s.plan (regFields csr) v.toNat) v.toNat
    exec (.registerWrite o csr v) s = .next (t.numberArrives t.clk.bootIn)) ∧
  (∀ (s : State) (o : Origin) (csr : Nat) (v : U64),
    s.plan (regFields csr) v.toNat ≠ [] → bar0Reach o csr = true →
    s.auditRoom (originDie o (bits csr 28 24)) = false → s.clk.bootWait ≠ 2 →
    ∃ t, exec (.registerWrite o csr v) s = .next t ∧
      t.audit.waiting = s.audit.waiting ++
        [{ origin := o, die := bits csr 28 24, csr := csr, value := v, at_ := s.time }] ∧
      t.audit.ring = s.audit.ring ∧ t.mem = s.mem) ∧
  (∀ (s : State) (die us : Nat) (w : WaitWrite), die < 20 →
    s.audit.waiting.find? (fun w => originDie w.origin w.die = die) = some w → s.auditRoom die = true →
    exec (.auditStagingAccept die us) s = .next
      ((({ s with audit := { s.audit with waiting := s.audit.waiting.erase w } }).bump R.AUDIT_WAIT_US (lDie 16)
        us).csrWriteNow w.origin w.csr w.value.toNat)) ∧
  (∀ (s : State) (o : Origin) (fd : Nat), isFabric fd = true → bar0Reach o (csrOf R.FAB_ORDER_DUP (lDie fd)) = true →
    ∃ t, exec (.readClear o (csrOf R.FAB_ORDER_DUP (lDie fd))) s = .next t ∧
      t.getF R.FAB_ORDER_DUP (lDie fd) = 0 ∧ t.mem = s.mem ∧ t.fab = s.fab)

/-- MXA_COMMAND with rows to an array of no pan waits behind the current command, or becomes the current one; to an
array of a pan whose step is released it takes an entry of the die's scoreboard and goes to the array with the entry's
OPTAG. A SWAP that waits, with no load in progress, exchanges the sets: the background set comes to the foreground,
poisoned when no load filled it, and the background is empty. BACKGROUND_LOAD_DONE fills the background set and leaves
the accumulators. ROW_ACCEPT of a clean row of a command that does not convert merges it into its accumulator row and
moves to the next row, in SERVICE mode, and in ELASTIC mode once the row's segments have all arrived. -/
def Obligations.ArrayCommands : Prop :=
  (∀ (s : State) (die brick : Nat) (w0 w1 w2 w3 : U64) (c : MxCmd), isBrick die brick = true →
    s.bistOn die brick = false → s.owner die brick = none → w0.toNat % 2 ^ 32 ≠ 0 → (s.array die brick).cur = some c →
    ∃ t q, exec (.mxaCommand die brick w0 w1 w2 w3) s = .next t ∧ t.mem = s.mem ∧
      (t.array die brick).queue = (s.array die brick).queue ++ [q] ∧ (t.array die brick).cur = some c ∧
      (t.array die brick).acc = (s.array die brick).acc ∧ q.w0 = w0 ∧ q.w1 = w1 ∧ q.w2 = w2 ∧ q.w3 = w3 ∧ q.row = 0) ∧
  (∀ (s : State) (die brick : Nat) (w0 w1 w2 w3 : U64), isBrick die brick = true →
    s.bistOn die brick = false → s.owner die brick = none → w0.toNat % 2 ^ 32 ≠ 0 → (s.array die brick).cur = none →
    (s.readCmd die brick w0 w1 w2 w3).1.count ≠ 0 →
    ∃ t q, exec (.mxaCommand die brick w0 w1 w2 w3) s = .next t ∧ t.mem = s.mem ∧
      (t.array die brick).cur = some q ∧ (t.array die brick).swapPending = q.swap ∧
      (t.array die brick).acc = (s.array die brick).acc ∧ q.w0 = w0 ∧ q.w1 = w1 ∧ q.w2 = w2 ∧ q.w3 = w3 ∧ q.row = 0) ∧
  (∀ (s u : State) (die brick p tag : Nat) (w0 w1 w2 w3 : U64), isBrick die brick = true →
    s.bistOn die brick = false → s.owner die brick = some p → (s.pan p).running die = true → s.quotaFree p die = true →
    s.takeEntry die
      { pan := p, step := (s.pan p).step, brick := brick, isArray := true
        station := (((s.pan p).stationOf w0 w1 w2 w3).map (·.idx)).getD 4096 } = some (tag, u) →
    exec (.mxaCommand die brick w0 w1 w2 w3) s = .next (u.mxaIssue die brick w0 w1 w2 (withOptag w3 tag))) ∧
  (∀ (s : State) (die brick cyc : Nat) (c : MxCmd), isBrick die brick = true →
    (s.array die brick).swapPending = true → (s.array die brick).loading = none →
    (s.array die brick).cur = some c → c.count ≠ 0 →
    ∃ t, exec (.swap die brick cyc) s = .next t ∧ t.mem = s.mem ∧ (t.array die brick).swapPending = false ∧
      (t.array die brick).bgValid = false ∧ (t.array die brick).cur = some c ∧
      (t.array die brick).acc = (s.array die brick).acc ∧
      (t.array die brick).fg = (if (s.array die brick).bgValid then (s.array die brick).bg
        else { (s.array die brick).bg with poison := 3 }) ∧
      (t.array die brick).bg = (s.array die brick).fg) ∧
  (∀ (s : State) (die brick addr fmt tag : Nat) (par : Bool), isBrick die brick = true →
    (s.array die brick).loading = some (addr, fmt, tag) →
    let r := s.readSet die brick (addr * 64) fmt
    ∃ t, exec (.backgroundLoadDone die brick par) s = .next t ∧ t.mem = s.mem ∧
      (t.array die brick).bgValid = true ∧ (t.array die brick).loading = none ∧
      (t.array die brick).fg = (s.array die brick).fg ∧ (t.array die brick).acc = (s.array die brick).acc ∧
      (t.array die brick).bg.poison = (if r.1.fmt ≠ fmt ∨ par = true then 3 else if r.1.cause = 6 then 6
        else if r.1.poison then 5 else 0) ∧
      (r.1.fmt = fmt → (t.array die brick).bg.codes = r.2.codes ∧ (t.array die brick).bg.scales = r.2.scales)) ∧
  (∀ (s : State) (die brick pan segs groups : Nat) (c : MxCmd) (f : Feed), isBrick die brick = true →
    s.owner die brick = some pan → (s.array die brick).drain = [] → (s.array die brick).swapPending = false →
    (s.getB R.MXA_MODE_EFFECTIVE (lBrick die brick) = false ∨ ((s.array die brick).arrived ||| segs) % 256 = 255) →
    (s.array die brick).cur = some c → s.feedRow die brick c = some f →
    c.poisonOf (s.array die brick) f 0 = 0 → c.convert = false → c.row + 1 < c.count →
    let a := s.array die brick
    ∃ t, exec (.rowAccept die brick 0 false segs groups) s = .next t ∧ t.mem = s.mem ∧ t.grains = s.grains ∧
      (t.array die brick).cur = some { c with row := c.row + 1 } ∧
      (t.array die brick).acc = setAccRow a.acc c.accAt
        ((c.mergeRow a.fg f (a.accRow c.accAt a.fg.vn)).map (·.1)) ∧
      (t.array die brick).setA = a.setA ∧ (t.array die brick).setB = a.setB)

/-- An invocation of SLIVER grains that is ready, and for whose unit no other ready operation is offered, takes the
lowest free entry of the die's scoreboard. A completion with the entry's generation frees the entry and advances its
generation; one of another generation is dropped. A die whose part of the step has ended sends DONE once; DONE from
one of several dies is held, and the last one brings the boundary. STEP_RELEASE wakes the pan's grains on the die.
BOUNDARY_LATE marks the pan late once a step. -/
def Obligations.SchedulerRows : Prop :=
  (∀ (s : State) (die pan station mb slice waited b e : Nat) (gs : List Nat) (d : StationDecl), die < 16 →
    die ∈ (s.pan pan).dies → (s.pan pan).station station = some d →
    s.opReady die pan d mb slice (.sliver b gs) = true → s.quotaFree pan die = true →
    (s.pan pan).ladleLate d = false →
    (∀ x ∈ s.sch.offers, x = { die, pan, station, mb, slice, work := .sliver b gs } ∨ x.die ≠ die ∨
      unitOf x.work ≠ some (128 + b)) →
    lowest 4096 (fun e => !(s.board die e).busy) = some e →
    ∃ t, exec (.tileOpIssue die pan station mb slice waited (.sliver b gs)) s = .next t ∧ t.mem = s.mem ∧
      t.grains = s.grains ∧
      t.board die e = { newEntry pan (s.pan pan).step d mb slice (.sliver b gs) with
        gen := (s.board die e).gen, busy := true }) ∧
  (∀ (s : State) (optag : Nat),
    let die := bits optag 15 12
    let e := s.board die (optag % 4096)
    e.busy = true → e.gen = bits optag 31 16 → e.isArray = false → s.opEnded die (optag % 2 ^ 32) e = true →
    exec (.tileOpRetire optag 0) s = .next ((s.retireOp die (optag % 4096) 0 e).stepExchs e.pan) ∧
    ((∀ x ∈ s.col.exchs, x.2.pan ≠ e.pan) →
      ∃ t, exec (.tileOpRetire optag 0) s = .next t ∧ t.mem = s.mem ∧ t.csr = s.csr ∧
        (t.board die (optag % 4096)).busy = false ∧ (t.board die (optag % 4096)).gen = (e.gen + 1) % 65536 ∧
        (t.pan e.pan).retired = (e.station, e.mb, e.slice, e.layer) :: (s.pan e.pan).retired)) ∧
  (∀ (s : State) (optag cause : Nat),
    let die := bits optag 15 12
    ((s.board die (optag % 4096)).busy = false ∨ (s.board die (optag % 4096)).gen ≠ bits optag 31 16) →
    exec (.tileOpRetire optag cause) s = .next (s.bump R.SCH_FULL_STALE (lDie die))) ∧
  (∀ (s : State) (die pan : Nat), die ∈ (s.pan pan).dies → (s.pan pan).released = true →
    (s.pan pan).woken.contains die = true → (s.pan pan).sent.contains die = false → s.localDone pan die = true →
    exec (.localBoundary die pan) s = .next (s.modPan pan (fun p => { p with sent := die :: p.sent }))) ∧
  (∀ (s : State) (die pan d' ns : Nat), die ∈ (s.pan pan).dies → (s.pan pan).released = true →
    (s.pan pan).sent.contains die = true → (s.pan pan).dones.contains die = false →
    d' ∈ (s.pan pan).dies → d' ≠ die → (s.pan pan).dones.contains d' = false →
    exec (.done pan die (s.pan pan).step ns) s = .next (s.modPan pan (fun p => { p with dones := die :: p.dones }))) ∧
  (∀ (s : State) (die pan ns : Nat), die ∈ (s.pan pan).dies → (s.pan pan).released = true →
    (s.pan pan).sent.contains die = true → (s.pan pan).dones.contains die = false →
    (∀ d' ∈ (s.pan pan).dies, d' = die ∨ (s.pan pan).dones.contains d' = true) → s.roomNow [16] (2, pan) = true →
    exec (.done pan die (s.pan pan).step ns) s = .next
      ((s.modPan pan (fun p => { p with dones := die :: p.dones })).boundary pan ns)) ∧
  (∀ (s : State) (die pan : Nat), die ∈ (s.pan pan).dies → (s.pan pan).released = true →
    (s.pan pan).woken.contains die = false →
    ∃ t, exec (.stepRelease die pan (s.pan pan).step) s = .next t ∧ t.mem = s.mem ∧ t.csr = s.csr ∧
      (t.pan pan).woken = die :: (s.pan pan).woken ∧ (t.pan pan).step = (s.pan pan).step) ∧
  (∀ (s : State) (pan : Nat), (s.pan pan).st ≠ .free → (s.pan pan).released = true →
    s.getF R.SCH_BNDLIM_US (lDie (s.pan pan).master) ≠ 0 → s.getB R.SCH_PBND_LATE (s.panLoc pan) = false →
    ∃ t, exec (.boundaryLate pan) s = .next t ∧ t.mem = s.mem ∧ t.sch = s.sch ∧
      t.getF R.SCH_PBND_LATE (s.panLoc pan) = 1 ∧
      (s.pan pan).relTime + s.getF R.SCH_BNDLIM_US (lDie (s.pan pan).master) * 1000 < t.time)

/-- The loss of a flit on a die-to-die link that is ACTIVE takes both its ends to RETRAIN and poisons the tiles in
flight with cause 7h; a link in RETRAIN goes ACTIVE when the training succeeds, and 100 µs after the loss it is
DISABLED with DEGRADED set when it does not; what is not in the state the event needs is left alone. -/
def Obligations.DieLinkRows : Prop :=
  (∀ (s : State) (die port rerouted retries : Nat), die < 16 → port < 4 →
    s.getF R.D2D_LSTAT_STATE (d2dLoc die port) = 2 →
    ∃ t, exec (.d2dRetrain die port [] rerouted retries) s = .next t ∧ t.mem = s.mem ∧
      t.sch.streams = s.sch.streams ∧ t.sch.pans = s.sch.pans ∧
      ∀ l ∈ s.linkEnds die port, t.getF R.D2D_LSTAT_STATE l = 3) ∧
  (∀ (s : State) (die port pan stream i rerouted retries : Nat), die < 16 → port < 4 → pan < 256 →
    s.getF R.D2D_LSTAT_STATE (d2dLoc die port) = 2 →
    ∃ t, exec (.d2dRetrain die port [(pan, stream, i)] rerouted retries) s = .next t ∧ t.mem = s.mem ∧
      (∀ l ∈ s.linkEnds die port, t.getF R.D2D_LSTAT_STATE l = 3) ∧
      t.rows pan stream = poisonTileAt (s.rows pan stream) i) ∧
  (∀ (s : State) (die port : Nat) (l : List (Nat × Nat × Nat)) (rerouted retries : Nat), die < 16 → port < 4 →
    s.getF R.D2D_LSTAT_STATE (d2dLoc die port) < 2 →
    exec (.d2dRetrain die port l rerouted retries) s = .next s) ∧
  (∀ (s : State) (die port rerouted : Nat), die < 16 → port < 4 →
    exec (.d2dRetrainDone die port rerouted) s = .next (if s.getF R.D2D_LSTAT_STATE (d2dLoc die port) = 3 then
      (s.linkTo die port 2).bump R.D2D_REROUTE_PACKETS (d2dLoc die port) rerouted else s)) ∧
  (∀ (s : State) (die port rerouted : Nat), die < 16 → port < 4 → s.getF R.D2D_LSTAT_STATE (d2dLoc die port) = 3 →
    ∃ t, exec (.d2dRetrainTimeout die port rerouted) s = .next t ∧ t.mem = s.mem ∧ t.sch = s.sch ∧
      mgetD s.sch.d2dSince (die * 4 + port) s.time + 100000 ≤ t.time ∧
      ∀ l ∈ s.linkEnds die port, t.getF R.D2D_LSTAT_STATE l = 4 ∧ t.getF R.D2D_LSTAT_DEGRADED l = 1)

/-- SEQ_OPEN of a pan gives the lowest FREE index of its pool a clamped descriptor in state OPEN, with its generation
kept; with no FREE index the opening waits, counted, and no sequence changes. A quarantined index is FREE after its
quarantine, and an opening that waits for one of its pool goes on. A walk of a live sequence of the right generation
whose translation a walker does not hold, whose page is present and bears the key's identity block, gives the page's
tier and address; one of another generation is dropped. SPILL of a pool that is above its upper watermark asks for
moves of its pages down, in order, or drops them in the drop mode, and does nothing below it. -/
def Obligations.SequenceRows : Prop :=
  (∀ (s : State) (pan i : Nat) (w : Option Nat) (layers kvheads headdim fmt mode entries table : Nat),
    (s.pan pan).st ≠ .free → s.freeSeq pan = some i →
    let q := openSeq pan (s.seq i).gen layers kvheads headdim fmt mode entries table (s.pan pan).step (s.pan pan).gen
    exec (.seqOpen pan w layers kvheads headdim fmt mode entries table) s = .next (s.openOn pan i w q) ∧
      (s.openOn pan i w q).seq i = q ∧ q.st = .opened) ∧
  (∀ (s : State) (pan : Nat) (w : Option Nat) (layers kvheads headdim fmt mode entries table : Nat),
    (s.pan pan).st ≠ .free → s.freeSeq pan = none →
    ∃ t, exec (.seqOpen pan w layers kvheads headdim fmt mode entries table) s = .next t ∧
      t.att = { s.att with waits := s.att.waits ++
        [{ pan, world := w, layers, kvheads, headdim, fmt, mode, entries, table }] } ∧
      t.mem = s.mem ∧ t.sch = s.sch) ∧
  (∀ (s : State) (seq : Nat), (s.seq seq).st = .quarantine →
    let s1 := (s.until (s.seq seq).quarAt).modSeq seq (fun q => { q with st := .free })
    exec (.seqQuarantineExpiry seq) s = .next (openWaiting s1.att.waits s1) ∧
      (s.att.waits = [] → exec (.seqQuarantineExpiry seq) s = .next s1)) ∧
  (∀ (s : State) (die walker seq gen layer page : Nat), die < 16 → walker < 8 →
    s.unitOut die 0x18 walker = false → (s.seq seq).gen = gen → (s.seq seq).live = true →
    (mgetD s.att.labs (labKey die walker) {}).committed.find? (fun e => e.is seq gen layer page) = none →
    let e := s.pte (pteKey seq layer ((s.seq seq).slot page))
    e.present = true → e.page = page → s.newHome (e.tier, e.addr) = none →
    s.mismatch seq layer page (e.tier, e.addr) = false →
    ∃ t, exec (.walk die walker seq gen layer page) s = .next t ∧ t.mem = s.mem ∧ t.att.ptes = s.att.ptes ∧
      t.att.seqs = s.att.seqs ∧ (mgetD t.att.labs (labKey die walker) {}).last = some (e.tier, e.addr)) ∧
  (∀ (s : State) (die walker seq gen layer page : Nat), die < 16 → walker < 8 →
    s.unitOut die 0x18 walker = false → ((s.seq seq).gen ≠ gen ∨ (s.seq seq).live = false) →
    exec (.walk die walker seq gen layer page) s = .next (s.bump R.ATT_WALK_STALE (lDie die))) ∧
  (∀ (s : State) (pan : Nat), (s.pan pan).st ≠ .free →
    let l := s.panLoc pan
    (s.above pan 1 (s.getF R.ATT_PMODE_HIGH1 l) = false → exec (.spill pan 1) s = .next s) ∧
    (s.above pan 2 (s.getF R.ATT_PMODE_HIGH2 l) = false → exec (.spill pan 2) s = .next s) ∧
    (s.above pan 1 (s.getF R.ATT_PMODE_HIGH1 l) = true → s.getB R.ATT_PMODE_EFFECTIVE l = false →
      exec (.spill pan 1) s = .next (spillMoves pan 1 (s.getF R.ATT_PMODE_LOW1 l) (s.spillOrder pan 1) s)) ∧
    (s.above pan 1 (s.getF R.ATT_PMODE_HIGH1 l) = true → s.getB R.ATT_PMODE_EFFECTIVE l = true →
      exec (.spill pan 1) s = .next
        (spillDrops pan 1 (s.getF R.ATT_PMODE_LOW1 l) (s.spillOrder pan 1) s).moverFreed) ∧
    (s.above pan 2 (s.getF R.ATT_PMODE_HIGH2 l) = true → s.getB R.ATT_PMODE_EFFECTIVE l = false →
      exec (.spill pan 2) s = .next (spillMoves pan 2 (s.getF R.ATT_PMODE_LOW2 l) (s.spillOrder pan 2) s)) ∧
    (s.getB R.ATT_PMODE_EFFECTIVE l = true → exec (.spill pan 2) s = .next s))

/-- A SAMPLE station whose descriptor is of the kind drawn, with the next row of the step waiting, a credit in its
outputs, its sieve in service and an entry of the sieve's die to take, takes the row off its stream and draws it, and
the entry is freed. A command of the other kind leaves the state as it is. -/
def Obligations.SampleRows : Prop :=
  ∀ (s u : State) (pan station i tag : Nat) (st : StationDecl) (sd : StreamDecl) (r : Row),
    s.hasStation pan station 6 = true → (s.pan pan).station station = some st → st.inputs.head? = some i →
    (s.pan pan).stream i = some sd →
    let at_ := (s.pan pan).nextDraw st
    rowNumbered (s.rows pan sd.idx) station at_.1 at_.2 = some r → s.outsReady pan st = true →
    let die := (sieveOf st r).1
    s.unitOut die 0x20 (sieveOf st r).2.1 = false → s.mayIssue die pan st at_.1 r.hdr.slice = true →
    s.takeEntry die { pan := pan, step := (s.pan pan).step, station := st.idx, mb := at_.1, slice := r.hdr.slice }
      = some (tag, u) →
    let drawn := ((u.takeThe pan sd.idx station sd (fun x => x.hdr.mb == at_.1 && rowNum x == at_.2)).drawRow pan st
      (s.sampleDesc st) tag r).freeEntry die (tag % 4096)
    ((s.sampleDesc st).kind = 0 →
      exec (.discreteDraw pan station) s = .next drawn ∧ exec (.continuousDraw pan station) s = .next s) ∧
    ((s.sampleDesc st).kind ≠ 0 →
      exec (.continuousDraw pan station) s = .next drawn ∧ exec (.discreteDraw pan station) s = .next s)

/-- A released pan latches the best epoch once in a step, and the fetches of the step after begin. A PUBLISH station
in whose way nothing stands begins to write its epoch, with an entry of the boundary master's die; one that finds a
PROVISIONAL epoch, a held next slot or a full table waits. A good chunk is marked acknowledged; a third failure and
those before it are counted and the chunk is sent again, the next one retracts the epoch, as a dead target does.
Passed checks confirm the epoch, and the first failed one retracts it with its cause. A change message is applied in
its order. A good IMAGE_CHUNK that is not the last is written at its place in the slot. A change whose record finds no
room waits, counted, and changes no epoch. -/
def Obligations.EpochRows : Prop :=
  (∀ (s : State) (pan : Nat), (s.pan pan).st ≠ .free → (s.pan pan).released = true → (s.pan pan).latched = none →
    exec (.adoptionPoint pan) s = .next (s.modPan pan (fun p =>
      { p with latched := some (s.bestEpoch pan), lastLatch := s.bestEpoch pan, ahead := some {} }))) ∧
  (∀ (s u : State) (pan station us tag : Nat) (d : StationDecl) (w : WSet), s.hasStation pan station 0xB = true →
    (s.pan pan).station station = some d → s.wset d.ws = some w → w.job = (s.pan pan).job →
    (s.pan pan).pubDone.contains station = false → s.publishing pan station = false → w.decl.kind ≠ 1 →
    (d.onCommand = true → (s.pan pan).pubReleased = true) → w.exhausted = false →
    s.mayIssue (s.pan pan).master pan d 0 0 = true → s.roomNow [16] (1, d.ws) = true →
    s.takeEntry (s.pan pan).master { pan := pan, step := (s.pan pan).step, station := d.idx, mb := 0, slice := 0 }
      = some (tag, u) →
    exec (.publishBegin pan station us) s = .next
      (if w.anyProvisional = true ∨ w.nextHeld = true ∨ w.occupant = .held then s.publishWait d.ws us w
       else u.publishWrite d.ws pan station tag w)) ∧
  (∀ (s : State) (ws target chunk : Nat) (w : WSet) (p : PubWriter), s.wset ws = some w →
    w.writer = some p → p.image = false → w.decl.targets.contains target = true → chunk < p.chunks →
    p.acked.contains (target, chunk) = false → s.roomNow [16] (1, ws) = true →
    exec (.publishChunkAck ws target chunk .good) s = .next (s.chunkGood ws target chunk w p) ∧
    (3 ≤ p.fails.count (target, chunk) →
      exec (.publishChunkAck ws target chunk .failed) s = .next (s.retractEpoch ws p.epoch 4)) ∧
    (p.fails.count (target, chunk) < 3 →
      ∃ t, exec (.publishChunkAck ws target chunk .failed) s = .next t ∧
        (t.wset ws).map (·.writer) = some (some { p with fails := (target, chunk) :: p.fails })) ∧
    exec (.publishChunkAck ws target chunk .targetDead) s = .next (s.retractEpoch ws p.epoch 4)) ∧
  (∀ (s : State) (ws : Nat) (others : List CheckBlock) (w : WSet) (c : PendCheck) (d : StationDecl),
    s.wset ws = some w → w.check = some c → c.boundary = true → (s.pan c.pan).station c.station = some d →
    s.roomNow [16] (1, ws) = true →
    exec (.publishChecks ws others) s = .next
      (match checkCause (s.getF R.EPC_LIMIT_GNORM lKeep) c.step (s.checkBlock d.checkAt c.poisoned :: others) with
       | some cause => s.retractEpoch ws c.epoch cause
       | none => s.confirmEpoch ws c.epoch)) ∧
  (∀ (s : State) (ws e state cause step : Nat) (w : WSet), s.wset ws = some w → s.roomNow [16] (1, ws) = true →
    exec (.epochChangeMessage ws e state cause step) s = .next
      (s.applyChange ws { epoch := e, st := state, cause, step })) ∧
  (∀ (s : State) (ws : Nat) (c : EpochChange) (w : WSet), s.wset ws = some w → c.epoch ≠ 0 →
    (w.waitsFor c.epoch = true → s.tryChange ws c = s.modWset ws (fun w => { w with changes := w.changes ++ [c] })) ∧
    (w.waitsFor c.epoch = false →
      (c.st = 2 → w.stateOf c.epoch = .draft → s.tryChange ws c = s.putEpoch ws c.epoch .provisional 0) ∧
      (w.stateOf c.epoch = .draft ∨ w.stateOf c.epoch = .provisional →
        (c.st = 3 → s.tryChange ws c = s.confirmEpoch ws c.epoch) ∧
        (c.st = 4 → s.tryChange ws c = s.retractEpoch ws c.epoch c.cause)))) ∧
  (∀ (s : State) (ws : Nat) (data tag b : List Byte) (w : WSet) (i : ImgLoad), s.wset ws = some w →
    s.epc.img = some i → i.ws = ws → s.roomNow [16] (1, ws) = true →
    i.openChunk (fitTo (chunkSize w.decl.payload i.done) data) tag = some b →
    i.done + 1 < chunksOf w.decl.payload →
    ∃ t, exec (.imageChunk ws data tag) s = .next t ∧
      t.mem = (s.wrTier 1 (w.baseOf i.epoch + i.done * mib) b).mem ∧
      t.epc.img = some { i with done := i.done + 1, plain := i.plain ++ b } ∧ t.epc.sets = s.epc.sets ∧
      t.rings = s.rings) ∧
  (∀ (s : State) (ws e state cause step : Nat), (s.wset ws).isSome = true → s.auditRoom 16 = false →
    s.audit.held.any (fun h => h.1 = (1, ws)) = false →
    ∃ t, exec (.epochChangeMessage ws e state cause step) s = .next t ∧ t.epc = s.epc ∧ t.mem = s.mem ∧
      t.audit.held = s.audit.held ++ [((1, ws), s.time)] ∧
      t.getF R.AUDIT_WAIT_EVENTS (lDie 16) =
        R.AUDIT_WAIT_EVENTS.plus (s.getF R.AUDIT_WAIT_EVENTS (lDie 16)) 1)

/-- RECORD_WRITE takes a row of every input stream for the next world of the step, as an operation of the writer's die
that retires: in a step that the stripe's stride divides, its record is written into the open block of the stripe,
unless the block is dropped. Where a T3 ring of another device needs a claim of the block's staging position first, the
claim is sent once and the row waits; a word that stood 0 gives the position. An eviction runs on an extent of the staging region. A DRAW that is ready takes an entry
of the boundary master's die and runs, and one that is not waits, counted on the ring's home die. A priority update of
a record that its block holds sets its priority, and adds the difference to its tree leaf; a stale one is counted. -/
def Obligations.RingRows : Prop :=
  (∀ (s u : State) (pan station w tag : Nat) (st : StationDecl) (d : RecordDecl) (r : RecordIn),
    s.hasStation pan station 7 = true → (s.pan pan).station station = some st → st.record = some d →
    let p := s.pan pan
    let at_ := p.nextDraw st
    let die := p.writerDie w
    (p.rowsOf st)[at_.2]? = some w → s.recordIn pan st d at_.1 at_.2 w = some r → s.verdictIn pan w = true →
    (∀ (g : RingSt) (k : Nat), s.claimDue pan d r = some (g, k) →
      exec (.recordWrite pan station) s = .next (s.sendClaim pan d g k)) ∧
    (s.claimDue pan d r = none → s.mayIssue die pan st at_.1 (at_.2 / p.split) = true →
    s.takeEntry die { pan := pan, step := p.step, station := st.idx, mb := at_.1, slice := at_.2 / p.split }
      = some (tag, u) →
    exec (.recordWrite pan station) s = .next
      (((u.takeRecord pan st at_.1 at_.2).recordStep pan d (p.payLens st d) r).freeEntry die (tag % 4096)))) ∧
  (∀ (s : State) (ring i k old : Nat) (g : RingSt), s.ring ring = some g → g.claimOf i k = some 0 →
    ((s.claimAnswer ring i k (some old)).ring ring).bind (fun g' => g'.claimOf i k) =
      some (if old = 0 ∨ old = k + 1 then 1 else 2)) ∧
  (∀ (s : State) (pan : Nat) (d : RecordDecl) (lens : List Nat) (r : RecordIn) (g g' : RingSt) (x : WorldRow),
    s.ring d.ring = some g → s.worldRow pan r (nth lens d.action 0) = some x →
    (s.pan pan).step % max 1 (g.stripe d.stripe).stride = 0 → (s.stepBlock pan d).ring d.ring = some g' →
    let k := (mgetD g'.openK d.stripe (0, 0)).1
    s.recordStep pan d lens r =
      if (g'.block d.stripe (k % max 1 (stripeBlocks (g'.stripe d.stripe)))).dropped = true then s.stepBlock pan d
      else (s.stepBlock pan d).writeRecord pan d lens k r x) ∧
  (∀ (s : State) (ring extent : Nat) (g : RingSt), s.ring ring = some g →
    exec (.stagingEviction ring extent) s = .next (s.evict ring extent)) ∧
  (∀ (s : State) (pan station us : Nat) (st : StationDecl) (d : DrawDecl) (g : RingSt),
    s.hasStation pan station 8 = true → (s.pan pan).station station = some st → st.draw = some d →
    s.ring d.ring = some g →
    let s1 := s.bump R.EXP_RWAIT_US g.loc us
    (s1.drawReady g d = false → exec (.drawIssue pan station us) s = .next s1) ∧
    (∀ (u : State) (tag : Nat), s1.drawReady g d = true → s1.outsReady pan st = true → s1.drawing pan station = false →
      g.job = (s.pan pan).job → s1.mayIssue (s.pan pan).master pan st 0 0 = true →
      s1.takeEntry (s.pan pan).master
        { pan := pan, step := (s.pan pan).step, station := st.idx, mb := 0, slice := 0 } = some (tag, u) →
      exec (.drawIssue pan station us) s = .next (u.drawRun pan tag st d g))) ∧
  (∀ (s : State) (ring : Nat) (pos : U64) (prio : Word) (g : RingSt), s.ring ring = some g →
    let i := bits pos.toNat 63 60
    let k := bits pos.toNat 59 16
    let w := bits pos.toNat 15 0
    let b := g.block i (k % max 1 (stripeBlocks (g.stripe i)))
    let e := mgetD g.index (g.place i k w) {}
    let u := (prioUnits prio.toNat).1
    let e' : IdxEntry := { e with prio := u, leaf := e.leaf + ((u : Int) - e.prio) }
    (i < g.decl.stripes.length → b.st ≠ .empty → b.block = k → w < (g.stripe i).worlds →
      ∃ t, exec (.priorityUpdate ring pos prio) s = .next t ∧ t.epc = s.epc ∧
        t.ring ring = some { g with index := mput g.index (g.place i k w) e' }) ∧
    (g.decl.stripes.length ≤ i ∨ b.st = .empty ∨ b.block ≠ k ∨ (g.stripe i).worlds ≤ w →
      exec (.priorityUpdate ring pos prio) s = .next (s.bump R.EXP_RMISS_STALEPRIO g.loc)))

/-- A move of an object that may move, with a place in the engine, a stub and a destination frame free, installs a
stub in COPYING; one that finds none of a place, a stub or a frame waits. A good copy brings the bytes to the
destination and the move to DRAINING; a source error poisons the object and the move fails. A DRAINED marker applies
the queue, and what the new home held, at the new home and brings the move to REDIRECT, or ends it when it waits for
no boundary. At a stub in COPYING an access is queued and no byte changes; in REDIRECT it is applied at the new home.
-/
def Obligations.MoveRows : Prop :=
  (∀ (s : State) (die engine dst n : Nat) (o : MovObj) (x : ObjAt), die < 16 → engine < 2 → s.objAt o = some x →
    s.moveDead { die, engine, obj := o, dst } = false → s.tier.waits.contains { die, engine, obj := o, dst } = false →
    s.stubs die engine < 512 → s.running die engine < 4 → s.freeFrame x.pan dst = some n →
    exec (.moveStart die engine o dst) s = .next (s.beginMove die engine o x dst n) ∧
    ∃ t m, exec (.moveStart die engine o dst) s = .next t ∧ t.tier.nextMove = s.tier.nextMove + 1 ∧
      mget t.tier.moves s.tier.nextMove = some m ∧ m.st = .copying ∧ m.obj = o ∧ m.srcTier = x.tier ∧
      m.srcAddr = x.addr ∧ m.dstTier = dst ∧ m.dstFrame = n ∧ m.bytes = x.bytes ∧
      m.queue = (s.tier.lifts.filter (fun l => l.1 = o)).map (·.2)) ∧
  (∀ (s : State) (die engine dst : Nat) (o : MovObj) (x : ObjAt), die < 16 → engine < 2 → s.objAt o = some x →
    s.moveDead { die, engine, obj := o, dst } = false → s.tier.waits.contains { die, engine, obj := o, dst } = false →
    (512 ≤ s.stubs die engine ∨ 4 ≤ s.running die engine ∨ s.freeFrame x.pan dst = none) →
    ∃ t, exec (.moveStart die engine o dst) s = .next t ∧ t.mem = s.mem ∧
      t.tier = { s.tier with waits := s.tier.waits ++ [{ die, engine, obj := o, dst }] }) ∧
  (∀ (s : State) (k : Nat) (m : Move), mget s.tier.moves k = some m → m.st = .copying → s.copyWaits m = false →
    m.dstTier ≠ 3 →
    exec (.moveCopyDone k .good) s = .next (s.goodCopy k m) ∧
    (∀ i : Nat, m.obj = .buffer i → m.srcTier ≠ 3 →
      ∃ t m', exec (.moveCopyDone k .good) s = .next t ∧
        t.mem = (s.wrTier m.dstTier m.dstAddr (s.rdTier m.srcTier m.srcAddr m.bytes)).mem ∧
        mget t.tier.moves k = some m' ∧ m'.st = .draining ∧ m'.queue = m.queue)) ∧
  (∀ (s : State) (k : Nat) (m : Move) (l : List Nat), mget s.tier.moves k = some m → m.st = .copying →
    s.copyWaits m = false →
    exec (.moveCopyDone k (.sourceEcc l)) s = .next
      (((s.poisonObj m 2 l).bump R.MOV_ERR_ECC (lDie m.die)).failMove k m)) ∧
  (∀ (s : State) (k : Nat) (m : Move), mget s.tier.moves k = some m → m.st = .draining →
    let v : Move := { m with st := .redirect, queue := [], held := [] }
    let s1 := ((s.applyQueue m.dstTier m.dstAddr m.queue).applyQueue m.dstTier m.dstAddr m.held).modMove k (fun _ => v)
    (m.waitPans ≠ [] → exec (.moveDrained k) s = .next s1.moverFreed) ∧
    (m.waitPans = [] → exec (.moveDrained k) s = .next (s1.dropStub k v))) ∧
  (∀ (s : State) (k : Nat) (m : Move) (a : Access), mget s.tier.moves k = some m → m.st = .copying →
    exec (.stubAccess k a) s = .next ((s.modMove k (fun m => { m with queue := m.queue ++ [a] })).bump
      R.MOV_FWD_QUEUED (lDie m.die))) ∧
  (∀ (s : State) (k : Nat) (m : Move) (a : Access), mget s.tier.moves k = some m → m.st = .redirect →
    ∃ t, exec (.stubAccess k a) s = .next t ∧ t.mem = (s.applyAccess m.dstTier m.dstAddr a).mem ∧
      t.tier.results = (s.applyAccess m.dstTier m.dstAddr a).tier.results ∧ t.tier.moves = s.tier.moves)

/-- A response to an outstanding request that no perturbation concerns ends it and does what the request serves; a
late one is discarded and counted on the die. A request that times out is ended, at its limit, with cause 1h. A legal
memory-side operation of a mapped address that no stub covers stores its result at the address alone, and FETCH_ADD
and CAS return the old bytes. A patrol pass counts itself. The ladle issues the next prefetch entry when it may. -/
def Obligations.TierRows : Prop :=
  (∀ (s : State) (k : Nat) (r : TierReq) (x : MediumResult), mget s.tier.reqs k = some r → r.ended = false →
    s.getF R.TST_PERT1_PAN (lDie r.die) ≠ r.pan →
    exec (.tierResponse k x) s = .next ((s.setReqs (mdel s.tier.reqs k)).respondTier r x)) ∧
  (∀ (s : State) (k : Nat) (r : TierReq) (x : MediumResult), mget s.tier.reqs k = some r → r.ended = true →
    exec (.tierResponse k x) s = .next ((s.setReqs (mdel s.tier.reqs k)).bump R.MOV_ERR_LATE (lDie r.die))) ∧
  (∀ (s : State) (k i : Nat) (r : TierReq), mget s.tier.reqs k = some r → r.ended = false → r.dest = .buffer i →
    ∃ t, exec (.tierTimeout k) s = .next t ∧ t.mem = s.mem ∧ mget t.tier.reqs k = some { r with ended := true } ∧
      r.issued + s.getF R.MOV_LIMIT_TIMEOUT (lDie r.die) * 1000 ≤ t.time ∧ (t.buf i).poison = 1) ∧
  (∀ (s : State) (space off : Nat) (op : MsOp) (e : Elem) (data cmp : List Byte), space = 1 ∨ space = 2 →
    msLegal op e off data.length = true → s.mapped space off data.length = true →
    exec (.memorySideOp space off op e data cmp) s = .next
      ((s.msCount space off data.length).access space off (fun o => .msop 0 o op e data cmp)) ∧
    ((∀ m ∈ s.tier.moves,
        ¬ (m.2.srcTier = space ∧ m.2.srcAddr ≤ off ∧ off < m.2.srcAddr + m.2.bytes) ∧
        ¬ (m.2.dstTier = space ∧ m.2.dstAddr ≤ off ∧ off < m.2.dstAddr + m.2.bytes)) →
      ∃ t, exec (.memorySideOp space off op e data cmp) s = .next t ∧
        t.mem = (s.wrTier space off (msRun op e (s.rdTier space off data.length) data cmp)).mem ∧
        t.tier.results = (if op = .fetchAdd ∨ op = .cas then
          s.tier.results ++ [(0, s.rdTier space off data.length)] else s.tier.results))) ∧
  (∀ (s : State) (die n : Nat), die < 16 →
    ∃ t, exec (.patrolScrub die n) s = .next t ∧ t.mem = s.mem ∧ t.tier = s.tier ∧
      t.getF R.HBM_SCRUB_PASSES (lDie die) = (s.getF R.HBM_SCRUB_PASSES (lDie die) + 1) %
        2 ^ R.HBM_SCRUB_PASSES.w) ∧
  (∀ (s : State) (pan step k : Nat) (d : PrefetchDecl), (s.pan pan).st ≠ .free →
    (s.pan pan).ladleNextIssue = some (step, k, d) →
    exec (.ladlePrefetch pan) s = .next (s.ladleIssue pan step k d))

/-- An allocation takes a free frame and the lowest FREE buffer, whose generation advances, and answers its handle;
without either it waits, counted, and changes no buffer. A free with the handle's generation and pan ends the buffer,
and any other is refused, counted, and frees nothing; a MOVE station gets the status in its result row. A quarantined
buffer is FREE when its quarantine ends. A due relocation moves a block's data; a program failure does too, and
retires the block. -/
def Obligations.BufferRows : Prop :=
  (∀ (s : State) (pan tier bytes n i : Nat) (mv : Bool), (s.pan pan).st ≠ .free → 1 ≤ tier → tier ≤ 3 →
    s.freeFrame pan tier = some n → s.freeBuf = some i →
    ∃ t, exec (.bufferAllocate pan tier bytes mv) s = .next t ∧ t.mem = s.mem ∧ t.csr = s.csr ∧
      t.tier.results = s.tier.results ++ [(i, toLe 8 (t.handle i))] ∧
      t.buf i = { st := .allocated, gen := ((s.buf i).gen + 1) % 2 ^ 20, pan := pan, tier := tier,
                  addr := (s.pan pan).frameAddr tier n, frame := n, bytes := bytes, movable := mv }) ∧
  (∀ (s : State) (pan tier bytes : Nat) (mv : Bool), (s.pan pan).st ≠ .free → 1 ≤ tier → tier ≤ 3 →
    (s.freeFrame pan tier = none ∨ s.freeBuf = none) →
    ∃ t, exec (.bufferAllocate pan tier bytes mv) s = .next t ∧ t.mem = s.mem ∧
      t.tier = { s.tier with bufWaits := s.tier.bufWaits ++ [{ pan, tier, bytes, movable := mv }] }) ∧
  (∀ (s : State) (pan : Nat) (h : U64) (st : Option Nat), s.handleOk pan h.toNat = true →
    exec (.bufferFree pan h st) s = .next ((s.endBuf (bits h.toNat 19 0)).moveResult pan st Status.ok)) ∧
  (∀ (s : State) (pan : Nat) (h : U64), s.handleOk pan h.toNat = false →
    (∀ st : Option Nat, exec (.bufferFree pan h st) s = .next
      (((s.bumpPan R.MOV_PBUF_FREEREF pan).alarm Kind.freeRefused (s.pan pan).job (alarmKey pan h.toNat)).moveResult pan
        st Status.freeRefused)) ∧
    ∃ t, exec (.bufferFree pan h none) s = .next t ∧ t.mem = s.mem ∧ t.tier = s.tier) ∧
  (∀ (s : State) (b : Nat), (s.buf b).st = .quarantine →
    exec (.bufferQuarantineExpiry b) s = .next
      ((s.until (s.buf b).quarAt).setBuf b { s.buf b with st := .free }).poolFreed) ∧
  (∀ (s : State) (fd block : Nat), isFabric fd = true → block < (s.flash fd).raw → s.flashDue fd block = true →
    exec (.flashRelocate fd block) s = .next ((s.setFlash fd ((s.flash fd).relocate block true)).flashWear fd)) ∧
  (∀ (s : State) (fd block : Nat), isFabric fd = true → block < (s.flash fd).raw →
    ∃ t, exec (.flashProgramFail fd block) s = .next t ∧ t.mem = s.mem ∧ ((t.flash fd).block block).retired = true)

/-- A port in TRAINING whose training finds enough lanes is ACTIVE with its peer and lanes; with too few it is
disabled. A port that carries frames and is told to retrain is in RETRAIN; 1 ms after it left ACTIVE it is disabled. A
port whose frames stay unacknowledged for 2 µs replays its buffer. A port with accepted frames not yet acknowledged
acknowledges them. -/
def Obligations.PortRows : Prop :=
  (∀ (s : State) (port : Nat) (tr : PortTraining), port < 32 → s.portState port = PortRun.training →
    (selectLanes tr.goodLanes tr.spareGood).1 ≠ 0 → s.fab.noCredit = [] →
    ∃ t, exec (.portTrained port tr) s = .next t ∧ t.mem = s.mem ∧ t.portState port = PortRun.active ∧
      t.getF R.FAB_PSTAT_LANES (fabLoc port) = (selectLanes tr.goodLanes tr.spareGood).1 % 16 ∧
      t.getF R.FAB_PSTAT_PEER (fabLoc port) = tr.peer % 2 ^ R.FAB_PSTAT_PEER.w) ∧
  (∀ (s : State) (port : Nat) (tr : PortTraining), port < 32 → s.portState port = PortRun.training →
    (selectLanes tr.goodLanes tr.spareGood).1 = 0 → exec (.portTrained port tr) s = .next (s.disablePort port)) ∧
  (∀ (s : State) (port : Nat), port < 32 → s.linkUp port = true →
    ∃ t, exec (.portRetrain port) s = .next t ∧ t.mem = s.mem ∧ t.portState port = PortRun.retrain ∧
      (t.port port).tx = (s.port port).tx ∧ (t.port port).replays = 0) ∧
  (∀ (s : State) (port : Nat), port < 32 → s.portState port = PortRun.retrain →
    exec (.retrainTimeout port) s = .next ((s.until ((s.port port).since + 1000000)).disablePort port)) ∧
  (∀ (s : State) (port : Nat), port < 32 → (s.port port).tx ≠ [] →
    s.portState port = PortRun.active ∨ s.portState port = PortRun.quarantine →
    exec (.replayTimeout port) s = .next ((s.until ((s.port port).since + 2000)).replayFrom port 0)) ∧
  (∀ (s : State) (port : Nat), port < 32 → (s.port port).unacked ≠ 0 →
    ∃ t, exec (.ackDelayExpiry port) s = .next t ∧ t.mem = s.mem ∧ t.csr = s.csr ∧ (t.port port).unacked = 0 ∧
      ∃ pk, t.fab.outbox = s.fab.outbox ++ [{ port := some port, pkt := pk }] ∧ pk.type = 1 ∧
        pk.offset = ((s.port port).rxNext + 2 ^ 24 - 1) % 2 ^ 24)

/-- A frame with a bad CRC on a link that carries frames is counted and answered with a NAK that names the SEQ
awaited; nothing is accepted. A good frame in sequence whose header keeps the rules is accepted; one that breaks a
rule is answered with a NAK and counted as a violation; an old one is acknowledged again, and one that comes too soon
is answered with a NAK of the SEQ awaited. An ACK drops the frames it covers from the buffer. A NAK of the link
replays the buffer from the frame it names. -/
def Obligations.LinkRows : Prop :=
  (∀ (s : State) (port : Nat) (b : List Byte) (cr : Bool), port < 32 →
    s.portState port = PortRun.active ∨ s.portState port = PortRun.quarantine → frameCrcOk b = false →
    ∃ t pk, exec (.frameReceive port b cr) s = .next t ∧ t.mem = s.mem ∧ t.fab.inbox = s.fab.inbox ∧
      t.fab.ports = s.fab.ports ∧ t.fab.outbox = s.fab.outbox ++ [{ port := some port, pkt := pk }] ∧
      pk.type = 2 ∧ pk.op = 1 ∧ pk.offset = (s.port port).rxNext) ∧
  (∀ (s : State) (port : Nat) (b : List Byte) (cr : Bool), port < 32 →
    s.portState port = PortRun.active ∨ s.portState port = PortRun.quarantine → frameCrcOk b = true →
    (readPacket b).type ≠ 1 → (readPacket b).type ≠ 2 → (readPacket b).seq < 2 ^ 24 →
    (readPacket b).seq = (s.port port).rxNext →
    exec (.frameReceive port b cr) s = .next
      (match packetWrong (readPacket b) cr with
       | some r => (s.control port 2 r (readPacket b).seq (readPacket b).tagIdx (readPacket b).tagGen).violation port r
       | none => s.acceptFrame port (readPacket b))) ∧
  (∀ (s : State) (port : Nat) (b : List Byte) (cr : Bool), port < 32 →
    s.portState port = PortRun.active ∨ s.portState port = PortRun.quarantine → frameCrcOk b = true →
    (readPacket b).type ≠ 1 → (readPacket b).type ≠ 2 →
    let d := ((readPacket b).seq + 2 ^ 24 - (s.port port).rxNext) % 2 ^ 24
    (2 ^ 23 ≤ d → exec (.frameReceive port b cr) s = .next (s.sendAck port)) ∧
    (d ≠ 0 → d < 2 ^ 23 →
      exec (.frameReceive port b cr) s = .next (s.control port 2 2 (s.port port).rxNext 0 0))) ∧
  (∀ (s : State) (port seq preempted : Nat), port < 32 →
    let keep := (s.port port).tx.filter (fun x => (seq + 2 ^ 24 - x.1) % 2 ^ 24 ≥ 2 ^ 23)
    keep.length ≠ (s.port port).tx.length → s.fab.noCredit = [] → s.portState port = PortRun.active →
    ∃ t, exec (.ack port seq preempted) s = .next t ∧ t.mem = s.mem ∧
      t.csr = (s.bump R.FAB_PXFER_PREEMPT (fabLoc port) preempted).csr ∧ (t.port port).tx = keep ∧
      (t.port port).replays = 0) ∧
  (∀ (s : State) (port seq reason idx gen : Nat), port < 32 → reason ≠ 6 → reason ≠ 9 → reason ≠ 0xA →
    let i := (s.port port).tx.findIdx (fun f => f.1 = seq)
    i < (s.port port).tx.length →
    exec (.nak port seq reason idx gen) s = .next (s.replayFrom port i))

/-- A request of this device's inbox that keeps the packet rules and is of the source's boot generation, or of a newer
one, is taken from the inbox and meets its stream (a management packet its manager check). Where its ORD is the next
of the stream, nothing is held, no FENCE waits and its range is mapped: a granted READ changes no byte, a granted
WRITE of a device without rings writes its payload at its address and nothing else, and both move the stream to the
next ORD. -/
def Obligations.RequestRows : Prop :=
  (∀ (s s1 s2 : State) (p : Packet) (port : Nat), s.takeIn p = (port, s1) → p.bcast = false →
    let q (ty : Nat) : Packet := { p with type := ty }
    (packetWrong (q 0x10) true = none → s1.bootCheck port (q 0x10) = (s2, true) →
      exec (.read p) s = .next (s2.ordered port (q 0x10))) ∧
    (packetWrong (q 0x20) true = none → s1.bootCheck port (q 0x20) = (s2, true) →
      exec (.write p) s = .next (s2.ordered port (q 0x20))) ∧
    (packetWrong (q 0x22) true = none → s1.bootCheck port (q 0x22) = (s2, true) →
      exec (.msop p) s = .next (s2.ordered port (q 0x22))) ∧
    (packetWrong (q 0x23) true = none → s1.bootCheck port (q 0x23) = (s2, true) →
      exec (.atomic p) s = .next (s2.ordered port (q 0x23))) ∧
    (packetWrong (q 0x2E) true = none → s1.bootCheck port (q 0x2E) = (s2, true) →
      exec (.fence p) s = .next (s2.ordered port (q 0x2E))) ∧
    (packetWrong (q 0x40) true = none → s1.bootCheck port (q 0x40) = (s2, true) →
      exec (.epoch p) s = .next (s2.ordered port (q 0x40))) ∧
    (packetWrong (q 0x60) true = none → s1.bootCheck port (q 0x60) = (s2, true) →
      exec (.telem p) s = .next (s2.ordered port (q 0x60))) ∧
    (packetWrong (q 0x30) true = none → s1.bootCheck port (q 0x30) = (s2, true) →
      exec (.collDone p) s = .next (s2.ordered port (q 0x30))) ∧
    (packetWrong (q 0x70) true = none → s1.bootCheck port (q 0x70) = (s2, true) →
      exec (.mgmt p) s = .next (s2.manage port (q 0x70)))) ∧
  (∀ (s : State) (port : Nat) (p : Packet), (s.ordSt p.src p.vc).next = p.ord → p.ord < 65536 →
    (s.ordSt p.src p.vc).held = [] → s.fab.fences = [] → s.rangeAccess p p.len = .granted →
    s.mapped p.space p.offset p.len = true →
    (p.type = 0x10 → (s.ordered port p).mem = s.mem ∧ ((s.ordered port p).ordSt p.src p.vc).next = (p.ord + 1) % 65536 ∧
      (s.ordered port p).fab.inbox = s.fab.inbox) ∧
    (p.type = 0x20 → p.vc ≠ 5 → s.rings = [] → s.landingAt p.job (p.space * 2 ^ 44 + p.offset) = none →
      (s.ordered port p).mem = (s.wrTier p.space p.offset p.payload).mem ∧
      ((s.ordered port p).ordSt p.src p.vc).next = (p.ord + 1) % 65536))

/-- A response that is no tree acknowledgement and whose TAG index and generation are outstanding ends its request,
and READ_RSP and ATOMIC_RSP hand over their bytes; one whose TAG is not outstanding is dropped and counted in
FAB_STALE.TAG. A request still outstanding RETRY_US after its last sending is sent again. -/
def Obligations.ResponseRows : Prop :=
  (∀ (s s1 s2 : State) (p : Packet) (port : Nat) (r : OutReq), s.takeIn p = (port, s1) → p.bcast = false →
    let q (ty : Nat) : Packet := { p with type := ty }
    let kept (s : State) : State :=
      { s with tier := { s.tier with results := s.tier.results ++ [(p.tagIdx, p.payload)] } }
    mget s2.fab.reqs p.tagIdx = some r → r.pkt.tagGen = p.tagGen →
    (s1.bootCheck port (q 0x11) = (s2, true) → exec (.readRsp p) s = .next ((kept s2).complete p.tagIdx r p.payload)) ∧
    (s1.bootCheck port (q 0x21) = (s2, true) → exec (.writeAck p) s = .next (s2.complete p.tagIdx r p.payload)) ∧
    (s1.bootCheck port (q 0x24) = (s2, true) → exec (.atomicRsp p) s = .next ((kept s2).complete p.tagIdx r p.payload)) ∧
    (s1.bootCheck port (q 0x2F) = (s2, true) → exec (.fenceAck p) s = .next (s2.complete p.tagIdx r p.payload))) ∧
  (∀ (s s1 s2 : State) (p : Packet) (port : Nat), s.takeIn p = (port, s1) → p.bcast = false →
    s1.bootCheck port { p with type := 0x11 } = (s2, true) → mget s2.fab.reqs p.tagIdx = none →
    exec (.readRsp p) s = .next (s2.bump R.FAB_STALE_TAG (lDie (portFd port)))) ∧
  (∀ (s : State) (idx : Nat) (r : OutReq), mget s.fab.reqs idx = some r →
    exec (.requestResend idx) s = .next
      ((s.until (r.last + s.getF R.FAB_LIMIT_RETRY_US (lDie 18) * 1000)).resend idx))

/-- An EXCHANGE station of a released pan whose group is its job's begins its operation when its engine is free; an
ALL_REDUCE or a BROADCAST that PATH sends to the whistle becomes a whistle operation instead. ALL_TO_ALL_V exchanges
its counts over the whistle where they fit and the ring works, and over the fabric otherwise. A BARRIER issues a
whistle operation with its bit; a whistle operation of a station is issued with an entry of the scoreboard of the
station's die. A BARRIER that carries an adoption vote is issued at once. -/
def Obligations.ExchangeStarts : Prop :=
  (∀ (s : State) (pan station : Nat) (d : StationDecl) (c : ExchDecl) (g : GroupSt),
    (s.exchStation pan station 0 = some (d, c, g) → s.engineBusy c.stage.1 c.engine = false →
      exec (.allToAll pan station) s = .next (s.beginExch pan station c g none)) ∧
    (s.exchStation pan station 2 = some (d, c, g) → (onWhistle c = true ∨ s.engineBusy c.stage.1 c.engine = false) →
      exec (.allReduce pan station) s = .next
        (if onWhistle c = true then s.whistleExch pan station d c g else s.beginExch pan station c g none)) ∧
    (s.exchStation pan station 3 = some (d, c, g) → s.engineBusy c.stage.1 c.engine = false →
      exec (.reduceScatter pan station) s = .next (s.beginExch pan station c g none)) ∧
    (s.exchStation pan station 4 = some (d, c, g) → s.engineBusy c.stage.1 c.engine = false →
      exec (.allGather pan station) s = .next (s.beginExch pan station c g none)) ∧
    (s.exchStation pan station 5 = some (d, c, g) → (onWhistle c = true ∨ s.engineBusy c.stage.1 c.engine = false) →
      exec (.broadcast pan station) s = .next
        (if onWhistle c = true then s.whistleExch pan station d c g else s.beginExch pan station c g none)) ∧
    (∀ counts : List Nat, s.exchStation pan station 1 = some (d, c, g) → s.engineBusy c.stage.1 c.engine = false →
      let l := fitCounts g.devices.length counts
      let s1 := (s.beginExch pan station c g (some l)).deadMembers (exchKey pan station)
      exec (.allToAllV pan station counts) s = .next
        (if g.devices.length * c.countw ≤ 256 ∧ g.oneRing = true ∧ s1.ringWorks 0 = true then
          (s1.bump R.COL_COUNTS_WHISTLE (lDie c.stage.1)).issueWop g
            (countOp pan station (packRow c.countw (clampCounts c.countw l)))
         else s1.countsOverFabric (exchKey pan station))) ∧
    (∀ b : Bool, s.adoptionVote pan station = none → s.exchStation pan station 6 = some (d, c, g) →
      exec (.barrier pan station b) s = .next
        (s.stationWop pan d c g (barrierOp pan station (c.purpose % 3) (s.barrierBit g.job c b))))) ∧
  (∀ (s u : State) (pan tag : Nat) (d : StationDecl) (c : ExchDecl) (g : GroupSt) (o : WOp),
    s.mayIssue c.stage.1 pan d 0 0 = true →
    s.takeEntry c.stage.1 { pan := pan, step := (s.pan pan).step, station := d.idx, mb := 0, slice := 0 }
      = some (tag, u) → s.stationWop pan d c g o = u.issueWop g { o with tag := some tag }) ∧
  (∀ (s : State) (pan station : Nat) (b : Bool) (g : GroupSt), s.adoptionVote pan station = some g →
    exec (.barrier pan station b) s = .next
      ((s.modCkp g.job (fun k => { k with voted := true })).issueWop g (barrierOp pan station 3 true)))

/-- A frame on a ring in training or service runs the member's slot; on a ring that is DOWN or falls back nothing
moves. A cell more than 1,000 ps early or 2,100 ps late is discarded and counted as lost, and marks an edge event. A
position of which the master heard nothing is DEAD in its bitmap after 1 ms. The lowest live position other than the
old master takes the ring, with a new term. A ring that does not finish training, or is told to fall back, is in
FALLBACK, and one in FALLBACK whose retraining succeeds is RUNNING. -/
def Obligations.RingStateRows : Prop :=
  (∀ (s : State) (level : Nat), level < 3 → s.onRing level = true →
    (s.ringState level = RingRun.training ∨ s.ringState level = RingRun.running ∨ s.ringState level = RingRun.degraded →
      exec (.frameStart level) s = .next (s.frameStart level)) ∧
    (s.ringState level = RingRun.down ∨ s.ringState level = RingRun.fallback → exec (.frameStart level) s = .next s)) ∧
  (∀ (s : State) (level slot : Nat) (b : List Byte) (off : Int), level < 3 → s.onRing level = true →
    s.ringState level ≠ RingRun.down → s.ringState level ≠ RingRun.fallback →
    (off < -1000 ∨ 2100 < off →
      ∃ t, exec (.cellReceive level slot b off) s = .next t ∧ t.mem = s.mem ∧ t.epc = s.epc ∧ t.hcx = s.hcx ∧
        (t.wring level).edge = true ∧ slot ∈ (t.wring level).lost ∧
        t.getF R.LLP_EDGE_LOST (lRing level) = R.LLP_EDGE_LOST.plus (s.getF R.LLP_EDGE_LOST (lRing level)) 1) ∧
    (-1000 ≤ off → off ≤ 2100 → cellCrcOk b = false →
      ∃ t, exec (.cellReceive level slot b off) s = .next t ∧ t.mem = s.mem ∧ t.epc = s.epc ∧ t.hcx = s.hcx ∧
        (t.wring level).edge = (s.wring level).edge ∧ slot ∈ (t.wring level).lost)) ∧
  (∀ (s : State) (level pos : Nat), level < 3 → pos < 64 → s.isMaster level = true → s.deadAt level pos = false →
    pos ≠ s.ringPos level → s.ringState level = RingRun.running ∨ s.ringState level = RingRun.degraded →
    exec (.whistleDeadTimeout level pos) s = .next
      (let s1 := s.until (mgetD (s.wring level).lastHeard pos 0 + 1000000)
       let s2 := (s1.alarm Kind.deviceDead 0xFF (alarmKey ((s1.ringDevice level pos).getD s1.device) (level * 64 + pos))).modWring
         level (fun w => { w with ctrlDue := true })
       s2.setMaps level (s2.getF R.LLP_DEAD_POSITIONS (lRing level) ||| 2 ^ pos) (s2.getF R.LLP_BYPASS_POSITIONS (lRing level)))) ∧
  (∀ (s : State) (level p : Nat), level < 3 →
    s.ringState level = RingRun.running ∨ s.ringState level = RingRun.degraded →
    let s1 := s.until ((s.wring level).lastFrame + 10000)
    lowest (s1.getF R.LLP_RSTAT_MEMBERS (lRing level))
      (fun p => p ≠ s.getF R.LLP_RSTAT_MASTER (lRing level) && !s1.deadAt level p) = some p →
    ∃ t, exec (.masterElection level) s = .next t ∧ t.mem = s.mem ∧ t.epc = s.epc ∧ t.hcx = s.hcx ∧
      t.getF R.LLP_RSTAT_MASTER (lRing level) = p % 2 ^ R.LLP_RSTAT_MASTER.w ∧
      t.getF R.LLP_RSTAT_TERM (lRing level) = (s1.getF R.LLP_RSTAT_TERM (lRing level) + 1) % 2 ^ 32) ∧
  (∀ (s : State) (level : Nat), level < 3 →
    (s.ringState level = RingRun.training → exec (.ringTrainingTimeout level) s = .next (s.fallBack level)) ∧
    (s.ringState level = RingRun.running ∨ s.ringState level = RingRun.degraded →
      exec (.ringFallback level) s = .next (s.fallBack level)) ∧
    (s.ringState level = RingRun.fallback →
      exec (.ringRetrainTimer level true) s = .next (s.ringTo level RingRun.running) ∧
      exec (.ringRetrainTimer level false) s = .next s)) ∧
  (∀ (s : State) (level : Nat) (p : Packet), level < 3 →
    exec (.whistleFb level p) s = .next (s.fbIn level p.src p.job (readCell p.payload)))

/-- On a port that is up, a well-formed frame of a world attached there with its generation is taken: an observation
fragment joins its observation, a HELLO that states the schedule starts an ATTACHING world at the next tick, a STOP
takes a RUNNING or HOLDING world to SPINDOWN, a SYNC is answered with a SYNC of the coming tick. A frame of a world
that is not attached is refused with reason 6h and changes no world's state but its violation count. -/
def Obligations.WorldFrameRows : Prop :=
  (∀ (s : State) (port time : Nat) (f : WpFrame), port < 8 → s.portUp port = true → f.type = 2 →
    let s1 := (s.until time).bump R.WPT_PCNT_RX (portLoc port)
    s1.badFrame port f = false →
    ((s.world f.world).st ≠ .detached → (s.world f.world).sched.port = port → (s.world f.world).gen = f.wgen →
      exec (.obs port time f) s = .next (s1.rxObs port time f)) ∧
    ((s.world f.world).st = .detached → exec (.obs port time f) s = .next (s1.refuseFrame port f 6))) ∧
  (∀ (s : State) (port time : Nat) (f : WpFrame), port < 8 → s.portUp port = true → s.badFrame port f = false →
    (s.world f.world).st ≠ .detached → (s.world f.world).sched.port = port → (s.world f.world).gen = f.wgen →
    (f.type = 1 → exec (.hello port time f) s = .next ((s.until time).rxHello port time f)) ∧
    (f.type = 5 → exec (.partnerStop port time f) s = .next ((s.until time).spinWorld f.world)) ∧
    (f.type = 7 → (s.world f.world).ticking = true ∨ (s.world f.world).st = .stopped →
      exec (.partnerSync port time f) s = .next ((s.until time).sendSync f.world (tickAfter (s.world f.world).sched time)))) ∧
  (∀ (s : State) (port time : Nat) (f : WpFrame), port < 8 → s.portUp port = true → f.version ≠ 1 → f.type ≠ 2 →
    exec (.hello port time f) s = .next ((s.until time).refuseFrame port f 1) ∧
    exec (.partnerStop port time f) s = .next ((s.until time).refuseFrame port f 1) ∧
    exec (.partnerSync port time f) s = .next ((s.until time).refuseFrame port f 1))

/-- A complete observation of one fragment that is newer than the last admitted one and arrives in the window of its
tick becomes the world's good observation, with its SEQ, full tick number, AUX, reward and data; the SEQs skipped are
counted as a gap, silence ends, and neither memory nor any other world changes. -/
def Obligations.ObservationAdmitted : Prop :=
  ∀ (s : State) (port time : Nat) (f : WpFrame), port < 8 → s.portUp port = true → f.type = 2 → f.version = 1 →
    f.frag = 0 → f.lastFrag = true → f.len = f.body.length → f.len = (s.world f.world).sched.obsBytes →
    (s.world f.world).st ≠ .detached → (s.world f.world).st ≠ .stopped → (s.world f.world).sched.port = port →
      (s.world f.world).gen = f.wgen →
    (s.world f.world).parts = [] → (∀ g, (s.world f.world).good = some g → g.seq < f.seq) →
    (s.world f.world).inWindow ((s.world f.world).fullTick time f.tick) time = true →
    ∃ t, exec (.obs port time f) s = .next t ∧ t.mem = s.mem ∧ t.wpt.sent = s.wpt.sent ∧
      (∀ i, i ≠ f.world → t.world i = s.world i) ∧
      t.world f.world = { s.world f.world with
        good := some { seq := f.seq, tick := (s.world f.world).fullTick time f.tick, aux := f.aux, reward := f.ref
                       data := f.body }
        anyAdmitted := true, lastAdmitTick := (s.world f.world).fullTick time f.tick, silence := 0
        gap := min ((s.world f.world).gap + match (s.world f.world).good with
          | some g => f.seq - g.seq - 1
          | none => 0) 65535 }

/-- When the window of a tick closes, an assembly still missing fragments is dropped and answered INCOMPLETE. An
ATTACHING world repeats its HELLO, and is detached with TIMEOUT 1 s after its attach. A RUNNING world that reaches
MISSLIM with its last frame holds; a HOLDING one that reaches HOLDLIM, or one silent for SILENCE ticks, spins down.
After the last ramp frame STOP is latched and sent. A detached world's index leaves quarantine. A port's link goes up
or down, and foreign frames are counted. -/
def Obligations.WorldTimerRows : Prop :=
  (∀ (s : State) (world tick : Nat), world < 16384 → (∀ p ∈ (s.world world).parts, p.tick ≠ tick % 2 ^ 32) →
    ∃ t, exec (.obsWindowClose world tick) s = .next t ∧ t.mem = s.mem ∧ t.csr = s.csr ∧
      t.world world = s.world world) ∧
  (∀ (s : State) (world tick : Nat) (p : ObsPart), world < 16384 → (s.world world).parts = [p] →
    p.tick = tick % 2 ^ 32 →
    let w := s.world world
    exec (.obsWindowClose world tick) s = .next
      (((s.until ((tickStart w.sched tick : Int) + w.sched.obsClose).toNat).modWorld world (fun w =>
        { w with parts := [] })).refuseFrame w.sched.port { world := world, wgen := w.gen, seq := p.seq, tick := p.tick } 5)) ∧
  (∀ (s : State) (world : Nat), world < 16384 → (s.world world).st = .attaching →
    exec (.helloTimer world) s = .next (s.sendHello world) ∧
    exec (.attachTimeout world) s = .next
      (((s.until ((s.world world).attachAt + 1000000000)).endAttach world Status.timeout).dropAttach world)) ∧
  (∀ (s : State) (world : Nat), world < 16384 →
    ((s.world world).st = .running → (s.world world).lastMissed = true →
      s.wptLimit (s.world world) R.WPT_LIMIT_MISSLIM ≤ (s.world world).consec →
      ∃ t, exec (.missLimit world) s = .next t ∧ t.mem = s.mem ∧ t.csr = s.csr ∧
        t.world world = { s.world world with st := .holding, holdTicks := 0 }) ∧
    ((s.world world).st = .holding → s.wptLimit (s.world world) R.WPT_LIMIT_HOLDLIM ≤ (s.world world).holdTicks →
      ∃ t, exec (.holdLimit world) s = .next t ∧ t.mem = s.mem ∧ t.csr = s.csr ∧
        t.world world = { s.world world with st := .spindown, rampTick := 0 }) ∧
    ((s.world world).st = .running ∨ (s.world world).st = .holding →
      s.wptLimit (s.world world) R.WPT_LIMIT_SILENCE ≤ (s.world world).silence →
      ∃ t, exec (.silenceLimit world) s = .next t ∧ t.mem = s.mem ∧ t.csr = s.csr ∧
        t.world world = { s.world world with st := .spindown, rampTick := 0 })) ∧
  (∀ (s : State) (world : Nat) (l : Latched) (r : List Latched), world < 16384 → (s.world world).st = .spindown →
    (s.world world).sched.ramp ≤ (s.world world).rampTick → (s.world world).latched = l :: r → l.type ≠ 5 →
    l.ramp = true → l.sent = true →
    exec (.rampEnd world) s = .next
      (((s.until (sendAt (s.world world).sched (l.tick + 1))).latchFrame world (l.tick + 1)).sendLatched world (l.tick + 1))) ∧
  (∀ (s : State) (world : Nat), world < 16384 → (s.world world).st = .detached → (s.world world).quarAt ≠ 0 →
    ∃ t, exec (.worldQuarantineExpiry world) s = .next t ∧ t.mem = s.mem ∧ t.csr = s.csr ∧
      t.time = max s.time (s.world world).quarAt ∧ t.world world = { s.world world with quarAt := 0 }) ∧
  (∀ (s : State) (port : Nat) (up pre : Bool), port < 8 → s.unitOut (portDie port) 0x18 (port % 4) = false →
    ∃ t, exec (.worldPortLink port up pre) s = .next t ∧ t.mem = s.mem ∧ t.wpt = s.wpt ∧
      t.getF R.WPT_PSTAT_STATE (portLoc port) = (if up = true then 2 else 0) ∧
      t.getB R.WPT_PSTAT_PREEMPT (portLoc port) = (up && pre)) ∧
  (∀ (s : State) (port : Nat) (k : ForeignFrame), port < 8 → s.portUp port = true →
    exec (.worldPortForeignFrame port k) s = .next (s.bump (match k with
      | .badFcs => R.WPT_PERR_FCS
      | .pauseOrPfc => R.WPT_PERR_PAUSE
      | .otherEthertype => R.WPT_PERR_OTHERTYPE
      | .reassembled => R.WPT_PERR_PREEMPTED) (portLoc port)))

/-- The frame of a tick not latched before is latched once, as the world's state then gives it. At a send time the
worlds of the port that send then are latched and sent in ascending order, and the last of its window sends the
repeats. The row of a port world that waits at the PORT station of its pan is taken, as an operation of the boundary
master's die that retires, and gets its verdict: one that is taken before its cutoff, not poisoned and, for a live
world, of a CONFIRMED epoch is accepted as the pending action; one taken at its cutoff or later is counted stale. -/
def Obligations.WorldSendRows : Prop :=
  (∀ (s : State) (world tick : Nat), world < 16384 → (s.world world).ticking = true → (s.world world).firstTick ≤ tick →
    (s.world world).st ≠ .spindown → (s.world world).latchedFor tick = none →
    ∃ t, exec (.frameLatch world tick) s = .next t ∧ t.mem = s.mem ∧ t.csr = s.csr ∧ t.wpt.sent = s.wpt.sent ∧
      t.time = max s.time (latchAt (s.world world).sched tick) ∧
      (t.world world).latched =
        (s.world world).frameFor tick (latchAt (s.world world).sched tick) :: (s.world world).latched) ∧
  (∀ (s : State) (port time world k : Nat), port < 8 → s.sendersAt port time = [(world, k)] →
    let s1 := ((s.until time).latchFrame world k).sendLatched world k
    exec (.sendTime port time) s = .next (if s1.lastInWindow port time = true then s1.sendRepeats port time else s1)) ∧
  (∀ (s u : State) (pan world time tag : Nat) (g : ObsGood) (st : StationDecl) (d : StreamDecl) (r : Row), world < 16384 →
    (s.world world).given = some g → (s.world world).pan = pan → (s.world world).row = true →
    (s.world world).st ≠ .detached → s.portRow pan (s.world world).inPan = some (st, d, r) →
    let die := (s.pan pan).master
    s.mayIssue die pan st r.hdr.mb r.hdr.slice = true →
    (s.until time).takeEntry die
      { pan := pan, step := (s.pan pan).step, station := st.idx, mb := r.hdr.mb, slice := r.hdr.slice } = some (tag, u) →
    exec (.actionVerdict pan world time) s = .next
      ((((u.codeEntry die tag actCode).takeThe pan d.idx st.idx d
          (fun x => x.hdr.mb == r.hdr.mb && rowNum x == rowNum r)).giveVerdict world time g r).freeEntry die
        (tag % 4096))) ∧
  (∀ (s : State) (world time : Nat) (g : ObsGood) (r : Row),
    let w := s.world world
    let cutoff := latchAt w.sched (g.tick + w.sched.age)
    let code := s.verdictCode w time cutoff r.hdr.epoch (decide (r.cause ≠ 0))
    (code = 0 → s.giveVerdict world time g r = s.acceptAct world g r.data ∧ time < cutoff ∧ r.cause = 0) ∧
    (code = 1 → s.giveVerdict world time g r =
      (s.modWorld world (fun w => { w with
        stale := min (w.stale + 1) 65535
        verdict := some { code := 1, payload := w.appliedAt (min time cutoff) } })).worldEvent
          w.sched.port R.WPT_WMISS_STALE))

/-- A Sync at a host die that is no grandmaster locks it and records the offset, and corrects TIME where gPTP is its
source. A die that loses its lock holds over, with the alarm. TIME of the fabric's master locks TIME where another
device is the master, and the master sends its own. While a host die is locked, the pulse comes at the next whole
second of TIME and stands 1 µs. -/
def Obligations.TimeRows : Prop :=
  (∀ (s : State) (hd : Nat) (off : Int), hd < 2 → s.getB R.WPT_TSYNC_GM (lDie (16 + hd)) = false →
    let s1 := ((s.setF R.WPT_TSYNC_LOCKED (lDie (16 + hd)) 1).setF R.WPT_TSYNC_HOLDOVER (lDie (16 + hd)) 0).setF
      R.WPT_TSYNC_OFFSET_NS (lDie (16 + hd)) (uInt 32 (-off))
    (s.getF R.CLK_TSRC_SRC lKeep ≠ 1 → exec (.gptpSync hd off) s = .next s1) ∧
    (s.getF R.CLK_TSRC_SRC lKeep = 1 → exec (.gptpSync hd off) s = .next
      ((s1.setF R.CLK_TSTAT_LOCKED lKeep 1).correct (-off)))) ∧
  (∀ (s : State) (hd : Nat), hd < 2 → s.getB R.WPT_TSYNC_LOCKED (lDie (16 + hd)) = true →
    let s1 := (s.setF R.WPT_TSYNC_LOCKED (lDie (16 + hd)) 0).setF R.WPT_TSYNC_HOLDOVER (lDie (16 + hd)) 1
    exec (.timeHoldover hd) s = .next
      ((if s.getF R.CLK_TSRC_SRC lKeep = 1 then s1.setF R.CLK_TSTAT_LOCKED lKeep 0 else s1).alarm Kind.timeHoldover 0xFF
        (alarmKey (16 + hd) 0))) ∧
  (∀ (s : State) (time half : Nat), s.getF R.CLK_TSRC_SRC lKeep = 2 → s.getF R.CLK_TSRC_MASTER lKeep = s.device →
    exec (.fabricTime s.device time half) s = .next s.sendTimeOut) ∧
  (∀ (s : State) (src time half : Nat), s.getF R.CLK_TSRC_SRC lKeep = 2 → s.getF R.CLK_TSRC_MASTER lKeep = src →
    src ≠ s.device →
    exec (.fabricTime src time half) s = .next ((s.setF R.CLK_TSTAT_LOCKED lKeep 1).correct ((time + half : Nat) - (s.time : Int)))) ∧
  (∀ (s : State), s.getB R.WPT_TSYNC_LOCKED (lDie 16) = true ∨ s.getB R.WPT_TSYNC_LOCKED (lDie 17) = true →
    let k := (s.time + 999999999) / 1000000000 * 1000000000
    exec .ppsPulse s = .next { s with
      time := k, clk := { s.clk with pps := s.clk.pps + 1, ppsUntil := k + 1000 } })

/-- A doorbell value below the depth becomes the pair's tail or head; another changes neither, and is recorded and
counted where the log has room for it. The steward takes the entry of the pair whose turn it is: the head advances,
the command is recorded and waits, or completes at once with the status the checks give. A FENCE command waits for the
earlier ones of its queue. A command that has not begun completes with TIMEOUT when its time is over. -/
def Obligations.QueueRows : Prop :=
  (∀ (s : State) (pair v : Nat), pair < 64 →
    (v < s.qDepth pair →
      (∃ t, exec (.submissionDoorbell pair v) s = .next t ∧ t.mem = s.mem ∧ t.csr = s.csr ∧
        t.queueOf pair = { s.queueOf pair with sqTail := v } ∧ ∀ q, q ≠ pair → t.queueOf q = s.queueOf q) ∧
      exec (.completionDoorbell pair v) s = .next ((s.setQueue pair { s.queueOf pair with cqHead := v }).flushComps)) ∧
    (s.qDepth pair ≤ v →
      ∃ t u, exec (.submissionDoorbell pair v) s = .next t ∧ exec (.completionDoorbell pair v) s = .next u ∧
        t.queueOf pair = s.queueOf pair ∧ u.queueOf pair = s.queueOf pair ∧ t.mem = s.mem ∧ u.mem = s.mem) ∧
    (s.qDepth pair ≤ v → s.roomNow [16 + pair / 32] (4, pair) = true →
      exec (.submissionDoorbell pair v) s = .next (s.badDoorbell pair (pair % 32 * 16) v (s.queueOf pair).sqTail) ∧
      exec (.completionDoorbell pair v) s = .next
        (s.badDoorbell pair (pair % 32 * 16 + 8) v (s.queueOf pair).cqHead))) ∧
  (∀ (s : State) (pair : Nat) (e : List Byte) (fw : Bool), pair < 64 → s.nextPair = some pair →
    s.auditRoom (16 + pair / 32) = true → s.stewardUp = true →
    (bit (fieldAt e 1 1) 0 = true → s.getF R.HCX_QSTAT_INFLIGHT (pairLoc pair) ≠ 0 →
      exec (.commandTake pair e fw) s = .next { s with hcx := { s.hcx with turn := pair } }) ∧
    (bit (fieldAt e 1 1) 0 = false ∨ s.getF R.HCX_QSTAT_INFLIGHT (pairLoc pair) = 0 →
      exec (.commandTake pair e fw) s = .next
        (s.take pair (fitTo 64 e) (s.isKeeper (pair / 32) || (fw && s.keeper.isSome))))) ∧
  (∀ (s : State) (r : CmdRef) (c : Cmd), s.cmdOf r = some c → c.begun = false →
    exec (.commandTimeout r) s = .next
      ((s.until (c.takenAt + s.getF R.HCX_CMDLIM_MS (lDie (16 + c.ref.pair / 32)) * 1000000)).finish c 0x08 0 0))

/-- A load whose checks fail is recorded and refused, and applies nothing. One that passes is recorded and applied: a
whole load to the device, a per-pan load to its pan, a resize at its pan's boundary. An image whose weight set is not
the job's is STALE, and a header that fails is refused. A blob that holds no key of its kind is refused; a good one
with a free slot is added. LOCK locks the blocks named and answers the number newly locked. -/
def Obligations.LoadRows : Prop :=
  (∀ (s : State) (r : CmdRef) (i : Image) (c : Cmd), s.cmdOf r = some c → c.op = 0x01 → s.mayBegin c = true →
    let x := imageContent i
    (c.loadPan = 0xFF →
      (∀ f, s.wholeFail i c.loadLen = some f → exec (.wholeLoad r i) s = .next (s.loadRefused c i 0xFF f)) ∧
      (s.wholeFail i c.loadLen = none → s.underTest x.1.pans = false →
        exec (.wholeLoad r i) s = .next
          ((((s.loadPassed c i 0xFF x.2).applyWhole (cmdOrigin r) x.1).keepDigest i).finish (c.withClamps x) 0x00 0 0))) ∧
    (c.loadPan ≠ 0xFF → c.resizes = false →
      (∀ f, s.perPanFail i c.loadLen c.loadPan c.job = some f →
        exec (.perPanLoad r i) s = .next (s.loadRefused c i c.job f)) ∧
      (s.perPanFail i c.loadLen c.loadPan c.job = none → s.underTest x.1.pans = false →
        exec (.perPanLoad r i) s = .next
          ((forEach x.1.pans (s.loadPassed c i c.job x.2) (fun s (d : PanDecl) =>
            s.applyPerPan (cmdOrigin r) x.1 d)).finish (c.withClamps x) 0x00 0 0))) ∧
    (c.loadPan ≠ 0xFF → c.resizes = true → (s.pan c.loadPan).resize = none →
      (∀ f, s.resizeFail i c.loadLen c.loadPan c.job = some f →
        exec (.resize r i) s = .next (s.loadRefused c i c.job f)) ∧
      (s.resizeFail i c.loadLen c.loadPan c.job = none → s.underTest x.1.pans = false →
        exec (.resize r i) s = .next ((s.loadPassed c i c.job x.2).beginResize (c.withClamps x) x.1)))) ∧
  (∀ (s : State) (r : CmdRef) (h : List Byte) (c : Cmd) (w : WSet), s.cmdOf r = some c → c.op = 0x02 →
    s.mayBegin c = true →
    s.epc.img = none → s.wset (fieldAt c.params 16 1) = some w →
    let ws := fieldAt c.params 16 1
    (w.job ≠ c.job → exec (.imageLoad r h) s = .next (s.finish c 0x03 0 0)) ∧
    (w.job = c.job → fieldAt c.params 17 1 ≠ 0xFF →
      exec (.imageLoad r h) s = .next (s.copyBase c ws (fieldAt c.params 17 1) w)) ∧
    (w.job = c.job → fieldAt c.params 17 1 = 0xFF →
      exec (.imageLoad r h) s = .next
        (match s.headerFail (fitTo 512 h) (fieldAt c.params 8 8) ws (hdrPart c.params 18 8) w with
         | some e => s.imageRefused c ws e w
         | none => s.imageBegin c ws (fitTo 512 h) ((contentKey (fitTo 512 h)).getD []) w))) ∧
  (∀ (s : State) (r : CmdRef) (b : List Byte) (c : Cmd), s.cmdOf r = some c → c.op = 0x03 → s.mayBegin c = true →
    1 ≤ fieldAt c.params 12 1 → fieldAt c.params 12 1 ≤ 4 →
    (s.blobKey (fieldAt c.params 12 1) (b.take (fieldAt c.params 8 4)) = none →
      exec (.keyLoad r b) s = .next ((s.bump R.SEC_KEYS_FAILS (lDie 16)).finish c 0x06 0 0)) ∧
    (∀ k, s.blobKey (fieldAt c.params 12 1) (b.take (fieldAt c.params 8 4)) = some k → s.freeKey.isSome = true →
      exec (.keyLoad r b) s = .next ((s.addKey (cmdOrigin r) k).finish c 0x00 0 0))) ∧
  (∀ (s : State) (r : CmdRef) (c : Cmd), s.cmdOf r = some c → c.op = 0x15 → s.mayBegin c = true →
    exec (.lock r) s = .next
      ((s.lockBlocks (cmdOrigin r) (fieldAt c.params 0 4)).finish c 0x00 (s.newLocks (fieldAt c.params 0 4)).length 0))

/-- JOB_CREATE takes the lowest free index, or answers NO_RESOURCE when there is none or the client has its MAXJOBS.
JOB_START runs a job in STEP_HOLD whose pans are all FENCED, and refuses another. JOB_STOP of a RUNNING job takes it
to STEP_HOLD and quiesces its pans. JOB_DESTROY spins the job's worlds down and quiesces the pans first. A freed index
leaves its quarantine. SEQ_CANCEL of a stale name is counted and has no other effect. -/
def Obligations.JobRows : Prop :=
  (∀ (s : State) (r : CmdRef) (c : Cmd), s.cmdOf r = some c → s.mayBegin c = true →
    (c.op = 0x04 → s.freeJob = none → exec (.jobCreate r) s = .next (s.finish c 0x02 0 0)) ∧
    (∀ i, c.op = 0x04 → s.freeJob = some i →
      (s.getF R.HCX_CLIENT_MAXJOBS (lKeepI c.client) ≤ s.clientJobs c.client →
        exec (.jobCreate r) s = .next (s.finish c 0x02 0 0)) ∧
      (s.clientJobs c.client < s.getF R.HCX_CLIENT_MAXJOBS (lKeepI c.client) →
        exec (.jobCreate r) s = .next
          (((s.setJob i { st := (s.job i).st, gen := max (s.job i).gen 1, client := c.client
                          seed := BitVec.ofNat 64 (fieldAt c.params 0 8), share := bit (fieldAt c.params 8 1) 0 }).jobTo i
            .created).finish c 0x00 i (max (s.job i).gen 1)))) ∧
    (c.op = 0x05 →
      ((s.job c.job).st = .stepHold → (∀ p ∈ s.jobPans c.job, (s.pan p).st = .fenced) →
        exec (.jobStart r) s = .next
          ((forEach ((s.jobTo c.job .running).jobPans c.job) (s.jobTo c.job .running) State.startPan).finish c 0x00 0 0)) ∧
      ((s.job c.job).st ≠ .stepHold → exec (.jobStart r) s = .next (s.finish c 0x06 0 0))) ∧
    (c.op = 0x06 →
      ((s.job c.job).st = .running → exec (.jobStop r) s = .next
        (((((s.jobTo c.job .stepHold).quiesceJob c.job).modJob c.job
          (fun b => { b with stopCmd := some r })).beginCmd c).stopIfReady c.job)) ∧
      ((s.job c.job).st ≠ .running → (∀ p ∈ s.jobPans c.job, (s.pan p).st ≠ .quiescing) →
        exec (.jobStop r) s = .next (s.finish c 0x00 0 0))) ∧
    (c.op = 0x07 → (s.job c.job).destroyCmd = none →
      ((s.job c.job).counts = true → exec (.jobDestroy r) s = .next
        (((((s.modJob c.job (fun b => { b with destroyCmd := some r })).beginCmd c).spinWorlds c.job).quiesceJob
          c.job).destroyIfReady c.job)) ∧
      ((s.job c.job).counts = false → exec (.jobDestroy r) s = .next (s.finish c 0x03 0 0)))) ∧
  (∀ (s : State) (i : Nat), i < 256 →
    ((s.job i).counts = false → (s.job i).quarAt ≠ 0 →
      exec (.indexQuarantineExpiry true i) s = .next
        ((s.until (s.job i).quarAt).setJob i { s.job i with quarAt := 0 })) ∧
    ((s.pan i).st = .free → (s.pan i).quarAt ≠ 0 →
      exec (.indexQuarantineExpiry false i) s = .next
        ((s.until (s.pan i).quarAt).setPan i { s.pan i with quarAt := 0 }))) ∧
  (∀ (s : State) (r : CmdRef) (c : Cmd), s.cmdOf r = some c → c.op = 0x11 → s.mayBegin c = true →
    let i := fieldAt c.params 0 2
    ((s.seq i).live = true → (s.seq i).gen = fieldAt c.params 2 4 → (s.pan (s.seq i).pan).job = c.job →
      exec (.seqCancel r) s = .next ((s.cancelSeq i).finish c 0x00 0 0)) ∧
    ((s.seq i).gen ≠ fieldAt c.params 2 4 → exec (.seqCancel r) s = .next
      ((s.bump R.ATT_WALK_STALE (lDie (s.pan (s.seq i).pan).master)).finish c 0x03 0 0)))

/-- WORLD_ATTACH to a pan of the job with its schedule attaches a world; without the schedule it is refused.
WORLD_STOP takes a served world to SPINDOWN. WORLD_DETACH detaches a STOPPED world and refuses another. PUBLISH
releases the publishing stage of the commanded pan. RETRACT retracts a DRAFT or PROVISIONAL epoch and refuses one in
another state. SNAPSHOT of an epoch not CONFIRMED is refused. A name that is not the job's is STALE. -/
def Obligations.WorldAndEpochCommands : Prop :=
  (∀ (s : State) (r : CmdRef) (c : Cmd), s.cmdOf r = some c → s.mayBegin c = true →
    (∀ d, c.op = 0x08 → mget s.wpt.scheds (c.job * 65536 + fieldAt c.params 0 2) = some d →
      (s.pan (fieldAt c.params 2 1)).st ≠ .free → (s.pan (fieldAt c.params 2 1)).job = c.job → d.live = false →
      exec (.worldAttach r) s = .next (s.attachWorld c d (fieldAt c.params 2 1))) ∧
    (c.op = 0x08 → mget s.wpt.scheds (c.job * 65536 + fieldAt c.params 0 2) = none →
      exec (.worldAttach r) s = .next (s.finish c 0x06 0 0)) ∧
    (∀ w, c.op = 0x09 → s.namedWorld c = some w → w.st = .running ∨ w.st = .holding →
      exec (.worldStop r) s = .next
        (((s.beginCmd c).modWorld (fieldAt c.params 0 2) (fun w => { w with stopCmds := w.stopCmds ++ [c.ref] })).spinWorld
          (fieldAt c.params 0 2))) ∧
    (∀ w, c.op = 0x09 → s.namedWorld c = some w → w.st = .stopped →
      exec (.worldStop r) s = .next (s.finish c 0x00 0 0)) ∧
    (∀ w, c.op = 0x0A → s.namedWorld c = some w →
      exec (.worldDetach r) s = .next
        (if w.st = .stopped then (s.detachWorld (fieldAt c.params 0 2)).finish c 0x00 0 0 else s.finish c 0x06 0 0)) ∧
    (s.namedWorld c = none → (c.op = 0x09 → exec (.worldStop r) s = .next (s.finish c 0x03 0 0)) ∧
      (c.op = 0x0A → exec (.worldDetach r) s = .next (s.finish c 0x03 0 0)))) ∧
  (∀ (s : State) (r : CmdRef) (c : Cmd) (w : WSet), s.cmdOf r = some c → s.mayBegin c = true →
    s.wset (fieldAt c.params 0 1) = some w → w.job = c.job →
    (∀ p, c.op = 0x0B → s.commandedPan c.job (fieldAt c.params 0 1) = some p →
      exec (.publish r) s = .next ((s.modPan p (fun b => { b with pubReleased := true })).beginCmd c)) ∧
    (c.op = 0x0C → fieldAt c.params 1 4 ≠ 0 → fieldAt c.params 1 4 < w.next →
      exec (.retract r) s = .next
        (if w.stateOf (fieldAt c.params 1 4) = .draft ∨ w.stateOf (fieldAt c.params 1 4) = .provisional then
          let far := (w.entry (fieldAt c.params 1 4)).any (fun t => !t.own)
          let msg := EpochChange.bytes { epoch := fieldAt c.params 1 4, st := EpochRun.retracted.code, cause := 5 }
            (fieldAt c.params 0 1)
          ((if far = true then s.epochSend w 0 msg else s).retractEpoch (fieldAt c.params 0 1) (fieldAt c.params 1 4) 5).finish c 0x00 0 0
         else s.finish c 0x06 0 0)) ∧
    (c.op = 0x0D → fieldAt c.params 1 4 ≠ 0 → fieldAt c.params 1 4 < w.next → leNat (hdrPart c.params 15 8) = 0 →
      (w.stateOf (fieldAt c.params 1 4) ≠ .confirmed → exec (.snapshot r) s = .next (s.finish c 0x06 0 0)) ∧
      (w.stateOf (fieldAt c.params 1 4) = .confirmed → (w.slotOf (fieldAt c.params 1 4)).isSome = true →
        s.getB R.EPC_POLICY_ENCRYPT lKeep = false →
        ∃ (t : State) (b : List Byte), exec (.snapshot r) s = .next ((t.snapOut c.job (fieldAt c.params 5 8) (fieldAt c.params 13 2) b).finish c 0x00 0 0) ∧
          t.mem = s.mem ∧ t.epc = s.epc ∧
          t.getF R.EPC_IMG_CHUNKS lKeep = chunksOf w.decl.payload % 2 ^ R.EPC_IMG_CHUNKS.w)) ∧
    (w.next ≤ fieldAt c.params 1 4 → (c.op = 0x0C → exec (.retract r) s = .next (s.finish c 0x03 0 0)) ∧
      (c.op = 0x0D → exec (.snapshot r) s = .next (s.finish c 0x03 0 0))))

/-- SUMMARY writes to host memory what fits of the summary and changes nothing else but the completion. LOG_READ from
a SEQ still held copies the records the client may see, as many as fit, and answers their number and the next SEQ to
read. -/
def Obligations.ReportRows : Prop :=
  (∀ (s : State) (r : CmdRef) (c : Cmd), s.cmdOf r = some c → c.op = 0x12 → s.mayBegin c = true →
    let b := s.summaryBytes (fieldAt c.params 8 8)
    exec (.summary r) s = .next ((s.hostWrite (fieldAt c.params 0 8) b.2).finish c 0x00 b.1 b.2.length)) ∧
  (∀ (s : State) (r : CmdRef) (c : Cmd), s.cmdOf r = some c → c.op = 0x13 → s.mayBegin c = true →
    s.oldestSeq ≤ fieldAt c.params 16 8 →
    let l := s.audit.ring.filter (fun r => fieldAt c.params 16 8 ≤ r.seq ∧ s.seesRec c.client r = true)
    let n := fieldAt c.params 8 8 / 64
    exec (.logRead r) s = .next
      ((s.hostWrite (fieldAt c.params 0 8) ((l.take n).flatMap recBytes)).finish c 0x00 (l.take n).length
        (match l.drop n with
         | r :: _ => r.seq
         | [] => s.audit.next)))

/-- A test whose precondition fails is refused; one of a free die begins, or waits for its fence. A test that ends
with the expected signature answers pass, another fail, and both end the fence. A request to a die under test is held,
or answered BUSY_TEST when the hold queue is full, and comes again after its time. Scan mode tears every job down and
clears the keys, once every die allows it. A die whose trace does not run takes no sample. -/
def Obligations.TestRows : Prop :=
  (∀ (s : State) (r : CmdRef) (c : Cmd), s.cmdOf r = some c → c.op = 0x14 → s.mayBegin c = true →
    let v := fieldAt c.params 0 4
    let die := bits v 12 8
    let unit := if 0x80 ≤ bits v 7 0 then 0 else bits v 19 16
    let b : Bist := { cmd := r, block := bits v 7 0, unit := unit, arrayOnly := bit v 24 }
    (s.bistOk die (bits v 7 0) unit (bit v 24) = false → exec (.bistRun r) s = .next (s.finish c 0x06 0 0)) ∧
    (s.bistOk die (bits v 7 0) unit (bit v 24) = true → mget s.obsv.bists die = none →
      exec (.bistRun r) s = .next
        (if (s.beginCmd c).bistWaits die b = true then
          { s.beginCmd c with obsv := { (s.beginCmd c).obsv with
              bists := mput (s.beginCmd c).obsv.bists die { b with waiting := true } } }
         else (s.beginCmd c).bistStart die b))) ∧
  (∀ (s : State) (die : Nat) (m : U64) (b : Bist), die < 20 → mget s.obsv.bists die = some b → b.waiting = false →
    let s1 : State := { s with obsv := { s.obsv with bists := mdel s.obsv.bists die, held := mdel s.obsv.held die } }
    (m = Config.signature (b.block + die * 256) b.unit →
      exec (.bistComplete die m) s = .next (((s1.bistResult die true m).bistRestore die b).finishRef b.cmd 0x00 0 m.toNat)) ∧
    (m ≠ Config.signature (b.block + die * 256) b.unit →
      exec (.bistComplete die m) s = .next (((s1.bistResult die false m).bistFails die b).finishRef b.cmd 0x00 1 m.toNat))) ∧
  (∀ (s : State) (die q : Nat), die < 20 → s.fencedDie die = true →
    ((mgetD s.obsv.held die []).length < s.getF R.TST_HOLD_DEPTH (lDie die) →
      ∃ t, exec (.fencedRequest die q none) s = .next t ∧ t.mem = s.mem ∧
        mgetD t.obsv.held die [] = mgetD s.obsv.held die [] ++ [q]) ∧
    (s.getF R.TST_HOLD_DEPTH (lDie die) ≤ (mgetD s.obsv.held die []).length →
      ∃ t, exec (.fencedRequest die q none) s = .next t ∧ t.mem = s.mem ∧ t.obsv.held = s.obsv.held ∧
        t.obsv.reissue = s.obsv.reissue ++ [(die, q, s.time + s.getF R.TST_STATUS_REMAIN_US (lDie die) * 1000)])) ∧
  (∀ (s : State) (die q at_ : Nat), die < 20 → s.obsv.reissue = [(die, q, at_)] → s.fencedDie die = false →
    exec (.busyTestReissue die q) s = .next (({ s with obsv := { s.obsv with reissue := [] } } : State).until at_)) ∧
  (∀ (s : State) (die : Nat), die < 20 →
    ((∀ d, d < 20 → s.getB R.TST_MODE_ENABLE (lDie d) = true) →
      ∃ t, exec (.scanEnable die) s = .next t ∧ t.keys = [] ∧ t.getF R.TST_MODE_SCAN (lDie die) = 1) ∧
    ((∃ d, d < 20 ∧ s.getB R.TST_MODE_ENABLE (lDie d) = false) → exec (.scanEnable die) s = .next s)) ∧
  (∀ (s : State) (die : Nat), die < 20 →
    (s.getB R.PERF_TRCTL_RUN (lDie die) = true → exec (.traceSample die) s = .next (s.sample die)) ∧
    (s.getB R.PERF_TRCTL_RUN (lDie die) = false → exec (.traceSample die) s = .next s))

/-- What SUMMARY writes to host memory is never longer than the length the command gives, and is the whole summary
when that is long enough. -/
def Obligations.SummaryFits : Prop :=
  ∀ (s : State) (n : Nat), (s.summaryBytes n).2.length ≤ n ∧
    ((s.summaryBytes n).1 ≤ n → (s.summaryBytes n).2.length = (s.summaryBytes n).1)

/-- MODE 1 turns the cuts of an anchored job on, from a full first cut, and is refused without the anchor; MODE 2
gives up the cut in progress; MODE 0 marks the next whole cut as durable and completes later. RESTORE without its cut
is refused, and else takes the job back to it, from FAULTED after its pans are placed again. SPARE_ADOPT at a spare
broadcasts FIND, and at another device is refused. -/
def Obligations.CheckpointCommands : Prop :=
  (∀ (s : State) (r : CmdRef) (c : Cmd), s.cmdOf r = some c → c.op = 0x0E → s.mayBegin c = true →
    (fieldAt c.params 0 1 = 1 →
      (s.anchored c.job = false → exec (.checkpointEnable r) s = .next (s.finish c 0x06 0 0)) ∧
      (s.anchored c.job = true → s.cutsOn c.job = false → exec (.checkpointEnable r) s = .next
        (((s.setF R.CKP_JCFG_BUDDY (lKeepI c.job) 1).modCkp c.job (fun k =>
          { k with firstBarrier := true, fullNext := true })).finish c 0x00 0 0))) ∧
    (fieldAt c.params 0 1 = 2 → exec (.checkpointDisable r) s = .next
      (((s.setF R.CKP_JCFG_BUDDY (lKeepI c.job) 0).modCkp c.job (fun k =>
        { k with cut := none, partsDue := [], prot := [], firstBarrier := false })).finish c 0x00 0 0)) ∧
    (fieldAt c.params 0 1 = 0 → exec (.checkpointDurable r) s = .next
      ((s.modCkp c.job (fun k => { k with durableDue := true, durableCmds := k.durableCmds ++ [r] })).beginCmd c))) ∧
  (∀ (s : State) (r : CmdRef) (here : Bool) (newest : List (Nat × Nat)) (c : Cmd),
    s.cmdOf r = some c → c.op = 0x0F → s.mayBegin c = true →
    (s.job c.job).destroyCmd = none →
    ((s.job c.job).st = .running ∨ (s.job c.job).st = .stepHold →
      (∀ d, (s.ckpJob c.job).source (fieldAt c.params 0 8) here false = some d →
        exec (.restore r here newest) s = .next ((s.restoreJob c.job d newest).finish c 0x00 0 0)) ∧
      ((s.ckpJob c.job).source (fieldAt c.params 0 8) here false = none →
        exec (.restore r here newest) s = .next (s.finish c 0x06 0 0))) ∧
    (∀ d, (s.job c.job).st = .faulted → (s.ckpJob c.job).source (fieldAt c.params 0 8) here true = some d →
      s.canPlace d.config = true → s.underTest d.config.pans = false →
      exec (.restore r here newest) s = .next
        (((s.placeAgain (cmdOrigin r) d.config).restoreJob c.job d newest).finish c 0x00 0 0)) ∧
    ((s.job c.job).st = .created → exec (.restore r here newest) s = .next (s.finish c 0x06 0 0))) ∧
  (∀ (s : State) (r : CmdRef) (c : Cmd), s.cmdOf r = some c → c.op = 0x10 → s.auditRoom 16 = true →
    (s.ckp.adopting = none → s.isSpare = true → exec (.spareAdopt r none) s = .next
      (s.beginAdoption c (fieldAt c.params 0 1) (fieldAt c.params 1 2) (fieldAt c.params 3 2))) ∧
    (s.ckp.adopting = none → s.isSpare = false → exec (.spareAdopt r none) s = .next (s.finish c 0x06 0 0)) ∧
    (∀ a f, s.ckp.adopting = some a → a.cmd = r → a.own = none →
      exec (.spareAdopt r (some f)) s = .next (s.adoptFound c a f)))

/-- The first write to an extent of a shard not yet acknowledged copies it to the cut buffer, or waits, counted, for
room. An acknowledgement with the shard's digest ends it; another sends the shard again, and the third loses the
buddy. A durable write goes over the older of two checkpoints, ends with its manifest and the step, and waits while
flash takes no writes. A rank the cut barrier waits for is alarmed. The holder of a buddy copy answers FIND. ADOPT
puts the spare in the failed device's place and takes the member back to its whole cut; a member without one faults
the job, and so does the failed device when ADOPT reaches it. A FIND without an answer ends in TIMEOUT, an adoption
without every vote faults the job. -/
def Obligations.CutRows : Prop :=
  (∀ (s : State) (job shard extent : Nat) (c : Cut), (s.ckpJob job).cut = some c → c.unacked.contains shard = true →
    s.shardKind job shard ≠ 2 → s.shardKind job shard ≠ 9 → (s.ckpJob job).prot.contains (shard, extent) = false →
    (s.bufferUsed job + 65536 ≤ (s.jobDecl job).cutBufMib * 2 ^ 20 →
      ∃ t, exec (.protectedWrite job shard extent) s = .next t ∧ t.mem = s.mem ∧ t.csr = s.csr ∧
        t.ckpJob job = { s.ckpJob job with prot := (s.ckpJob job).prot ++ [(shard, extent)] }) ∧
    ((s.jobDecl job).cutBufMib * 2 ^ 20 < s.bufferUsed job + 65536 →
      exec (.protectedWrite job shard extent) s = .next (s.bump R.CKP_JCNT_PROTWAIT (lKeepI job)))) ∧
  (∀ (s : State) (job shard : Nat) (g : List Byte) (c : Cut) (d : ShardDecl), (s.ckpJob job).cut = some c →
    (s.jobDecl job).shards[shard]? = some d → c.unacked.contains shard = true →
    ((c.entryOf d).map (·.digest) = some g →
      ∃ t, exec (.shardAck job shard g) s = .next t ∧ t.mem = s.mem ∧ t.csr = s.csr ∧
        (t.ckpJob job).cut = some { c with unacked := c.unacked.filter (fun x => x ≠ shard) } ∧
        (t.ckpJob job).prot = (s.ckpJob job).prot.filter (fun x => x.1 ≠ shard)) ∧
    ((c.entryOf d).map (·.digest) ≠ some g →
      mgetD (s.ckpJob job).mismatches shard 0 < 2 ∨ (s.ckpJob job).buddyLost = true →
      exec (.shardAck job shard g) s = .next
        (((s.setCkp job { s.ckpJob job with
          mismatches := mput (s.ckpJob job).mismatches shard (mgetD (s.ckpJob job).mismatches shard 0 + 1) }).bump
            R.CKP_JCNT_RESENT (lKeepI job)).resendShard job shard d c)) ∧
    ((c.entryOf d).map (·.digest) ≠ some g → 2 ≤ mgetD (s.ckpJob job).mismatches shard 0 →
      (s.ckpJob job).buddyLost = false →
      ∃ t, exec (.shardAck job shard g) s = .next t ∧ t.mem = s.mem ∧ (t.ckpJob job).buddyLost = true ∧
        (t.ckpJob job).cut = some c)) ∧
  (∀ (s : State) (job : Nat) (c : Cut), (s.ckpJob job).durableBusy = some c → (s.ckpJob job).durableRun = [] →
    job < 256 →
    let c' : Cut := { c with durable := 1 - (((s.ckpJob job).durable.head?.map (·.durable)).getD 1) }
    let m := s.manifest job c' 1
    let at_ := (s.jobDecl job).flashBase + c'.durable * (s.jobDecl job).durableBytes + (s.jobDecl job).manifestAt.1
    (s.flashClosed = true → exec (.durableWrite job) s = .next s) ∧
    (s.flashClosed = false → ∃ t, exec (.durableWrite job) s = .next t ∧
      t.mem = ((s.flashShards job c').toFlash at_ m).mem ∧ (t.ckpJob job).durableBusy = none ∧
      (t.ckpJob job).durable = { c' with manifest := m } :: (s.ckpJob job).durable.take 1 ∧
      t.getF R.CKP_JDUR_LASTDURABLE (lKeepI job) = c.step % 2 ^ R.CKP_JDUR_LASTDURABLE.w)) ∧
  (∀ (s : State) (job rank d : Nat), (s.roster job)[rank]? = some d → d ≠ s.device →
    s.col.ops.any (fun o => decide (o.job = job ∧ o.purpose = 1)) = true →
    exec (.straggler job rank) s = .next (s.alarm Kind.straggler job (alarmKey d rank))) ∧
  (∀ (s : State) (src failed job rank : Nat), s.fab.spares.contains src = true →
    (s.hcx.jobs.any (fun j => j.2.counts && decide ((s.roster j.1)[rank]? = some failed) &&
      (s.jobDecl j.1).heldRanks.contains rank)) = true →
    ∃ t m, exec (.find src failed job rank) s = .next t ∧ t.mem = s.mem ∧ t.csr = s.csr ∧
      ∃ j, t.ckp.msgs = s.ckp.msgs ++ [(2, src, failed :: job :: rank :: s.roster j, m)]) ∧
  (∀ (s : State) (src job failed rank : Nat) (newest : List (Nat × Nat)) (maps : List RingMaps),
    s.roomNow [16] (3, job) = true → s.fab.spares.contains src = true →
    (s.roster job)[rank]? = some failed → (s.job job).st = .running ∨ (s.job job).st = .stepHold →
    let s1 := s.replaceDevice maps job failed src
    let s2 := if (s.roster job)[(s.jobDecl job).buddyRank]? = some failed then
        s1.modCkp job (fun k => { k with fullNext := true, buddyLost := false, mismatches := [] })
      else s1
    (failed = s.device → exec (.adopt src job failed rank newest maps) s = .next (s.faultJob job 0 0)) ∧
    (failed ≠ s.device → (s2.ckpJob job).whole = none →
      exec (.adopt src job failed rank newest maps) s = .next (s2.faultJob job 0 0)) ∧
    (∀ w, failed ≠ s.device → (s2.ckpJob job).whole = some w →
      exec (.adopt src job failed rank newest maps) s = .next (s2.joinAdoption job w newest))) ∧
  (∀ (s : State) (a : Adoption), s.ckp.adopting = some a → a.own = none →
    exec .findTimeout s = .next
      (({ s.until (a.started + 10000000) with ckp := { s.ckp with adopting := none } } : State).finishRef a.cmd 0x08 0 0)) ∧
  (∀ (s : State) (job rank : Nat), s.roomNow [16] (3, job) = true → (s.job job).st = .restoring →
    (s.ckpJob job).adopting = true → rank < (s.roster job).length →
    exec (.adoptionVoteTimeout job rank) s = .next
      (((s.modCkp job (fun k => { k with adopting := false, voted := false })).faultJob job 0 0).endAdoption job 0x09))

/-- A keeper sends its term, or is fenced by the higher term of the witness. A RENEW of a lower term has no effect;
one of a higher term fences a keeper, and makes a claiming die a follower. A healthy follower that hears nothing for
100 µs claims. The witness grants a claim whose term it holds: the die is keeper of the next term. A keeper whose
watchdog fires is a follower. The loss of HD0 makes it no keeper, without power. -/
def Obligations.LeaseRows : Prop :=
  (∀ (s : State) (hd : Nat), hd < 2 → s.role hd = .keeper →
    (s.clk.witTerm ≤ s.term hd → ∃ t, exec (.renew hd) s = .next t ∧ t.mem = s.mem ∧ t.csr = s.csr ∧
      t.clk.sentRenew = some (hd, s.term hd, s.time) ∧ t.role hd = .keeper) ∧
    (s.term hd < s.clk.witTerm → s.clk.witTerm < 2 ^ 32 → ∃ t, exec (.renew hd) s = .next t ∧ t.mem = s.mem ∧
      t.clk.sentRenew = s.clk.sentRenew ∧ t.role hd = .follower ∧ t.term hd = s.clk.witTerm ∧
      t.getB R.AON_LEASE_FENCED (lDie (16 + hd)) = true ∧ t.getB R.AON_LEASE_KEEPER (lDie (16 + hd)) = false) ∧
    ∃ t, exec (.stewardWatchdog hd) s = .next t ∧ t.mem = s.mem ∧ t.role hd = .follower ∧
      t.getB R.AON_LEASE_KEEPER (lDie (16 + hd)) = false) ∧
  (∀ (s : State) (hd term : Nat), hd < 2 →
    (term < s.term hd → exec (.renewReceive hd term) s = .next s) ∧
    (s.role hd = .keeper → s.term hd < term → term < 2 ^ 32 →
      ∃ t, exec (.renewReceive hd term) s = .next t ∧ t.mem = s.mem ∧ t.role hd = .follower ∧ t.term hd = term ∧
        t.peerAlive hd = true ∧ t.getB R.AON_LEASE_FENCED (lDie (16 + hd)) = true ∧
          t.getB R.AON_LEASE_KEEPER (lDie (16 + hd)) = false) ∧
    (s.role hd = .follower → s.term hd ≤ term → term < 2 ^ 32 →
      ∃ t, exec (.renewReceive hd term) s = .next t ∧ t.mem = s.mem ∧ t.role hd = .follower ∧ t.term hd = term ∧
        t.peerAlive hd = true) ∧
    (s.role hd = .claiming → s.term hd < term → term < 2 ^ 32 →
      ∃ t, exec (.renewReceive hd term) s = .next t ∧ t.mem = s.mem ∧ t.role hd = .follower ∧ t.term hd = term ∧
        t.peerAlive hd = true)) ∧
  (∀ (s : State) (hd : Nat) (ok : Bool), hd < 2 → s.role hd = .follower → s.stewardUp = true →
    s.clk.off.contains (16 + hd) = false →
    ∃ t, exec (.leaseTimeout hd ok) s = .next t ∧ t.mem = s.mem ∧
      t.role hd = (if ok = true then .claiming else .follower) ∧
      ∀ x, (if hd = 0 then s.clk.seen0 else s.clk.seen1) = some x →
        x ≤ (if hd = 0 then s.clk.lastRenew0 else s.clk.lastRenew1) → t.peerAlive hd = false) ∧
  (∀ (s : State) (hd : Nat), hd < 2 → s.role hd = .claiming → s.clk.witTerm + 1 < 2 ^ 32 →
    (s.clk.witTerm = s.term hd →
      ∃ t, exec (.witnessCas [hd]) s = .next t ∧ t.mem = s.mem ∧ t.role hd = .keeper ∧ t.term hd = s.term hd + 1 ∧
        t.clk.witTerm = s.clk.witTerm + 1 ∧ t.clk.witHolder = 16 + hd) ∧
    (s.clk.witTerm ≠ s.term hd →
      ∃ t, exec (.witnessCas [hd]) s = .next t ∧ t.mem = s.mem ∧ t.role hd = .follower ∧ t.term hd = s.clk.witTerm ∧
        t.clk.witTerm = s.clk.witTerm)) ∧
  (∀ s : State, s.clk.hd0Lost = false → ∃ t, exec .hostDieLost s = .next t ∧ t.mem = s.mem ∧ t.clk.hd0Lost = true ∧
    16 ∈ t.clk.off ∧ (s.role 0 = .keeper → t.role 0 = .follower))

/-- A cold or warm reset begins the bring-up anew with the cause recorded; without VIN48 it waits at step 3, with TIME
0 and no job. A step that takes too long fails the bring-up. VIN48 that returns lets the wait go on. An excursion of
VIN48 outside its limits is a supply-fault reset while VSB33 stands, one within them nothing. VSB33 gone for more than
10 µs takes every die down. PERST_N released is a pin. -/
def Obligations.ResetRows : Prop :=
  (∀ (s : State) (b : BootIn),
    (exec (.coldReset b) s = .next
      ((let t := s.afterReset Cause.cold true
        ({ t with clk := { t.clk with vsb33 := true, i3cAddr := b.i3cAddr % 8 } } : State)).boot3 b)) ∧
    (∀ pin : Bool, exec (.warmReset pin b) s = .next
      ((s.afterReset (if pin = true then Cause.pin else Cause.warm) true).boot3 b)) ∧
    (b.vin48 = false → ∃ t, exec (.warmReset false b) s = .next t ∧ t.time = 0 ∧ t.hcx.jobs = [] ∧ t.keys = [] ∧
      t.sch.pans = [] ∧ t.grains = [] ∧ t.pending = s.pending ∧ t.clk.bootStep = 3 ∧ t.clk.bootWait = 1 ∧
      t.clk.ready = false)) ∧
  (∀ s : State, s.clk.ready = false → s.clk.bootWait = 0 → s.clk.bootFail = false → s.clk.bootStep ≠ 0 →
    ∃ t, exec .bootStepTimeout s = .next t ∧ t.mem = s.mem ∧ t.csr = s.csr ∧ t.clk.bootFail = true ∧
      t.clk.ready = false) ∧
  (∀ (s : State) (b : BootIn),
    (s.clk.bootWait = 1 → exec (.vin48Arrival b) s = .next (s.boot3 { b with vin48 := true })) ∧
    (s.clk.bootWait ≠ 1 → exec (.vin48Arrival b) s = .next { s with clk := { s.clk with vin48 := true } })) ∧
  (∀ (s : State) (mv us : Nat),
    (s.clk.vsb33 = false → exec (.vin48Fault mv us) s = .next s) ∧
    (s.clk.vsb33 = true →
      60000 < mv ∨ (58000 < mv ∧ 100000 < us) ∨ (mv < 38000 ∧ 10 < us) ∨ (mv < 40000 ∧ 1000 < us) →
      ∃ t, exec (.vin48Fault mv us) s = .next t ∧ t.clk.bootStep = 3 ∧ t.clk.bootWait = 1 ∧ t.hcx.jobs = [] ∧
        t.getF R.AON_RST_CAUSE (lDie 16) = Cause.supply) ∧
    (40000 ≤ mv → mv ≤ 58000 → exec (.vin48Fault mv us) s = .next s)) ∧
  (∀ (s : State) (us : Nat),
    (10 < us → ∃ t, exec (.vsb33Fault us) s = .next t ∧ t.clk.bootStep = 0 ∧ t.clk.off = List.range 20 ∧
      t.hcx.jobs = [] ∧ t.clk.vsb33 = false) ∧
    (us ≤ 10 → exec (.vsb33Fault us) s = .next s)) ∧
  (∀ (s : State), exec (.perstRelease 0) s = .next { s with clk := { s.clk with perst0 := true } } ∧
    exec (.perstRelease 1) s = .next { s with clk := { s.clk with perst1 := true } })

/-- A power reading is kept; above the cap a duty goes down one step, or the cap is unmet and counted; below the cap
and not below 95 % of it nothing else moves. A die's reading is kept with its peak; one that is neither hot nor above
the warning takes no other effect, and at 110 °C it trips. A PCIe link that trains is up at the generation and width
it found, within 1 to 6 and 1 to 16; one that does not is down. -/
def Obligations.PowerRows : Prop :=
  (∀ (s : State) (w : Nat), let s1 := s.setF R.CLK_CAP_MEASURED lKeep (min w 16383)
    let cap := s1.getF R.CLK_CAP_WATTS lKeep
    (cap < w → exec (.powerCompare w) s = .next
      (let s2 : State := { s1 with clk := { s1.clk with lowUs := 0 } }
       match s2.lowerDuty (fun _ => true) with
       | some t => t
       | none => (s2.bump R.CLK_THR_UNMET lKeep).alarm Kind.powerCapUnmet 0xFF (alarmKey 16 0))) ∧
    (w ≤ cap → cap * 95 ≤ w * 100 → exec (.powerCompare w) s = .next { s1 with clk := { s1.clk with lowUs := 0 } }) ∧
    (w * 100 < cap * 95 → s.clk.lowUs < 900 →
      exec (.powerCompare w) s = .next { s1 with clk := { s1.clk with lowUs := s.clk.lowUs + 100 } }) ∧
    (w * 100 < cap * 95 → 900 ≤ s.clk.lowUs →
      exec (.powerCompare w) s = .next
        ({ s1 with clk := { s1.clk with lowUs := s.clk.lowUs + 100 } } : State).raiseDuty)) ∧
  (∀ (s : State) (die : Nat) (temp : Int) (w : Nat), die < 20 → -32768 ≤ temp → temp < 1760 →
    s.clk.hot.contains die = false → temp ≤ (s.getF R.CLK_THERM_WARN lKeep * 16 : Nat) →
    ∃ t, exec (.thermalSample die temp w) s = .next t ∧ t.mem = s.mem ∧ t.hcx = s.hcx ∧ t.sch = s.sch ∧
      sInt 16 (t.getF R.DIE_TEMP_NOW (lDie die)) = temp ∧ temp ≤ sInt 16 (t.getF R.DIE_TEMP_PEAK (lDie die)) ∧
      t.getF R.DIE_POWER_WATTS (lDie die) = min w 65535) ∧
  (∀ (s : State) (die : Nat) (w : Nat), die < 16 → ∃ t, exec (.thermalSample die 1760 w) s = .next t ∧
    t.keys = [] ∧ die ∈ t.clk.off ∧ t.clk.ready = false ∧ t.clk.pinTherm = false ∧
    t.grains = t.grains.filter (fun g => g.1 / 65536 ≠ die)) ∧
  (∀ (s : State) (hd gen width c n f : Nat) (flit : Bool), hd < 2 →
    (∃ t, exec (.pcieLinkTraining hd true gen width flit c n f) s = .next t ∧ t.mem = s.mem ∧
      t.getB R.PCIE_LINK_UP (lDie (16 + hd)) = true ∧ t.getF R.PCIE_LINK_GEN (lDie (16 + hd)) = max 1 (min gen 6) ∧
      t.getF R.PCIE_LINK_WIDTH (lDie (16 + hd)) = max 1 (min width 16) ∧
      t.getB R.PCIE_LINK_FLIT (lDie (16 + hd)) = flit ∧ t.getF R.PCIE_MSIX_PENDING (lDie (16 + hd)) = 0) ∧
    (∃ t, exec (.pcieLinkTraining hd false gen width flit c n f) s = .next t ∧ t.mem = s.mem ∧
      t.getB R.PCIE_LINK_UP (lDie (16 + hd)) = false ∧ t.getF R.PCIE_LINK_WIDTH (lDie (16 + hd)) = 0))

/-- For every command and state, a step of the state with the command in front of its queue is the command's effect on
the state with the rest of the queue. The queue is the model's own (log 14). -/
def Obligations.StepRunsFront : Prop :=
  ∀ (c : Instr) (s : State), step { s with pending := c :: s.pending } = exec c s

/-- The model's choice (log 14): on an empty queue TIME moves by one 5 ns period of SCLK, or by 4 or 6 ns while a
correction is slewed, and nothing else moves but the correction; a TIME that needs no correction moves by 5 ns. -/
def Obligations.StepIdles : Prop :=
  ∀ s : State, s.pending = [] →
    (s.clk.slew = 0 → step s = .next { s with time := s.time + 5 }) ∧
    ∃ t, step s = .next t ∧ s.time + 4 ≤ t.time ∧ t.time ≤ s.time + 6 ∧
      t = { s with time := t.time, clk := { s.clk with slew := t.clk.slew, slewRem := t.clk.slewRem } } ∧
      t.clk.slew.natAbs ≤ s.clk.slew.natAbs

/-- After reset TIME is 0, no command waits, no job and no pan exists, no key slot is filled, every register field
reads its reset value, and the memory is in its canonical form. That bytes of RAM read 0 is the model's choice (log
10). -/
def Obligations.ResetState : Prop :=
  State.reset.pending = [] ∧ State.reset.time = 0 ∧ State.reset.hcx.jobs = [] ∧ State.reset.sch.pans = [] ∧
    State.reset.keys = [] ∧ State.reset.grains = [] ∧ State.reset.clk.ready = false ∧
    (∀ (f : Fld) (a : Loc), State.reset.getF f a = f.reset) ∧ (∀ k, Memory.byte State.reset.mem k = 0)

/-- The canonical form of the byte map, addresses rising and no entry of the fill byte, holds in the reset state. The
form is the model's (log 10). -/
def Obligations.MemSoundAtReset : Prop :=
  MemSound State.reset

/-- From every state whose byte map is in canonical form, a step that answers a next state gives one whose byte map is
in canonical form, whatever the command: stores, copies, resets and lost dies included. The form is the model's (log
10). -/
def Obligations.MemSoundKept : Prop :=
  ∀ s t : State, MemSound s → step s = .next t → MemSound t

/-- A command's effect leaves the commands that wait behind it as they are, resets included. The queue is the model's
own (log 14). -/
def Obligations.QueueKept : Prop :=
  ∀ (c : Instr) (s t : State), exec c s = .next t → t.pending = s.pending

/-- A well-formed command answers a next state, in every state. No command faults. A command is refused only by the
name of a unit that the device does not have, as a die from 20, a world port from 8, a whistle level from 3, a world
from 16,384 (the form of the stop is the model's, log 11). -/
def Obligations.StopsOnlyOutside : Prop :=
  (∀ (c : Instr) (s : State), c.wf = true → ∃ t, exec c s = .next t) ∧
  (∀ (c : Instr) (s : State) (f : Fault), exec c s ≠ .fault f) ∧
  (∀ (c : Instr) (s : State) (r : Refusal), exec c s = .refused r → ∃ u, r = .noSuchUnit u) ∧
  (∀ (s : State) (n : Nat), (20 ≤ n → ∃ u, exec (.traceSample n) s = .refused (.noSuchUnit u)) ∧
    (8 ≤ n → ∃ u, exec (.worldPortForeignFrame n .badFcs) s = .refused (.noSuchUnit u)) ∧
    (3 ≤ n → ∃ u, exec (.frameStart n) s = .refused (.noSuchUnit u)) ∧
    (16384 ≤ n → ∃ u, exec (.helloTimer n) s = .refused (.noSuchUnit u)))

/-- RENEW, RENEW_RECEIVE of any term, LEASE_TIMEOUT, WITNESS_CAS of any claims and STEWARD_WATCHDOG keep the lease
exclusive while the 32-bit TERM has not run out: no keeper's term is above the witness's, and the two dies are not
keepers of one term. -/
def Obligations.LeaseStaysExclusive : Prop :=
  ∀ (s t : State) (hd term : Nat) (ok : Bool) (claims : List Nat), LeaseSound s → s.clk.witTerm + 2 < 2 ^ 32 →
    term < 2 ^ 32 →
    exec (.renew hd) s = .next t ∨ exec (.renewReceive hd term) s = .next t ∨ exec (.leaseTimeout hd ok) s = .next t ∨
      exec (.witnessCas claims) s = .next t ∨ exec (.stewardWatchdog hd) s = .next t → LeaseSound t

/-- With no committed placement, each expert e below E over a group of D members has one replica, on rank e mod D in
local slot e ÷ D; a member therefore holds at most ⌈E ÷ D⌉ and at least ⌊E ÷ D⌋ experts. -/
def Obligations.ExpertsPlaced : Prop :=
  ∀ (s : State) (job table e : Nat), mget s.sch.place (placeKey job table) = none →
    let c := (s.jobDecl job).cut
    0 < c.expertDevices →
    (e < c.experts → s.replicas job table e = ([e % c.expertDevices], true) ∧
      (nth (s.placeTab job table).entries e (0, 0, [])).2.1 = e / c.expertDevices) ∧
    (∀ r, r < c.expertDevices →
      let held := ((List.range c.experts).filter (fun e => (s.replicas job table e).1.contains r)).length
      held = c.experts / c.expertDevices ∨ held = (c.experts + c.expertDevices - 1) / c.expertDevices)

/-- A device is in SPARE exactly when it is READY, has no job and CKP_CFG.SPARE is 1. SPARE_ADOPT at any other device
completes REFUSED; at a spare it begins the adoption of the job JOB, rank RANK and device FAILED of its parameters. -/
def Obligations.SpareState : Prop :=
  (∀ s : State, s.isSpare = true ↔ s.clk.ready = true ∧ (∀ j ∈ s.hcx.jobs, j.2.st = .none ∨ j.2.st = .destroyed) ∧
    s.getB R.CKP_CFG_SPARE lKeep = true) ∧
  (∀ (s : State) (r : CmdRef) (c : Cmd) (job rank failed : Nat), s.cmdOf r = some c → c.op = 0x10 →
    s.auditRoom 16 = true → s.ckp.adopting = none → job < 256 → rank < 65536 → failed < 65536 →
    c.params.take 5 = toLe 1 job ++ toLe 2 rank ++ toLe 2 failed →
    (s.isSpare = false → exec (.spareAdopt r none) s = .next (s.finish c 0x06 0 0)) ∧
    (s.isSpare = true → exec (.spareAdopt r none) s = .next (s.beginAdoption c job rank failed)))

/-- An SRAM offset has the die in [33:30], the brick in [29:23] and the byte in [22:0]. Bytes below 200000h of a brick
are tile store and lie below every grain's local memory, which for grain g is the 2000h bytes from 200000h + g × 2000h
on; the areas of two grains do not meet. An offset whose byte is 600000h or above is unmapped, and every other is
mapped to itself. -/
def Obligations.SramOffsets : Prop :=
  (∀ die b off, die < 16 → b < 128 → off < 2 ^ 23 →
    bits (sramAddr die b off) 33 30 = die ∧ bits (sramAddr die b off) 29 23 = b ∧ bits (sramAddr die b off) 22 0 = off ∧
    sramHome (sramAddr die b off) = (if off < 0x600000 then some (sramAddr die b off) else none)) ∧
  (∀ g, g < 512 → localBase g = 0x200000 + g * 0x2000 ∧ localBase g + 0x1FFF < 0x600000) ∧
  (∀ die b g h i j, g < 512 → h < 512 → i < 0x2000 → j < 0x2000 →
    sramAddr die b (localBase g + i) = sramAddr die b (localBase h + j) → g = h ∧ i = j)

/-- A command of the world port changes only worlds, registers, commands, the log, alarms, free numbers and TIME; one
of TIME, lease and power no memory, pan, epoch, world, cut, record or key, and no link but where it sends TIME; one of
queues and cuts no pan, unit or world, no memory but where it writes a copy, and no link but where it sends one; one
of a fabric link only the fabric, registers, alarms and signals, and of the registers those of its own block, of event
counters and of pending signals. -/
def Obligations.FramesByPart : Prop :=
  ∀ (c : Instr) (s t : State), exec c s = .next t →
    (Part.onWorldPort c = true →
      t.pending = s.pending ∧ t.wo1 = s.wo1 ∧ t.mem = s.mem ∧ t.grains = s.grains ∧ t.bricks =
      s.bricks ∧ t.arrays = s.arrays ∧ t.sch = s.sch ∧ t.att = s.att ∧ t.lanes = s.lanes ∧ t.epc = s.epc ∧ t.rings
      = s.rings ∧ t.tier = s.tier ∧ t.fab = s.fab ∧ t.col = s.col ∧ t.ckp = s.ckp ∧ t.keys = s.keys ∧ t.clk =
      s.clk) ∧
    (Part.onTimeAndPower c = true →
      t.pending = s.pending ∧ t.wo1 = s.wo1 ∧ t.mem = s.mem ∧ t.grains = s.grains ∧ t.bricks = s.bricks ∧ t.arrays
      = s.arrays ∧ t.sch = s.sch ∧ t.att = s.att ∧ t.lanes = s.lanes ∧ t.epc = s.epc ∧ t.rings = s.rings ∧ t.tier
      = s.tier ∧ t.col = s.col ∧ t.wpt = s.wpt ∧ t.ckp = s.ckp ∧ t.audit = s.audit ∧ t.keys = s.keys ∧
      (Part.sends c = false → t.fab = s.fab)) ∧
    (Part.onQueues c = true →
      t.pending = s.pending ∧ t.wo1 = s.wo1 ∧ t.grains = s.grains ∧ t.bricks = s.bricks ∧ t.arrays
      = s.arrays ∧ t.sch = s.sch ∧ t.att = s.att ∧ t.lanes = s.lanes ∧ t.epc = s.epc ∧ t.rings = s.rings ∧
        t.col = s.col ∧ t.wpt = s.wpt ∧ t.clk = s.clk ∧ (Part.sends c = false → t.fab = s.fab) ∧
      (Part.copies c = false → t.mem = s.mem ∧ t.tier = s.tier)) ∧
    (Part.onLinks c = true →
      t.pending = s.pending ∧ t.free = s.free ∧ t.wo1 = s.wo1 ∧ t.mem = s.mem ∧ t.grains = s.grains ∧ t.bricks =
      s.bricks ∧ t.arrays = s.arrays ∧ t.sch = s.sch ∧ t.att = s.att ∧ t.lanes = s.lanes ∧ t.epc = s.epc ∧ t.rings
      = s.rings ∧ t.tier = s.tier ∧ t.col = s.col ∧ t.wpt = s.wpt ∧ t.ckp = s.ckp ∧ t.audit = s.audit ∧ t.keys =
      s.keys ∧ t.clk = s.clk)

/-- A register command changes no byte of memory and no pan, array, page, epoch, world or key; one of arrays or
boundaries no world, job, key or page, and no link or tier but where a retiring operation releases what waits for it;
one of tiers, pages and draws no grain, array, epoch, world or link; one of epochs and rings no grain, array or world,
and no page but where it ends an epoch. -/
def Obligations.FramesOfUnits : Prop :=
  ∀ (c : Instr) (s t : State), exec c s = .next t →
    (Part.onRegisters c = true →
      t.pending = s.pending ∧ t.time = s.time ∧ t.mem = s.mem ∧ t.bricks = s.bricks ∧ t.arrays =
      s.arrays ∧ t.sch = s.sch ∧ t.att = s.att ∧ t.lanes = s.lanes ∧ t.epc = s.epc ∧ t.tier = s.tier ∧ t.wpt =
      s.wpt ∧ t.ckp = s.ckp ∧ t.keys = s.keys) ∧
    (Part.onArrays c = true →
      t.pending = s.pending ∧ t.free = s.free ∧ t.wo1 = s.wo1 ∧ t.grains = s.grains ∧ t.bricks =
      s.bricks ∧ t.att = s.att ∧ t.lanes = s.lanes ∧ t.epc = s.epc ∧ t.rings = s.rings ∧
      (Part.sends c = false → t.tier = s.tier ∧ t.fab = s.fab ∧ t.col = s.col) ∧
      (t.time = s.time ∨ ∃ die port u, c = .d2dRetrainTimeout die port u) ∧ t.wpt = s.wpt ∧ t.hcx = s.hcx ∧
        t.ckp = s.ckp ∧ t.audit = s.audit ∧ t.keys = s.keys
      ∧ t.clk = s.clk ∧ t.obsv = s.obsv) ∧
    (Part.onTiers c = true →
      t.pending = s.pending ∧ t.wo1 = s.wo1 ∧ t.grains = s.grains ∧ t.bricks = s.bricks ∧ t.arrays = s.arrays ∧
      t.epc = s.epc ∧ t.rings = s.rings ∧ t.fab = s.fab ∧ t.col = s.col ∧ t.wpt = s.wpt ∧ t.ckp = s.ckp ∧ t.audit
      = s.audit ∧ t.keys = s.keys ∧ t.clk = s.clk) ∧
    (Part.onEpochs c = true →
      t.pending = s.pending ∧ t.time = s.time ∧ t.wo1 = s.wo1 ∧ t.grains = s.grains ∧ t.bricks = s.bricks ∧
      t.arrays = s.arrays ∧ t.col = s.col ∧ t.wpt = s.wpt ∧ t.ckp = s.ckp ∧ t.keys = s.keys ∧
      t.clk = s.clk ∧ (Part.endsEpochs c = false → t.att = s.att))

/-- Of the registers, RENEW, RENEW_RECEIVE, LEASE_TIMEOUT, WITNESS_CAS and STEWARD_WATCHDOG change only those of a
host die's AON block and the counters of the PERF block. -/
def Obligations.LeaseRegisters : Prop :=
  ∀ (s t : State) (hd term k d : Nat) (ok : Bool) (claims : List Nat),
    exec (.renew hd) s = .next t ∨ exec (.renewReceive hd term) s = .next t ∨ exec (.leaseTimeout hd ok) s = .next t ∨
      exec (.witnessCas claims) s = .next t ∨ exec (.stewardWatchdog hd) s = .next t →
    csrBlock k ≠ 0x40 → csrBlock k ≠ 0x58 → mgetD t.csr k d = mgetD s.csr k d
end

