-- ==== Sys2Proof/Laws/Maps.lean ====
section
/-!
SUPPORT. Laws of the finite maps and of the byte map of the tiers: reads after writes, and the canonical
form that every operation keeps.
-/

namespace Sys2Proof.Machine

theorem mrising_le {V : Type} {lo lo' : Nat} {m : AMap V} (h : mrising lo m = true) (hl : lo' ≤ lo) :
    mrising lo' m = true := by
  cases m with
  | nil => rfl
  | cons p r => simp [mrising] at h ⊢; exact ⟨by omega, h.2⟩

/-- Reads after a write of a key. -/
theorem mget_mput {V : Type} (m : AMap V) (k j : Nat) (v : V) :
    mget (mput m k v) j = if k = j then some v else mget m j := by
  induction m with
  | nil => simp [mput, mget]
  | cons p r ih =>
    obtain ⟨i, w⟩ := p
    by_cases h1 : k < i
    · simp only [mput, h1, if_true, mget]
    · by_cases h3 : k = i
      · subst h3; by_cases h2 : k = j <;> simp [mput, mget, h2]
      · by_cases h4 : i = j
        · subst h4; simp [mput, mget, h1, h3]
        · simp [mput, mget, h1, h3, ih, h4]

@[simp] theorem mget_mput_self {V : Type} (m : AMap V) (k : Nat) (v : V) : mget (mput m k v) k = some v := by
  simp [mget_mput]

/-- Reads after a key is removed. -/
theorem mget_mdel {V : Type} (m : AMap V) (k j : Nat) :
    mget (mdel m k) j = if k = j then none else mget m j := by
  induction m with
  | nil => simp [mdel, mget]
  | cons p r ih =>
    obtain ⟨i, w⟩ := p
    by_cases h1 : i = k
    · subst h1; simp only [mdel, if_true, ih, mget]; by_cases h2 : i = j <;> simp [h2]
    · by_cases h2 : i = j
      · subst h2; simp [mdel, mget, h1, Ne.symm h1]
      · simp [mdel, mget, h1, h2, ih]

@[simp] theorem mgetD_mput_self {V : Type} (m : AMap V) (k : Nat) (v d : V) : mgetD (mput m k v) k d = v := by
  simp [mgetD]

theorem mgetD_mput_ne {V : Type} (m : AMap V) {k j : Nat} (v d : V) (h : k ≠ j) :
    mgetD (mput m k v) j d = mgetD m j d := by simp [mgetD, mget_mput, h]

@[simp] theorem mgetD_mset_self {V : Type} [DecidableEq V] (m : AMap V) (k : Nat) (d v : V) :
    mgetD (mset m k d v) k d = v := by
  by_cases h : v = d <;> simp [mset, mgetD, h, mget_mdel]

theorem mgetD_mset_ne {V : Type} [DecidableEq V] (m : AMap V) {k j : Nat} (d v e : V) (h : k ≠ j) :
    mgetD (mset m k d v) j e = mgetD m j e := by
  by_cases h1 : v = d <;> simp [mset, mgetD, h1, mget_mdel, mget_mput, h]

theorem mrising_mput {V : Type} {m : AMap V} {lo k : Nat} (v : V) (h : mrising lo m = true) (hk : lo ≤ k) :
    mrising lo (mput m k v) = true := by
  induction m generalizing lo with
  | nil => simp [mput, mrising, hk]
  | cons p r ih =>
    obtain ⟨i, w⟩ := p
    simp [mrising] at h
    by_cases h1 : k < i
    · simp [mput, h1, mrising, hk, h.2]
    · by_cases h3 : k = i
      · subst h3; simp [mput, mrising, hk, h.2]
      · simp [mput, h1, h3, mrising, h.1]; exact ih h.2 (by omega)

theorem mrising_mdel {V : Type} {m : AMap V} {lo : Nat} (k : Nat) (h : mrising lo m = true) :
    mrising lo (mdel m k) = true := by
  induction m generalizing lo with
  | nil => rfl
  | cons p r ih =>
    obtain ⟨i, w⟩ := p
    simp [mrising] at h
    by_cases h1 : i = k
    · simp [mdel, h1]; exact mrising_le (ih h.2) (by omega)
    · simp [mdel, h1, mrising, h.1]; exact ih h.2

/-- A write of a key keeps the keys rising. -/
theorem mwf_mput {V : Type} {m : AMap V} (k : Nat) (v : V) (h : mwf m = true) : mwf (mput m k v) = true :=
  mrising_mput v h (Nat.zero_le k)

/-- Removing a key keeps the keys rising. -/
theorem mwf_mdel {V : Type} {m : AMap V} (k : Nat) (h : mwf m = true) : mwf (mdel m k) = true :=
  mrising_mdel k h

theorem mem_mput {V : Type} {m : AMap V} {k : Nat} {v : V} {p : Nat × V} (h : p ∈ mput m k v) :
    p = (k, v) ∨ p ∈ m := by
  induction m with
  | nil => simpa [mput] using h
  | cons q r ih =>
    obtain ⟨i, w⟩ := q
    simp only [mput] at h
    split at h
    · exact List.mem_cons.1 h
    · split at h
      · rcases List.mem_cons.1 h with h | h
        · exact .inl h
        · exact .inr (List.mem_cons_of_mem _ h)
      · rcases List.mem_cons.1 h with h | h
        · exact .inr (by simp [h])
        · rcases ih h with h | h
          · exact .inl h
          · exact .inr (List.mem_cons_of_mem _ h)

theorem mem_mdel {V : Type} {m : AMap V} {k : Nat} {p : Nat × V} (h : p ∈ mdel m k) : p ∈ m := by
  induction m with
  | nil => simp [mdel] at h
  | cons q r ih =>
    obtain ⟨i, w⟩ := q
    simp only [mdel] at h
    split at h
    · exact List.mem_cons_of_mem _ (ih h)
    · rcases List.mem_cons.1 h with h | h
      · simp [h]
      · exact List.mem_cons_of_mem _ (ih h)

/-- Setting a key of a map with a default keeps its canonical form. -/
theorem mwfD_mset {V : Type} [DecidableEq V] {d : V} {m : AMap V} (k : Nat) (v : V) (h : mwfD d m = true) :
    mwfD d (mset m k d v) = true := by
  simp only [mwfD, Bool.and_eq_true, List.all_eq_true, decide_eq_true_eq] at h ⊢
  by_cases hv : v = d
  · simp only [mset, hv, if_true]
    exact ⟨mwf_mdel k h.1, fun p hp => h.2 p (mem_mdel hp)⟩
  · simp only [mset, hv, if_false]
    refine ⟨mwf_mput k v h.1, fun p hp => ?_⟩
    rcases mem_mput hp with rfl | hp
    · exact hv
    · exact h.2 p hp

theorem mrising_filter {V : Type} {m : AMap V} {lo : Nat} (f : Nat × V → Bool) (h : mrising lo m = true) :
    mrising lo (m.filter f) = true := by
  induction m generalizing lo with
  | nil => rfl
  | cons p r ih =>
    obtain ⟨i, w⟩ := p
    simp [mrising] at h
    by_cases hf : f (i, w) = true
    · simp [hf, mrising, h.1]; exact ih h.2
    · simp [hf]; exact mrising_le (ih h.2) (by omega)

/-- A write of bytes keeps the canonical form of memory. -/
theorem Memory.wf_write {m : AMap Byte} (a : Nat) (bs : List Byte) (h : Memory.wf m = true) :
    Memory.wf (Memory.write m a bs) = true := by
  induction bs generalizing m a with
  | nil => exact h
  | cons b r ih => exact ih (a + 1) (mwfD_mset a b h)

/-- Clearing a range keeps the canonical form of memory. -/
theorem Memory.wf_clear {m : AMap Byte} (a n : Nat) (h : Memory.wf m = true) :
    Memory.wf (Memory.clear m a n) = true := by
  simp only [Memory.wf, mwfD, Bool.and_eq_true, List.all_eq_true, decide_eq_true_eq] at h ⊢
  exact ⟨mrising_filter _ h.1, fun p hp => h.2 p (List.mem_of_mem_filter hp)⟩

/-- A byte outside the bytes written reads as before. -/
theorem Memory.byte_write_out {m : AMap Byte} (a b : Nat) (bs : List Byte) (h : b < a ∨ a + bs.length ≤ b) :
    Memory.byte (Memory.write m a bs) b = Memory.byte m b := by
  induction bs generalizing m a with
  | nil => rfl
  | cons x r ih =>
    simp only [List.length_cons] at h
    have h1 : a ≠ b := by omega
    have := ih (m := mset m a Memory.fill x) (a + 1) (by omega)
    simpa [Memory.write, Memory.byte, mgetD_mset_ne _ _ _ _ h1] using this

/-- A byte written reads back. -/
theorem Memory.byte_write_in {m : AMap Byte} (a i : Nat) (bs : List Byte) (h : i < bs.length) :
    Memory.byte (Memory.write m a bs) (a + i) = bs[i] := by
  induction bs generalizing m a i with
  | nil => simp at h
  | cons x r ih =>
    cases i with
    | zero =>
      have := Memory.byte_write_out (m := mset m a Memory.fill x) (a + 1) a r (by omega)
      simpa [Memory.write, Memory.byte] using this
    | succ i =>
      have := ih (m := mset m a Memory.fill x) (a + 1) i (by simpa using h)
      simpa [Memory.write, Nat.add_assoc, Nat.add_comm 1 i] using this

/-- Bytes written read back. -/
theorem Memory.read_write {m : AMap Byte} (a : Nat) (bs : List Byte) :
    Memory.read (Memory.write m a bs) a bs.length = bs := by
  induction bs generalizing m a with
  | nil => rfl
  | cons x r ih =>
    have h := Memory.byte_write_in (m := m) a 0 (x :: r) (by simp)
    have := ih (m := mset m a Memory.fill x) (a + 1)
    simp only [Nat.add_zero] at h
    simp only [Memory.read, List.length_cons, h]
    simpa [Memory.write] using this

end Sys2Proof.Machine
end

