-- ==== Sys2Proof/Laws/PerInstr.lean ====
section
/-!
SUPPORT. Per-command lemmas: a well-formed command names only dies of the device.
-/

set_option Elab.async false

namespace Sys2Proof.Laws.WellFormed

/-- A well-formed command names only dies of the device, 0 to 19 (R1). -/
def Statement (i : Instr) : Prop := i.wf = true → ∀ d ∈ i.dies, d < 20

theorem grainInstruction : ∀ die brick grain cyc ecc,
    Statement (.grainInstruction die brick grain cyc ecc) := by
  intros; intro h d hd
  simp [Instr.wf, Instr.dies, Instr.grainOk, Instr.brickOk] at h hd; omega

theorem ecall : ∀ die brick grain, Statement (.ecall die brick grain) := by
  intros; intro h d hd
  simp [Instr.wf, Instr.dies, Instr.grainOk, Instr.brickOk] at h hd; omega

theorem ebreak : ∀ die brick grain, Statement (.ebreak die brick grain) := by
  intros; intro h d hd
  simp [Instr.wf, Instr.dies, Instr.grainOk, Instr.brickOk] at h hd; omega

theorem slRld : ∀ die brick grain rd rs1 rs2 cyc ecc,
    Statement (.slRld die brick grain rd rs1 rs2 cyc ecc) := by
  intros; intro h d hd
  simp [Instr.wf, Instr.dies, Instr.grainOk, Instr.brickOk] at h hd; omega

theorem slRst : ∀ die brick grain rd rs1 rs2 cyc ecc,
    Statement (.slRst die brick grain rd rs1 rs2 cyc ecc) := by
  intros; intro h d hd
  simp [Instr.wf, Instr.dies, Instr.grainOk, Instr.brickOk] at h hd; omega

theorem slRred : ∀ die brick grain rd rs1 rs2 fn cyc ecc,
    Statement (.slRred die brick grain rd rs1 rs2 fn cyc ecc) := by
  intros; intro h d hd
  simp [Instr.wf, Instr.dies, Instr.grainOk, Instr.brickOk] at h hd; omega

theorem slPush : ∀ die brick grain rd rs1 rs2 cyc ecc,
    Statement (.slPush die brick grain rd rs1 rs2 cyc ecc) := by
  intros; intro h d hd
  simp [Instr.wf, Instr.dies, Instr.grainOk, Instr.brickOk] at h hd; omega

theorem slPop : ∀ die brick grain rd rs1 rs2 cyc ecc,
    Statement (.slPop die brick grain rd rs1 rs2 cyc ecc) := by
  intros; intro h d hd
  simp [Instr.wf, Instr.dies, Instr.grainOk, Instr.brickOk] at h hd; omega

theorem slCred : ∀ die brick grain rd rs1 rs2 cyc ecc,
    Statement (.slCred die brick grain rd rs1 rs2 cyc ecc) := by
  intros; intro h d hd
  simp [Instr.wf, Instr.dies, Instr.grainOk, Instr.brickOk] at h hd; omega

theorem slDraw : ∀ die brick grain rd rs1 rs2 cyc ecc,
    Statement (.slDraw die brick grain rd rs1 rs2 cyc ecc) := by
  intros; intro h d hd
  simp [Instr.wf, Instr.dies, Instr.grainOk, Instr.brickOk] at h hd; omega

theorem slDrawf : ∀ die brick grain rd rs1 rs2 cyc ecc,
    Statement (.slDrawf die brick grain rd rs1 rs2 cyc ecc) := by
  intros; intro h d hd
  simp [Instr.wf, Instr.dies, Instr.grainOk, Instr.brickOk] at h hd; omega

theorem slWaitb : ∀ die brick grain rd rs1 rs2 cyc ecc,
    Statement (.slWaitb die brick grain rd rs1 rs2 cyc ecc) := by
  intros; intro h d hd
  simp [Instr.wf, Instr.dies, Instr.grainOk, Instr.brickOk] at h hd; omega

theorem slFma2 : ∀ die brick grain rd rs1 rs2 rs3 rm cyc ecc,
    Statement (.slFma2 die brick grain rd rs1 rs2 rs3 rm cyc ecc) := by
  intros; intro h d hd
  simp [Instr.wf, Instr.dies, Instr.grainOk, Instr.brickOk] at h hd; omega

theorem slBfma4 : ∀ die brick grain rd rs1 rs2 rs3 rm cyc ecc,
    Statement (.slBfma4 die brick grain rd rs1 rs2 rs3 rm cyc ecc) := by
  intros; intro h d hd
  simp [Instr.wf, Instr.dies, Instr.grainOk, Instr.brickOk] at h hd; omega

theorem sentinelReturn : ∀ die brick grain, Statement (.sentinelReturn die brick grain) := by
  intros; intro h d hd
  simp [Instr.wf, Instr.dies, Instr.grainOk, Instr.brickOk] at h hd; omega

theorem watchdog : ∀ die brick grain, Statement (.watchdog die brick grain) := by
  intros; intro h d hd
  simp [Instr.wf, Instr.dies, Instr.grainOk, Instr.brickOk] at h hd; omega

theorem brkDbgResume : ∀ origin die brick value, Statement (.brkDbgResume origin die brick value) := by
  intros; intro h d hd
  simp [Instr.wf, Instr.dies, Instr.brickOk] at h hd; omega

theorem brkFaultClear : ∀ origin die brick value, Statement (.brkFaultClear origin die brick value) := by
  intros; intro h d hd
  simp [Instr.wf, Instr.dies, Instr.brickOk] at h hd; omega

theorem mxaCommand : ∀ die brick w0 w1 w2 w3, Statement (.mxaCommand die brick w0 w1 w2 w3) := by
  intros; intro h d hd
  simp [Instr.wf, Instr.dies, Instr.brickOk] at h hd; omega

theorem swap : ∀ die brick cycles, Statement (.swap die brick cycles) := by
  intros; intro h d hd
  simp [Instr.wf, Instr.dies, Instr.brickOk] at h hd; omega

theorem backgroundLoadDone : ∀ die brick parity, Statement (.backgroundLoadDone die brick parity) := by
  intros; intro h d hd
  simp [Instr.wf, Instr.dies, Instr.brickOk] at h hd; omega

theorem rowAccept : ∀ die brick accError parity segs groups,
    Statement (.rowAccept die brick accError parity segs groups) := by
  intros; intro h d hd
  simp [Instr.wf, Instr.dies, Instr.brickOk] at h hd; omega

theorem mxaModeWrite : ∀ origin die brick value, Statement (.mxaModeWrite origin die brick value) := by
  intros; intro h d hd
  simp [Instr.wf, Instr.dies, Instr.brickOk] at h hd; omega

theorem mxaFlagsClear : ∀ origin die brick reg value coincident,
    Statement (.mxaFlagsClear origin die brick reg value coincident) := by
  intros; intro h d hd
  simp [Instr.wf, Instr.dies, Instr.brickOk] at h hd; omega

theorem mxaErrClear : ∀ origin die brick value, Statement (.mxaErrClear origin die brick value) := by
  intros; intro h d hd
  simp [Instr.wf, Instr.dies, Instr.brickOk] at h hd; omega

theorem tileOpIssue : ∀ die pan station mb slice waited work,
    Statement (.tileOpIssue die pan station mb slice waited work) := by
  intros; intro h d hd
  simp [Instr.wf, Instr.dies] at h hd; omega

theorem tileOpRetire : ∀ optag cause, Statement (.tileOpRetire optag cause) := by
  intros; intro _ d hd; simp [Instr.dies] at hd

theorem localBoundary : ∀ die pan, Statement (.localBoundary die pan) := by
  intros; intro h d hd
  simp [Instr.wf, Instr.dies] at h hd; omega

theorem done : ∀ pan die step ns, Statement (.done pan die step ns) := by
  intros; intro h d hd
  simp [Instr.wf, Instr.dies] at h hd; omega

theorem stepRelease : ∀ die pan step, Statement (.stepRelease die pan step) := by
  intros; intro h d hd
  simp [Instr.wf, Instr.dies] at h hd; omega

theorem boundaryLate : ∀ pan, Statement (.boundaryLate pan) := by
  intros; intro _ d hd; simp [Instr.dies] at hd

theorem schSplitWrite : ∀ origin die pan value, Statement (.schSplitWrite origin die pan value) := by
  intros; intro h d hd
  simp [Instr.wf, Instr.dies] at h hd; omega

theorem d2dRetrain : ∀ die port inFlight rerouted retries,
    Statement (.d2dRetrain die port inFlight rerouted retries) := by
  intros; intro h d hd
  simp [Instr.wf, Instr.dies] at h hd; omega

theorem d2dRetrainDone : ∀ die port rerouted, Statement (.d2dRetrainDone die port rerouted) := by
  intros; intro h d hd
  simp [Instr.wf, Instr.dies] at h hd; omega

theorem d2dRetrainTimeout : ∀ die port rerouted, Statement (.d2dRetrainTimeout die port rerouted) := by
  intros; intro h d hd
  simp [Instr.wf, Instr.dies] at h hd; omega

theorem seqOpen : ∀ pan world layers kvheads headdim fmt mode entries table,
    Statement (.seqOpen pan world layers kvheads headdim fmt mode entries table) := by
  intros; intro _ d hd; simp [Instr.dies] at hd

theorem seqQuarantineExpiry : ∀ seq, Statement (.seqQuarantineExpiry seq) := by
  intros; intro _ d hd; simp [Instr.dies] at hd

theorem walk : ∀ die walker seq gen layer page, Statement (.walk die walker seq gen layer page) := by
  intros; intro h d hd
  simp [Instr.wf, Instr.dies] at h hd; omega

theorem spill : ∀ pan tier, Statement (.spill pan tier) := by
  intros; intro _ d hd; simp [Instr.dies] at hd

theorem attPmodeWrite : ∀ origin die pan value, Statement (.attPmodeWrite origin die pan value) := by
  intros; intro h d hd
  simp [Instr.wf, Instr.dies] at h hd; omega

theorem discreteDraw : ∀ pan station, Statement (.discreteDraw pan station) := by
  intros; intro _ d hd; simp [Instr.dies] at hd

theorem continuousDraw : ∀ pan station, Statement (.continuousDraw pan station) := by
  intros; intro _ d hd; simp [Instr.dies] at hd

theorem adoptionPoint : ∀ pan, Statement (.adoptionPoint pan) := by
  intros; intro _ d hd; simp [Instr.dies] at hd

theorem publishBegin : ∀ pan station waitedUs, Statement (.publishBegin pan station waitedUs) := by
  intros; intro _ d hd; simp [Instr.dies] at hd

theorem publishChunkAck : ∀ ws target chunk answer, Statement (.publishChunkAck ws target chunk answer) := by
  intros; intro _ d hd; simp [Instr.dies] at hd

theorem publishChecks : ∀ ws others, Statement (.publishChecks ws others) := by
  intros; intro _ d hd; simp [Instr.dies] at hd

theorem epochChangeMessage : ∀ ws epoch state cause step,
    Statement (.epochChangeMessage ws epoch state cause step) := by
  intros; intro _ d hd; simp [Instr.dies] at hd

theorem imageChunk : ∀ ws data tag, Statement (.imageChunk ws data tag) := by
  intros; intro _ d hd; simp [Instr.dies] at hd

theorem recordWrite : ∀ pan station, Statement (.recordWrite pan station) := by
  intros; intro _ d hd; simp [Instr.dies] at hd

theorem stagingEviction : ∀ ring extent, Statement (.stagingEviction ring extent) := by
  intros; intro _ d hd; simp [Instr.dies] at hd

theorem drawIssue : ∀ pan station waitedUs, Statement (.drawIssue pan station waitedUs) := by
  intros; intro _ d hd; simp [Instr.dies] at hd

theorem priorityUpdate : ∀ ring pos prio, Statement (.priorityUpdate ring pos prio) := by
  intros; intro _ d hd; simp [Instr.dies] at hd

theorem moveStart : ∀ die engine obj dstTier, Statement (.moveStart die engine obj dstTier) := by
  intros; intro h d hd
  simp [Instr.wf, Instr.dies] at h hd; omega

theorem moveCopyDone : ∀ move result, Statement (.moveCopyDone move result) := by
  intros; intro _ d hd; simp [Instr.dies] at hd

theorem moveDrained : ∀ move, Statement (.moveDrained move) := by
  intros; intro _ d hd; simp [Instr.dies] at hd

theorem stubAccess : ∀ move access, Statement (.stubAccess move access) := by
  intros; intro _ d hd; simp [Instr.dies] at hd

theorem tierResponse : ∀ req result, Statement (.tierResponse req result) := by
  intros; intro _ d hd; simp [Instr.dies] at hd

theorem tierTimeout : ∀ req, Statement (.tierTimeout req) := by
  intros; intro _ d hd; simp [Instr.dies] at hd

theorem memorySideOp : ∀ space offset op elem data cmp,
    Statement (.memorySideOp space offset op elem data cmp) := by
  intros; intro _ d hd; simp [Instr.dies] at hd

theorem patrolScrub : ∀ die corrected, Statement (.patrolScrub die corrected) := by
  intros; intro h d hd
  simp [Instr.wf, Instr.dies] at h hd; omega

theorem ladlePrefetch : ∀ pan, Statement (.ladlePrefetch pan) := by
  intros; intro _ d hd; simp [Instr.dies] at hd

theorem bufferAllocate : ∀ pan tier bytes movable, Statement (.bufferAllocate pan tier bytes movable) := by
  intros; intro _ d hd; simp [Instr.dies] at hd

theorem bufferFree : ∀ pan handle station, Statement (.bufferFree pan handle station) := by
  intros; intro _ d hd; simp [Instr.dies] at hd

theorem bufferQuarantineExpiry : ∀ buffer, Statement (.bufferQuarantineExpiry buffer) := by
  intros; intro _ d hd; simp [Instr.dies] at hd

theorem flashRelocate : ∀ fd block, Statement (.flashRelocate fd block) := by
  intros; intro h d hd
  simp [Instr.wf, Instr.dies] at h hd; omega

theorem flashProgramFail : ∀ fd block, Statement (.flashProgramFail fd block) := by
  intros; intro h d hd
  simp [Instr.wf, Instr.dies] at h hd; omega

theorem fabPctlEnable : ∀ origin fd port value, Statement (.fabPctlEnable origin fd port value) := by
  intros; intro h d hd
  simp [Instr.wf, Instr.dies] at h hd; omega

theorem portTrained : ∀ port training, Statement (.portTrained port training) := by
  intros; intro _ d hd; simp [Instr.dies] at hd

theorem portRetrain : ∀ port, Statement (.portRetrain port) := by
  intros; intro _ d hd; simp [Instr.dies] at hd

theorem retrainTimeout : ∀ port, Statement (.retrainTimeout port) := by
  intros; intro _ d hd; simp [Instr.dies] at hd

theorem frameReceive : ∀ port bytes credit, Statement (.frameReceive port bytes credit) := by
  intros; intro _ d hd; simp [Instr.dies] at hd

theorem replayTimeout : ∀ port, Statement (.replayTimeout port) := by
  intros; intro _ d hd; simp [Instr.dies] at hd

theorem ack : ∀ port seq preempted, Statement (.ack port seq preempted) := by
  intros; intro _ d hd; simp [Instr.dies] at hd

theorem nak : ∀ port seq reason tagIdx tagGen, Statement (.nak port seq reason tagIdx tagGen) := by
  intros; intro _ d hd; simp [Instr.dies] at hd

theorem read : ∀ p, Statement (.read p) := by
  intros; intro _ d hd; simp [Instr.dies] at hd

theorem write : ∀ p, Statement (.write p) := by
  intros; intro _ d hd; simp [Instr.dies] at hd

theorem msop : ∀ p, Statement (.msop p) := by
  intros; intro _ d hd; simp [Instr.dies] at hd

theorem atomic : ∀ p, Statement (.atomic p) := by
  intros; intro _ d hd; simp [Instr.dies] at hd

theorem fence : ∀ p, Statement (.fence p) := by
  intros; intro _ d hd; simp [Instr.dies] at hd

theorem epoch : ∀ p, Statement (.epoch p) := by
  intros; intro _ d hd; simp [Instr.dies] at hd

theorem telem : ∀ p, Statement (.telem p) := by
  intros; intro _ d hd; simp [Instr.dies] at hd

theorem mgmt : ∀ p, Statement (.mgmt p) := by
  intros; intro _ d hd; simp [Instr.dies] at hd

theorem readRsp : ∀ p, Statement (.readRsp p) := by
  intros; intro _ d hd; simp [Instr.dies] at hd

theorem writeAck : ∀ p, Statement (.writeAck p) := by
  intros; intro _ d hd; simp [Instr.dies] at hd

theorem atomicRsp : ∀ p, Statement (.atomicRsp p) := by
  intros; intro _ d hd; simp [Instr.dies] at hd

theorem fenceAck : ∀ p, Statement (.fenceAck p) := by
  intros; intro _ d hd; simp [Instr.dies] at hd

theorem requestResend : ∀ tagIdx, Statement (.requestResend tagIdx) := by
  intros; intro _ d hd; simp [Instr.dies] at hd

theorem routeSdataWrite : ∀ origin fd value, Statement (.routeSdataWrite origin fd value) := by
  intros; intro h d hd
  simp [Instr.wf, Instr.dies] at h hd; omega

theorem routeSdone : ∀ origin fd value, Statement (.routeSdone origin fd value) := by
  intros; intro h d hd
  simp [Instr.wf, Instr.dies] at h hd; omega

theorem routeFlip : ∀ origin fd value, Statement (.routeFlip origin fd value) := by
  intros; intro h d hd
  simp [Instr.wf, Instr.dies] at h hd; omega

theorem allToAll : ∀ pan station, Statement (.allToAll pan station) := by
  intros; intro _ d hd; simp [Instr.dies] at hd

theorem allToAllV : ∀ pan station counts, Statement (.allToAllV pan station counts) := by
  intros; intro _ d hd; simp [Instr.dies] at hd

theorem allReduce : ∀ pan station, Statement (.allReduce pan station) := by
  intros; intro _ d hd; simp [Instr.dies] at hd

theorem reduceScatter : ∀ pan station, Statement (.reduceScatter pan station) := by
  intros; intro _ d hd; simp [Instr.dies] at hd

theorem allGather : ∀ pan station, Statement (.allGather pan station) := by
  intros; intro _ d hd; simp [Instr.dies] at hd

theorem broadcast : ∀ pan station, Statement (.broadcast pan station) := by
  intros; intro _ d hd; simp [Instr.dies] at hd

theorem barrier : ∀ pan station bit, Statement (.barrier pan station bit) := by
  intros; intro _ d hd; simp [Instr.dies] at hd

theorem collDone : ∀ p, Statement (.collDone p) := by
  intros; intro _ d hd; simp [Instr.dies] at hd

theorem frameStart : ∀ level, Statement (.frameStart level) := by
  intros; intro _ d hd; simp [Instr.dies] at hd

theorem cellReceive : ∀ level slot bytes offsetPs, Statement (.cellReceive level slot bytes offsetPs) := by
  intros; intro _ d hd; simp [Instr.dies] at hd

theorem whistleDeadTimeout : ∀ level pos, Statement (.whistleDeadTimeout level pos) := by
  intros; intro _ d hd; simp [Instr.dies] at hd

theorem masterElection : ∀ level, Statement (.masterElection level) := by
  intros; intro _ d hd; simp [Instr.dies] at hd

theorem ringTrainingTimeout : ∀ level, Statement (.ringTrainingTimeout level) := by
  intros; intro _ d hd; simp [Instr.dies] at hd

theorem ringFallback : ∀ level, Statement (.ringFallback level) := by
  intros; intro _ d hd; simp [Instr.dies] at hd

theorem ringRetrainTimer : ∀ level success, Statement (.ringRetrainTimer level success) := by
  intros; intro _ d hd; simp [Instr.dies] at hd

theorem whistleFb : ∀ level p, Statement (.whistleFb level p) := by
  intros; intro _ d hd; simp [Instr.dies] at hd

theorem llpRejoin : ∀ origin level value, Statement (.llpRejoin origin level value) := by
  intros; intro _ d hd; simp [Instr.dies] at hd

theorem llpRetrain : ∀ origin level value, Statement (.llpRetrain origin level value) := by
  intros; intro _ d hd; simp [Instr.dies] at hd

theorem obs : ∀ port time frame, Statement (.obs port time frame) := by
  intros; intro _ d hd; simp [Instr.dies] at hd

theorem obsWindowClose : ∀ world tick, Statement (.obsWindowClose world tick) := by
  intros; intro _ d hd; simp [Instr.dies] at hd

theorem hello : ∀ port time frame, Statement (.hello port time frame) := by
  intros; intro _ d hd; simp [Instr.dies] at hd

theorem helloTimer : ∀ world, Statement (.helloTimer world) := by
  intros; intro _ d hd; simp [Instr.dies] at hd

theorem attachTimeout : ∀ world, Statement (.attachTimeout world) := by
  intros; intro _ d hd; simp [Instr.dies] at hd

theorem partnerStop : ∀ port time frame, Statement (.partnerStop port time frame) := by
  intros; intro _ d hd; simp [Instr.dies] at hd

theorem partnerSync : ∀ port time frame, Statement (.partnerSync port time frame) := by
  intros; intro _ d hd; simp [Instr.dies] at hd

theorem actionVerdict : ∀ pan world time, Statement (.actionVerdict pan world time) := by
  intros; intro _ d hd; simp [Instr.dies] at hd

theorem frameLatch : ∀ world tick, Statement (.frameLatch world tick) := by
  intros; intro _ d hd; simp [Instr.dies] at hd

theorem sendTime : ∀ port time, Statement (.sendTime port time) := by
  intros; intro _ d hd; simp [Instr.dies] at hd

theorem missLimit : ∀ world, Statement (.missLimit world) := by
  intros; intro _ d hd; simp [Instr.dies] at hd

theorem holdLimit : ∀ world, Statement (.holdLimit world) := by
  intros; intro _ d hd; simp [Instr.dies] at hd

theorem silenceLimit : ∀ world, Statement (.silenceLimit world) := by
  intros; intro _ d hd; simp [Instr.dies] at hd

theorem rampEnd : ∀ world, Statement (.rampEnd world) := by
  intros; intro _ d hd; simp [Instr.dies] at hd

theorem worldQuarantineExpiry : ∀ world, Statement (.worldQuarantineExpiry world) := by
  intros; intro _ d hd; simp [Instr.dies] at hd

theorem gptpSync : ∀ hd offsetNs, Statement (.gptpSync hd offsetNs) := by
  intros; intro h d hd
  simp [Instr.wf, Instr.dies] at h hd; omega

theorem timeHoldover : ∀ hd, Statement (.timeHoldover hd) := by
  intros; intro h d hd
  simp [Instr.wf, Instr.dies] at h hd; omega

theorem worldPortLink : ∀ port up preempt, Statement (.worldPortLink port up preempt) := by
  intros; intro _ d hd; simp [Instr.dies] at hd

theorem submissionDoorbell : ∀ pair value, Statement (.submissionDoorbell pair value) := by
  intros; intro _ d hd; simp [Instr.dies] at hd

theorem completionDoorbell : ∀ pair value, Statement (.completionDoorbell pair value) := by
  intros; intro _ d hd; simp [Instr.dies] at hd

theorem commandTake : ∀ pair entry forwardable, Statement (.commandTake pair entry forwardable) := by
  intros; intro _ d hd; simp [Instr.dies] at hd

theorem commandTimeout : ∀ cmd, Statement (.commandTimeout cmd) := by
  intros; intro _ d hd; simp [Instr.dies] at hd

theorem wholeLoad : ∀ cmd image, Statement (.wholeLoad cmd image) := by
  intros; intro _ d hd; simp [Instr.dies] at hd

theorem perPanLoad : ∀ cmd image, Statement (.perPanLoad cmd image) := by
  intros; intro _ d hd; simp [Instr.dies] at hd

theorem resize : ∀ cmd image, Statement (.resize cmd image) := by
  intros; intro _ d hd; simp [Instr.dies] at hd

theorem imageLoad : ∀ cmd header, Statement (.imageLoad cmd header) := by
  intros; intro _ d hd; simp [Instr.dies] at hd

theorem keyLoad : ∀ cmd blob, Statement (.keyLoad cmd blob) := by
  intros; intro _ d hd; simp [Instr.dies] at hd

theorem jobCreate : ∀ cmd, Statement (.jobCreate cmd) := by
  intros; intro _ d hd; simp [Instr.dies] at hd

theorem jobStart : ∀ cmd, Statement (.jobStart cmd) := by
  intros; intro _ d hd; simp [Instr.dies] at hd

theorem jobStop : ∀ cmd, Statement (.jobStop cmd) := by
  intros; intro _ d hd; simp [Instr.dies] at hd

theorem jobDestroy : ∀ cmd, Statement (.jobDestroy cmd) := by
  intros; intro _ d hd; simp [Instr.dies] at hd

theorem indexQuarantineExpiry : ∀ isJob idx, Statement (.indexQuarantineExpiry isJob idx) := by
  intros; intro _ d hd; simp [Instr.dies] at hd

theorem worldAttach : ∀ cmd, Statement (.worldAttach cmd) := by
  intros; intro _ d hd; simp [Instr.dies] at hd

theorem worldStop : ∀ cmd, Statement (.worldStop cmd) := by
  intros; intro _ d hd; simp [Instr.dies] at hd

theorem worldDetach : ∀ cmd, Statement (.worldDetach cmd) := by
  intros; intro _ d hd; simp [Instr.dies] at hd

theorem publish : ∀ cmd, Statement (.publish cmd) := by
  intros; intro _ d hd; simp [Instr.dies] at hd

theorem retract : ∀ cmd, Statement (.retract cmd) := by
  intros; intro _ d hd; simp [Instr.dies] at hd

theorem snapshot : ∀ cmd, Statement (.snapshot cmd) := by
  intros; intro _ d hd; simp [Instr.dies] at hd

theorem checkpointDurable : ∀ cmd, Statement (.checkpointDurable cmd) := by
  intros; intro _ d hd; simp [Instr.dies] at hd

theorem checkpointEnable : ∀ cmd, Statement (.checkpointEnable cmd) := by
  intros; intro _ d hd; simp [Instr.dies] at hd

theorem checkpointDisable : ∀ cmd, Statement (.checkpointDisable cmd) := by
  intros; intro _ d hd; simp [Instr.dies] at hd

theorem restore : ∀ cmd presentEverywhere newest, Statement (.restore cmd presentEverywhere newest) := by
  intros; intro _ d hd; simp [Instr.dies] at hd

theorem spareAdopt : ∀ cmd found, Statement (.spareAdopt cmd found) := by
  intros; intro _ d hd; simp [Instr.dies] at hd

theorem seqCancel : ∀ cmd, Statement (.seqCancel cmd) := by
  intros; intro _ d hd; simp [Instr.dies] at hd

theorem summary : ∀ cmd, Statement (.summary cmd) := by
  intros; intro _ d hd; simp [Instr.dies] at hd

theorem logRead : ∀ cmd, Statement (.logRead cmd) := by
  intros; intro _ d hd; simp [Instr.dies] at hd

theorem bistRun : ∀ cmd, Statement (.bistRun cmd) := by
  intros; intro _ d hd; simp [Instr.dies] at hd

theorem bistComplete : ∀ die misr, Statement (.bistComplete die misr) := by
  intros; intro h d hd
  simp [Instr.wf, Instr.dies] at h hd; omega

theorem fencedRequest : ∀ die requester cmd, Statement (.fencedRequest die requester cmd) := by
  intros; intro h d hd
  simp [Instr.wf, Instr.dies] at h hd; omega

theorem lock : ∀ cmd, Statement (.lock cmd) := by
  intros; intro _ d hd; simp [Instr.dies] at hd

theorem protectedWrite : ∀ job shard extent, Statement (.protectedWrite job shard extent) := by
  intros; intro _ d hd; simp [Instr.dies] at hd

theorem shardAck : ∀ job shard digest, Statement (.shardAck job shard digest) := by
  intros; intro _ d hd; simp [Instr.dies] at hd

theorem durableWrite : ∀ job, Statement (.durableWrite job) := by
  intros; intro _ d hd; simp [Instr.dies] at hd

theorem find : ∀ src failed job rank, Statement (.find src failed job rank) := by
  intros; intro _ d hd; simp [Instr.dies] at hd

theorem adopt : ∀ src job failed rank newest maps, Statement (.adopt src job failed rank newest maps) := by
  intros; intro _ d hd; simp [Instr.dies] at hd

theorem straggler : ∀ job rank, Statement (.straggler job rank) := by
  intros; intro _ d hd; simp [Instr.dies] at hd

theorem renew : ∀ hd, Statement (.renew hd) := by
  intros; intro h d hd
  simp [Instr.wf, Instr.dies] at h hd; omega

theorem renewReceive : ∀ hd term, Statement (.renewReceive hd term) := by
  intros; intro h d hd
  simp [Instr.wf, Instr.dies] at h hd; omega

theorem leaseTimeout : ∀ hd healthy, Statement (.leaseTimeout hd healthy) := by
  intros; intro h d hd
  simp [Instr.wf, Instr.dies] at h hd; omega

theorem witnessCas : ∀ claims, Statement (.witnessCas claims) := by
  intros; intro _ d hd; simp [Instr.dies] at hd

theorem aonYield : ∀ origin hd value, Statement (.aonYield origin hd value) := by
  intros; intro h d hd
  simp [Instr.wf, Instr.dies] at h hd; omega

theorem stewardWatchdog : ∀ hd, Statement (.stewardWatchdog hd) := by
  intros; intro h d hd
  simp [Instr.wf, Instr.dies] at h hd; omega

theorem coldReset : ∀ boot, Statement (.coldReset boot) := by
  intros; intro _ d hd; simp [Instr.dies] at hd

theorem warmReset : ∀ byPin boot, Statement (.warmReset byPin boot) := by
  intros; intro _ d hd; simp [Instr.dies] at hd

theorem bootStepTimeout : Statement .bootStepTimeout := by
  intro _ d hd; simp [Instr.dies] at hd

theorem vin48Arrival : ∀ boot, Statement (.vin48Arrival boot) := by
  intros; intro _ d hd; simp [Instr.dies] at hd

theorem aonDevnumWrite : ∀ origin value boot, Statement (.aonDevnumWrite origin value boot) := by
  intros; intro _ d hd; simp [Instr.dies] at hd

theorem perstRelease : ∀ hd, Statement (.perstRelease hd) := by
  intros; intro h d hd
  simp [Instr.wf, Instr.dies] at h hd; omega

theorem vin48Fault : ∀ milliVolts us, Statement (.vin48Fault milliVolts us) := by
  intros; intro _ d hd; simp [Instr.dies] at hd

theorem vsb33Fault : ∀ us, Statement (.vsb33Fault us) := by
  intros; intro _ d hd; simp [Instr.dies] at hd

theorem hostDieLost : Statement .hostDieLost := by
  intro _ d hd; simp [Instr.dies] at hd

theorem powerCompare : ∀ watts, Statement (.powerCompare watts) := by
  intros; intro _ d hd; simp [Instr.dies] at hd

theorem thermalSample : ∀ die temp watts, Statement (.thermalSample die temp watts) := by
  intros; intro h d hd
  simp [Instr.wf, Instr.dies] at h hd; omega

theorem dieOpWrite : ∀ origin die value, Statement (.dieOpWrite origin die value) := by
  intros; intro h d hd
  simp [Instr.wf, Instr.dies] at h hd; omega

theorem fabricTime : ∀ src time halfRtt, Statement (.fabricTime src time halfRtt) := by
  intros; intro _ d hd; simp [Instr.dies] at hd

theorem auditStagingAccept : ∀ die waitedUs, Statement (.auditStagingAccept die waitedUs) := by
  intros; intro h d hd
  simp [Instr.wf, Instr.dies] at h hd; omega

theorem auditAckWrite : ∀ origin value, Statement (.auditAckWrite origin value) := by
  intros; intro _ d hd; simp [Instr.dies] at hd

theorem perfSelectWrite : ∀ origin csr value, Statement (.perfSelectWrite origin csr value) := by
  intros; intro _ d hd; simp [Instr.dies] at hd

theorem traceSample : ∀ die, Statement (.traceSample die) := by
  intros; intro h d hd
  simp [Instr.wf, Instr.dies] at h hd; omega

theorem alarmRelease : ∀ origin value, Statement (.alarmRelease origin value) := by
  intros; intro _ d hd; simp [Instr.dies] at hd

theorem scanEnable : ∀ die, Statement (.scanEnable die) := by
  intros; intro h d hd
  simp [Instr.wf, Instr.dies] at h hd; omega

theorem readClear : ∀ origin csr, Statement (.readClear origin csr) := by
  intros; intro _ d hd; simp [Instr.dies] at hd

theorem registerWrite : ∀ origin csr value, Statement (.registerWrite origin csr value) := by
  intros; intro _ d hd; simp [Instr.dies] at hd

theorem findTimeout : Statement .findTimeout := by
  intro _ d hd; simp [Instr.dies] at hd

theorem adoptionVoteTimeout : ∀ job rank, Statement (.adoptionVoteTimeout job rank) := by
  intros; intro _ d hd; simp [Instr.dies] at hd

theorem busyTestReissue : ∀ die requester, Statement (.busyTestReissue die requester) := by
  intros; intro h d hd
  simp [Instr.wf, Instr.dies] at h hd; omega

theorem ackDelayExpiry : ∀ port, Statement (.ackDelayExpiry port) := by
  intros; intro _ d hd; simp [Instr.dies] at hd

theorem ppsPulse : Statement .ppsPulse := by
  intro _ d hd; simp [Instr.dies] at hd

theorem pcieLinkTraining : ∀ hd up gen width flit corr nonfatal fatal,
    Statement (.pcieLinkTraining hd up gen width flit corr nonfatal fatal) := by
  intros; intro h d hd
  simp [Instr.wf, Instr.dies] at h hd; omega

theorem worldPortForeignFrame : ∀ port kind, Statement (.worldPortForeignFrame port kind) := by
  intros; intro _ d hd; simp [Instr.dies] at hd

end Sys2Proof.Laws.WellFormed
end

