-- ==== Sys2Proof/Laws/State.lean ====
section
/-!
SUPPORT. What the named updates of the state leave alone, one lemma a field and update, and what their reads
give after them.
-/

set_option Elab.async false

namespace Sys2Proof.Machine

variable (s : State)

@[simp] theorem State.setF_pending (f : Fld) (a : Loc) (v : Nat) : (s.setF f a v).pending = s.pending := rfl
@[simp] theorem State.setF_time (f : Fld) (a : Loc) (v : Nat) : (s.setF f a v).time = s.time := rfl
@[simp] theorem State.setF_free (f : Fld) (a : Loc) (v : Nat) : (s.setF f a v).free = s.free := rfl
@[simp] theorem State.setF_wo1 (f : Fld) (a : Loc) (v : Nat) : (s.setF f a v).wo1 = s.wo1 := rfl
@[simp] theorem State.setF_mem (f : Fld) (a : Loc) (v : Nat) : (s.setF f a v).mem = s.mem := rfl
@[simp] theorem State.setF_grains (f : Fld) (a : Loc) (v : Nat) : (s.setF f a v).grains = s.grains := rfl
@[simp] theorem State.setF_bricks (f : Fld) (a : Loc) (v : Nat) : (s.setF f a v).bricks = s.bricks := rfl
@[simp] theorem State.setF_arrays (f : Fld) (a : Loc) (v : Nat) : (s.setF f a v).arrays = s.arrays := rfl
@[simp] theorem State.setF_sch (f : Fld) (a : Loc) (v : Nat) : (s.setF f a v).sch = s.sch := rfl
@[simp] theorem State.setF_att (f : Fld) (a : Loc) (v : Nat) : (s.setF f a v).att = s.att := rfl
@[simp] theorem State.setF_tainted (f : Fld) (a : Loc) (v : Nat) : (s.setF f a v).tainted = s.tainted := rfl
@[simp] theorem State.setF_lanes (f : Fld) (a : Loc) (v : Nat) : (s.setF f a v).lanes = s.lanes := rfl
@[simp] theorem State.setF_epc (f : Fld) (a : Loc) (v : Nat) : (s.setF f a v).epc = s.epc := rfl
@[simp] theorem State.setF_rings (f : Fld) (a : Loc) (v : Nat) : (s.setF f a v).rings = s.rings := rfl
@[simp] theorem State.setF_tier (f : Fld) (a : Loc) (v : Nat) : (s.setF f a v).tier = s.tier := rfl
@[simp] theorem State.setF_fab (f : Fld) (a : Loc) (v : Nat) : (s.setF f a v).fab = s.fab := rfl
@[simp] theorem State.setF_col (f : Fld) (a : Loc) (v : Nat) : (s.setF f a v).col = s.col := rfl
@[simp] theorem State.setF_wpt (f : Fld) (a : Loc) (v : Nat) : (s.setF f a v).wpt = s.wpt := rfl
@[simp] theorem State.setF_hcx (f : Fld) (a : Loc) (v : Nat) : (s.setF f a v).hcx = s.hcx := rfl
@[simp] theorem State.setF_ckp (f : Fld) (a : Loc) (v : Nat) : (s.setF f a v).ckp = s.ckp := rfl
@[simp] theorem State.setF_audit (f : Fld) (a : Loc) (v : Nat) : (s.setF f a v).audit = s.audit := rfl
@[simp] theorem State.setF_keys (f : Fld) (a : Loc) (v : Nat) : (s.setF f a v).keys = s.keys := rfl
@[simp] theorem State.setF_clk (f : Fld) (a : Loc) (v : Nat) : (s.setF f a v).clk = s.clk := rfl
@[simp] theorem State.setF_obsv (f : Fld) (a : Loc) (v : Nat) : (s.setF f a v).obsv = s.obsv := rfl

@[simp] theorem State.setB_pending (f : Fld) (a : Loc) (v : Bool) : (s.setB f a v).pending = s.pending := rfl
@[simp] theorem State.setB_time (f : Fld) (a : Loc) (v : Bool) : (s.setB f a v).time = s.time := rfl
@[simp] theorem State.setB_free (f : Fld) (a : Loc) (v : Bool) : (s.setB f a v).free = s.free := rfl
@[simp] theorem State.setB_wo1 (f : Fld) (a : Loc) (v : Bool) : (s.setB f a v).wo1 = s.wo1 := rfl
@[simp] theorem State.setB_mem (f : Fld) (a : Loc) (v : Bool) : (s.setB f a v).mem = s.mem := rfl
@[simp] theorem State.setB_grains (f : Fld) (a : Loc) (v : Bool) : (s.setB f a v).grains = s.grains := rfl
@[simp] theorem State.setB_bricks (f : Fld) (a : Loc) (v : Bool) : (s.setB f a v).bricks = s.bricks := rfl
@[simp] theorem State.setB_arrays (f : Fld) (a : Loc) (v : Bool) : (s.setB f a v).arrays = s.arrays := rfl
@[simp] theorem State.setB_sch (f : Fld) (a : Loc) (v : Bool) : (s.setB f a v).sch = s.sch := rfl
@[simp] theorem State.setB_att (f : Fld) (a : Loc) (v : Bool) : (s.setB f a v).att = s.att := rfl
@[simp] theorem State.setB_tainted (f : Fld) (a : Loc) (v : Bool) : (s.setB f a v).tainted = s.tainted := rfl
@[simp] theorem State.setB_lanes (f : Fld) (a : Loc) (v : Bool) : (s.setB f a v).lanes = s.lanes := rfl
@[simp] theorem State.setB_epc (f : Fld) (a : Loc) (v : Bool) : (s.setB f a v).epc = s.epc := rfl
@[simp] theorem State.setB_rings (f : Fld) (a : Loc) (v : Bool) : (s.setB f a v).rings = s.rings := rfl
@[simp] theorem State.setB_tier (f : Fld) (a : Loc) (v : Bool) : (s.setB f a v).tier = s.tier := rfl
@[simp] theorem State.setB_fab (f : Fld) (a : Loc) (v : Bool) : (s.setB f a v).fab = s.fab := rfl
@[simp] theorem State.setB_col (f : Fld) (a : Loc) (v : Bool) : (s.setB f a v).col = s.col := rfl
@[simp] theorem State.setB_wpt (f : Fld) (a : Loc) (v : Bool) : (s.setB f a v).wpt = s.wpt := rfl
@[simp] theorem State.setB_hcx (f : Fld) (a : Loc) (v : Bool) : (s.setB f a v).hcx = s.hcx := rfl
@[simp] theorem State.setB_ckp (f : Fld) (a : Loc) (v : Bool) : (s.setB f a v).ckp = s.ckp := rfl
@[simp] theorem State.setB_audit (f : Fld) (a : Loc) (v : Bool) : (s.setB f a v).audit = s.audit := rfl
@[simp] theorem State.setB_keys (f : Fld) (a : Loc) (v : Bool) : (s.setB f a v).keys = s.keys := rfl
@[simp] theorem State.setB_clk (f : Fld) (a : Loc) (v : Bool) : (s.setB f a v).clk = s.clk := rfl
@[simp] theorem State.setB_obsv (f : Fld) (a : Loc) (v : Bool) : (s.setB f a v).obsv = s.obsv := rfl

@[simp] theorem State.wrMem_pending (space off : Nat) (bs : List Byte) : (s.wrMem space off bs).pending = s.pending := rfl
@[simp] theorem State.wrMem_time (space off : Nat) (bs : List Byte) : (s.wrMem space off bs).time = s.time := rfl
@[simp] theorem State.wrMem_free (space off : Nat) (bs : List Byte) : (s.wrMem space off bs).free = s.free := rfl
@[simp] theorem State.wrMem_csr (space off : Nat) (bs : List Byte) : (s.wrMem space off bs).csr = s.csr := rfl
@[simp] theorem State.wrMem_wo1 (space off : Nat) (bs : List Byte) : (s.wrMem space off bs).wo1 = s.wo1 := rfl
@[simp] theorem State.wrMem_grains (space off : Nat) (bs : List Byte) : (s.wrMem space off bs).grains = s.grains := rfl
@[simp] theorem State.wrMem_bricks (space off : Nat) (bs : List Byte) : (s.wrMem space off bs).bricks = s.bricks := rfl
@[simp] theorem State.wrMem_arrays (space off : Nat) (bs : List Byte) : (s.wrMem space off bs).arrays = s.arrays := rfl
@[simp] theorem State.wrMem_sch (space off : Nat) (bs : List Byte) : (s.wrMem space off bs).sch = s.sch := rfl
@[simp] theorem State.wrMem_att (space off : Nat) (bs : List Byte) : (s.wrMem space off bs).att = s.att := rfl
@[simp] theorem State.wrMem_lanes (space off : Nat) (bs : List Byte) : (s.wrMem space off bs).lanes = s.lanes := rfl
@[simp] theorem State.wrMem_epc (space off : Nat) (bs : List Byte) : (s.wrMem space off bs).epc = s.epc := rfl
@[simp] theorem State.wrMem_rings (space off : Nat) (bs : List Byte) : (s.wrMem space off bs).rings = s.rings := rfl
@[simp] theorem State.wrMem_tier (space off : Nat) (bs : List Byte) : (s.wrMem space off bs).tier = s.tier := rfl
@[simp] theorem State.wrMem_fab (space off : Nat) (bs : List Byte) : (s.wrMem space off bs).fab = s.fab := rfl
@[simp] theorem State.wrMem_col (space off : Nat) (bs : List Byte) : (s.wrMem space off bs).col = s.col := rfl
@[simp] theorem State.wrMem_wpt (space off : Nat) (bs : List Byte) : (s.wrMem space off bs).wpt = s.wpt := rfl
@[simp] theorem State.wrMem_hcx (space off : Nat) (bs : List Byte) : (s.wrMem space off bs).hcx = s.hcx := rfl
@[simp] theorem State.wrMem_ckp (space off : Nat) (bs : List Byte) : (s.wrMem space off bs).ckp = s.ckp := rfl
@[simp] theorem State.wrMem_audit (space off : Nat) (bs : List Byte) : (s.wrMem space off bs).audit = s.audit := rfl
@[simp] theorem State.wrMem_keys (space off : Nat) (bs : List Byte) : (s.wrMem space off bs).keys = s.keys := rfl
@[simp] theorem State.wrMem_clk (space off : Nat) (bs : List Byte) : (s.wrMem space off bs).clk = s.clk := rfl
@[simp] theorem State.wrMem_obsv (space off : Nat) (bs : List Byte) : (s.wrMem space off bs).obsv = s.obsv := rfl

@[simp] theorem State.clrMem_pending (space off n : Nat) : (s.clrMem space off n).pending = s.pending := rfl
@[simp] theorem State.clrMem_time (space off n : Nat) : (s.clrMem space off n).time = s.time := rfl
@[simp] theorem State.clrMem_free (space off n : Nat) : (s.clrMem space off n).free = s.free := rfl
@[simp] theorem State.clrMem_csr (space off n : Nat) : (s.clrMem space off n).csr = s.csr := rfl
@[simp] theorem State.clrMem_wo1 (space off n : Nat) : (s.clrMem space off n).wo1 = s.wo1 := rfl
@[simp] theorem State.clrMem_grains (space off n : Nat) : (s.clrMem space off n).grains = s.grains := rfl
@[simp] theorem State.clrMem_bricks (space off n : Nat) : (s.clrMem space off n).bricks = s.bricks := rfl
@[simp] theorem State.clrMem_arrays (space off n : Nat) : (s.clrMem space off n).arrays = s.arrays := rfl
@[simp] theorem State.clrMem_sch (space off n : Nat) : (s.clrMem space off n).sch = s.sch := rfl
@[simp] theorem State.clrMem_att (space off n : Nat) : (s.clrMem space off n).att = s.att := rfl
@[simp] theorem State.clrMem_lanes (space off n : Nat) : (s.clrMem space off n).lanes = s.lanes := rfl
@[simp] theorem State.clrMem_epc (space off n : Nat) : (s.clrMem space off n).epc = s.epc := rfl
@[simp] theorem State.clrMem_rings (space off n : Nat) : (s.clrMem space off n).rings = s.rings := rfl
@[simp] theorem State.clrMem_tier (space off n : Nat) : (s.clrMem space off n).tier = s.tier := rfl
@[simp] theorem State.clrMem_fab (space off n : Nat) : (s.clrMem space off n).fab = s.fab := rfl
@[simp] theorem State.clrMem_col (space off n : Nat) : (s.clrMem space off n).col = s.col := rfl
@[simp] theorem State.clrMem_wpt (space off n : Nat) : (s.clrMem space off n).wpt = s.wpt := rfl
@[simp] theorem State.clrMem_hcx (space off n : Nat) : (s.clrMem space off n).hcx = s.hcx := rfl
@[simp] theorem State.clrMem_ckp (space off n : Nat) : (s.clrMem space off n).ckp = s.ckp := rfl
@[simp] theorem State.clrMem_audit (space off n : Nat) : (s.clrMem space off n).audit = s.audit := rfl
@[simp] theorem State.clrMem_keys (space off n : Nat) : (s.clrMem space off n).keys = s.keys := rfl
@[simp] theorem State.clrMem_clk (space off n : Nat) : (s.clrMem space off n).clk = s.clk := rfl
@[simp] theorem State.clrMem_obsv (space off n : Nat) : (s.clrMem space off n).obsv = s.obsv := rfl

@[simp] theorem State.until_pending (t : Nat) : (s.until t).pending = s.pending := rfl
@[simp] theorem State.until_free (t : Nat) : (s.until t).free = s.free := rfl
@[simp] theorem State.until_csr (t : Nat) : (s.until t).csr = s.csr := rfl
@[simp] theorem State.until_wo1 (t : Nat) : (s.until t).wo1 = s.wo1 := rfl
@[simp] theorem State.until_mem (t : Nat) : (s.until t).mem = s.mem := rfl
@[simp] theorem State.until_grains (t : Nat) : (s.until t).grains = s.grains := rfl
@[simp] theorem State.until_bricks (t : Nat) : (s.until t).bricks = s.bricks := rfl
@[simp] theorem State.until_arrays (t : Nat) : (s.until t).arrays = s.arrays := rfl
@[simp] theorem State.until_sch (t : Nat) : (s.until t).sch = s.sch := rfl
@[simp] theorem State.until_att (t : Nat) : (s.until t).att = s.att := rfl
@[simp] theorem State.until_tainted (t : Nat) : (s.until t).tainted = s.tainted := rfl
@[simp] theorem State.until_lanes (t : Nat) : (s.until t).lanes = s.lanes := rfl
@[simp] theorem State.until_epc (t : Nat) : (s.until t).epc = s.epc := rfl
@[simp] theorem State.until_rings (t : Nat) : (s.until t).rings = s.rings := rfl
@[simp] theorem State.until_tier (t : Nat) : (s.until t).tier = s.tier := rfl
@[simp] theorem State.until_fab (t : Nat) : (s.until t).fab = s.fab := rfl
@[simp] theorem State.until_col (t : Nat) : (s.until t).col = s.col := rfl
@[simp] theorem State.until_wpt (t : Nat) : (s.until t).wpt = s.wpt := rfl
@[simp] theorem State.until_hcx (t : Nat) : (s.until t).hcx = s.hcx := rfl
@[simp] theorem State.until_ckp (t : Nat) : (s.until t).ckp = s.ckp := rfl
@[simp] theorem State.until_audit (t : Nat) : (s.until t).audit = s.audit := rfl
@[simp] theorem State.until_keys (t : Nat) : (s.until t).keys = s.keys := rfl
@[simp] theorem State.until_clk (t : Nat) : (s.until t).clk = s.clk := rfl
@[simp] theorem State.until_obsv (t : Nat) : (s.until t).obsv = s.obsv := rfl

@[simp] theorem State.setPan_pending (p : Nat) (v : Pan) : (s.setPan p v).pending = s.pending := rfl
@[simp] theorem State.setPan_time (p : Nat) (v : Pan) : (s.setPan p v).time = s.time := rfl
@[simp] theorem State.setPan_free (p : Nat) (v : Pan) : (s.setPan p v).free = s.free := rfl
@[simp] theorem State.setPan_csr (p : Nat) (v : Pan) : (s.setPan p v).csr = s.csr := rfl
@[simp] theorem State.setPan_wo1 (p : Nat) (v : Pan) : (s.setPan p v).wo1 = s.wo1 := rfl
@[simp] theorem State.setPan_mem (p : Nat) (v : Pan) : (s.setPan p v).mem = s.mem := rfl
@[simp] theorem State.setPan_grains (p : Nat) (v : Pan) : (s.setPan p v).grains = s.grains := rfl
@[simp] theorem State.setPan_bricks (p : Nat) (v : Pan) : (s.setPan p v).bricks = s.bricks := rfl
@[simp] theorem State.setPan_arrays (p : Nat) (v : Pan) : (s.setPan p v).arrays = s.arrays := rfl
@[simp] theorem State.setPan_att (p : Nat) (v : Pan) : (s.setPan p v).att = s.att := rfl
@[simp] theorem State.setPan_tainted (p : Nat) (v : Pan) : (s.setPan p v).tainted = s.tainted := rfl
@[simp] theorem State.setPan_lanes (p : Nat) (v : Pan) : (s.setPan p v).lanes = s.lanes := rfl
@[simp] theorem State.setPan_epc (p : Nat) (v : Pan) : (s.setPan p v).epc = s.epc := rfl
@[simp] theorem State.setPan_rings (p : Nat) (v : Pan) : (s.setPan p v).rings = s.rings := rfl
@[simp] theorem State.setPan_tier (p : Nat) (v : Pan) : (s.setPan p v).tier = s.tier := rfl
@[simp] theorem State.setPan_fab (p : Nat) (v : Pan) : (s.setPan p v).fab = s.fab := rfl
@[simp] theorem State.setPan_col (p : Nat) (v : Pan) : (s.setPan p v).col = s.col := rfl
@[simp] theorem State.setPan_wpt (p : Nat) (v : Pan) : (s.setPan p v).wpt = s.wpt := rfl
@[simp] theorem State.setPan_hcx (p : Nat) (v : Pan) : (s.setPan p v).hcx = s.hcx := rfl
@[simp] theorem State.setPan_ckp (p : Nat) (v : Pan) : (s.setPan p v).ckp = s.ckp := rfl
@[simp] theorem State.setPan_audit (p : Nat) (v : Pan) : (s.setPan p v).audit = s.audit := rfl
@[simp] theorem State.setPan_keys (p : Nat) (v : Pan) : (s.setPan p v).keys = s.keys := rfl
@[simp] theorem State.setPan_clk (p : Nat) (v : Pan) : (s.setPan p v).clk = s.clk := rfl
@[simp] theorem State.setPan_obsv (p : Nat) (v : Pan) : (s.setPan p v).obsv = s.obsv := rfl

@[simp] theorem State.modPan_pending (p : Nat) (g : Pan → Pan) : (s.modPan p g).pending = s.pending := rfl
@[simp] theorem State.modPan_time (p : Nat) (g : Pan → Pan) : (s.modPan p g).time = s.time := rfl
@[simp] theorem State.modPan_free (p : Nat) (g : Pan → Pan) : (s.modPan p g).free = s.free := rfl
@[simp] theorem State.modPan_csr (p : Nat) (g : Pan → Pan) : (s.modPan p g).csr = s.csr := rfl
@[simp] theorem State.modPan_wo1 (p : Nat) (g : Pan → Pan) : (s.modPan p g).wo1 = s.wo1 := rfl
@[simp] theorem State.modPan_mem (p : Nat) (g : Pan → Pan) : (s.modPan p g).mem = s.mem := rfl
@[simp] theorem State.modPan_grains (p : Nat) (g : Pan → Pan) : (s.modPan p g).grains = s.grains := rfl
@[simp] theorem State.modPan_bricks (p : Nat) (g : Pan → Pan) : (s.modPan p g).bricks = s.bricks := rfl
@[simp] theorem State.modPan_arrays (p : Nat) (g : Pan → Pan) : (s.modPan p g).arrays = s.arrays := rfl
@[simp] theorem State.modPan_att (p : Nat) (g : Pan → Pan) : (s.modPan p g).att = s.att := rfl
@[simp] theorem State.modPan_tainted (p : Nat) (g : Pan → Pan) : (s.modPan p g).tainted = s.tainted := rfl
@[simp] theorem State.modPan_lanes (p : Nat) (g : Pan → Pan) : (s.modPan p g).lanes = s.lanes := rfl
@[simp] theorem State.modPan_epc (p : Nat) (g : Pan → Pan) : (s.modPan p g).epc = s.epc := rfl
@[simp] theorem State.modPan_rings (p : Nat) (g : Pan → Pan) : (s.modPan p g).rings = s.rings := rfl
@[simp] theorem State.modPan_tier (p : Nat) (g : Pan → Pan) : (s.modPan p g).tier = s.tier := rfl
@[simp] theorem State.modPan_fab (p : Nat) (g : Pan → Pan) : (s.modPan p g).fab = s.fab := rfl
@[simp] theorem State.modPan_col (p : Nat) (g : Pan → Pan) : (s.modPan p g).col = s.col := rfl
@[simp] theorem State.modPan_wpt (p : Nat) (g : Pan → Pan) : (s.modPan p g).wpt = s.wpt := rfl
@[simp] theorem State.modPan_hcx (p : Nat) (g : Pan → Pan) : (s.modPan p g).hcx = s.hcx := rfl
@[simp] theorem State.modPan_ckp (p : Nat) (g : Pan → Pan) : (s.modPan p g).ckp = s.ckp := rfl
@[simp] theorem State.modPan_audit (p : Nat) (g : Pan → Pan) : (s.modPan p g).audit = s.audit := rfl
@[simp] theorem State.modPan_keys (p : Nat) (g : Pan → Pan) : (s.modPan p g).keys = s.keys := rfl
@[simp] theorem State.modPan_clk (p : Nat) (g : Pan → Pan) : (s.modPan p g).clk = s.clk := rfl
@[simp] theorem State.modPan_obsv (p : Nat) (g : Pan → Pan) : (s.modPan p g).obsv = s.obsv := rfl

@[simp] theorem State.setJob_pending (j : Nat) (v : Job) : (s.setJob j v).pending = s.pending := rfl
@[simp] theorem State.setJob_time (j : Nat) (v : Job) : (s.setJob j v).time = s.time := rfl
@[simp] theorem State.setJob_free (j : Nat) (v : Job) : (s.setJob j v).free = s.free := rfl
@[simp] theorem State.setJob_csr (j : Nat) (v : Job) : (s.setJob j v).csr = s.csr := rfl
@[simp] theorem State.setJob_wo1 (j : Nat) (v : Job) : (s.setJob j v).wo1 = s.wo1 := rfl
@[simp] theorem State.setJob_mem (j : Nat) (v : Job) : (s.setJob j v).mem = s.mem := rfl
@[simp] theorem State.setJob_grains (j : Nat) (v : Job) : (s.setJob j v).grains = s.grains := rfl
@[simp] theorem State.setJob_bricks (j : Nat) (v : Job) : (s.setJob j v).bricks = s.bricks := rfl
@[simp] theorem State.setJob_arrays (j : Nat) (v : Job) : (s.setJob j v).arrays = s.arrays := rfl
@[simp] theorem State.setJob_sch (j : Nat) (v : Job) : (s.setJob j v).sch = s.sch := rfl
@[simp] theorem State.setJob_att (j : Nat) (v : Job) : (s.setJob j v).att = s.att := rfl
@[simp] theorem State.setJob_tainted (j : Nat) (v : Job) : (s.setJob j v).tainted = s.tainted := rfl
@[simp] theorem State.setJob_lanes (j : Nat) (v : Job) : (s.setJob j v).lanes = s.lanes := rfl
@[simp] theorem State.setJob_epc (j : Nat) (v : Job) : (s.setJob j v).epc = s.epc := rfl
@[simp] theorem State.setJob_rings (j : Nat) (v : Job) : (s.setJob j v).rings = s.rings := rfl
@[simp] theorem State.setJob_tier (j : Nat) (v : Job) : (s.setJob j v).tier = s.tier := rfl
@[simp] theorem State.setJob_fab (j : Nat) (v : Job) : (s.setJob j v).fab = s.fab := rfl
@[simp] theorem State.setJob_col (j : Nat) (v : Job) : (s.setJob j v).col = s.col := rfl
@[simp] theorem State.setJob_wpt (j : Nat) (v : Job) : (s.setJob j v).wpt = s.wpt := rfl
@[simp] theorem State.setJob_ckp (j : Nat) (v : Job) : (s.setJob j v).ckp = s.ckp := rfl
@[simp] theorem State.setJob_audit (j : Nat) (v : Job) : (s.setJob j v).audit = s.audit := rfl
@[simp] theorem State.setJob_keys (j : Nat) (v : Job) : (s.setJob j v).keys = s.keys := rfl
@[simp] theorem State.setJob_clk (j : Nat) (v : Job) : (s.setJob j v).clk = s.clk := rfl
@[simp] theorem State.setJob_obsv (j : Nat) (v : Job) : (s.setJob j v).obsv = s.obsv := rfl

@[simp] theorem State.modJob_pending (j : Nat) (g : Job → Job) : (s.modJob j g).pending = s.pending := rfl
@[simp] theorem State.modJob_time (j : Nat) (g : Job → Job) : (s.modJob j g).time = s.time := rfl
@[simp] theorem State.modJob_free (j : Nat) (g : Job → Job) : (s.modJob j g).free = s.free := rfl
@[simp] theorem State.modJob_csr (j : Nat) (g : Job → Job) : (s.modJob j g).csr = s.csr := rfl
@[simp] theorem State.modJob_wo1 (j : Nat) (g : Job → Job) : (s.modJob j g).wo1 = s.wo1 := rfl
@[simp] theorem State.modJob_mem (j : Nat) (g : Job → Job) : (s.modJob j g).mem = s.mem := rfl
@[simp] theorem State.modJob_grains (j : Nat) (g : Job → Job) : (s.modJob j g).grains = s.grains := rfl
@[simp] theorem State.modJob_bricks (j : Nat) (g : Job → Job) : (s.modJob j g).bricks = s.bricks := rfl
@[simp] theorem State.modJob_arrays (j : Nat) (g : Job → Job) : (s.modJob j g).arrays = s.arrays := rfl
@[simp] theorem State.modJob_sch (j : Nat) (g : Job → Job) : (s.modJob j g).sch = s.sch := rfl
@[simp] theorem State.modJob_att (j : Nat) (g : Job → Job) : (s.modJob j g).att = s.att := rfl
@[simp] theorem State.modJob_tainted (j : Nat) (g : Job → Job) : (s.modJob j g).tainted = s.tainted := rfl
@[simp] theorem State.modJob_lanes (j : Nat) (g : Job → Job) : (s.modJob j g).lanes = s.lanes := rfl
@[simp] theorem State.modJob_epc (j : Nat) (g : Job → Job) : (s.modJob j g).epc = s.epc := rfl
@[simp] theorem State.modJob_rings (j : Nat) (g : Job → Job) : (s.modJob j g).rings = s.rings := rfl
@[simp] theorem State.modJob_tier (j : Nat) (g : Job → Job) : (s.modJob j g).tier = s.tier := rfl
@[simp] theorem State.modJob_fab (j : Nat) (g : Job → Job) : (s.modJob j g).fab = s.fab := rfl
@[simp] theorem State.modJob_col (j : Nat) (g : Job → Job) : (s.modJob j g).col = s.col := rfl
@[simp] theorem State.modJob_wpt (j : Nat) (g : Job → Job) : (s.modJob j g).wpt = s.wpt := rfl
@[simp] theorem State.modJob_ckp (j : Nat) (g : Job → Job) : (s.modJob j g).ckp = s.ckp := rfl
@[simp] theorem State.modJob_audit (j : Nat) (g : Job → Job) : (s.modJob j g).audit = s.audit := rfl
@[simp] theorem State.modJob_keys (j : Nat) (g : Job → Job) : (s.modJob j g).keys = s.keys := rfl
@[simp] theorem State.modJob_clk (j : Nat) (g : Job → Job) : (s.modJob j g).clk = s.clk := rfl
@[simp] theorem State.modJob_obsv (j : Nat) (g : Job → Job) : (s.modJob j g).obsv = s.obsv := rfl

@[simp] theorem State.setGrain_pending (d b k : Nat) (v : Grain) : (s.setGrain d b k v).pending = s.pending := rfl
@[simp] theorem State.setGrain_time (d b k : Nat) (v : Grain) : (s.setGrain d b k v).time = s.time := rfl
@[simp] theorem State.setGrain_free (d b k : Nat) (v : Grain) : (s.setGrain d b k v).free = s.free := rfl
@[simp] theorem State.setGrain_csr (d b k : Nat) (v : Grain) : (s.setGrain d b k v).csr = s.csr := rfl
@[simp] theorem State.setGrain_wo1 (d b k : Nat) (v : Grain) : (s.setGrain d b k v).wo1 = s.wo1 := rfl
@[simp] theorem State.setGrain_mem (d b k : Nat) (v : Grain) : (s.setGrain d b k v).mem = s.mem := rfl
@[simp] theorem State.setGrain_bricks (d b k : Nat) (v : Grain) : (s.setGrain d b k v).bricks = s.bricks := rfl
@[simp] theorem State.setGrain_arrays (d b k : Nat) (v : Grain) : (s.setGrain d b k v).arrays = s.arrays := rfl
@[simp] theorem State.setGrain_sch (d b k : Nat) (v : Grain) : (s.setGrain d b k v).sch = s.sch := rfl
@[simp] theorem State.setGrain_att (d b k : Nat) (v : Grain) : (s.setGrain d b k v).att = s.att := rfl
@[simp] theorem State.setGrain_tainted (d b k : Nat) (v : Grain) : (s.setGrain d b k v).tainted = s.tainted := rfl
@[simp] theorem State.setGrain_lanes (d b k : Nat) (v : Grain) : (s.setGrain d b k v).lanes = s.lanes := rfl
@[simp] theorem State.setGrain_epc (d b k : Nat) (v : Grain) : (s.setGrain d b k v).epc = s.epc := rfl
@[simp] theorem State.setGrain_rings (d b k : Nat) (v : Grain) : (s.setGrain d b k v).rings = s.rings := rfl
@[simp] theorem State.setGrain_tier (d b k : Nat) (v : Grain) : (s.setGrain d b k v).tier = s.tier := rfl
@[simp] theorem State.setGrain_fab (d b k : Nat) (v : Grain) : (s.setGrain d b k v).fab = s.fab := rfl
@[simp] theorem State.setGrain_col (d b k : Nat) (v : Grain) : (s.setGrain d b k v).col = s.col := rfl
@[simp] theorem State.setGrain_wpt (d b k : Nat) (v : Grain) : (s.setGrain d b k v).wpt = s.wpt := rfl
@[simp] theorem State.setGrain_hcx (d b k : Nat) (v : Grain) : (s.setGrain d b k v).hcx = s.hcx := rfl
@[simp] theorem State.setGrain_ckp (d b k : Nat) (v : Grain) : (s.setGrain d b k v).ckp = s.ckp := rfl
@[simp] theorem State.setGrain_audit (d b k : Nat) (v : Grain) : (s.setGrain d b k v).audit = s.audit := rfl
@[simp] theorem State.setGrain_keys (d b k : Nat) (v : Grain) : (s.setGrain d b k v).keys = s.keys := rfl
@[simp] theorem State.setGrain_clk (d b k : Nat) (v : Grain) : (s.setGrain d b k v).clk = s.clk := rfl
@[simp] theorem State.setGrain_obsv (d b k : Nat) (v : Grain) : (s.setGrain d b k v).obsv = s.obsv := rfl

@[simp] theorem State.modGrain_pending (d b k : Nat) (g : Grain → Grain) : (s.modGrain d b k g).pending = s.pending := rfl
@[simp] theorem State.modGrain_time (d b k : Nat) (g : Grain → Grain) : (s.modGrain d b k g).time = s.time := rfl
@[simp] theorem State.modGrain_free (d b k : Nat) (g : Grain → Grain) : (s.modGrain d b k g).free = s.free := rfl
@[simp] theorem State.modGrain_csr (d b k : Nat) (g : Grain → Grain) : (s.modGrain d b k g).csr = s.csr := rfl
@[simp] theorem State.modGrain_wo1 (d b k : Nat) (g : Grain → Grain) : (s.modGrain d b k g).wo1 = s.wo1 := rfl
@[simp] theorem State.modGrain_mem (d b k : Nat) (g : Grain → Grain) : (s.modGrain d b k g).mem = s.mem := rfl
@[simp] theorem State.modGrain_bricks (d b k : Nat) (g : Grain → Grain) : (s.modGrain d b k g).bricks = s.bricks := rfl
@[simp] theorem State.modGrain_arrays (d b k : Nat) (g : Grain → Grain) : (s.modGrain d b k g).arrays = s.arrays := rfl
@[simp] theorem State.modGrain_sch (d b k : Nat) (g : Grain → Grain) : (s.modGrain d b k g).sch = s.sch := rfl
@[simp] theorem State.modGrain_att (d b k : Nat) (g : Grain → Grain) : (s.modGrain d b k g).att = s.att := rfl
@[simp] theorem State.modGrain_tainted (d b k : Nat) (g : Grain → Grain) : (s.modGrain d b k g).tainted = s.tainted := rfl
@[simp] theorem State.modGrain_lanes (d b k : Nat) (g : Grain → Grain) : (s.modGrain d b k g).lanes = s.lanes := rfl
@[simp] theorem State.modGrain_epc (d b k : Nat) (g : Grain → Grain) : (s.modGrain d b k g).epc = s.epc := rfl
@[simp] theorem State.modGrain_rings (d b k : Nat) (g : Grain → Grain) : (s.modGrain d b k g).rings = s.rings := rfl
@[simp] theorem State.modGrain_tier (d b k : Nat) (g : Grain → Grain) : (s.modGrain d b k g).tier = s.tier := rfl
@[simp] theorem State.modGrain_fab (d b k : Nat) (g : Grain → Grain) : (s.modGrain d b k g).fab = s.fab := rfl
@[simp] theorem State.modGrain_col (d b k : Nat) (g : Grain → Grain) : (s.modGrain d b k g).col = s.col := rfl
@[simp] theorem State.modGrain_wpt (d b k : Nat) (g : Grain → Grain) : (s.modGrain d b k g).wpt = s.wpt := rfl
@[simp] theorem State.modGrain_hcx (d b k : Nat) (g : Grain → Grain) : (s.modGrain d b k g).hcx = s.hcx := rfl
@[simp] theorem State.modGrain_ckp (d b k : Nat) (g : Grain → Grain) : (s.modGrain d b k g).ckp = s.ckp := rfl
@[simp] theorem State.modGrain_audit (d b k : Nat) (g : Grain → Grain) : (s.modGrain d b k g).audit = s.audit := rfl
@[simp] theorem State.modGrain_keys (d b k : Nat) (g : Grain → Grain) : (s.modGrain d b k g).keys = s.keys := rfl
@[simp] theorem State.modGrain_clk (d b k : Nat) (g : Grain → Grain) : (s.modGrain d b k g).clk = s.clk := rfl
@[simp] theorem State.modGrain_obsv (d b k : Nat) (g : Grain → Grain) : (s.modGrain d b k g).obsv = s.obsv := rfl

@[simp] theorem State.setArray_pending (d b : Nat) (v : ArraySt) : (s.setArray d b v).pending = s.pending := rfl
@[simp] theorem State.setArray_time (d b : Nat) (v : ArraySt) : (s.setArray d b v).time = s.time := rfl
@[simp] theorem State.setArray_free (d b : Nat) (v : ArraySt) : (s.setArray d b v).free = s.free := rfl
@[simp] theorem State.setArray_csr (d b : Nat) (v : ArraySt) : (s.setArray d b v).csr = s.csr := rfl
@[simp] theorem State.setArray_wo1 (d b : Nat) (v : ArraySt) : (s.setArray d b v).wo1 = s.wo1 := rfl
@[simp] theorem State.setArray_mem (d b : Nat) (v : ArraySt) : (s.setArray d b v).mem = s.mem := rfl
@[simp] theorem State.setArray_grains (d b : Nat) (v : ArraySt) : (s.setArray d b v).grains = s.grains := rfl
@[simp] theorem State.setArray_bricks (d b : Nat) (v : ArraySt) : (s.setArray d b v).bricks = s.bricks := rfl
@[simp] theorem State.setArray_sch (d b : Nat) (v : ArraySt) : (s.setArray d b v).sch = s.sch := rfl
@[simp] theorem State.setArray_att (d b : Nat) (v : ArraySt) : (s.setArray d b v).att = s.att := rfl
@[simp] theorem State.setArray_tainted (d b : Nat) (v : ArraySt) : (s.setArray d b v).tainted = s.tainted := rfl
@[simp] theorem State.setArray_lanes (d b : Nat) (v : ArraySt) : (s.setArray d b v).lanes = s.lanes := rfl
@[simp] theorem State.setArray_epc (d b : Nat) (v : ArraySt) : (s.setArray d b v).epc = s.epc := rfl
@[simp] theorem State.setArray_rings (d b : Nat) (v : ArraySt) : (s.setArray d b v).rings = s.rings := rfl
@[simp] theorem State.setArray_tier (d b : Nat) (v : ArraySt) : (s.setArray d b v).tier = s.tier := rfl
@[simp] theorem State.setArray_fab (d b : Nat) (v : ArraySt) : (s.setArray d b v).fab = s.fab := rfl
@[simp] theorem State.setArray_col (d b : Nat) (v : ArraySt) : (s.setArray d b v).col = s.col := rfl
@[simp] theorem State.setArray_wpt (d b : Nat) (v : ArraySt) : (s.setArray d b v).wpt = s.wpt := rfl
@[simp] theorem State.setArray_hcx (d b : Nat) (v : ArraySt) : (s.setArray d b v).hcx = s.hcx := rfl
@[simp] theorem State.setArray_ckp (d b : Nat) (v : ArraySt) : (s.setArray d b v).ckp = s.ckp := rfl
@[simp] theorem State.setArray_audit (d b : Nat) (v : ArraySt) : (s.setArray d b v).audit = s.audit := rfl
@[simp] theorem State.setArray_keys (d b : Nat) (v : ArraySt) : (s.setArray d b v).keys = s.keys := rfl
@[simp] theorem State.setArray_clk (d b : Nat) (v : ArraySt) : (s.setArray d b v).clk = s.clk := rfl
@[simp] theorem State.setArray_obsv (d b : Nat) (v : ArraySt) : (s.setArray d b v).obsv = s.obsv := rfl

@[simp] theorem State.setClk_pending (c : ClkSt) : (s.setClk c).pending = s.pending := rfl
@[simp] theorem State.setClk_time (c : ClkSt) : (s.setClk c).time = s.time := rfl
@[simp] theorem State.setClk_free (c : ClkSt) : (s.setClk c).free = s.free := rfl
@[simp] theorem State.setClk_csr (c : ClkSt) : (s.setClk c).csr = s.csr := rfl
@[simp] theorem State.setClk_wo1 (c : ClkSt) : (s.setClk c).wo1 = s.wo1 := rfl
@[simp] theorem State.setClk_mem (c : ClkSt) : (s.setClk c).mem = s.mem := rfl
@[simp] theorem State.setClk_grains (c : ClkSt) : (s.setClk c).grains = s.grains := rfl
@[simp] theorem State.setClk_bricks (c : ClkSt) : (s.setClk c).bricks = s.bricks := rfl
@[simp] theorem State.setClk_arrays (c : ClkSt) : (s.setClk c).arrays = s.arrays := rfl
@[simp] theorem State.setClk_sch (c : ClkSt) : (s.setClk c).sch = s.sch := rfl
@[simp] theorem State.setClk_att (c : ClkSt) : (s.setClk c).att = s.att := rfl
@[simp] theorem State.setClk_tainted (c : ClkSt) : (s.setClk c).tainted = s.tainted := rfl
@[simp] theorem State.setClk_lanes (c : ClkSt) : (s.setClk c).lanes = s.lanes := rfl
@[simp] theorem State.setClk_epc (c : ClkSt) : (s.setClk c).epc = s.epc := rfl
@[simp] theorem State.setClk_rings (c : ClkSt) : (s.setClk c).rings = s.rings := rfl
@[simp] theorem State.setClk_tier (c : ClkSt) : (s.setClk c).tier = s.tier := rfl
@[simp] theorem State.setClk_fab (c : ClkSt) : (s.setClk c).fab = s.fab := rfl
@[simp] theorem State.setClk_col (c : ClkSt) : (s.setClk c).col = s.col := rfl
@[simp] theorem State.setClk_wpt (c : ClkSt) : (s.setClk c).wpt = s.wpt := rfl
@[simp] theorem State.setClk_hcx (c : ClkSt) : (s.setClk c).hcx = s.hcx := rfl
@[simp] theorem State.setClk_ckp (c : ClkSt) : (s.setClk c).ckp = s.ckp := rfl
@[simp] theorem State.setClk_audit (c : ClkSt) : (s.setClk c).audit = s.audit := rfl
@[simp] theorem State.setClk_keys (c : ClkSt) : (s.setClk c).keys = s.keys := rfl
@[simp] theorem State.setClk_obsv (c : ClkSt) : (s.setClk c).obsv = s.obsv := rfl

/-! `wrTier` writes bytes of a tier: memory and the marks of the tile store alone change. -/

@[simp] theorem State.wrTier_pending (space off : Nat) (bs : List Byte) : (s.wrTier space off bs).pending = s.pending := rfl
@[simp] theorem State.wrTier_time (space off : Nat) (bs : List Byte) : (s.wrTier space off bs).time = s.time := rfl
@[simp] theorem State.wrTier_free (space off : Nat) (bs : List Byte) : (s.wrTier space off bs).free = s.free := rfl
@[simp] theorem State.wrTier_csr (space off : Nat) (bs : List Byte) : (s.wrTier space off bs).csr = s.csr := rfl
@[simp] theorem State.wrTier_wo1 (space off : Nat) (bs : List Byte) : (s.wrTier space off bs).wo1 = s.wo1 := rfl
@[simp] theorem State.wrTier_grains (space off : Nat) (bs : List Byte) : (s.wrTier space off bs).grains = s.grains := rfl
@[simp] theorem State.wrTier_bricks (space off : Nat) (bs : List Byte) : (s.wrTier space off bs).bricks = s.bricks := rfl
@[simp] theorem State.wrTier_arrays (space off : Nat) (bs : List Byte) : (s.wrTier space off bs).arrays = s.arrays := rfl
@[simp] theorem State.wrTier_sch (space off : Nat) (bs : List Byte) : (s.wrTier space off bs).sch = s.sch := rfl
@[simp] theorem State.wrTier_att (space off : Nat) (bs : List Byte) : (s.wrTier space off bs).att = s.att := rfl
@[simp] theorem State.wrTier_lanes (space off : Nat) (bs : List Byte) : (s.wrTier space off bs).lanes = s.lanes := rfl
@[simp] theorem State.wrTier_epc (space off : Nat) (bs : List Byte) : (s.wrTier space off bs).epc = s.epc := rfl
@[simp] theorem State.wrTier_rings (space off : Nat) (bs : List Byte) : (s.wrTier space off bs).rings = s.rings := rfl
@[simp] theorem State.wrTier_tier (space off : Nat) (bs : List Byte) : (s.wrTier space off bs).tier = s.tier := rfl
@[simp] theorem State.wrTier_fab (space off : Nat) (bs : List Byte) : (s.wrTier space off bs).fab = s.fab := rfl
@[simp] theorem State.wrTier_col (space off : Nat) (bs : List Byte) : (s.wrTier space off bs).col = s.col := rfl
@[simp] theorem State.wrTier_wpt (space off : Nat) (bs : List Byte) : (s.wrTier space off bs).wpt = s.wpt := rfl
@[simp] theorem State.wrTier_hcx (space off : Nat) (bs : List Byte) : (s.wrTier space off bs).hcx = s.hcx := rfl
@[simp] theorem State.wrTier_ckp (space off : Nat) (bs : List Byte) : (s.wrTier space off bs).ckp = s.ckp := rfl
@[simp] theorem State.wrTier_audit (space off : Nat) (bs : List Byte) : (s.wrTier space off bs).audit = s.audit := rfl
@[simp] theorem State.wrTier_keys (space off : Nat) (bs : List Byte) : (s.wrTier space off bs).keys = s.keys := rfl
@[simp] theorem State.wrTier_clk (space off : Nat) (bs : List Byte) : (s.wrTier space off bs).clk = s.clk := rfl
@[simp] theorem State.wrTier_obsv (space off : Nat) (bs : List Byte) : (s.wrTier space off bs).obsv = s.obsv := rfl

/-- Everything a run of tier writes does: memory and the marks of the tile store alone change. -/
theorem State.wrTiers_spec {V : Type} (sp off : V → Nat) (bs : V → List Byte) (l : List V) :
    ∃ m t, forEach l s (fun s v => s.wrTier (sp v) (off v) (bs v)) = { s with mem := m, tainted := t } := by
  induction l generalizing s with
  | nil => exact ⟨s.mem, s.tainted, rfl⟩
  | cons v r ih =>
    obtain ⟨m, t, h⟩ := ih (s.wrTier (sp v) (off v) (bs v))
    exact ⟨m, t, by simpa only [forEach, List.foldl_cons, State.wrTier] using h⟩

@[simp] theorem State.setSeq_pending (i : Nat) (q : Seq) : (s.setSeq i q).pending = s.pending := by simp only [State.setSeq, State.wrTier_pending]
@[simp] theorem State.setSeq_time (i : Nat) (q : Seq) : (s.setSeq i q).time = s.time := by simp only [State.setSeq, State.wrTier_time]
@[simp] theorem State.setSeq_free (i : Nat) (q : Seq) : (s.setSeq i q).free = s.free := by simp only [State.setSeq, State.wrTier_free]
@[simp] theorem State.setSeq_csr (i : Nat) (q : Seq) : (s.setSeq i q).csr = s.csr := by simp only [State.setSeq, State.wrTier_csr]
@[simp] theorem State.setSeq_wo1 (i : Nat) (q : Seq) : (s.setSeq i q).wo1 = s.wo1 := by simp only [State.setSeq, State.wrTier_wo1]
@[simp] theorem State.setSeq_grains (i : Nat) (q : Seq) : (s.setSeq i q).grains = s.grains := by simp only [State.setSeq, State.wrTier_grains]
@[simp] theorem State.setSeq_bricks (i : Nat) (q : Seq) : (s.setSeq i q).bricks = s.bricks := by simp only [State.setSeq, State.wrTier_bricks]
@[simp] theorem State.setSeq_arrays (i : Nat) (q : Seq) : (s.setSeq i q).arrays = s.arrays := by simp only [State.setSeq, State.wrTier_arrays]
@[simp] theorem State.setSeq_sch (i : Nat) (q : Seq) : (s.setSeq i q).sch = s.sch := by simp only [State.setSeq, State.wrTier_sch]
@[simp] theorem State.setSeq_lanes (i : Nat) (q : Seq) : (s.setSeq i q).lanes = s.lanes := by simp only [State.setSeq, State.wrTier_lanes]
@[simp] theorem State.setSeq_epc (i : Nat) (q : Seq) : (s.setSeq i q).epc = s.epc := by simp only [State.setSeq, State.wrTier_epc]
@[simp] theorem State.setSeq_rings (i : Nat) (q : Seq) : (s.setSeq i q).rings = s.rings := by simp only [State.setSeq, State.wrTier_rings]
@[simp] theorem State.setSeq_tier (i : Nat) (q : Seq) : (s.setSeq i q).tier = s.tier := by simp only [State.setSeq, State.wrTier_tier]
@[simp] theorem State.setSeq_fab (i : Nat) (q : Seq) : (s.setSeq i q).fab = s.fab := by simp only [State.setSeq, State.wrTier_fab]
@[simp] theorem State.setSeq_col (i : Nat) (q : Seq) : (s.setSeq i q).col = s.col := by simp only [State.setSeq, State.wrTier_col]
@[simp] theorem State.setSeq_wpt (i : Nat) (q : Seq) : (s.setSeq i q).wpt = s.wpt := by simp only [State.setSeq, State.wrTier_wpt]
@[simp] theorem State.setSeq_hcx (i : Nat) (q : Seq) : (s.setSeq i q).hcx = s.hcx := by simp only [State.setSeq, State.wrTier_hcx]
@[simp] theorem State.setSeq_ckp (i : Nat) (q : Seq) : (s.setSeq i q).ckp = s.ckp := by simp only [State.setSeq, State.wrTier_ckp]
@[simp] theorem State.setSeq_audit (i : Nat) (q : Seq) : (s.setSeq i q).audit = s.audit := by simp only [State.setSeq, State.wrTier_audit]
@[simp] theorem State.setSeq_keys (i : Nat) (q : Seq) : (s.setSeq i q).keys = s.keys := by simp only [State.setSeq, State.wrTier_keys]
@[simp] theorem State.setSeq_clk (i : Nat) (q : Seq) : (s.setSeq i q).clk = s.clk := by simp only [State.setSeq, State.wrTier_clk]
@[simp] theorem State.setSeq_obsv (i : Nat) (q : Seq) : (s.setSeq i q).obsv = s.obsv := by simp only [State.setSeq, State.wrTier_obsv]

@[simp] theorem State.modSeq_pending (i : Nat) (g : Seq → Seq) : (s.modSeq i g).pending = s.pending := by simp only [State.modSeq, State.setSeq_pending]
@[simp] theorem State.modSeq_time (i : Nat) (g : Seq → Seq) : (s.modSeq i g).time = s.time := by simp only [State.modSeq, State.setSeq_time]
@[simp] theorem State.modSeq_free (i : Nat) (g : Seq → Seq) : (s.modSeq i g).free = s.free := by simp only [State.modSeq, State.setSeq_free]
@[simp] theorem State.modSeq_csr (i : Nat) (g : Seq → Seq) : (s.modSeq i g).csr = s.csr := by simp only [State.modSeq, State.setSeq_csr]
@[simp] theorem State.modSeq_wo1 (i : Nat) (g : Seq → Seq) : (s.modSeq i g).wo1 = s.wo1 := by simp only [State.modSeq, State.setSeq_wo1]
@[simp] theorem State.modSeq_grains (i : Nat) (g : Seq → Seq) : (s.modSeq i g).grains = s.grains := by simp only [State.modSeq, State.setSeq_grains]
@[simp] theorem State.modSeq_bricks (i : Nat) (g : Seq → Seq) : (s.modSeq i g).bricks = s.bricks := by simp only [State.modSeq, State.setSeq_bricks]
@[simp] theorem State.modSeq_arrays (i : Nat) (g : Seq → Seq) : (s.modSeq i g).arrays = s.arrays := by simp only [State.modSeq, State.setSeq_arrays]
@[simp] theorem State.modSeq_sch (i : Nat) (g : Seq → Seq) : (s.modSeq i g).sch = s.sch := by simp only [State.modSeq, State.setSeq_sch]
@[simp] theorem State.modSeq_lanes (i : Nat) (g : Seq → Seq) : (s.modSeq i g).lanes = s.lanes := by simp only [State.modSeq, State.setSeq_lanes]
@[simp] theorem State.modSeq_epc (i : Nat) (g : Seq → Seq) : (s.modSeq i g).epc = s.epc := by simp only [State.modSeq, State.setSeq_epc]
@[simp] theorem State.modSeq_rings (i : Nat) (g : Seq → Seq) : (s.modSeq i g).rings = s.rings := by simp only [State.modSeq, State.setSeq_rings]
@[simp] theorem State.modSeq_tier (i : Nat) (g : Seq → Seq) : (s.modSeq i g).tier = s.tier := by simp only [State.modSeq, State.setSeq_tier]
@[simp] theorem State.modSeq_fab (i : Nat) (g : Seq → Seq) : (s.modSeq i g).fab = s.fab := by simp only [State.modSeq, State.setSeq_fab]
@[simp] theorem State.modSeq_col (i : Nat) (g : Seq → Seq) : (s.modSeq i g).col = s.col := by simp only [State.modSeq, State.setSeq_col]
@[simp] theorem State.modSeq_wpt (i : Nat) (g : Seq → Seq) : (s.modSeq i g).wpt = s.wpt := by simp only [State.modSeq, State.setSeq_wpt]
@[simp] theorem State.modSeq_hcx (i : Nat) (g : Seq → Seq) : (s.modSeq i g).hcx = s.hcx := by simp only [State.modSeq, State.setSeq_hcx]
@[simp] theorem State.modSeq_ckp (i : Nat) (g : Seq → Seq) : (s.modSeq i g).ckp = s.ckp := by simp only [State.modSeq, State.setSeq_ckp]
@[simp] theorem State.modSeq_audit (i : Nat) (g : Seq → Seq) : (s.modSeq i g).audit = s.audit := by simp only [State.modSeq, State.setSeq_audit]
@[simp] theorem State.modSeq_keys (i : Nat) (g : Seq → Seq) : (s.modSeq i g).keys = s.keys := by simp only [State.modSeq, State.setSeq_keys]
@[simp] theorem State.modSeq_clk (i : Nat) (g : Seq → Seq) : (s.modSeq i g).clk = s.clk := by simp only [State.modSeq, State.setSeq_clk]
@[simp] theorem State.modSeq_obsv (i : Nat) (g : Seq → Seq) : (s.modSeq i g).obsv = s.obsv := by simp only [State.modSeq, State.setSeq_obsv]

@[simp] theorem State.setWorld_pending (w : Nat) (v : World) : (s.setWorld w v).pending = s.pending := rfl
@[simp] theorem State.setWorld_time (w : Nat) (v : World) : (s.setWorld w v).time = s.time := rfl
@[simp] theorem State.setWorld_free (w : Nat) (v : World) : (s.setWorld w v).free = s.free := rfl
@[simp] theorem State.setWorld_csr (w : Nat) (v : World) : (s.setWorld w v).csr = s.csr := rfl
@[simp] theorem State.setWorld_wo1 (w : Nat) (v : World) : (s.setWorld w v).wo1 = s.wo1 := rfl
@[simp] theorem State.setWorld_mem (w : Nat) (v : World) : (s.setWorld w v).mem = s.mem := rfl
@[simp] theorem State.setWorld_grains (w : Nat) (v : World) : (s.setWorld w v).grains = s.grains := rfl
@[simp] theorem State.setWorld_bricks (w : Nat) (v : World) : (s.setWorld w v).bricks = s.bricks := rfl
@[simp] theorem State.setWorld_arrays (w : Nat) (v : World) : (s.setWorld w v).arrays = s.arrays := rfl
@[simp] theorem State.setWorld_sch (w : Nat) (v : World) : (s.setWorld w v).sch = s.sch := rfl
@[simp] theorem State.setWorld_att (w : Nat) (v : World) : (s.setWorld w v).att = s.att := rfl
@[simp] theorem State.setWorld_tainted (w : Nat) (v : World) : (s.setWorld w v).tainted = s.tainted := rfl
@[simp] theorem State.setWorld_lanes (w : Nat) (v : World) : (s.setWorld w v).lanes = s.lanes := rfl
@[simp] theorem State.setWorld_epc (w : Nat) (v : World) : (s.setWorld w v).epc = s.epc := rfl
@[simp] theorem State.setWorld_rings (w : Nat) (v : World) : (s.setWorld w v).rings = s.rings := rfl
@[simp] theorem State.setWorld_tier (w : Nat) (v : World) : (s.setWorld w v).tier = s.tier := rfl
@[simp] theorem State.setWorld_fab (w : Nat) (v : World) : (s.setWorld w v).fab = s.fab := rfl
@[simp] theorem State.setWorld_col (w : Nat) (v : World) : (s.setWorld w v).col = s.col := rfl
@[simp] theorem State.setWorld_hcx (w : Nat) (v : World) : (s.setWorld w v).hcx = s.hcx := rfl
@[simp] theorem State.setWorld_ckp (w : Nat) (v : World) : (s.setWorld w v).ckp = s.ckp := rfl
@[simp] theorem State.setWorld_audit (w : Nat) (v : World) : (s.setWorld w v).audit = s.audit := rfl
@[simp] theorem State.setWorld_keys (w : Nat) (v : World) : (s.setWorld w v).keys = s.keys := rfl
@[simp] theorem State.setWorld_clk (w : Nat) (v : World) : (s.setWorld w v).clk = s.clk := rfl
@[simp] theorem State.setWorld_obsv (w : Nat) (v : World) : (s.setWorld w v).obsv = s.obsv := rfl

@[simp] theorem State.modWorld_pending (w : Nat) (g : World → World) : (s.modWorld w g).pending = s.pending := rfl
@[simp] theorem State.modWorld_time (w : Nat) (g : World → World) : (s.modWorld w g).time = s.time := rfl
@[simp] theorem State.modWorld_free (w : Nat) (g : World → World) : (s.modWorld w g).free = s.free := rfl
@[simp] theorem State.modWorld_csr (w : Nat) (g : World → World) : (s.modWorld w g).csr = s.csr := rfl
@[simp] theorem State.modWorld_wo1 (w : Nat) (g : World → World) : (s.modWorld w g).wo1 = s.wo1 := rfl
@[simp] theorem State.modWorld_mem (w : Nat) (g : World → World) : (s.modWorld w g).mem = s.mem := rfl
@[simp] theorem State.modWorld_grains (w : Nat) (g : World → World) : (s.modWorld w g).grains = s.grains := rfl
@[simp] theorem State.modWorld_bricks (w : Nat) (g : World → World) : (s.modWorld w g).bricks = s.bricks := rfl
@[simp] theorem State.modWorld_arrays (w : Nat) (g : World → World) : (s.modWorld w g).arrays = s.arrays := rfl
@[simp] theorem State.modWorld_sch (w : Nat) (g : World → World) : (s.modWorld w g).sch = s.sch := rfl
@[simp] theorem State.modWorld_att (w : Nat) (g : World → World) : (s.modWorld w g).att = s.att := rfl
@[simp] theorem State.modWorld_tainted (w : Nat) (g : World → World) : (s.modWorld w g).tainted = s.tainted := rfl
@[simp] theorem State.modWorld_lanes (w : Nat) (g : World → World) : (s.modWorld w g).lanes = s.lanes := rfl
@[simp] theorem State.modWorld_epc (w : Nat) (g : World → World) : (s.modWorld w g).epc = s.epc := rfl
@[simp] theorem State.modWorld_rings (w : Nat) (g : World → World) : (s.modWorld w g).rings = s.rings := rfl
@[simp] theorem State.modWorld_tier (w : Nat) (g : World → World) : (s.modWorld w g).tier = s.tier := rfl
@[simp] theorem State.modWorld_fab (w : Nat) (g : World → World) : (s.modWorld w g).fab = s.fab := rfl
@[simp] theorem State.modWorld_col (w : Nat) (g : World → World) : (s.modWorld w g).col = s.col := rfl
@[simp] theorem State.modWorld_hcx (w : Nat) (g : World → World) : (s.modWorld w g).hcx = s.hcx := rfl
@[simp] theorem State.modWorld_ckp (w : Nat) (g : World → World) : (s.modWorld w g).ckp = s.ckp := rfl
@[simp] theorem State.modWorld_audit (w : Nat) (g : World → World) : (s.modWorld w g).audit = s.audit := rfl
@[simp] theorem State.modWorld_keys (w : Nat) (g : World → World) : (s.modWorld w g).keys = s.keys := rfl
@[simp] theorem State.modWorld_clk (w : Nat) (g : World → World) : (s.modWorld w g).clk = s.clk := rfl
@[simp] theorem State.modWorld_obsv (w : Nat) (g : World → World) : (s.modWorld w g).obsv = s.obsv := rfl

@[simp] theorem State.setPort_pending (p : Nat) (v : FPort) : (s.setPort p v).pending = s.pending := rfl
@[simp] theorem State.setPort_time (p : Nat) (v : FPort) : (s.setPort p v).time = s.time := rfl
@[simp] theorem State.setPort_free (p : Nat) (v : FPort) : (s.setPort p v).free = s.free := rfl
@[simp] theorem State.setPort_csr (p : Nat) (v : FPort) : (s.setPort p v).csr = s.csr := rfl
@[simp] theorem State.setPort_wo1 (p : Nat) (v : FPort) : (s.setPort p v).wo1 = s.wo1 := rfl
@[simp] theorem State.setPort_mem (p : Nat) (v : FPort) : (s.setPort p v).mem = s.mem := rfl
@[simp] theorem State.setPort_grains (p : Nat) (v : FPort) : (s.setPort p v).grains = s.grains := rfl
@[simp] theorem State.setPort_bricks (p : Nat) (v : FPort) : (s.setPort p v).bricks = s.bricks := rfl
@[simp] theorem State.setPort_arrays (p : Nat) (v : FPort) : (s.setPort p v).arrays = s.arrays := rfl
@[simp] theorem State.setPort_sch (p : Nat) (v : FPort) : (s.setPort p v).sch = s.sch := rfl
@[simp] theorem State.setPort_att (p : Nat) (v : FPort) : (s.setPort p v).att = s.att := rfl
@[simp] theorem State.setPort_tainted (p : Nat) (v : FPort) : (s.setPort p v).tainted = s.tainted := rfl
@[simp] theorem State.setPort_lanes (p : Nat) (v : FPort) : (s.setPort p v).lanes = s.lanes := rfl
@[simp] theorem State.setPort_epc (p : Nat) (v : FPort) : (s.setPort p v).epc = s.epc := rfl
@[simp] theorem State.setPort_rings (p : Nat) (v : FPort) : (s.setPort p v).rings = s.rings := rfl
@[simp] theorem State.setPort_tier (p : Nat) (v : FPort) : (s.setPort p v).tier = s.tier := rfl
@[simp] theorem State.setPort_col (p : Nat) (v : FPort) : (s.setPort p v).col = s.col := rfl
@[simp] theorem State.setPort_wpt (p : Nat) (v : FPort) : (s.setPort p v).wpt = s.wpt := rfl
@[simp] theorem State.setPort_hcx (p : Nat) (v : FPort) : (s.setPort p v).hcx = s.hcx := rfl
@[simp] theorem State.setPort_ckp (p : Nat) (v : FPort) : (s.setPort p v).ckp = s.ckp := rfl
@[simp] theorem State.setPort_audit (p : Nat) (v : FPort) : (s.setPort p v).audit = s.audit := rfl
@[simp] theorem State.setPort_keys (p : Nat) (v : FPort) : (s.setPort p v).keys = s.keys := rfl
@[simp] theorem State.setPort_clk (p : Nat) (v : FPort) : (s.setPort p v).clk = s.clk := rfl
@[simp] theorem State.setPort_obsv (p : Nat) (v : FPort) : (s.setPort p v).obsv = s.obsv := rfl

@[simp] theorem State.portTo_pending (p st : Nat) : (s.portTo p st).pending = s.pending := rfl
@[simp] theorem State.portTo_time (p st : Nat) : (s.portTo p st).time = s.time := rfl
@[simp] theorem State.portTo_free (p st : Nat) : (s.portTo p st).free = s.free := rfl
@[simp] theorem State.portTo_wo1 (p st : Nat) : (s.portTo p st).wo1 = s.wo1 := rfl
@[simp] theorem State.portTo_mem (p st : Nat) : (s.portTo p st).mem = s.mem := rfl
@[simp] theorem State.portTo_grains (p st : Nat) : (s.portTo p st).grains = s.grains := rfl
@[simp] theorem State.portTo_bricks (p st : Nat) : (s.portTo p st).bricks = s.bricks := rfl
@[simp] theorem State.portTo_arrays (p st : Nat) : (s.portTo p st).arrays = s.arrays := rfl
@[simp] theorem State.portTo_sch (p st : Nat) : (s.portTo p st).sch = s.sch := rfl
@[simp] theorem State.portTo_att (p st : Nat) : (s.portTo p st).att = s.att := rfl
@[simp] theorem State.portTo_tainted (p st : Nat) : (s.portTo p st).tainted = s.tainted := rfl
@[simp] theorem State.portTo_lanes (p st : Nat) : (s.portTo p st).lanes = s.lanes := rfl
@[simp] theorem State.portTo_epc (p st : Nat) : (s.portTo p st).epc = s.epc := rfl
@[simp] theorem State.portTo_rings (p st : Nat) : (s.portTo p st).rings = s.rings := rfl
@[simp] theorem State.portTo_tier (p st : Nat) : (s.portTo p st).tier = s.tier := rfl
@[simp] theorem State.portTo_fab (p st : Nat) : (s.portTo p st).fab = s.fab := rfl
@[simp] theorem State.portTo_col (p st : Nat) : (s.portTo p st).col = s.col := rfl
@[simp] theorem State.portTo_wpt (p st : Nat) : (s.portTo p st).wpt = s.wpt := rfl
@[simp] theorem State.portTo_hcx (p st : Nat) : (s.portTo p st).hcx = s.hcx := rfl
@[simp] theorem State.portTo_ckp (p st : Nat) : (s.portTo p st).ckp = s.ckp := rfl
@[simp] theorem State.portTo_audit (p st : Nat) : (s.portTo p st).audit = s.audit := rfl
@[simp] theorem State.portTo_keys (p st : Nat) : (s.portTo p st).keys = s.keys := rfl
@[simp] theorem State.portTo_clk (p st : Nat) : (s.portTo p st).clk = s.clk := rfl
@[simp] theorem State.portTo_obsv (p st : Nat) : (s.portTo p st).obsv = s.obsv := rfl

@[simp] theorem State.setFab_pending (v : FabSt) : (s.setFab v).pending = s.pending := rfl
@[simp] theorem State.setFab_time (v : FabSt) : (s.setFab v).time = s.time := rfl
@[simp] theorem State.setFab_free (v : FabSt) : (s.setFab v).free = s.free := rfl
@[simp] theorem State.setFab_csr (v : FabSt) : (s.setFab v).csr = s.csr := rfl
@[simp] theorem State.setFab_wo1 (v : FabSt) : (s.setFab v).wo1 = s.wo1 := rfl
@[simp] theorem State.setFab_mem (v : FabSt) : (s.setFab v).mem = s.mem := rfl
@[simp] theorem State.setFab_grains (v : FabSt) : (s.setFab v).grains = s.grains := rfl
@[simp] theorem State.setFab_bricks (v : FabSt) : (s.setFab v).bricks = s.bricks := rfl
@[simp] theorem State.setFab_arrays (v : FabSt) : (s.setFab v).arrays = s.arrays := rfl
@[simp] theorem State.setFab_sch (v : FabSt) : (s.setFab v).sch = s.sch := rfl
@[simp] theorem State.setFab_att (v : FabSt) : (s.setFab v).att = s.att := rfl
@[simp] theorem State.setFab_tainted (v : FabSt) : (s.setFab v).tainted = s.tainted := rfl
@[simp] theorem State.setFab_lanes (v : FabSt) : (s.setFab v).lanes = s.lanes := rfl
@[simp] theorem State.setFab_epc (v : FabSt) : (s.setFab v).epc = s.epc := rfl
@[simp] theorem State.setFab_rings (v : FabSt) : (s.setFab v).rings = s.rings := rfl
@[simp] theorem State.setFab_tier (v : FabSt) : (s.setFab v).tier = s.tier := rfl
@[simp] theorem State.setFab_col (v : FabSt) : (s.setFab v).col = s.col := rfl
@[simp] theorem State.setFab_wpt (v : FabSt) : (s.setFab v).wpt = s.wpt := rfl
@[simp] theorem State.setFab_hcx (v : FabSt) : (s.setFab v).hcx = s.hcx := rfl
@[simp] theorem State.setFab_ckp (v : FabSt) : (s.setFab v).ckp = s.ckp := rfl
@[simp] theorem State.setFab_audit (v : FabSt) : (s.setFab v).audit = s.audit := rfl
@[simp] theorem State.setFab_keys (v : FabSt) : (s.setFab v).keys = s.keys := rfl
@[simp] theorem State.setFab_clk (v : FabSt) : (s.setFab v).clk = s.clk := rfl
@[simp] theorem State.setFab_obsv (v : FabSt) : (s.setFab v).obsv = s.obsv := rfl

@[simp] theorem State.setQueue_pending (p : Nat) (q : Queue) : (s.setQueue p q).pending = s.pending := rfl
@[simp] theorem State.setQueue_time (p : Nat) (q : Queue) : (s.setQueue p q).time = s.time := rfl
@[simp] theorem State.setQueue_free (p : Nat) (q : Queue) : (s.setQueue p q).free = s.free := rfl
@[simp] theorem State.setQueue_csr (p : Nat) (q : Queue) : (s.setQueue p q).csr = s.csr := rfl
@[simp] theorem State.setQueue_wo1 (p : Nat) (q : Queue) : (s.setQueue p q).wo1 = s.wo1 := rfl
@[simp] theorem State.setQueue_mem (p : Nat) (q : Queue) : (s.setQueue p q).mem = s.mem := rfl
@[simp] theorem State.setQueue_grains (p : Nat) (q : Queue) : (s.setQueue p q).grains = s.grains := rfl
@[simp] theorem State.setQueue_bricks (p : Nat) (q : Queue) : (s.setQueue p q).bricks = s.bricks := rfl
@[simp] theorem State.setQueue_arrays (p : Nat) (q : Queue) : (s.setQueue p q).arrays = s.arrays := rfl
@[simp] theorem State.setQueue_sch (p : Nat) (q : Queue) : (s.setQueue p q).sch = s.sch := rfl
@[simp] theorem State.setQueue_att (p : Nat) (q : Queue) : (s.setQueue p q).att = s.att := rfl
@[simp] theorem State.setQueue_tainted (p : Nat) (q : Queue) : (s.setQueue p q).tainted = s.tainted := rfl
@[simp] theorem State.setQueue_lanes (p : Nat) (q : Queue) : (s.setQueue p q).lanes = s.lanes := rfl
@[simp] theorem State.setQueue_epc (p : Nat) (q : Queue) : (s.setQueue p q).epc = s.epc := rfl
@[simp] theorem State.setQueue_rings (p : Nat) (q : Queue) : (s.setQueue p q).rings = s.rings := rfl
@[simp] theorem State.setQueue_tier (p : Nat) (q : Queue) : (s.setQueue p q).tier = s.tier := rfl
@[simp] theorem State.setQueue_fab (p : Nat) (q : Queue) : (s.setQueue p q).fab = s.fab := rfl
@[simp] theorem State.setQueue_col (p : Nat) (q : Queue) : (s.setQueue p q).col = s.col := rfl
@[simp] theorem State.setQueue_wpt (p : Nat) (q : Queue) : (s.setQueue p q).wpt = s.wpt := rfl
@[simp] theorem State.setQueue_ckp (p : Nat) (q : Queue) : (s.setQueue p q).ckp = s.ckp := rfl
@[simp] theorem State.setQueue_audit (p : Nat) (q : Queue) : (s.setQueue p q).audit = s.audit := rfl
@[simp] theorem State.setQueue_keys (p : Nat) (q : Queue) : (s.setQueue p q).keys = s.keys := rfl
@[simp] theorem State.setQueue_clk (p : Nat) (q : Queue) : (s.setQueue p q).clk = s.clk := rfl
@[simp] theorem State.setQueue_obsv (p : Nat) (q : Queue) : (s.setQueue p q).obsv = s.obsv := rfl

@[simp] theorem State.setWring_pending (l : Nat) (w : WRing) : (s.setWring l w).pending = s.pending := rfl
@[simp] theorem State.setWring_time (l : Nat) (w : WRing) : (s.setWring l w).time = s.time := rfl
@[simp] theorem State.setWring_free (l : Nat) (w : WRing) : (s.setWring l w).free = s.free := rfl
@[simp] theorem State.setWring_csr (l : Nat) (w : WRing) : (s.setWring l w).csr = s.csr := rfl
@[simp] theorem State.setWring_wo1 (l : Nat) (w : WRing) : (s.setWring l w).wo1 = s.wo1 := rfl
@[simp] theorem State.setWring_mem (l : Nat) (w : WRing) : (s.setWring l w).mem = s.mem := rfl
@[simp] theorem State.setWring_grains (l : Nat) (w : WRing) : (s.setWring l w).grains = s.grains := rfl
@[simp] theorem State.setWring_bricks (l : Nat) (w : WRing) : (s.setWring l w).bricks = s.bricks := rfl
@[simp] theorem State.setWring_arrays (l : Nat) (w : WRing) : (s.setWring l w).arrays = s.arrays := rfl
@[simp] theorem State.setWring_sch (l : Nat) (w : WRing) : (s.setWring l w).sch = s.sch := rfl
@[simp] theorem State.setWring_att (l : Nat) (w : WRing) : (s.setWring l w).att = s.att := rfl
@[simp] theorem State.setWring_tainted (l : Nat) (w : WRing) : (s.setWring l w).tainted = s.tainted := rfl
@[simp] theorem State.setWring_lanes (l : Nat) (w : WRing) : (s.setWring l w).lanes = s.lanes := rfl
@[simp] theorem State.setWring_epc (l : Nat) (w : WRing) : (s.setWring l w).epc = s.epc := rfl
@[simp] theorem State.setWring_rings (l : Nat) (w : WRing) : (s.setWring l w).rings = s.rings := rfl
@[simp] theorem State.setWring_tier (l : Nat) (w : WRing) : (s.setWring l w).tier = s.tier := rfl
@[simp] theorem State.setWring_fab (l : Nat) (w : WRing) : (s.setWring l w).fab = s.fab := rfl
@[simp] theorem State.setWring_wpt (l : Nat) (w : WRing) : (s.setWring l w).wpt = s.wpt := rfl
@[simp] theorem State.setWring_hcx (l : Nat) (w : WRing) : (s.setWring l w).hcx = s.hcx := rfl
@[simp] theorem State.setWring_ckp (l : Nat) (w : WRing) : (s.setWring l w).ckp = s.ckp := rfl
@[simp] theorem State.setWring_audit (l : Nat) (w : WRing) : (s.setWring l w).audit = s.audit := rfl
@[simp] theorem State.setWring_keys (l : Nat) (w : WRing) : (s.setWring l w).keys = s.keys := rfl
@[simp] theorem State.setWring_clk (l : Nat) (w : WRing) : (s.setWring l w).clk = s.clk := rfl
@[simp] theorem State.setWring_obsv (l : Nat) (w : WRing) : (s.setWring l w).obsv = s.obsv := rfl

@[simp] theorem State.modWring_pending (l : Nat) (g : WRing → WRing) : (s.modWring l g).pending = s.pending := rfl
@[simp] theorem State.modWring_time (l : Nat) (g : WRing → WRing) : (s.modWring l g).time = s.time := rfl
@[simp] theorem State.modWring_free (l : Nat) (g : WRing → WRing) : (s.modWring l g).free = s.free := rfl
@[simp] theorem State.modWring_csr (l : Nat) (g : WRing → WRing) : (s.modWring l g).csr = s.csr := rfl
@[simp] theorem State.modWring_wo1 (l : Nat) (g : WRing → WRing) : (s.modWring l g).wo1 = s.wo1 := rfl
@[simp] theorem State.modWring_mem (l : Nat) (g : WRing → WRing) : (s.modWring l g).mem = s.mem := rfl
@[simp] theorem State.modWring_grains (l : Nat) (g : WRing → WRing) : (s.modWring l g).grains = s.grains := rfl
@[simp] theorem State.modWring_bricks (l : Nat) (g : WRing → WRing) : (s.modWring l g).bricks = s.bricks := rfl
@[simp] theorem State.modWring_arrays (l : Nat) (g : WRing → WRing) : (s.modWring l g).arrays = s.arrays := rfl
@[simp] theorem State.modWring_sch (l : Nat) (g : WRing → WRing) : (s.modWring l g).sch = s.sch := rfl
@[simp] theorem State.modWring_att (l : Nat) (g : WRing → WRing) : (s.modWring l g).att = s.att := rfl
@[simp] theorem State.modWring_tainted (l : Nat) (g : WRing → WRing) : (s.modWring l g).tainted = s.tainted := rfl
@[simp] theorem State.modWring_lanes (l : Nat) (g : WRing → WRing) : (s.modWring l g).lanes = s.lanes := rfl
@[simp] theorem State.modWring_epc (l : Nat) (g : WRing → WRing) : (s.modWring l g).epc = s.epc := rfl
@[simp] theorem State.modWring_rings (l : Nat) (g : WRing → WRing) : (s.modWring l g).rings = s.rings := rfl
@[simp] theorem State.modWring_tier (l : Nat) (g : WRing → WRing) : (s.modWring l g).tier = s.tier := rfl
@[simp] theorem State.modWring_fab (l : Nat) (g : WRing → WRing) : (s.modWring l g).fab = s.fab := rfl
@[simp] theorem State.modWring_wpt (l : Nat) (g : WRing → WRing) : (s.modWring l g).wpt = s.wpt := rfl
@[simp] theorem State.modWring_hcx (l : Nat) (g : WRing → WRing) : (s.modWring l g).hcx = s.hcx := rfl
@[simp] theorem State.modWring_ckp (l : Nat) (g : WRing → WRing) : (s.modWring l g).ckp = s.ckp := rfl
@[simp] theorem State.modWring_audit (l : Nat) (g : WRing → WRing) : (s.modWring l g).audit = s.audit := rfl
@[simp] theorem State.modWring_keys (l : Nat) (g : WRing → WRing) : (s.modWring l g).keys = s.keys := rfl
@[simp] theorem State.modWring_clk (l : Nat) (g : WRing → WRing) : (s.modWring l g).clk = s.clk := rfl
@[simp] theorem State.modWring_obsv (l : Nat) (g : WRing → WRing) : (s.modWring l g).obsv = s.obsv := rfl

/-- Everything a change of a weight set does: the set, and the bytes of its table in HBM. -/
theorem State.setWset_spec (ws : Nat) (w : WSet) : ∃ m t,
    s.setWset ws w = { s with epc := { s.epc with sets := mput s.epc.sets ws w }, mem := m, tainted := t } :=
  State.wrTiers_spec _ (fun _ => 1) (fun t : Nat × EpochEntry => w.decl.tableBase + 16 * t.1) (fun t => t.2.bytes) _

@[simp] theorem State.setWset_pending (ws : Nat) (w : WSet) : (s.setWset ws w).pending = s.pending := by
  obtain ⟨_, _, h⟩ := s.setWset_spec ws w; rw [h]
@[simp] theorem State.setWset_time (ws : Nat) (w : WSet) : (s.setWset ws w).time = s.time := by
  obtain ⟨_, _, h⟩ := s.setWset_spec ws w; rw [h]
@[simp] theorem State.setWset_free (ws : Nat) (w : WSet) : (s.setWset ws w).free = s.free := by
  obtain ⟨_, _, h⟩ := s.setWset_spec ws w; rw [h]
@[simp] theorem State.setWset_csr (ws : Nat) (w : WSet) : (s.setWset ws w).csr = s.csr := by
  obtain ⟨_, _, h⟩ := s.setWset_spec ws w; rw [h]
@[simp] theorem State.setWset_wo1 (ws : Nat) (w : WSet) : (s.setWset ws w).wo1 = s.wo1 := by
  obtain ⟨_, _, h⟩ := s.setWset_spec ws w; rw [h]
@[simp] theorem State.setWset_grains (ws : Nat) (w : WSet) : (s.setWset ws w).grains = s.grains := by
  obtain ⟨_, _, h⟩ := s.setWset_spec ws w; rw [h]
@[simp] theorem State.setWset_bricks (ws : Nat) (w : WSet) : (s.setWset ws w).bricks = s.bricks := by
  obtain ⟨_, _, h⟩ := s.setWset_spec ws w; rw [h]
@[simp] theorem State.setWset_arrays (ws : Nat) (w : WSet) : (s.setWset ws w).arrays = s.arrays := by
  obtain ⟨_, _, h⟩ := s.setWset_spec ws w; rw [h]
@[simp] theorem State.setWset_sch (ws : Nat) (w : WSet) : (s.setWset ws w).sch = s.sch := by
  obtain ⟨_, _, h⟩ := s.setWset_spec ws w; rw [h]
@[simp] theorem State.setWset_att (ws : Nat) (w : WSet) : (s.setWset ws w).att = s.att := by
  obtain ⟨_, _, h⟩ := s.setWset_spec ws w; rw [h]
@[simp] theorem State.setWset_lanes (ws : Nat) (w : WSet) : (s.setWset ws w).lanes = s.lanes := by
  obtain ⟨_, _, h⟩ := s.setWset_spec ws w; rw [h]
@[simp] theorem State.setWset_rings (ws : Nat) (w : WSet) : (s.setWset ws w).rings = s.rings := by
  obtain ⟨_, _, h⟩ := s.setWset_spec ws w; rw [h]
@[simp] theorem State.setWset_tier (ws : Nat) (w : WSet) : (s.setWset ws w).tier = s.tier := by
  obtain ⟨_, _, h⟩ := s.setWset_spec ws w; rw [h]
@[simp] theorem State.setWset_fab (ws : Nat) (w : WSet) : (s.setWset ws w).fab = s.fab := by
  obtain ⟨_, _, h⟩ := s.setWset_spec ws w; rw [h]
@[simp] theorem State.setWset_col (ws : Nat) (w : WSet) : (s.setWset ws w).col = s.col := by
  obtain ⟨_, _, h⟩ := s.setWset_spec ws w; rw [h]
@[simp] theorem State.setWset_wpt (ws : Nat) (w : WSet) : (s.setWset ws w).wpt = s.wpt := by
  obtain ⟨_, _, h⟩ := s.setWset_spec ws w; rw [h]
@[simp] theorem State.setWset_hcx (ws : Nat) (w : WSet) : (s.setWset ws w).hcx = s.hcx := by
  obtain ⟨_, _, h⟩ := s.setWset_spec ws w; rw [h]
@[simp] theorem State.setWset_ckp (ws : Nat) (w : WSet) : (s.setWset ws w).ckp = s.ckp := by
  obtain ⟨_, _, h⟩ := s.setWset_spec ws w; rw [h]
@[simp] theorem State.setWset_audit (ws : Nat) (w : WSet) : (s.setWset ws w).audit = s.audit := by
  obtain ⟨_, _, h⟩ := s.setWset_spec ws w; rw [h]
@[simp] theorem State.setWset_keys (ws : Nat) (w : WSet) : (s.setWset ws w).keys = s.keys := by
  obtain ⟨_, _, h⟩ := s.setWset_spec ws w; rw [h]
@[simp] theorem State.setWset_clk (ws : Nat) (w : WSet) : (s.setWset ws w).clk = s.clk := by
  obtain ⟨_, _, h⟩ := s.setWset_spec ws w; rw [h]
@[simp] theorem State.setWset_obsv (ws : Nat) (w : WSet) : (s.setWset ws w).obsv = s.obsv := by
  obtain ⟨_, _, h⟩ := s.setWset_spec ws w; rw [h]

@[simp] theorem State.modWset_pending (ws : Nat) (g : WSet → WSet) : (s.modWset ws g).pending = s.pending := by
  unfold State.modWset; split <;> simp only [State.setWset_pending]
@[simp] theorem State.modWset_time (ws : Nat) (g : WSet → WSet) : (s.modWset ws g).time = s.time := by
  unfold State.modWset; split <;> simp only [State.setWset_time]
@[simp] theorem State.modWset_free (ws : Nat) (g : WSet → WSet) : (s.modWset ws g).free = s.free := by
  unfold State.modWset; split <;> simp only [State.setWset_free]
@[simp] theorem State.modWset_csr (ws : Nat) (g : WSet → WSet) : (s.modWset ws g).csr = s.csr := by
  unfold State.modWset; split <;> simp only [State.setWset_csr]
@[simp] theorem State.modWset_wo1 (ws : Nat) (g : WSet → WSet) : (s.modWset ws g).wo1 = s.wo1 := by
  unfold State.modWset; split <;> simp only [State.setWset_wo1]
@[simp] theorem State.modWset_grains (ws : Nat) (g : WSet → WSet) : (s.modWset ws g).grains = s.grains := by
  unfold State.modWset; split <;> simp only [State.setWset_grains]
@[simp] theorem State.modWset_bricks (ws : Nat) (g : WSet → WSet) : (s.modWset ws g).bricks = s.bricks := by
  unfold State.modWset; split <;> simp only [State.setWset_bricks]
@[simp] theorem State.modWset_arrays (ws : Nat) (g : WSet → WSet) : (s.modWset ws g).arrays = s.arrays := by
  unfold State.modWset; split <;> simp only [State.setWset_arrays]
@[simp] theorem State.modWset_sch (ws : Nat) (g : WSet → WSet) : (s.modWset ws g).sch = s.sch := by
  unfold State.modWset; split <;> simp only [State.setWset_sch]
@[simp] theorem State.modWset_att (ws : Nat) (g : WSet → WSet) : (s.modWset ws g).att = s.att := by
  unfold State.modWset; split <;> simp only [State.setWset_att]
@[simp] theorem State.modWset_lanes (ws : Nat) (g : WSet → WSet) : (s.modWset ws g).lanes = s.lanes := by
  unfold State.modWset; split <;> simp only [State.setWset_lanes]
@[simp] theorem State.modWset_rings (ws : Nat) (g : WSet → WSet) : (s.modWset ws g).rings = s.rings := by
  unfold State.modWset; split <;> simp only [State.setWset_rings]
@[simp] theorem State.modWset_tier (ws : Nat) (g : WSet → WSet) : (s.modWset ws g).tier = s.tier := by
  unfold State.modWset; split <;> simp only [State.setWset_tier]
@[simp] theorem State.modWset_fab (ws : Nat) (g : WSet → WSet) : (s.modWset ws g).fab = s.fab := by
  unfold State.modWset; split <;> simp only [State.setWset_fab]
@[simp] theorem State.modWset_col (ws : Nat) (g : WSet → WSet) : (s.modWset ws g).col = s.col := by
  unfold State.modWset; split <;> simp only [State.setWset_col]
@[simp] theorem State.modWset_wpt (ws : Nat) (g : WSet → WSet) : (s.modWset ws g).wpt = s.wpt := by
  unfold State.modWset; split <;> simp only [State.setWset_wpt]
@[simp] theorem State.modWset_hcx (ws : Nat) (g : WSet → WSet) : (s.modWset ws g).hcx = s.hcx := by
  unfold State.modWset; split <;> simp only [State.setWset_hcx]
@[simp] theorem State.modWset_ckp (ws : Nat) (g : WSet → WSet) : (s.modWset ws g).ckp = s.ckp := by
  unfold State.modWset; split <;> simp only [State.setWset_ckp]
@[simp] theorem State.modWset_audit (ws : Nat) (g : WSet → WSet) : (s.modWset ws g).audit = s.audit := by
  unfold State.modWset; split <;> simp only [State.setWset_audit]
@[simp] theorem State.modWset_keys (ws : Nat) (g : WSet → WSet) : (s.modWset ws g).keys = s.keys := by
  unfold State.modWset; split <;> simp only [State.setWset_keys]
@[simp] theorem State.modWset_clk (ws : Nat) (g : WSet → WSet) : (s.modWset ws g).clk = s.clk := by
  unfold State.modWset; split <;> simp only [State.setWset_clk]
@[simp] theorem State.modWset_obsv (ws : Nat) (g : WSet → WSet) : (s.modWset ws g).obsv = s.obsv := by
  unfold State.modWset; split <;> simp only [State.setWset_obsv]

/-- Everything a change of a ring on this device does: the ring, the bytes of its block map and index, and its state
words. -/
theorem State.setRing_spec (n : Nat) (v : RingSt) (h : v.decl.host = none) : ∃ m t,
    s.setRing n v = { s with rings := mput s.rings n v, mem := m, tainted := t } := by
  have w : ∀ (s : State) (st sp off : Nat) (b : List Byte), s.ringWrite v st sp off b = s.wrTier sp off b := by
    intros; simp only [State.ringWrite, h]
  simp only [State.setRing, w]
  obtain ⟨m0, t0, h0⟩ := State.wrTiers_spec { s with rings := mput s.rings n v } (fun _ => 1)
    (fun x : Nat × Nat => v.stateAt x.1) (fun x => toLe 8 x.2) (v.words (((s.ring n).map (·.staged)).getD []))
  rw [h0]
  obtain ⟨m, t, h1⟩ := State.wrTiers_spec { s with rings := mput s.rings n v, mem := m0, tainted := t0 } (fun _ => 1)
    (fun b : Nat × BlockEntry => v.blockAt b.1) (fun b => b.2.bytes)
    (mdiff ((s.ring n).map (fun r => (r.blocks, r.index)) |>.getD ([], [])).1 v.blocks)
  rw [h1]
  exact State.wrTiers_spec _ (fun _ => 1) (fun e : Nat × IdxEntry => v.indexAt e.1) (fun e => e.2.bytes) _


@[simp] theorem State.setBuf_pending (i : Nat) (b : Buffer) : (s.setBuf i b).pending = s.pending := rfl
@[simp] theorem State.setBuf_time (i : Nat) (b : Buffer) : (s.setBuf i b).time = s.time := rfl
@[simp] theorem State.setBuf_free (i : Nat) (b : Buffer) : (s.setBuf i b).free = s.free := rfl
@[simp] theorem State.setBuf_csr (i : Nat) (b : Buffer) : (s.setBuf i b).csr = s.csr := rfl
@[simp] theorem State.setBuf_wo1 (i : Nat) (b : Buffer) : (s.setBuf i b).wo1 = s.wo1 := rfl
@[simp] theorem State.setBuf_mem (i : Nat) (b : Buffer) : (s.setBuf i b).mem = s.mem := rfl
@[simp] theorem State.setBuf_grains (i : Nat) (b : Buffer) : (s.setBuf i b).grains = s.grains := rfl
@[simp] theorem State.setBuf_bricks (i : Nat) (b : Buffer) : (s.setBuf i b).bricks = s.bricks := rfl
@[simp] theorem State.setBuf_arrays (i : Nat) (b : Buffer) : (s.setBuf i b).arrays = s.arrays := rfl
@[simp] theorem State.setBuf_sch (i : Nat) (b : Buffer) : (s.setBuf i b).sch = s.sch := rfl
@[simp] theorem State.setBuf_att (i : Nat) (b : Buffer) : (s.setBuf i b).att = s.att := rfl
@[simp] theorem State.setBuf_tainted (i : Nat) (b : Buffer) : (s.setBuf i b).tainted = s.tainted := rfl
@[simp] theorem State.setBuf_lanes (i : Nat) (b : Buffer) : (s.setBuf i b).lanes = s.lanes := rfl
@[simp] theorem State.setBuf_epc (i : Nat) (b : Buffer) : (s.setBuf i b).epc = s.epc := rfl
@[simp] theorem State.setBuf_rings (i : Nat) (b : Buffer) : (s.setBuf i b).rings = s.rings := rfl
@[simp] theorem State.setBuf_fab (i : Nat) (b : Buffer) : (s.setBuf i b).fab = s.fab := rfl
@[simp] theorem State.setBuf_col (i : Nat) (b : Buffer) : (s.setBuf i b).col = s.col := rfl
@[simp] theorem State.setBuf_wpt (i : Nat) (b : Buffer) : (s.setBuf i b).wpt = s.wpt := rfl
@[simp] theorem State.setBuf_hcx (i : Nat) (b : Buffer) : (s.setBuf i b).hcx = s.hcx := rfl
@[simp] theorem State.setBuf_ckp (i : Nat) (b : Buffer) : (s.setBuf i b).ckp = s.ckp := rfl
@[simp] theorem State.setBuf_audit (i : Nat) (b : Buffer) : (s.setBuf i b).audit = s.audit := rfl
@[simp] theorem State.setBuf_keys (i : Nat) (b : Buffer) : (s.setBuf i b).keys = s.keys := rfl
@[simp] theorem State.setBuf_clk (i : Nat) (b : Buffer) : (s.setBuf i b).clk = s.clk := rfl
@[simp] theorem State.setBuf_obsv (i : Nat) (b : Buffer) : (s.setBuf i b).obsv = s.obsv := rfl

@[simp] theorem State.setMoves_pending (m : AMap Move) : (s.setMoves m).pending = s.pending := rfl
@[simp] theorem State.setMoves_time (m : AMap Move) : (s.setMoves m).time = s.time := rfl
@[simp] theorem State.setMoves_free (m : AMap Move) : (s.setMoves m).free = s.free := rfl
@[simp] theorem State.setMoves_csr (m : AMap Move) : (s.setMoves m).csr = s.csr := rfl
@[simp] theorem State.setMoves_wo1 (m : AMap Move) : (s.setMoves m).wo1 = s.wo1 := rfl
@[simp] theorem State.setMoves_mem (m : AMap Move) : (s.setMoves m).mem = s.mem := rfl
@[simp] theorem State.setMoves_grains (m : AMap Move) : (s.setMoves m).grains = s.grains := rfl
@[simp] theorem State.setMoves_bricks (m : AMap Move) : (s.setMoves m).bricks = s.bricks := rfl
@[simp] theorem State.setMoves_arrays (m : AMap Move) : (s.setMoves m).arrays = s.arrays := rfl
@[simp] theorem State.setMoves_sch (m : AMap Move) : (s.setMoves m).sch = s.sch := rfl
@[simp] theorem State.setMoves_att (m : AMap Move) : (s.setMoves m).att = s.att := rfl
@[simp] theorem State.setMoves_tainted (m : AMap Move) : (s.setMoves m).tainted = s.tainted := rfl
@[simp] theorem State.setMoves_lanes (m : AMap Move) : (s.setMoves m).lanes = s.lanes := rfl
@[simp] theorem State.setMoves_epc (m : AMap Move) : (s.setMoves m).epc = s.epc := rfl
@[simp] theorem State.setMoves_rings (m : AMap Move) : (s.setMoves m).rings = s.rings := rfl
@[simp] theorem State.setMoves_fab (m : AMap Move) : (s.setMoves m).fab = s.fab := rfl
@[simp] theorem State.setMoves_col (m : AMap Move) : (s.setMoves m).col = s.col := rfl
@[simp] theorem State.setMoves_wpt (m : AMap Move) : (s.setMoves m).wpt = s.wpt := rfl
@[simp] theorem State.setMoves_hcx (m : AMap Move) : (s.setMoves m).hcx = s.hcx := rfl
@[simp] theorem State.setMoves_ckp (m : AMap Move) : (s.setMoves m).ckp = s.ckp := rfl
@[simp] theorem State.setMoves_audit (m : AMap Move) : (s.setMoves m).audit = s.audit := rfl
@[simp] theorem State.setMoves_keys (m : AMap Move) : (s.setMoves m).keys = s.keys := rfl
@[simp] theorem State.setMoves_clk (m : AMap Move) : (s.setMoves m).clk = s.clk := rfl
@[simp] theorem State.setMoves_obsv (m : AMap Move) : (s.setMoves m).obsv = s.obsv := rfl

@[simp] theorem State.setFlash_pending (fd : Nat) (v : Flash) : (s.setFlash fd v).pending = s.pending := rfl
@[simp] theorem State.setFlash_time (fd : Nat) (v : Flash) : (s.setFlash fd v).time = s.time := rfl
@[simp] theorem State.setFlash_free (fd : Nat) (v : Flash) : (s.setFlash fd v).free = s.free := rfl
@[simp] theorem State.setFlash_csr (fd : Nat) (v : Flash) : (s.setFlash fd v).csr = s.csr := rfl
@[simp] theorem State.setFlash_wo1 (fd : Nat) (v : Flash) : (s.setFlash fd v).wo1 = s.wo1 := rfl
@[simp] theorem State.setFlash_mem (fd : Nat) (v : Flash) : (s.setFlash fd v).mem = s.mem := rfl
@[simp] theorem State.setFlash_grains (fd : Nat) (v : Flash) : (s.setFlash fd v).grains = s.grains := rfl
@[simp] theorem State.setFlash_bricks (fd : Nat) (v : Flash) : (s.setFlash fd v).bricks = s.bricks := rfl
@[simp] theorem State.setFlash_arrays (fd : Nat) (v : Flash) : (s.setFlash fd v).arrays = s.arrays := rfl
@[simp] theorem State.setFlash_sch (fd : Nat) (v : Flash) : (s.setFlash fd v).sch = s.sch := rfl
@[simp] theorem State.setFlash_att (fd : Nat) (v : Flash) : (s.setFlash fd v).att = s.att := rfl
@[simp] theorem State.setFlash_tainted (fd : Nat) (v : Flash) : (s.setFlash fd v).tainted = s.tainted := rfl
@[simp] theorem State.setFlash_lanes (fd : Nat) (v : Flash) : (s.setFlash fd v).lanes = s.lanes := rfl
@[simp] theorem State.setFlash_epc (fd : Nat) (v : Flash) : (s.setFlash fd v).epc = s.epc := rfl
@[simp] theorem State.setFlash_rings (fd : Nat) (v : Flash) : (s.setFlash fd v).rings = s.rings := rfl
@[simp] theorem State.setFlash_fab (fd : Nat) (v : Flash) : (s.setFlash fd v).fab = s.fab := rfl
@[simp] theorem State.setFlash_col (fd : Nat) (v : Flash) : (s.setFlash fd v).col = s.col := rfl
@[simp] theorem State.setFlash_wpt (fd : Nat) (v : Flash) : (s.setFlash fd v).wpt = s.wpt := rfl
@[simp] theorem State.setFlash_hcx (fd : Nat) (v : Flash) : (s.setFlash fd v).hcx = s.hcx := rfl
@[simp] theorem State.setFlash_ckp (fd : Nat) (v : Flash) : (s.setFlash fd v).ckp = s.ckp := rfl
@[simp] theorem State.setFlash_audit (fd : Nat) (v : Flash) : (s.setFlash fd v).audit = s.audit := rfl
@[simp] theorem State.setFlash_keys (fd : Nat) (v : Flash) : (s.setFlash fd v).keys = s.keys := rfl
@[simp] theorem State.setFlash_clk (fd : Nat) (v : Flash) : (s.setFlash fd v).clk = s.clk := rfl
@[simp] theorem State.setFlash_obsv (fd : Nat) (v : Flash) : (s.setFlash fd v).obsv = s.obsv := rfl

@[simp] theorem State.setCkp_pending (j : Nat) (v : Ckp) : (s.setCkp j v).pending = s.pending := rfl
@[simp] theorem State.setCkp_time (j : Nat) (v : Ckp) : (s.setCkp j v).time = s.time := rfl
@[simp] theorem State.setCkp_free (j : Nat) (v : Ckp) : (s.setCkp j v).free = s.free := rfl
@[simp] theorem State.setCkp_csr (j : Nat) (v : Ckp) : (s.setCkp j v).csr = s.csr := rfl
@[simp] theorem State.setCkp_wo1 (j : Nat) (v : Ckp) : (s.setCkp j v).wo1 = s.wo1 := rfl
@[simp] theorem State.setCkp_mem (j : Nat) (v : Ckp) : (s.setCkp j v).mem = s.mem := rfl
@[simp] theorem State.setCkp_grains (j : Nat) (v : Ckp) : (s.setCkp j v).grains = s.grains := rfl
@[simp] theorem State.setCkp_bricks (j : Nat) (v : Ckp) : (s.setCkp j v).bricks = s.bricks := rfl
@[simp] theorem State.setCkp_arrays (j : Nat) (v : Ckp) : (s.setCkp j v).arrays = s.arrays := rfl
@[simp] theorem State.setCkp_sch (j : Nat) (v : Ckp) : (s.setCkp j v).sch = s.sch := rfl
@[simp] theorem State.setCkp_att (j : Nat) (v : Ckp) : (s.setCkp j v).att = s.att := rfl
@[simp] theorem State.setCkp_tainted (j : Nat) (v : Ckp) : (s.setCkp j v).tainted = s.tainted := rfl
@[simp] theorem State.setCkp_lanes (j : Nat) (v : Ckp) : (s.setCkp j v).lanes = s.lanes := rfl
@[simp] theorem State.setCkp_epc (j : Nat) (v : Ckp) : (s.setCkp j v).epc = s.epc := rfl
@[simp] theorem State.setCkp_rings (j : Nat) (v : Ckp) : (s.setCkp j v).rings = s.rings := rfl
@[simp] theorem State.setCkp_tier (j : Nat) (v : Ckp) : (s.setCkp j v).tier = s.tier := rfl
@[simp] theorem State.setCkp_fab (j : Nat) (v : Ckp) : (s.setCkp j v).fab = s.fab := rfl
@[simp] theorem State.setCkp_col (j : Nat) (v : Ckp) : (s.setCkp j v).col = s.col := rfl
@[simp] theorem State.setCkp_wpt (j : Nat) (v : Ckp) : (s.setCkp j v).wpt = s.wpt := rfl
@[simp] theorem State.setCkp_hcx (j : Nat) (v : Ckp) : (s.setCkp j v).hcx = s.hcx := rfl
@[simp] theorem State.setCkp_audit (j : Nat) (v : Ckp) : (s.setCkp j v).audit = s.audit := rfl
@[simp] theorem State.setCkp_keys (j : Nat) (v : Ckp) : (s.setCkp j v).keys = s.keys := rfl
@[simp] theorem State.setCkp_clk (j : Nat) (v : Ckp) : (s.setCkp j v).clk = s.clk := rfl
@[simp] theorem State.setCkp_obsv (j : Nat) (v : Ckp) : (s.setCkp j v).obsv = s.obsv := rfl

@[simp] theorem State.modCkp_pending (j : Nat) (g : Ckp → Ckp) : (s.modCkp j g).pending = s.pending := rfl
@[simp] theorem State.modCkp_time (j : Nat) (g : Ckp → Ckp) : (s.modCkp j g).time = s.time := rfl
@[simp] theorem State.modCkp_free (j : Nat) (g : Ckp → Ckp) : (s.modCkp j g).free = s.free := rfl
@[simp] theorem State.modCkp_csr (j : Nat) (g : Ckp → Ckp) : (s.modCkp j g).csr = s.csr := rfl
@[simp] theorem State.modCkp_wo1 (j : Nat) (g : Ckp → Ckp) : (s.modCkp j g).wo1 = s.wo1 := rfl
@[simp] theorem State.modCkp_mem (j : Nat) (g : Ckp → Ckp) : (s.modCkp j g).mem = s.mem := rfl
@[simp] theorem State.modCkp_grains (j : Nat) (g : Ckp → Ckp) : (s.modCkp j g).grains = s.grains := rfl
@[simp] theorem State.modCkp_bricks (j : Nat) (g : Ckp → Ckp) : (s.modCkp j g).bricks = s.bricks := rfl
@[simp] theorem State.modCkp_arrays (j : Nat) (g : Ckp → Ckp) : (s.modCkp j g).arrays = s.arrays := rfl
@[simp] theorem State.modCkp_sch (j : Nat) (g : Ckp → Ckp) : (s.modCkp j g).sch = s.sch := rfl
@[simp] theorem State.modCkp_att (j : Nat) (g : Ckp → Ckp) : (s.modCkp j g).att = s.att := rfl
@[simp] theorem State.modCkp_tainted (j : Nat) (g : Ckp → Ckp) : (s.modCkp j g).tainted = s.tainted := rfl
@[simp] theorem State.modCkp_lanes (j : Nat) (g : Ckp → Ckp) : (s.modCkp j g).lanes = s.lanes := rfl
@[simp] theorem State.modCkp_epc (j : Nat) (g : Ckp → Ckp) : (s.modCkp j g).epc = s.epc := rfl
@[simp] theorem State.modCkp_rings (j : Nat) (g : Ckp → Ckp) : (s.modCkp j g).rings = s.rings := rfl
@[simp] theorem State.modCkp_tier (j : Nat) (g : Ckp → Ckp) : (s.modCkp j g).tier = s.tier := rfl
@[simp] theorem State.modCkp_fab (j : Nat) (g : Ckp → Ckp) : (s.modCkp j g).fab = s.fab := rfl
@[simp] theorem State.modCkp_col (j : Nat) (g : Ckp → Ckp) : (s.modCkp j g).col = s.col := rfl
@[simp] theorem State.modCkp_wpt (j : Nat) (g : Ckp → Ckp) : (s.modCkp j g).wpt = s.wpt := rfl
@[simp] theorem State.modCkp_hcx (j : Nat) (g : Ckp → Ckp) : (s.modCkp j g).hcx = s.hcx := rfl
@[simp] theorem State.modCkp_audit (j : Nat) (g : Ckp → Ckp) : (s.modCkp j g).audit = s.audit := rfl
@[simp] theorem State.modCkp_keys (j : Nat) (g : Ckp → Ckp) : (s.modCkp j g).keys = s.keys := rfl
@[simp] theorem State.modCkp_clk (j : Nat) (g : Ckp → Ckp) : (s.modCkp j g).clk = s.clk := rfl
@[simp] theorem State.modCkp_obsv (j : Nat) (g : Ckp → Ckp) : (s.modCkp j g).obsv = s.obsv := rfl

@[simp] theorem State.bump_pending (f : Fld) (a : Loc) (n : Nat) : (s.bump f a n).pending = s.pending := by unfold State.bump; split <;> rfl
@[simp] theorem State.bump_time (f : Fld) (a : Loc) (n : Nat) : (s.bump f a n).time = s.time := by unfold State.bump; split <;> rfl
@[simp] theorem State.bump_free (f : Fld) (a : Loc) (n : Nat) : (s.bump f a n).free = s.free := by unfold State.bump; split <;> rfl
@[simp] theorem State.bump_wo1 (f : Fld) (a : Loc) (n : Nat) : (s.bump f a n).wo1 = s.wo1 := by unfold State.bump; split <;> rfl
@[simp] theorem State.bump_mem (f : Fld) (a : Loc) (n : Nat) : (s.bump f a n).mem = s.mem := by unfold State.bump; split <;> rfl
@[simp] theorem State.bump_grains (f : Fld) (a : Loc) (n : Nat) : (s.bump f a n).grains = s.grains := by unfold State.bump; split <;> rfl
@[simp] theorem State.bump_bricks (f : Fld) (a : Loc) (n : Nat) : (s.bump f a n).bricks = s.bricks := by unfold State.bump; split <;> rfl
@[simp] theorem State.bump_arrays (f : Fld) (a : Loc) (n : Nat) : (s.bump f a n).arrays = s.arrays := by unfold State.bump; split <;> rfl
@[simp] theorem State.bump_sch (f : Fld) (a : Loc) (n : Nat) : (s.bump f a n).sch = s.sch := by unfold State.bump; split <;> rfl
@[simp] theorem State.bump_att (f : Fld) (a : Loc) (n : Nat) : (s.bump f a n).att = s.att := by unfold State.bump; split <;> rfl
@[simp] theorem State.bump_tainted (f : Fld) (a : Loc) (n : Nat) : (s.bump f a n).tainted = s.tainted := by unfold State.bump; split <;> rfl
@[simp] theorem State.bump_lanes (f : Fld) (a : Loc) (n : Nat) : (s.bump f a n).lanes = s.lanes := by unfold State.bump; split <;> rfl
@[simp] theorem State.bump_epc (f : Fld) (a : Loc) (n : Nat) : (s.bump f a n).epc = s.epc := by unfold State.bump; split <;> rfl
@[simp] theorem State.bump_rings (f : Fld) (a : Loc) (n : Nat) : (s.bump f a n).rings = s.rings := by unfold State.bump; split <;> rfl
@[simp] theorem State.bump_tier (f : Fld) (a : Loc) (n : Nat) : (s.bump f a n).tier = s.tier := by unfold State.bump; split <;> rfl
@[simp] theorem State.bump_fab (f : Fld) (a : Loc) (n : Nat) : (s.bump f a n).fab = s.fab := by unfold State.bump; split <;> rfl
@[simp] theorem State.bump_col (f : Fld) (a : Loc) (n : Nat) : (s.bump f a n).col = s.col := by unfold State.bump; split <;> rfl
@[simp] theorem State.bump_wpt (f : Fld) (a : Loc) (n : Nat) : (s.bump f a n).wpt = s.wpt := by unfold State.bump; split <;> rfl
@[simp] theorem State.bump_hcx (f : Fld) (a : Loc) (n : Nat) : (s.bump f a n).hcx = s.hcx := by unfold State.bump; split <;> rfl
@[simp] theorem State.bump_ckp (f : Fld) (a : Loc) (n : Nat) : (s.bump f a n).ckp = s.ckp := by unfold State.bump; split <;> rfl
@[simp] theorem State.bump_audit (f : Fld) (a : Loc) (n : Nat) : (s.bump f a n).audit = s.audit := by unfold State.bump; split <;> rfl
@[simp] theorem State.bump_keys (f : Fld) (a : Loc) (n : Nat) : (s.bump f a n).keys = s.keys := by unfold State.bump; split <;> rfl
@[simp] theorem State.bump_clk (f : Fld) (a : Loc) (n : Nat) : (s.bump f a n).clk = s.clk := by unfold State.bump; split <;> rfl
@[simp] theorem State.bump_obsv (f : Fld) (a : Loc) (n : Nat) : (s.bump f a n).obsv = s.obsv := by unfold State.bump; split <;> rfl

@[simp] theorem State.peak_pending (f : Fld) (a : Loc) (n : Nat) : (s.peak f a n).pending = s.pending := by unfold State.peak; split <;> rfl
@[simp] theorem State.peak_time (f : Fld) (a : Loc) (n : Nat) : (s.peak f a n).time = s.time := by unfold State.peak; split <;> rfl
@[simp] theorem State.peak_free (f : Fld) (a : Loc) (n : Nat) : (s.peak f a n).free = s.free := by unfold State.peak; split <;> rfl
@[simp] theorem State.peak_wo1 (f : Fld) (a : Loc) (n : Nat) : (s.peak f a n).wo1 = s.wo1 := by unfold State.peak; split <;> rfl
@[simp] theorem State.peak_mem (f : Fld) (a : Loc) (n : Nat) : (s.peak f a n).mem = s.mem := by unfold State.peak; split <;> rfl
@[simp] theorem State.peak_grains (f : Fld) (a : Loc) (n : Nat) : (s.peak f a n).grains = s.grains := by unfold State.peak; split <;> rfl
@[simp] theorem State.peak_bricks (f : Fld) (a : Loc) (n : Nat) : (s.peak f a n).bricks = s.bricks := by unfold State.peak; split <;> rfl
@[simp] theorem State.peak_arrays (f : Fld) (a : Loc) (n : Nat) : (s.peak f a n).arrays = s.arrays := by unfold State.peak; split <;> rfl
@[simp] theorem State.peak_sch (f : Fld) (a : Loc) (n : Nat) : (s.peak f a n).sch = s.sch := by unfold State.peak; split <;> rfl
@[simp] theorem State.peak_att (f : Fld) (a : Loc) (n : Nat) : (s.peak f a n).att = s.att := by unfold State.peak; split <;> rfl
@[simp] theorem State.peak_tainted (f : Fld) (a : Loc) (n : Nat) : (s.peak f a n).tainted = s.tainted := by unfold State.peak; split <;> rfl
@[simp] theorem State.peak_lanes (f : Fld) (a : Loc) (n : Nat) : (s.peak f a n).lanes = s.lanes := by unfold State.peak; split <;> rfl
@[simp] theorem State.peak_epc (f : Fld) (a : Loc) (n : Nat) : (s.peak f a n).epc = s.epc := by unfold State.peak; split <;> rfl
@[simp] theorem State.peak_rings (f : Fld) (a : Loc) (n : Nat) : (s.peak f a n).rings = s.rings := by unfold State.peak; split <;> rfl
@[simp] theorem State.peak_tier (f : Fld) (a : Loc) (n : Nat) : (s.peak f a n).tier = s.tier := by unfold State.peak; split <;> rfl
@[simp] theorem State.peak_fab (f : Fld) (a : Loc) (n : Nat) : (s.peak f a n).fab = s.fab := by unfold State.peak; split <;> rfl
@[simp] theorem State.peak_col (f : Fld) (a : Loc) (n : Nat) : (s.peak f a n).col = s.col := by unfold State.peak; split <;> rfl
@[simp] theorem State.peak_wpt (f : Fld) (a : Loc) (n : Nat) : (s.peak f a n).wpt = s.wpt := by unfold State.peak; split <;> rfl
@[simp] theorem State.peak_hcx (f : Fld) (a : Loc) (n : Nat) : (s.peak f a n).hcx = s.hcx := by unfold State.peak; split <;> rfl
@[simp] theorem State.peak_ckp (f : Fld) (a : Loc) (n : Nat) : (s.peak f a n).ckp = s.ckp := by unfold State.peak; split <;> rfl
@[simp] theorem State.peak_audit (f : Fld) (a : Loc) (n : Nat) : (s.peak f a n).audit = s.audit := by unfold State.peak; split <;> rfl
@[simp] theorem State.peak_keys (f : Fld) (a : Loc) (n : Nat) : (s.peak f a n).keys = s.keys := by unfold State.peak; split <;> rfl
@[simp] theorem State.peak_clk (f : Fld) (a : Loc) (n : Nat) : (s.peak f a n).clk = s.clk := by unfold State.peak; split <;> rfl
@[simp] theorem State.peak_obsv (f : Fld) (a : Loc) (n : Nat) : (s.peak f a n).obsv = s.obsv := by unfold State.peak; split <;> rfl

@[simp] theorem State.msix_pending (hd v : Nat) : (s.msix hd v).pending = s.pending := by unfold State.msix; dsimp only; split <;> rfl
@[simp] theorem State.msix_time (hd v : Nat) : (s.msix hd v).time = s.time := by unfold State.msix; dsimp only; split <;> rfl
@[simp] theorem State.msix_free (hd v : Nat) : (s.msix hd v).free = s.free := by unfold State.msix; dsimp only; split <;> rfl
@[simp] theorem State.msix_wo1 (hd v : Nat) : (s.msix hd v).wo1 = s.wo1 := by unfold State.msix; dsimp only; split <;> rfl
@[simp] theorem State.msix_mem (hd v : Nat) : (s.msix hd v).mem = s.mem := by unfold State.msix; dsimp only; split <;> rfl
@[simp] theorem State.msix_grains (hd v : Nat) : (s.msix hd v).grains = s.grains := by unfold State.msix; dsimp only; split <;> rfl
@[simp] theorem State.msix_bricks (hd v : Nat) : (s.msix hd v).bricks = s.bricks := by unfold State.msix; dsimp only; split <;> rfl
@[simp] theorem State.msix_arrays (hd v : Nat) : (s.msix hd v).arrays = s.arrays := by unfold State.msix; dsimp only; split <;> rfl
@[simp] theorem State.msix_sch (hd v : Nat) : (s.msix hd v).sch = s.sch := by unfold State.msix; dsimp only; split <;> rfl
@[simp] theorem State.msix_att (hd v : Nat) : (s.msix hd v).att = s.att := by unfold State.msix; dsimp only; split <;> rfl
@[simp] theorem State.msix_tainted (hd v : Nat) : (s.msix hd v).tainted = s.tainted := by unfold State.msix; dsimp only; split <;> rfl
@[simp] theorem State.msix_lanes (hd v : Nat) : (s.msix hd v).lanes = s.lanes := by unfold State.msix; dsimp only; split <;> rfl
@[simp] theorem State.msix_epc (hd v : Nat) : (s.msix hd v).epc = s.epc := by unfold State.msix; dsimp only; split <;> rfl
@[simp] theorem State.msix_rings (hd v : Nat) : (s.msix hd v).rings = s.rings := by unfold State.msix; dsimp only; split <;> rfl
@[simp] theorem State.msix_tier (hd v : Nat) : (s.msix hd v).tier = s.tier := by unfold State.msix; dsimp only; split <;> rfl
@[simp] theorem State.msix_fab (hd v : Nat) : (s.msix hd v).fab = s.fab := by unfold State.msix; dsimp only; split <;> rfl
@[simp] theorem State.msix_col (hd v : Nat) : (s.msix hd v).col = s.col := by unfold State.msix; dsimp only; split <;> rfl
@[simp] theorem State.msix_wpt (hd v : Nat) : (s.msix hd v).wpt = s.wpt := by unfold State.msix; dsimp only; split <;> rfl
@[simp] theorem State.msix_ckp (hd v : Nat) : (s.msix hd v).ckp = s.ckp := by unfold State.msix; dsimp only; split <;> rfl
@[simp] theorem State.msix_audit (hd v : Nat) : (s.msix hd v).audit = s.audit := by unfold State.msix; dsimp only; split <;> rfl
@[simp] theorem State.msix_keys (hd v : Nat) : (s.msix hd v).keys = s.keys := by unfold State.msix; dsimp only; split <;> rfl
@[simp] theorem State.msix_clk (hd v : Nat) : (s.msix hd v).clk = s.clk := by unfold State.msix; dsimp only; split <;> rfl
@[simp] theorem State.msix_obsv (hd v : Nat) : (s.msix hd v).obsv = s.obsv := by unfold State.msix; dsimp only; split <;> rfl

@[simp] theorem State.bumpPan_pending (f : Fld) (p n : Nat) : (s.bumpPan f p n).pending = s.pending := by unfold State.bumpPan; split <;> simp
@[simp] theorem State.bumpPan_time (f : Fld) (p n : Nat) : (s.bumpPan f p n).time = s.time := by unfold State.bumpPan; split <;> simp
@[simp] theorem State.bumpPan_free (f : Fld) (p n : Nat) : (s.bumpPan f p n).free = s.free := by unfold State.bumpPan; split <;> simp
@[simp] theorem State.bumpPan_wo1 (f : Fld) (p n : Nat) : (s.bumpPan f p n).wo1 = s.wo1 := by unfold State.bumpPan; split <;> simp
@[simp] theorem State.bumpPan_mem (f : Fld) (p n : Nat) : (s.bumpPan f p n).mem = s.mem := by unfold State.bumpPan; split <;> simp
@[simp] theorem State.bumpPan_grains (f : Fld) (p n : Nat) : (s.bumpPan f p n).grains = s.grains := by unfold State.bumpPan; split <;> simp
@[simp] theorem State.bumpPan_bricks (f : Fld) (p n : Nat) : (s.bumpPan f p n).bricks = s.bricks := by unfold State.bumpPan; split <;> simp
@[simp] theorem State.bumpPan_arrays (f : Fld) (p n : Nat) : (s.bumpPan f p n).arrays = s.arrays := by unfold State.bumpPan; split <;> simp
@[simp] theorem State.bumpPan_sch (f : Fld) (p n : Nat) : (s.bumpPan f p n).sch = s.sch := by unfold State.bumpPan; split <;> simp
@[simp] theorem State.bumpPan_att (f : Fld) (p n : Nat) : (s.bumpPan f p n).att = s.att := by unfold State.bumpPan; split <;> simp
@[simp] theorem State.bumpPan_tainted (f : Fld) (p n : Nat) : (s.bumpPan f p n).tainted = s.tainted := by unfold State.bumpPan; split <;> simp
@[simp] theorem State.bumpPan_lanes (f : Fld) (p n : Nat) : (s.bumpPan f p n).lanes = s.lanes := by unfold State.bumpPan; split <;> simp
@[simp] theorem State.bumpPan_epc (f : Fld) (p n : Nat) : (s.bumpPan f p n).epc = s.epc := by unfold State.bumpPan; split <;> simp
@[simp] theorem State.bumpPan_rings (f : Fld) (p n : Nat) : (s.bumpPan f p n).rings = s.rings := by unfold State.bumpPan; split <;> simp
@[simp] theorem State.bumpPan_tier (f : Fld) (p n : Nat) : (s.bumpPan f p n).tier = s.tier := by unfold State.bumpPan; split <;> simp
@[simp] theorem State.bumpPan_fab (f : Fld) (p n : Nat) : (s.bumpPan f p n).fab = s.fab := by unfold State.bumpPan; split <;> simp
@[simp] theorem State.bumpPan_col (f : Fld) (p n : Nat) : (s.bumpPan f p n).col = s.col := by unfold State.bumpPan; split <;> simp
@[simp] theorem State.bumpPan_wpt (f : Fld) (p n : Nat) : (s.bumpPan f p n).wpt = s.wpt := by unfold State.bumpPan; split <;> simp
@[simp] theorem State.bumpPan_hcx (f : Fld) (p n : Nat) : (s.bumpPan f p n).hcx = s.hcx := by unfold State.bumpPan; split <;> simp
@[simp] theorem State.bumpPan_ckp (f : Fld) (p n : Nat) : (s.bumpPan f p n).ckp = s.ckp := by unfold State.bumpPan; split <;> simp
@[simp] theorem State.bumpPan_audit (f : Fld) (p n : Nat) : (s.bumpPan f p n).audit = s.audit := by unfold State.bumpPan; split <;> simp
@[simp] theorem State.bumpPan_keys (f : Fld) (p n : Nat) : (s.bumpPan f p n).keys = s.keys := by unfold State.bumpPan; split <;> simp
@[simp] theorem State.bumpPan_clk (f : Fld) (p n : Nat) : (s.bumpPan f p n).clk = s.clk := by unfold State.bumpPan; split <;> simp
@[simp] theorem State.bumpPan_obsv (f : Fld) (p n : Nat) : (s.bumpPan f p n).obsv = s.obsv := by unfold State.bumpPan; split <;> simp

@[simp] theorem State.alarm_pending (kind job key : Nat) : (s.alarm kind job key).pending = s.pending := by
  unfold State.alarm; dsimp only; split
  · rfl
  · split <;> simp
@[simp] theorem State.alarm_time (kind job key : Nat) : (s.alarm kind job key).time = s.time := by
  unfold State.alarm; dsimp only; split
  · rfl
  · split <;> simp
@[simp] theorem State.alarm_free (kind job key : Nat) : (s.alarm kind job key).free = s.free := by
  unfold State.alarm; dsimp only; split
  · rfl
  · split <;> simp
@[simp] theorem State.alarm_wo1 (kind job key : Nat) : (s.alarm kind job key).wo1 = s.wo1 := by
  unfold State.alarm; dsimp only; split
  · rfl
  · split <;> simp
@[simp] theorem State.alarm_mem (kind job key : Nat) : (s.alarm kind job key).mem = s.mem := by
  unfold State.alarm; dsimp only; split
  · rfl
  · split <;> simp
@[simp] theorem State.alarm_grains (kind job key : Nat) : (s.alarm kind job key).grains = s.grains := by
  unfold State.alarm; dsimp only; split
  · rfl
  · split <;> simp
@[simp] theorem State.alarm_bricks (kind job key : Nat) : (s.alarm kind job key).bricks = s.bricks := by
  unfold State.alarm; dsimp only; split
  · rfl
  · split <;> simp
@[simp] theorem State.alarm_arrays (kind job key : Nat) : (s.alarm kind job key).arrays = s.arrays := by
  unfold State.alarm; dsimp only; split
  · rfl
  · split <;> simp
@[simp] theorem State.alarm_sch (kind job key : Nat) : (s.alarm kind job key).sch = s.sch := by
  unfold State.alarm; dsimp only; split
  · rfl
  · split <;> simp
@[simp] theorem State.alarm_att (kind job key : Nat) : (s.alarm kind job key).att = s.att := by
  unfold State.alarm; dsimp only; split
  · rfl
  · split <;> simp
@[simp] theorem State.alarm_tainted (kind job key : Nat) : (s.alarm kind job key).tainted = s.tainted := by
  unfold State.alarm; dsimp only; split
  · rfl
  · split <;> simp
@[simp] theorem State.alarm_lanes (kind job key : Nat) : (s.alarm kind job key).lanes = s.lanes := by
  unfold State.alarm; dsimp only; split
  · rfl
  · split <;> simp
@[simp] theorem State.alarm_epc (kind job key : Nat) : (s.alarm kind job key).epc = s.epc := by
  unfold State.alarm; dsimp only; split
  · rfl
  · split <;> simp
@[simp] theorem State.alarm_rings (kind job key : Nat) : (s.alarm kind job key).rings = s.rings := by
  unfold State.alarm; dsimp only; split
  · rfl
  · split <;> simp
@[simp] theorem State.alarm_tier (kind job key : Nat) : (s.alarm kind job key).tier = s.tier := by
  unfold State.alarm; dsimp only; split
  · rfl
  · split <;> simp
@[simp] theorem State.alarm_fab (kind job key : Nat) : (s.alarm kind job key).fab = s.fab := by
  unfold State.alarm; dsimp only; split
  · rfl
  · split <;> simp
@[simp] theorem State.alarm_col (kind job key : Nat) : (s.alarm kind job key).col = s.col := by
  unfold State.alarm; dsimp only; split
  · rfl
  · split <;> simp
@[simp] theorem State.alarm_wpt (kind job key : Nat) : (s.alarm kind job key).wpt = s.wpt := by
  unfold State.alarm; dsimp only; split
  · rfl
  · split <;> simp
@[simp] theorem State.alarm_ckp (kind job key : Nat) : (s.alarm kind job key).ckp = s.ckp := by
  unfold State.alarm; dsimp only; split
  · rfl
  · split <;> simp
@[simp] theorem State.alarm_audit (kind job key : Nat) : (s.alarm kind job key).audit = s.audit := by
  unfold State.alarm; dsimp only; split
  · rfl
  · split <;> simp
@[simp] theorem State.alarm_keys (kind job key : Nat) : (s.alarm kind job key).keys = s.keys := by
  unfold State.alarm; dsimp only; split
  · rfl
  · split <;> simp
@[simp] theorem State.alarm_clk (kind job key : Nat) : (s.alarm kind job key).clk = s.clk := by
  unfold State.alarm; dsimp only; split
  · rfl
  · split <;> simp

@[simp] theorem State.auditAlarm_pending  : (s.auditAlarm).pending = s.pending := by unfold State.auditAlarm; split <;> simp
@[simp] theorem State.auditAlarm_time  : (s.auditAlarm).time = s.time := by unfold State.auditAlarm; split <;> simp
@[simp] theorem State.auditAlarm_free  : (s.auditAlarm).free = s.free := by unfold State.auditAlarm; split <;> simp
@[simp] theorem State.auditAlarm_wo1  : (s.auditAlarm).wo1 = s.wo1 := by unfold State.auditAlarm; split <;> simp
@[simp] theorem State.auditAlarm_mem  : (s.auditAlarm).mem = s.mem := by unfold State.auditAlarm; split <;> simp
@[simp] theorem State.auditAlarm_grains  : (s.auditAlarm).grains = s.grains := by unfold State.auditAlarm; split <;> simp
@[simp] theorem State.auditAlarm_bricks  : (s.auditAlarm).bricks = s.bricks := by unfold State.auditAlarm; split <;> simp
@[simp] theorem State.auditAlarm_arrays  : (s.auditAlarm).arrays = s.arrays := by unfold State.auditAlarm; split <;> simp
@[simp] theorem State.auditAlarm_sch  : (s.auditAlarm).sch = s.sch := by unfold State.auditAlarm; split <;> simp
@[simp] theorem State.auditAlarm_att  : (s.auditAlarm).att = s.att := by unfold State.auditAlarm; split <;> simp
@[simp] theorem State.auditAlarm_tainted  : (s.auditAlarm).tainted = s.tainted := by unfold State.auditAlarm; split <;> simp
@[simp] theorem State.auditAlarm_lanes  : (s.auditAlarm).lanes = s.lanes := by unfold State.auditAlarm; split <;> simp
@[simp] theorem State.auditAlarm_epc  : (s.auditAlarm).epc = s.epc := by unfold State.auditAlarm; split <;> simp
@[simp] theorem State.auditAlarm_rings  : (s.auditAlarm).rings = s.rings := by unfold State.auditAlarm; split <;> simp
@[simp] theorem State.auditAlarm_tier  : (s.auditAlarm).tier = s.tier := by unfold State.auditAlarm; split <;> simp
@[simp] theorem State.auditAlarm_fab  : (s.auditAlarm).fab = s.fab := by unfold State.auditAlarm; split <;> simp
@[simp] theorem State.auditAlarm_col  : (s.auditAlarm).col = s.col := by unfold State.auditAlarm; split <;> simp
@[simp] theorem State.auditAlarm_wpt  : (s.auditAlarm).wpt = s.wpt := by unfold State.auditAlarm; split <;> simp
@[simp] theorem State.auditAlarm_ckp  : (s.auditAlarm).ckp = s.ckp := by unfold State.auditAlarm; split <;> simp
@[simp] theorem State.auditAlarm_audit  : (s.auditAlarm).audit = s.audit := by unfold State.auditAlarm; split <;> simp
@[simp] theorem State.auditAlarm_keys  : (s.auditAlarm).keys = s.keys := by unfold State.auditAlarm; split <;> simp
@[simp] theorem State.auditAlarm_clk  : (s.auditAlarm).clk = s.clk := by unfold State.auditAlarm; split <;> simp

@[simp] theorem State.audit1_pending (die : Nat) (r : AuditRec) : (s.audit1 die r).pending = s.pending := by unfold State.audit1; split <;> simp
@[simp] theorem State.audit1_time (die : Nat) (r : AuditRec) : (s.audit1 die r).time = s.time := by unfold State.audit1; split <;> simp
@[simp] theorem State.audit1_free (die : Nat) (r : AuditRec) : (s.audit1 die r).free = s.free := by unfold State.audit1; split <;> simp
@[simp] theorem State.audit1_wo1 (die : Nat) (r : AuditRec) : (s.audit1 die r).wo1 = s.wo1 := by unfold State.audit1; split <;> simp
@[simp] theorem State.audit1_mem (die : Nat) (r : AuditRec) : (s.audit1 die r).mem = s.mem := by unfold State.audit1; split <;> simp
@[simp] theorem State.audit1_grains (die : Nat) (r : AuditRec) : (s.audit1 die r).grains = s.grains := by unfold State.audit1; split <;> simp
@[simp] theorem State.audit1_bricks (die : Nat) (r : AuditRec) : (s.audit1 die r).bricks = s.bricks := by unfold State.audit1; split <;> simp
@[simp] theorem State.audit1_arrays (die : Nat) (r : AuditRec) : (s.audit1 die r).arrays = s.arrays := by unfold State.audit1; split <;> simp
@[simp] theorem State.audit1_sch (die : Nat) (r : AuditRec) : (s.audit1 die r).sch = s.sch := by unfold State.audit1; split <;> simp
@[simp] theorem State.audit1_att (die : Nat) (r : AuditRec) : (s.audit1 die r).att = s.att := by unfold State.audit1; split <;> simp
@[simp] theorem State.audit1_tainted (die : Nat) (r : AuditRec) : (s.audit1 die r).tainted = s.tainted := by unfold State.audit1; split <;> simp
@[simp] theorem State.audit1_lanes (die : Nat) (r : AuditRec) : (s.audit1 die r).lanes = s.lanes := by unfold State.audit1; split <;> simp
@[simp] theorem State.audit1_epc (die : Nat) (r : AuditRec) : (s.audit1 die r).epc = s.epc := by unfold State.audit1; split <;> simp
@[simp] theorem State.audit1_rings (die : Nat) (r : AuditRec) : (s.audit1 die r).rings = s.rings := by unfold State.audit1; split <;> simp
@[simp] theorem State.audit1_tier (die : Nat) (r : AuditRec) : (s.audit1 die r).tier = s.tier := by unfold State.audit1; split <;> simp
@[simp] theorem State.audit1_fab (die : Nat) (r : AuditRec) : (s.audit1 die r).fab = s.fab := by unfold State.audit1; split <;> simp
@[simp] theorem State.audit1_col (die : Nat) (r : AuditRec) : (s.audit1 die r).col = s.col := by unfold State.audit1; split <;> simp
@[simp] theorem State.audit1_wpt (die : Nat) (r : AuditRec) : (s.audit1 die r).wpt = s.wpt := by unfold State.audit1; split <;> simp
@[simp] theorem State.audit1_ckp (die : Nat) (r : AuditRec) : (s.audit1 die r).ckp = s.ckp := by unfold State.audit1; split <;> simp
@[simp] theorem State.audit1_keys (die : Nat) (r : AuditRec) : (s.audit1 die r).keys = s.keys := by unfold State.audit1; split <;> simp
@[simp] theorem State.audit1_clk (die : Nat) (r : AuditRec) : (s.audit1 die r).clk = s.clk := by unfold State.audit1; split <;> simp

@[simp] theorem State.draw_pending (w : Nat) : (s.draw w).2.pending = s.pending := rfl
@[simp] theorem State.draw_time (w : Nat) : (s.draw w).2.time = s.time := rfl
@[simp] theorem State.draw_csr (w : Nat) : (s.draw w).2.csr = s.csr := rfl
@[simp] theorem State.draw_wo1 (w : Nat) : (s.draw w).2.wo1 = s.wo1 := rfl
@[simp] theorem State.draw_mem (w : Nat) : (s.draw w).2.mem = s.mem := rfl
@[simp] theorem State.draw_grains (w : Nat) : (s.draw w).2.grains = s.grains := rfl
@[simp] theorem State.draw_bricks (w : Nat) : (s.draw w).2.bricks = s.bricks := rfl
@[simp] theorem State.draw_arrays (w : Nat) : (s.draw w).2.arrays = s.arrays := rfl
@[simp] theorem State.draw_sch (w : Nat) : (s.draw w).2.sch = s.sch := rfl
@[simp] theorem State.draw_att (w : Nat) : (s.draw w).2.att = s.att := rfl
@[simp] theorem State.draw_tainted (w : Nat) : (s.draw w).2.tainted = s.tainted := rfl
@[simp] theorem State.draw_lanes (w : Nat) : (s.draw w).2.lanes = s.lanes := rfl
@[simp] theorem State.draw_epc (w : Nat) : (s.draw w).2.epc = s.epc := rfl
@[simp] theorem State.draw_rings (w : Nat) : (s.draw w).2.rings = s.rings := rfl
@[simp] theorem State.draw_tier (w : Nat) : (s.draw w).2.tier = s.tier := rfl
@[simp] theorem State.draw_fab (w : Nat) : (s.draw w).2.fab = s.fab := rfl
@[simp] theorem State.draw_col (w : Nat) : (s.draw w).2.col = s.col := rfl
@[simp] theorem State.draw_wpt (w : Nat) : (s.draw w).2.wpt = s.wpt := rfl
@[simp] theorem State.draw_hcx (w : Nat) : (s.draw w).2.hcx = s.hcx := rfl
@[simp] theorem State.draw_ckp (w : Nat) : (s.draw w).2.ckp = s.ckp := rfl
@[simp] theorem State.draw_audit (w : Nat) : (s.draw w).2.audit = s.audit := rfl
@[simp] theorem State.draw_keys (w : Nat) : (s.draw w).2.keys = s.keys := rfl
@[simp] theorem State.draw_clk (w : Nat) : (s.draw w).2.clk = s.clk := rfl
@[simp] theorem State.draw_obsv (w : Nat) : (s.draw w).2.obsv = s.obsv := rfl

/-! ## Reads after updates -/

/-- A register field reads what was written into it, cut to its width. -/
@[simp] theorem State.getF_setF_self (f : Fld) (a : Loc) (v : Nat) :
    (s.setF f a v).getF f a = v % 2 ^ f.w := by
  simp [State.getF, State.setF, csrSet]

/-- A write of a register field leaves every other field alone. -/
theorem State.getF_setF_ne (f g : Fld) (a b : Loc) (v : Nat) (h : f.key a ≠ g.key b) :
    (s.setF f a v).getF g b = s.getF g b := by
  simp [State.getF, State.setF, csrSet, mgetD_mset_ne _ _ _ _ h]

@[simp] theorem State.pan_setPan_self (p : Nat) (v : Pan) : (s.setPan p v).pan p = v := by
  simp [State.pan, State.setPan]

theorem State.pan_setPan_ne (p q : Nat) (v : Pan) (h : p ≠ q) : (s.setPan p v).pan q = s.pan q := by
  simp [State.pan, State.setPan, mgetD_mput_ne _ _ _ h]

@[simp] theorem State.pan_modPan_self (p : Nat) (g : Pan → Pan) : (s.modPan p g).pan p = g (s.pan p) := by
  simp [State.modPan]

theorem State.pan_modPan_ne (p q : Nat) (g : Pan → Pan) (h : p ≠ q) : (s.modPan p g).pan q = s.pan q :=
  s.pan_setPan_ne p q _ h

@[simp] theorem State.job_setJob_self (j : Nat) (v : Job) : (s.setJob j v).job j = v := by
  simp [State.job, State.setJob]

theorem State.job_setJob_ne (j k : Nat) (v : Job) (h : j ≠ k) : (s.setJob j v).job k = s.job k := by
  simp [State.job, State.setJob, mgetD_mput_ne _ _ _ h]

@[simp] theorem State.grain_setGrain_self (d b k : Nat) (v : Grain) : (s.setGrain d b k v).grain d b k = v := by
  simp [State.grain, State.setGrain]

@[simp] theorem State.array_setArray_self (d b : Nat) (v : ArraySt) : (s.setArray d b v).array d b = v := by
  simp [State.array, State.setArray]

/-- The tiers' bytes read back what was written. -/
@[simp] theorem State.rdMem_wrMem (space off : Nat) (bs : List Byte) :
    (s.wrMem space off bs).rdMem space off bs.length = bs := by
  simp [State.rdMem, State.wrMem, Memory.read_write]

/-! ## The canonical form of memory -/

theorem State.wf_wrMem (space off : Nat) (bs : List Byte) (h : Memory.wf s.mem = true) :
    Memory.wf (s.wrMem space off bs).mem = true := Memory.wf_write _ _ h

theorem State.wf_clrMem (space off n : Nat) (h : Memory.wf s.mem = true) :
    Memory.wf (s.clrMem space off n).mem = true := Memory.wf_clear _ _ h

/-- Memory at reset is in its canonical form. -/
theorem State.wf_reset : Memory.wf State.reset.mem = true := rfl

/-! ## What the shared operations do -/

/-- Everything a count does: the register file alone changes. -/
theorem State.bump_spec (f : Fld) (a : Loc) (n : Nat) : ∃ m : AMap Nat, s.bump f a n = { s with csr := m } := by
  unfold State.bump; split
  · exact ⟨s.csr, rfl⟩
  · exact ⟨_, rfl⟩

/-- Everything an MSI-X signal does: a signal while the link is up, else a pending bit. -/
theorem State.msix_spec (hd v : Nat) :
    (s.getB R.PCIE_LINK_UP (lDie (16 + hd)) = true ∧
      s.msix hd v = { s with hcx := { s.hcx with msix := s.hcx.msix ++ [(hd, v)] } }) ∨
    (s.getB R.PCIE_LINK_UP (lDie (16 + hd)) = false ∧
      s.msix hd v = s.setF R.PCIE_MSIX_PENDING (lDie (16 + hd))
        (s.getF R.PCIE_MSIX_PENDING (lDie (16 + hd)) ||| 2 ^ (v % 32))) := by
  unfold State.msix
  cases h : s.getB R.PCIE_LINK_UP (lDie (16 + hd)) <;> simp [h]

@[simp] theorem State.holdWorlds_pending (q : World → Bool) : (s.holdWorlds q).pending = s.pending := rfl
@[simp] theorem State.holdWorlds_time (q : World → Bool) : (s.holdWorlds q).time = s.time := rfl
@[simp] theorem State.holdWorlds_free (q : World → Bool) : (s.holdWorlds q).free = s.free := rfl
@[simp] theorem State.holdWorlds_csr (q : World → Bool) : (s.holdWorlds q).csr = s.csr := rfl
@[simp] theorem State.holdWorlds_wo1 (q : World → Bool) : (s.holdWorlds q).wo1 = s.wo1 := rfl
@[simp] theorem State.holdWorlds_mem (q : World → Bool) : (s.holdWorlds q).mem = s.mem := rfl
@[simp] theorem State.holdWorlds_tainted (q : World → Bool) : (s.holdWorlds q).tainted = s.tainted := rfl
@[simp] theorem State.holdWorlds_grains (q : World → Bool) : (s.holdWorlds q).grains = s.grains := rfl
@[simp] theorem State.holdWorlds_bricks (q : World → Bool) : (s.holdWorlds q).bricks = s.bricks := rfl
@[simp] theorem State.holdWorlds_arrays (q : World → Bool) : (s.holdWorlds q).arrays = s.arrays := rfl
@[simp] theorem State.holdWorlds_sch (q : World → Bool) : (s.holdWorlds q).sch = s.sch := rfl
@[simp] theorem State.holdWorlds_att (q : World → Bool) : (s.holdWorlds q).att = s.att := rfl
@[simp] theorem State.holdWorlds_lanes (q : World → Bool) : (s.holdWorlds q).lanes = s.lanes := rfl
@[simp] theorem State.holdWorlds_epc (q : World → Bool) : (s.holdWorlds q).epc = s.epc := rfl
@[simp] theorem State.holdWorlds_rings (q : World → Bool) : (s.holdWorlds q).rings = s.rings := rfl
@[simp] theorem State.holdWorlds_tier (q : World → Bool) : (s.holdWorlds q).tier = s.tier := rfl
@[simp] theorem State.holdWorlds_fab (q : World → Bool) : (s.holdWorlds q).fab = s.fab := rfl
@[simp] theorem State.holdWorlds_col (q : World → Bool) : (s.holdWorlds q).col = s.col := rfl
@[simp] theorem State.holdWorlds_hcx (q : World → Bool) : (s.holdWorlds q).hcx = s.hcx := rfl
@[simp] theorem State.holdWorlds_ckp (q : World → Bool) : (s.holdWorlds q).ckp = s.ckp := rfl
@[simp] theorem State.holdWorlds_audit (q : World → Bool) : (s.holdWorlds q).audit = s.audit := rfl
@[simp] theorem State.holdWorlds_keys (q : World → Bool) : (s.holdWorlds q).keys = s.keys := rfl
@[simp] theorem State.holdWorlds_clk (q : World → Bool) : (s.holdWorlds q).clk = s.clk := rfl
@[simp] theorem State.holdWorlds_obsv (q : World → Bool) : (s.holdWorlds q).obsv = s.obsv := rfl
@[simp] theorem State.holdWorlds_job (q : World → Bool) (j : Nat) : (s.holdWorlds q).job j = s.job j := rfl

/-- A change of a job's state sets it, whatever it was. -/
theorem State.jobTo_st (j : Nat) (t : JobRun) : ((s.jobTo j t).job j).st = t := by
  unfold State.jobTo; dsimp only
  by_cases h : (s.job j).st = t
  · simp only [h, if_true]; split <;> simp [h]
  · simp [h, State.modJob]

/-- A unit that the device has lets its command through. -/
@[simp] theorem need_true (u : String) (t : Out) : need true u t = t := rfl

@[simp] theorem need_false (u : String) (t : Out) : need false u t = .refused (.noSuchUnit u) := rfl

@[simp] theorem whenThere_true (s : State) (t : Out) : whenThere true s t = t := rfl
@[simp] theorem whenThere_false (s : State) (t : Out) : whenThere false s t = .next s := rfl

end Sys2Proof.Machine
end

