-- ==== Sys2Proof/Laws/Turns.lean ====
section
/-!
SUPPORT. What the operations that may make a change or a command wait do, when it need not wait and when it must.
-/

set_option Elab.async false

namespace Sys2Proof.Machine

variable (s : State)

/-- A change whose audit records have room, and that did not wait, happens in the state as it is (R388). -/
theorem State.whenRoom_now (dies : List Nat) (key : Nat × Nat) (f : State → State)
    (h : s.roomNow dies key = true) : s.whenRoom dies key f = f s := by
  simp only [State.roomNow, Bool.and_eq_true, Bool.not_eq_true'] at h
  have none : s.audit.held.find? (fun x => decide (x.1 = key)) = none := by
    simpa [List.find?_eq_none, List.any_eq_false] using h.2
  simp only [State.whenRoom, h.1, none, if_true]

/-- A change that waits already and still has no room changes nothing (R388). -/
theorem State.whenRoom_waits (dies : List Nat) (key : Nat × Nat) (f : State → State)
    (full : dies.all s.auditRoom = false) (held : (s.audit.held.find? (fun h => h.1 = key)).isSome = true) :
    s.whenRoom dies key f = s := by
  simp only [State.whenRoom, full, held, if_true, Bool.false_eq_true, if_false]

/-- A taken command of its row's opcode that may begin has its effect. -/
theorem State.onCmd_now (r : CmdRef) (op : Nat) (f : Cmd → State → State) (c : Cmd)
    (taken : s.cmdOf r = some c) (code : c.op = op) (may : s.mayBegin c = true) : s.onCmd r op f = f c s := by
  simp only [State.mayBegin, Bool.and_eq_true, Bool.not_eq_true'] at may
  simp only [State.onCmd, taken, code, may.1.1, may.1.2, Bool.not_false, and_self, if_true]
  exact s.whenRoom_now _ _ _ may.2

/-- A row of a command that is not taken changes nothing. -/
theorem State.onCmd_none (r : CmdRef) (op : Nat) (f : Cmd → State → State) (h : s.cmdOf r = none) :
    s.onCmd r op f = s := by
  simp only [State.onCmd, h]

end Sys2Proof.Machine
end

