-- ==== Sys2Proof/Tests/Slice0.lean ====
section
/-!
SUPPORT. Own tests: ill-formed commands, values of the manual's worked examples, and for each statement with
hypotheses a concrete state and operands that meet them.
-/

set_option Elab.async false
set_option maxRecDepth 20000

namespace Sys2Proof.Tests

open Sys2Proof Sys2Proof.Machine

/-! ## Witness states -/

/-- One grain, grain 0 of brick 0 of CD0. -/
def withGrain (x : Grain) : State := { grains := [(0, x)] }

/-- A sliver that runs at local address 0. -/
def sliver : Grain := { role := 2, run := .run }

/-- Pan 0 of job 1 on brick 0 of CD0. -/
def panCfg : PanDecl := { pan := 0, job := 1, bricks := [(0, 0)] }
def pan0 : Pan := { st := .running, gen := 1, job := 1, cfg := panCfg, released := true, woken := [0] }
def withPan (p : Pan) : State := { sch := { pans := [(0, p)] } }

/-- The same with brick 0 owned by pan 0. -/
def owned (s : State) : State := s.setF R.BRK_OWNER_OWNED (lBrick 0 0) 1

/-- A taken command of job 1 with an opcode and parameters. -/
def cmd (op : Nat) (params : List Byte) : Cmd :=
  { ref := { pair := 0, cid := 7 }, op := op, fence := false, job := 1, jobgen := 1, params := params, client := 0
    takenAt := 0 }
def ref0 : CmdRef := { pair := 0, cid := 7 }
def withCmd (op : Nat) (params : List Byte) (s : State := {}) : State :=
  { s with hcx := { s.hcx with waiting := [cmd op params] } }

/-- The command is the one that a reference names, and may have its effect. -/
def goes (s : State) (c : Cmd) : Bool := decide (s.cmdOf ref0 = some c) && s.mayBegin c

/-- An entry of CD0's scoreboard is free for a station of pan 0. -/
def entryFree (s : State) (st : StationDecl) : Bool :=
  s.mayIssue 0 0 st 0 0 &&
    (s.takeEntry 0 { pan := 0, step := (s.pan 0).step, station := st.idx, mb := 0, slice := 0 }).isSome

/-- Job 1 in a state. -/
def withJob (j : Job) (s : State := {}) : State := { s with hcx := { s.hcx with jobs := [(1, j)] } }

/-- A steward core of HD0 writes. -/
def core0 : Origin := .hostCore 0 0
def zero : State := {}

/-- Pan 0 with stations and streams, and a row that waits in stream 0. -/
def panOf (sts : List StationDecl) (strs : List StreamDecl) : Pan :=
  { pan0 with cfg := { panCfg with stations := sts, streams := strs, quotas := [(0, 4)] } }
def stream0 : StreamDecl := { idx := 0, producer := 1, consumers := [0] }
def row0 : Row := { data := List.replicate 128 0, valid := 128, last := true }
def withRow (p : Pan) : State := { sch := { pans := [(0, p)], streams := [(0, [{ row := row0 }])] } }

/-! ## Grains -/

/-- A window over the whole tile store. -/
def wideWin : WinDecl := { base := 0, limit := 0x200000, rd := true, wr := true }

/-- x5 holds the tile-store base. -/
def rowGrain : Grain := { sliver with win0 := wideWin, x := [(5, 0x10000000)] }

theorem wit_SliverArithmetic :
    isGrain 0 0 0 = true ∧ ((withGrain sliver).grain 0 0 0).active = true ∧ 30 % 2 = 0 ∧
    Rv.rmode 7 ((withGrain sliver).grain 0 0 0).frm.toNat = some .rne ∧
    Rv.rmode 4 ((withGrain sliver).grain 0 0 0).frm.toNat = some .rmm ∧
    (((withGrain sliver).grain 0 0 0).rx 0).toNat + ((withGrain sliver).grain 0 0 0).slCount * 4 ≤ 0x2000 := by
  decide +kernel

theorem wit_SliverMoves :
    isGrain 0 0 0 = true ∧ ((withGrain rowGrain).grain 0 0 0).active = true ∧
    (let x := (withGrain rowGrain).grain 0 0 0
     let s0 := (withGrain rowGrain).eccFix 0 0 1
     s0.grainTile { die := 0, brick := 0, g := 0 } x false (x.rx 5).toNat (x.slCount * slBytes x.slCode) = some 0 ∧
     s0.grainTile { die := 0, brick := 0, g := 0 } x true (x.rx 5).toNat (x.slCount * slBytes x.slCode) = some 0 ∧
     (x.rx 0).toNat + x.slCount * 4 ≤ 0x2000) := by decide +kernel

/-- A pan with stream 3, of which the grain's ports 0 and 1 are ends. -/
def strm : StreamDecl := { idx := 3, producer := 1, consumers := [2], depth := 4, width := 16 }
def portGrain : Grain :=
  { sliver with ports := [(0, { port := 0, stream := 3, station := 1, outbound := true }),
                          (1, { port := 1, stream := 3, station := 2, outbound := false })]
                x := [(6, 1)] }
def streamState : State :=
  owned { grains := [(0, portGrain)], sch := { pans := [(0, { pan0 with cfg := { panCfg with streams := [strm] } })]
                                               streams := [(3, [{ row := { data := [1], valid := 16 } }])] } }

theorem wit_SliverStreams :
    isGrain 0 0 0 = true ∧ (streamState.grain 0 0 0).active = true ∧
    (let x := streamState.grain 0 0 0
     let s0 := streamState.eccFix 0 0 1
     s0.grainPort { die := 0, brick := 0, g := 0 } x ((x.rx 0).toNat % 8) =
       some (0, { port := 0, stream := 3, station := 1, outbound := true }, strm) ∧
     s0.grainPort { die := 0, brick := 0, g := 0 } x ((x.rx 6).toNat % 8) =
       some (0, { port := 1, stream := 3, station := 2, outbound := false }, strm) ∧
     (x.rx 0).toNat + rowBytes strm.fmt strm.width ≤ 0x2000 ∧
     canEmit strm ((streamState.eccFix 0 0 2).rows 0 strm.idx) = true ∧
     nextRow (s0.rows 0 strm.idx) 2 = some { data := [1], valid := 16 }) := by decide +kernel

/-- A brick whose debug mode is on, and one whose watchdog limit is reached. -/
def dbgState : State := (withGrain sliver).setF R.BRK_DBG_EN (lBrick 0 0) 1
def wdogState : State := (withGrain { sliver with wdog := 100 }).setF R.BRK_WDOG_CYCLES (lBrick 0 0) 100

/-- A grain of a brick of pan 0, whose job 1 is in a state. -/
def jobGrain (st : JobRun) : State :=
  owned { withJob { st := st } (withPan pan0) with grains := [(0, sliver)] }

theorem wit_GrainTraps :
    isGrain 0 0 0 = true ∧ ((withGrain sliver).grain 0 0 0).active = true ∧ (withGrain sliver).owner 0 0 = none ∧
    (withGrain sliver).getB R.BRK_FAULT_VALID (lBrick 0 0) = false ∧
    (withGrain sliver).getB R.BRK_DBG_EN (lBrick 0 0) = false ∧
    (dbgState.grain 0 0 0).active = true ∧ dbgState.owner 0 0 = none ∧ dbgState.getB R.BRK_DBG_EN (lBrick 0 0) = true ∧
    (wdogState.grain 0 0 0).active = true ∧ wdogState.getF R.BRK_WDOG_CYCLES (lBrick 0 0) ≠ 0 ∧
    wdogState.getF R.BRK_WDOG_CYCLES (lBrick 0 0) ≤ (wdogState.grain 0 0 0).wdog ∧
    ((jobGrain .running).owner 0 0 = some 0 ∧ ((jobGrain .running).job ((jobGrain .running).pan 0).job).st = .running ∧
      ((jobGrain .stepHold).job ((jobGrain .stepHold).pan 0).job).st = .stepHold ∧
      ((jobGrain .running).job 1).destroyCmd = none) := by decide +kernel

/-- An odd register on a brick no pan owns, even ones up to the last. -/
theorem wit_SliverPairs :
    isGrain 0 0 0 = true ∧ ((withGrain sliver).grain 0 0 0).active = true ∧ 31 % 2 = 1 ∧
    (withGrain sliver).owner 0 0 = none ∧ (withGrain sliver).getB R.BRK_FAULT_VALID (lBrick 0 0) = false ∧
    30 % 2 = 0 ∧ 30 < 32 ∧
    [RMode.rne, .rtz, .rdn, .rup, .rmm][if 4 = 7 then ((withGrain sliver).grain 0 0 0).frm.toNat else 4]? = some .rmm ∧
    [RMode.rne, .rtz, .rdn, .rup, .rmm][if 7 = 7 then ((withGrain sliver).grain 0 0 0).frm.toNat else 7]? = some .rne := by
  decide +kernel

/-- A grain whose instruction word stands at local address 0. -/
def insnState (w : Nat) (x : Grain) : State := (withGrain x).wrMem 0 (sramAddr 0 0 (localBase 0)) (toLe 4 w)

/-- ADD x1, x2, x3; LW x1, 0(x2); SW x3, 0(x2); BEQ x1, x2, +8. -/
theorem wit_GrainInstructions :
    ((insnState 0 sliver).grain 0 0 0).active = true ∧ ((insnState 0 sliver).grain 0 0 0).pc ≠ sentinel ∧
    Rv.opcode (Rv.encR 0x33 0 0 1 2 3) ≠ 0x0B ∧
    (insnState (Rv.encR 0x33 0 0 1 2 3) sliver).fetchInsn { die := 0, brick := 0, g := 0 } 0 =
      some (Rv.encR 0x33 0 0 1 2 3, 4) ∧
    (insnState (Rv.encR 0x03 2 0 1 2 0) sliver).fetchInsn { die := 0, brick := 0, g := 0 } 0 =
      some (Rv.encR 0x03 2 0 1 2 0, 4) ∧
    (insnState (Rv.encR 0x23 2 0 0 2 3) sliver).fetchInsn { die := 0, brick := 0, g := 0 } 0 =
      some (Rv.encR 0x23 2 0 0 2 3, 4) ∧
    (insnState (Rv.encR 0x63 0 0 8 1 2) sliver).fetchInsn { die := 0, brick := 0, g := 0 } 0 =
      some (Rv.encR 0x63 0 0 8 1 2, 4) ∧
    (withGrain sliver).grainData { die := 0, brick := 0, g := 0 } sliver false 0x1FFC 4 = some 0x201FFC ∧
    (withGrain sliver).grainData { die := 0, brick := 0, g := 0 } sliver true 0 4 = some 0x200000 := by decide +kernel

/-- A world of two grains of which grain 1 comes to the sentinel while grain 0 still runs. -/
def worldGrain (i : Nat) : Grain := { role := 1, run := .run, pc := sentinel, world := 9, inWorld := i }
def devWorld : DevWorld := { decl := { world := 9, die := 0, brick := 0, grain0 := 0, obsSlot := 0, actSlot := 0 } }
def sentinelState : State :=
  owned { grains := [(0, worldGrain 0), (1, worldGrain 1)], bricks := [(0, { desc := some { grains := 2 } })]
          sch := { pans := [(0, { pan0 with worlds := [devWorld] })] } }

theorem wit_SentinelReturn :
    isGrain 0 0 1 = true ∧ sentinelState.owner 0 0 = some 0 ∧
    (let x := sentinelState.grain 0 0 1
     x.role = 1 ∧ x.run = .run ∧ x.pc = sentinel ∧ x.inWorld ≠ 0 ∧
     (sentinelState.pan 0).worlds.find? (fun d => d.decl.world = x.world) = some devWorld ∧
     (let t := sentinelState.setGrain 0 0 1 { x with run := .waitBoundary, ended := true }
      0 ∈ t.worldGrains devWorld.decl ∧ (t.grain 0 0 0).ended = false)) := by decide +kernel

/-! ## Registers -/

theorem wit_BrickRegisterRows :
    isBrick 15 127 = true ∧ bit (2 : U64).toNat 1 = true ∧
    zero.writeOpen core0 (csrOf R.BRK_DBG_RESUME (lBrick 15 127)) = true ∧
    zero.writeOpen core0 (csrOf R.BRK_FAULT_VALID (lBrick 15 127)) = true ∧
    zero.writeOpen core0 (csrOf R.MXA_MODE_ELASTIC (lBrick 15 127)) = true ∧ zero.bistOn 15 127 = false ∧
    zero.owner 15 127 = none ∧ zero.writeOpen core0 (csrOf R.MXA_FLAGS0_BANKS (lBrick 15 127)) = true ∧
    zero.writeOpen core0 (csrOf R.MXA_FLAGS1_BANKS (lBrick 15 127)) = true ∧
    zero.writeOpen core0 (csrOf R.MXA_ERR_VALID (lBrick 15 127)) = true ∧
    (owned (withPan pan0)).writeOpen core0 (csrOf R.MXA_MODE_ELASTIC (lBrick 0 0)) = true ∧
    (owned (withPan pan0)).owner 0 0 = some 0 ∧ ((owned (withPan pan0)).pan 0).st ≠ .fenced := by decide +kernel

theorem wit_PanRegisterRows :
    ((withPan pan0).pan 0).st ≠ .free ∧ ((withPan pan0).pan 0).master = 0 ∧
    (withPan pan0).writeOpen core0 (csrOf R.SCH_SPLIT_ROWS (lIdx 0 0)) = true ∧
    (withPan pan0).writeOpen core0 (csrOf R.ATT_PMODE_DROP (lIdx 0 0)) = true ∧
    (zero.pan 255).st = .free ∧ ((withPan pan0).pan 0).master ≠ 15 := by decide +kernel

/-- A port, tables and a ring in the states that the commands need. -/
def fabState : State :=
  ((zero.setF R.FAB_PSTAT_STATE (lIdx 19 15) PortRun.disabled).setF R.ROUTE_SEL_SHADOWOK (lDie 19) 1).setF
    R.LLP_BYPASS_POSITIONS (lRing 2) 1

theorem wit_FabricRegisterRows :
    isFabric 19 = true ∧ fabState.writeOpen core0 (csrOf R.FAB_PCTL_ENABLE (lIdx 19 15)) = true ∧
    bit (1 : U64).toNat 0 = true ∧ fabState.unitOut 19 0x08 15 = false ∧
    fabState.getF R.FAB_PSTAT_STATE (lIdx 19 15) = PortRun.disabled ∧
    zero.getF R.FAB_PSTAT_STATE (lIdx 19 15) = PortRun.down ∧
    fabState.writeOpen core0 (csrOf R.ROUTE_SDATA_ALT0 (lDie 19)) = true ∧
    fabState.writeOpen core0 (csrOf R.ROUTE_SDONE_DONE (lDie 19)) = true ∧
    fabState.writeOpen core0 (csrOf R.ROUTE_SEL_ACTIVE (lDie 19)) = true ∧
    (1 : U64).toNat % 2 ≠ fabState.getF R.ROUTE_SEL_ACTIVE (lDie 19) % 2 ∧
    fabState.getB R.ROUTE_SEL_SHADOWOK (lDie 19) = true ∧ zero.getB R.ROUTE_SEL_SHADOWOK (lDie 19) = false ∧
    fabState.writeOpen core0 (csrOf R.LLP_RCTL_REJOIN (lIdx 18 2)) = true ∧
    fabState.bypassedAt 2 (fabState.ringPos 2) = true ∧
    fabState.writeOpen core0 (csrOf R.LLP_RCTL_RETRAIN (lIdx 18 2)) = true ∧ bit (2 : U64).toNat 1 = true ∧
    fabState.ringState 2 = RingRun.down := by decide +kernel

/-- HD0 keeps the lease. -/
def keeper0 : State := { clk := { role0 := .keeper, ready := true, bootStep := 8 } }

theorem wit_HostRegisterRows :
    keeper0.writeOpen core0 (csrOf R.AON_LCTL_YIELD (lDie 16)) = true ∧ bit (1 : U64).toNat 0 = true ∧
    keeper0.role 0 = .keeper ∧ zero.writeOpen core0 (csrOf R.DIE_OP_OP (lDie 15)) = true ∧
    (∀ p ∈ zero.sch.pans, p.2.st ≠ .running) ∧
    zero.writeOpen core0 (csrOf R.AUDIT_ACK_SEQ (lDie 16)) = true ∧
    zero.getF R.AUDIT_ACK_SEQ (lDie 16) ≤ (0 : U64).toNat ∧ (0 : U64).toNat ≤ zero.audit.next ∧
    zero.writeOpen core0 (csrOf R.PERF_DSEL_EVENT (lIdx 19 63)) = true ∧ keeper0.keeper = some 0 ∧
    keeper0.writeOpen core0 (csrOf R.PERF_ALSEL_RELEASE (lDie 16)) = true ∧ bit (0x103FF : U64).toNat 16 = true ∧
    zero.writeOpen core0 (csrOf R.AON_DEVNUM_DEVICE (lDie 16)) = true ∧ zero.clk.bootWait ≠ 2 := by decide +kernel

/-- A change waits for HD0's staging, and a ring that takes no record. -/
def wwrite : WaitWrite := { origin := core0, die := 16, csr := csrOf R.CLK_CAP_WATTS lKeep, value := 500, at_ := 3 }
def waitState : State := { keeper0 with audit := { waiting := [wwrite] } }
def fullLog : State := { keeper0 with clk := { keeper0.clk with hd0Lost := true } }

theorem wit_RegisterRows :
    keeper0.plan (regFields (csrOf R.CLK_CAP_WATTS lKeep)) 500 ≠ [] ∧
    keeper0.writeOpen core0 (csrOf R.CLK_CAP_WATTS lKeep) = true ∧
    fullLog.plan (regFields (csrOf R.CLK_CAP_WATTS lKeep)) 500 ≠ [] ∧
    bar0Reach core0 (csrOf R.CLK_CAP_WATTS lKeep) = true ∧
    fullLog.auditRoom (originDie core0 (bits (csrOf R.CLK_CAP_WATTS lKeep) 28 24)) = false ∧ fullLog.clk.bootWait ≠ 2 ∧
    waitState.audit.waiting.find? (fun w => originDie w.origin w.die = 16) = some wwrite ∧ waitState.auditRoom 16 = true ∧
    isFabric 19 = true ∧ bar0Reach core0 (csrOf R.FAB_ORDER_DUP (lDie 19)) = true := by decide +kernel

/-! ## Arrays and the scheduler -/

def withArray (a : ArraySt) (s : State := {}) : State := { s with arrays := [(0, a)] }

/-- One row, and two rows, of FP8 against a set of format 0. -/
def oneRow : MxCmd := { w0 := 1, w1 := 0, w2 := 0, w3 := 0 }
def twoRows : MxCmd := { w0 := 2, w1 := 0, w2 := 0, w3 := 0 }

/-- Port 0 of the array takes stream 0 of pan 0, in which a row waits. -/
def feedState : State := owned (withArray { cur := some twoRows } { withRow (panOf [] [stream0]) with
  bricks := [(0, { ports := [(0, { port := 0, stream := 0, station := 0, outbound := false })] })] })

/-- An array of a pan that is released on CD0 with a free entry. -/
def panArray : State := owned (withPan { pan0 with cfg := { panCfg with quotas := [(0, 1)] } })

theorem wit_ArrayCommands :
    (zero.bistOn 15 127 = false ∧ (1 : U64).toNat % 2 ^ 32 ≠ 0 ∧ (withArray { cur := some oneRow }).bistOn 0 0 = false ∧
      ((withArray { cur := some oneRow }).array 0 0).cur = some oneRow ∧ (zero.array 15 127).cur = none ∧
      (zero.readCmd 15 127 1 0 0 0).1.count ≠ 0 ∧ zero.owner 15 127 = none) ∧
    (panArray.bistOn 0 0 = false ∧ panArray.owner 0 0 = some 0 ∧ (panArray.pan 0).running 0 = true ∧
      panArray.quotaFree 0 0 = true ∧
      (panArray.takeEntry 0 { pan := 0, step := (panArray.pan 0).step, brick := 0, isArray := true
                              station := (((panArray.pan 0).stationOf 1 0 0 0).map (·.idx)).getD 4096 }).isSome = true) ∧
    (((feedState.setF R.MXA_MODE_EFFECTIVE (lBrick 0 0) 0).getB R.MXA_MODE_EFFECTIVE (lBrick 0 0) = false ∧
      feedState.getB R.MXA_MODE_EFFECTIVE (lBrick 0 0) = true ∧ ((feedState.array 0 0).arrived ||| 255) % 256 = 255 ∧
      (feedState.array 0 0).drain = [] ∧ (feedState.array 0 0).swapPending = false)) ∧
    (((withArray { cur := some oneRow, swapPending := true }).array 0 0).swapPending = true ∧
      ((withArray { cur := some oneRow, swapPending := true }).array 0 0).loading = none ∧ oneRow.count ≠ 0) ∧
    ((withArray { loading := some (0, 0, 0) }).array 0 0).loading = some (0, 0, 0) ∧
    (feedState.owner 0 0 = some 0 ∧
      (feedState.feedRow 0 0 twoRows).isSome = true ∧
      (feedState.feedRow 0 0 twoRows).any (fun f => twoRows.poisonOf
        (feedState.array 0 0) f 0 = 0) = true ∧
      twoRows.convert = false ∧ twoRows.row + 1 < twoRows.count) := by decide +kernel

/-- Pan 0 with one station of no work of its own, on one die and on two. -/
def st0 : StationDecl := { idx := 0, name := [], kind := 0xA }
def panS : Pan := { pan0 with cfg := { panCfg with stations := [st0], quotas := [(0, 4)] } }
def pan2 : Pan := { panS with cfg := { panS.cfg with bricks := [(0, 0), (1, 0)] }, woken := [0, 1] }
def busyBoard (p : Pan) : State :=
  { (withPan p) with sch := { (withPan p).sch with boards := [(0, { newEntry 0 0 st0 0 0 (.sliver 0 [0]) with busy := true })] } }
def lateOn : State := (withPan pan0).setF R.SCH_BNDLIM_US (lDie 0) 1

theorem wit_SchedulerRows :
    (0 ∈ ((withPan panS).pan 0).dies ∧ ((withPan panS).pan 0).station 0 = some st0 ∧
      ((withPan panS).pan 0).released = true ∧ ((withPan panS).pan 0).woken.contains 0 = true ∧
      (withPan panS).opReady 0 0 st0 0 0 (.sliver 0 [0]) = true ∧ (withPan panS).quotaFree 0 0 = true ∧
      ((withPan panS).pan 0).ladleLate st0 = false ∧ (withPan panS).sch.offers = [] ∧
      lowest 4096 (fun e => !((withPan panS).board 0 e).busy) = some 0) ∧
    (((busyBoard panS).board 0 0).busy = true ∧ ((busyBoard panS).board 0 0).gen = bits 0 31 16 ∧
      ((busyBoard panS).board 0 0).isArray = false ∧ (busyBoard panS).col.exchs = [] ∧
      (busyBoard panS).opEnded 0 0 ((busyBoard panS).board 0 0) = true ∧
      ((busyBoard panS).board 0 0).gen ≠ bits 65536 31 16 ∧ (zero.board 0 0).busy = false) ∧
    ((withPan panS).localDone 0 0 = true ∧ ((withPan panS).pan 0).sent.contains 0 = false) ∧
    (0 ∈ ((withPan { pan2 with sent := [0] }).pan 0).dies ∧ 1 ∈ ((withPan { pan2 with sent := [0] }).pan 0).dies ∧
      ((withPan { pan2 with sent := [0] }).pan 0).sent.contains 0 = true ∧
      ((withPan { pan2 with sent := [0] }).pan 0).dones.contains 0 = false ∧
      ((withPan { pan2 with sent := [0] }).pan 0).dones.contains 1 = false) ∧
    (∀ d ∈ ((withPan { pan2 with sent := [0], dones := [1] }).pan 0).dies,
      d = 0 ∨ ((withPan { pan2 with sent := [0], dones := [1] }).pan 0).dones.contains d = true) ∧
    (withPan pan2).roomNow [16] (2, 0) = true ∧
    ((withPan { pan2 with woken := [0] }).pan 0).woken.contains 1 = false ∧
    (lateOn.getF R.SCH_BNDLIM_US (lDie (lateOn.pan 0).master) ≠ 0 ∧
      lateOn.getB R.SCH_PBND_LATE (lateOn.panLoc 0) = false) := by decide +kernel

def link (n : Nat) : State := zero.setF R.D2D_LSTAT_STATE (d2dLoc 15 3) n

theorem wit_DieLinkRows :
    (link 2).getF R.D2D_LSTAT_STATE (d2dLoc 15 3) = 2 ∧ (link 3).getF R.D2D_LSTAT_STATE (d2dLoc 15 3) = 3 ∧
    (link 1).getF R.D2D_LSTAT_STATE (d2dLoc 15 3) < 2 := by
  decide +kernel

theorem wit_SliverDraws : isGrain 0 0 0 = true ∧ ((withGrain sliver).grain 0 0 0).active = true := by decide +kernel

/-! ## Attention and sampling -/

/-- Pan 0 with pools of one page, and what its frames hold. -/
def panPool : Pan := { pan0 with cfg := { panCfg with seqHi := 1, pool1 := 1, pool2 := 1, pool3 := 1 } }
def poolState (q : Seq := {}) (f : AMap (List Nat) := []) : State :=
  { withPan panPool with att := { seqs := [(0, q)] }, tier := { frames := f } }
def page0 : State := { poolState { st := .opened, gen := 3 } with
  att := { seqs := [(0, { st := .opened, gen := 3 })], ptes := [(pteKey 0 0 0, { present := true, tier := 1 })] } }

/-- The same page with its identity block in HBM. -/
def page1 : State := page0.setIdent 1 0 { seqgen := 3, seq := 0, layer := 0, page := 0, sharers := 1, pan := 0, frame := 0 }

theorem wit_SequenceRows_walk :
    page1.unitOut 15 0x18 7 = false ∧ (page1.seq 0).gen = 3 ∧ (page1.seq 0).live = true ∧
    (mgetD page1.att.labs (labKey 15 7) {}).committed.find? (fun e => e.is 0 3 0 0) = none ∧
    (let e := page1.pte (pteKey 0 0 ((page1.seq 0).slot 0))
     e.present = true ∧ e.page = 0 ∧ page1.newHome (e.tier, e.addr) = none ∧
     page1.mismatch 0 0 0 (e.tier, e.addr) = false) := by decide +kernel

theorem wit_SequenceRows :
    (((poolState).pan 0).st ≠ .free ∧ (poolState).freeSeq 0 = some 0 ∧
      (poolState { st := .opened }).freeSeq 0 = none ∧ ((poolState { st := .quarantine }).seq 0).st = .quarantine ∧
      (poolState { st := .quarantine }).att.waits = []) ∧
    (page0.unitOut 15 0x18 7 = false ∧ (page0.seq 0).gen = 3 ∧ (page0.seq 0).live = true ∧
      (page0.seq 0).gen ≠ 4 ∧
      (zero.seq 262143).live = false) ∧
    ((poolState).above 0 1 ((poolState).getF R.ATT_PMODE_HIGH1 ((poolState).panLoc 0)) = false ∧
      (poolState {} [(frameKey 0 1, [0])]).above 0 1
        ((poolState).getF R.ATT_PMODE_HIGH1 ((poolState).panLoc 0)) = true ∧
      (poolState {} [(frameKey 0 2, [0])]).above 0 2
        ((poolState).getF R.ATT_PMODE_HIGH2 ((poolState).panLoc 0)) = true ∧
      (poolState).getB R.ATT_PMODE_EFFECTIVE ((poolState).panLoc 0) = false ∧
      ((poolState {} [(frameKey 0 1, [0])]).setF R.ATT_PMODE_EFFECTIVE (lIdx 0 0) 1).getB R.ATT_PMODE_EFFECTIVE
        ((poolState).panLoc 0) = true) := by decide +kernel

def sample0 : StationDecl := { idx := 0, name := [], kind := 6, inputs := [0] }
def sampleState (k : Byte) : State := (withRow (panOf [sample0] [stream0])).wrBrick 0 0 0 [k]

theorem wit_SampleRows :
    (sampleState 2).hasStation 0 0 6 = true ∧ ((sampleState 2).pan 0).station 0 = some sample0 ∧
    sample0.inputs.head? = some 0 ∧ ((sampleState 2).pan 0).nextDraw sample0 = (0, 0) ∧
    rowNumbered ((sampleState 2).rows 0 0) 0 0 0 = some row0 ∧
    ((sampleState 2).pan 0).stream 0 = some stream0 ∧ (sampleState 2).outsReady 0 sample0 = true ∧
    (sieveOf sample0 row0).1 = 0 ∧ (sampleState 2).unitOut 0 0x20 (sieveOf sample0 row0).2.1 = false ∧
    entryFree (sampleState 2) sample0 = true ∧
    ((sampleState 0).sampleDesc sample0).kind = 0 ∧ ((sampleState 2).sampleDesc sample0).kind ≠ 0 := by
  decide +kernel

/-! ## Epochs and rings -/

def pub0 : StationDecl := { idx := 0, name := [], kind := 0xB }
def ws0 : WSet := { decl := { ws := 0, targets := [9] }, job := 1 }
def writer0 : PubWriter := { image := false, epoch := 1, chunks := 2 }
def check0 : PendCheck := { epoch := 1, step := 0, pan := 0, station := 0, boundary := true }
def img0 : ImgLoad := { cmd := ref0, ws := 0, epoch := 1, header := [] }
def wsState (w : WSet) (i : Option ImgLoad := none) : State :=
  { withPan (panOf [pub0] []) with epc := { sets := [(0, w)], img := i } }
def wsDraft (st : EpochRun) : WSet := { ws0 with table := [(1, { epoch := 1, st := st })], next := 2 }

theorem wit_EpochRows :
    (((wsState ws0).pan 0).released = true ∧ ((wsState ws0).pan 0).latched = none ∧
      (wsState ws0).hasStation 0 0 0xB = true ∧ ((wsState ws0).pan 0).station 0 = some pub0 ∧
      (wsState ws0).wset 0 = some ws0 ∧ ((wsState ws0).pan 0).pubDone.contains 0 = false ∧
      (wsState ws0).publishing 0 0 = false ∧ ws0.decl.kind ≠ 1 ∧ pub0.onCommand = false ∧ ws0.exhausted = false ∧
      ws0.anyProvisional = false ∧ ws0.nextHeld = false ∧ ws0.occupant = .free ∧
      (wsDraft .provisional).anyProvisional = true ∧ ws0.job = ((wsState ws0).pan 0).job ∧
      ((wsState ws0).pan 0).master = 0 ∧ entryFree (wsState ws0) pub0 = true ∧ (wsState ws0).roomNow [16] (1, 0) = true) ∧
    (ws0.decl.targets.contains 9 = true ∧ 1 < writer0.chunks ∧ writer0.acked.contains (9, 1) = false ∧
      writer0.image = false ∧ writer0.fails.count (9, 1) < 3 ∧
      3 ≤ { writer0 with fails := [(9, 1), (9, 1), (9, 1)] }.fails.count (9, 1)) ∧
    (∀ w, w = { ws0 with check := some check0 } → (wsState w).wset 0 = some w ∧ w.check = some check0 ∧
      check0.boundary = true ∧ ((wsState w).pan check0.pan).station check0.station = some pub0) ∧
    ((wsDraft .draft).waitsFor 1 = false ∧ (wsDraft .draft).stateOf 1 = .draft ∧ (wsDraft .draft).waitsFor 2 = true ∧
      (wsDraft .provisional).stateOf 1 = .provisional) ∧
    (hdrFlag img0.header 0 = false ∧
      img0.openChunk (fitTo (chunkSize (mib + 1) 0) []) [] = some (fitTo (chunkSize (mib + 1) 0) []) ∧
      img0.done + 1 < chunksOf (mib + 1)) ∧
    (let s : State := { fullLog with epc := { sets := [(0, ws0)] } }
     (s.wset 0).isSome = true ∧ s.auditRoom 16 = false ∧ s.audit.held.any (fun h => h.1 = (1, 0)) = false) := by
  refine ⟨by decide +kernel, by decide +kernel, ?_, by decide +kernel, ⟨by decide +kernel, rfl, by decide +kernel⟩,
    by decide +kernel⟩
  rintro w rfl
  decide +kernel

def rec0 : StationDecl := { idx := 0, name := [], kind := 7, inputs := [0], record := some {} }
def draw0 : StationDecl := { idx := 1, name := [], kind := 8, draw := some {} }
def ring0 : RingSt := { decl := { ring := 0, tier := 1, home := 0, log2cap := 8, slot := 128
                                  stripes := [{ pan := 0, cap := 256, worlds := 1 }] }, job := 1 }
def ringFull : RingSt := { ring0 with blocks := [(0, { st := .committed, count := 1 })] }
/-- The same ring in T3, on device 1, and the claim of block 0 of its stripe sent. -/
def ringFar : RingSt := { ring0 with decl := { ring0.decl with tier := 3, host := some 1, stageBlocks := 2 } }
def ringAsked : RingSt := { ringFar with claims := [(0, (0, 0))] }
def recIn : RecordIn :=
  { world := 0 }
def ringState (g : RingSt) : State :=
  { withRow { panOf [rec0, draw0] [stream0] with
      rowWorlds := [0], worlds := [{ decl := { world := 0, die := 0, brick := 0, grain0 := 0, obsSlot := 0, actSlot := 0 } }] }
    with rings := [(0, g)] }

theorem wit_RingRows :
    ((ringState ring0).hasStation 0 0 7 = true ∧ ((ringState ring0).pan 0).station 0 = some rec0 ∧
      rec0.record = some {} ∧ ((ringState ring0).pan 0).nextDraw rec0 = (0, 0) ∧
      (((ringState ring0).pan 0).rowsOf rec0)[0]? = some 0 ∧ ((ringState ring0).recordIn 0 rec0 {} 0 0 0).isSome = true ∧
      (ringState ring0).verdictIn 0 0 = true ∧ ((ringState ring0).pan 0).writerDie 0 = 0 ∧
      ((ringState ring0).claimDue 0 {} recIn).isNone = true ∧ ((ringState ringFar).claimDue 0 {} recIn).isSome = true ∧
      entryFree (ringState ring0) rec0 = true) ∧
    ((ringState ring0).ring 0 = some ring0 ∧ ((ringState ring0).worldRow 0 recIn 0).isSome = true ∧
      ((ringState ring0).pan 0).step % max 1 (ring0.stripe 0).stride = 0 ∧
      (((ringState ring0).stepBlock 0 {}).ring 0).any (fun g' => !(g'.block 0
        ((mgetD g'.openK 0 (0, 0)).1 % max 1 (stripeBlocks (g'.stripe 0)))).dropped) = true) ∧
    ((ringState ring0).hasStation 0 1 8 = true ∧ ((ringState ring0).pan 0).station 1 = some draw0 ∧
      draw0.draw = some {} ∧ (ringState ringFull).ring 0 = some ringFull ∧
      (ringState ringFull).outsReady 0 draw0 = true ∧ (ringState ringFull).drawing 0 1 = false ∧
      ringFull.job = ((ringState ringFull).pan 0).job ∧ entryFree (ringState ringFull) draw0 = true ∧
      ((ringState ring0).setF R.EXP_RLIM_MINFILL ring0.loc 5).drawReady ring0 {} = false ∧
      ((ringState ringFull).setF R.EXP_RLIM_MINFILL ringFull.loc 0).drawReady ringFull {} = true) ∧
    (0 < ringFull.decl.stripes.length ∧ (ringFull.block 0 0).st ≠ .empty ∧ (ringFull.block 0 0).block = 0 ∧
      0 < (ringFull.stripe 0).worlds ∧ ringFull.decl.stripes.length ≤ 15 ∧
      (ringState ringAsked).ring 0 = some ringAsked ∧ ringAsked.claimOf 0 0 = some 0) := by decide +kernel

/-- R214: a position that another block still holds makes the block DEAD; a free one is claimed. -/
theorem test_claim :
    (((ringState ringAsked).claimAnswer 0 0 0 (some 5)).ring 0).map (fun g => g.stageFull 0 0) = some true ∧
      (((ringState ringAsked).claimAnswer 0 0 0 (some 0)).ring 0).map (fun g => g.stageFull 0 0) = some false := by
  decide +kernel

/-! ## Tiers -/

/-- Buffer 0 of pan 0 in T1, with room in T2. -/
def bufState : State := { withPan panPool with
  tier := { buffers := [(0, { st := .allocated, tier := 1, bytes := 64, movable := true })] } }
def move0 (st : MoveRun) (w : List Nat := [0]) : Move :=
  { die := 0, engine := 0, obj := .buffer 0, pan := 0, srcTier := 1, srcAddr := 0, dstTier := 2, dstAddr := 0
    srcFrame := 0, dstFrame := 0, bytes := 64, st := st, waitPans := w }
def moving (st : MoveRun) : State :=
  { bufState with tier := { bufState.tier with moves := [(0, move0 st)], nextMove := 1 } }

theorem wit_MoveRows :
    ((bufState.objAt (.buffer 0)).isSome = true ∧ (bufState.objAt (.buffer 0)).all (fun x =>
        !bufState.covered (.buffer 0) x && decide (x.tier ≠ 2) && (bufState.freeFrame x.pan 2 == some 0)) = true ∧
      bufState.moveDead { die := 15, engine := 1, obj := .buffer 0, dst := 2 } = false ∧
      bufState.tier.waits.contains { die := 15, engine := 1, obj := .buffer 0, dst := 2 } = false ∧
      bufState.moveDead { die := 15, engine := 1, obj := .buffer 0, dst := 3 } = false ∧
      ({ bufState with tier := { bufState.tier with frames := [(frameKey 0 3, [0])] } } : State).freeFrame 0 3 = none ∧
      bufState.stubs 15 1 < 512 ∧ bufState.running 15 1 < 4) ∧
    (mget (moving .copying).tier.moves 0 = some (move0 .copying) ∧ (move0 .copying).srcTier ≠ 3 ∧
      (move0 .copying).dstTier ≠ 3 ∧ (moving .copying).copyWaits (move0 .copying) = false) ∧
    (mget (moving .draining).tier.moves 0 = some (move0 .draining) ∧ (move0 .draining).waitPans ≠ [] ∧
      (move0 .draining []).waitPans = []) ∧
    mget (moving .redirect).tier.moves 0 = some (move0 .redirect) := by decide +kernel

def req0 : TierReq := { die := 0, pan := 0, space := 1, offset := 0, len := 64, issued := 0, dest := .buffer 0 }
def reqState (r : TierReq) : State := { zero with tier := { reqs := [(0, r)], nextReq := 1 } }
def pertOff : State := (reqState req0).setF R.TST_PERT1_PAN (lDie 0) 5
def fetch0 : PrefetchDecl := { cls := 0, die := 0, src := 0 }
def ladleState : State := withPan { pan0 with cfg := { panCfg with prefetch := [fetch0] } }

/-- LPDDR interface 0 is present with 16 GiB. -/
def lpdState : State := (zero.setF R.LPD_CFG_PRESENT (lpdLoc 0) 1).setF R.LPD_CFG_GIB (lpdLoc 0) 16

theorem wit_TierRows :
    (mget pertOff.tier.reqs 0 = some req0 ∧ req0.ended = false ∧
      pertOff.getF R.TST_PERT1_PAN (lDie req0.die) ≠ req0.pan) ∧
    mget (reqState { req0 with ended := true }).tier.reqs 0 = some { req0 with ended := true } ∧
    (mget (reqState req0).tier.reqs 0 = some req0 ∧ req0.dest = .buffer 0) ∧
    (msLegal .add .fp32 32 32 = true ∧ zero.mapped 1 32 32 = true ∧ msLegal .cas .int64 8 8 = true ∧
      lpdState.mapped 2 8 8 = true ∧ zero.tier.moves = [] ∧ lpdState.tier.moves = []) ∧
    ((ladleState.pan 0).st ≠ .free ∧ (ladleState.pan 0).ladleNextIssue = some (0, 0, fetch0)) := by decide +kernel

def quarBuf : State := { withPan panPool with tier := { buffers := [(0, { st := .quarantine })] } }
def flashState : State := { zero with tier := { flash := [(18, { raw := 1, blocks := [(0, { retries := 5 })] })] } }

theorem wit_BufferRows :
    ((withPan panPool).freeFrame 0 1 = some 0 ∧ (withPan panPool).freeFrame 0 3 = some 0 ∧
      (withPan panPool).freeBuf = some 0 ∧ (withPan pan0).freeFrame 0 2 = none) ∧
    (bufState.handleOk 0 (2 ^ 48) = true ∧ bufState.handleOk 0 (2 ^ 49) = false) ∧
    (quarBuf.buf 0).st = .quarantine ∧ (0 < (flashState.flash 18).raw ∧ flashState.flashDue 18 0 = true) := by
  decide +kernel

/-! ## Fabric -/

def portAt (n : Nat) (p : FPort := {}) : State :=
  { (zero.setF R.FAB_PSTAT_STATE (fabLoc 31) n) with fab := { ports := [(31, p)] } }
def train (lanes : Nat) : PortTraining :=
  { goodLanes := List.replicate lanes true, spareGood := false, peer := 0xFFFF, peerPort := 0, rtts := [] }
def pkt0 : Packet := { src := 3, type := 0x20, vc := 3, len := 4, payload := [1, 2, 3, 4], job := 1, space := 1 }

theorem wit_PortRows :
    ((portAt 1).portState 31 = PortRun.training ∧ (selectLanes (train 8).goodLanes (train 8).spareGood).1 ≠ 0 ∧
      (selectLanes (train 3).goodLanes (train 3).spareGood).1 = 0 ∧ (portAt 1).fab.noCredit = []) ∧
    ((portAt 2).linkUp 31 = true ∧ (portAt 3).portState 31 = PortRun.retrain) ∧
    (((portAt 4 { tx := [(0, pkt0)], unacked := 1 }).port 31).tx ≠ [] ∧
      (portAt 4 { tx := [(0, pkt0)], unacked := 1 }).portState 31 = PortRun.quarantine ∧
      ((portAt 4 { tx := [(0, pkt0)], unacked := 1 }).port 31).unacked ≠ 0) := by decide +kernel

theorem wit_LinkRows :
    ((portAt 2).portState 31 = PortRun.active ∧ frameCrcOk [] = false) ∧
    (frameCrcOk (packetBytes pkt0) = true ∧ (readPacket (packetBytes pkt0)).type ≠ 1 ∧
      (readPacket (packetBytes pkt0)).type ≠ 2 ∧ (readPacket (packetBytes pkt0)).seq < 2 ^ 24 ∧
      (readPacket (packetBytes pkt0)).seq = ((portAt 2).port 31).rxNext ∧
      packetWrong (readPacket (packetBytes pkt0)) true = none ∧ packetWrong (readPacket (packetBytes pkt0)) false = some 8) ∧
    (2 ^ 23 ≤ ((readPacket (packetBytes pkt0)).seq + 2 ^ 24 - ((portAt 2 { rxNext := 1 }).port 31).rxNext) % 2 ^ 24 ∧
      (let d := ((readPacket (packetBytes { pkt0 with seq := 2 ^ 23 - 1 })).seq + 2 ^ 24 - ((portAt 2).port 31).rxNext) % 2 ^ 24
       d ≠ 0 ∧ d < 2 ^ 23)) ∧
    (((portAt 2 { tx := [(5, pkt0)] }).port 31).tx.filter (fun x => (5 + 2 ^ 24 - x.1) % 2 ^ 24 ≥ 2 ^ 23) = [] ∧
      ((portAt 2 { tx := [(5, pkt0)] }).port 31).tx.length = 1 ∧ (portAt 2).fab.noCredit = [] ∧
      ((portAt 2 { tx := [(5, pkt0)] }).port 31).tx.findIdx (fun f => f.1 = 5) = 0) := by decide +kernel

/-- Job 1 runs and opens the first 4 KiB of HBM to the devices of its job. -/
def grantState : State := withJob { st := .running, decl := some { job := 1, grants := [(1, 0, 4096)] } }

/-- A packet of each request type. -/
def reqPkt (type vc len : Nat) : Packet :=
  { pkt0 with type := type, vc := vc, len := len, payload := if type = 0x10 then [] else List.replicate len 0 }

theorem wit_RequestRows :
    (∀ x ∈ [(0x10, 1, 64), (0x20, 5, 64), (0x22, 2, 64), (0x23, 2, 8), (0x2E, 2, 12), (0x40, 4, 12), (0x60, 6, 0),
        (0x30, 3, 0), (0x70, 7, 16)],
      (zero.takeIn (reqPkt x.1 x.2.1 x.2.2)).1 = 0 ∧ (reqPkt x.1 x.2.1 x.2.2).bcast = false ∧
        packetWrong (reqPkt x.1 x.2.1 x.2.2) true = none ∧
        ((zero.takeIn (reqPkt x.1 x.2.1 x.2.2)).2.bootCheck 0 (reqPkt x.1 x.2.1 x.2.2)).2 = true) ∧
    ((grantState.ordSt 3 1).next = 0 ∧ (grantState.ordSt 3 1).held = [] ∧ grantState.fab.fences = [] ∧
      grantState.rangeAccess (reqPkt 0x10 1 64) 64 = .granted ∧ grantState.rangeAccess (reqPkt 0x20 3 64) 64 = .granted ∧
      grantState.mapped 1 0 64 = true ∧ grantState.rings = [] ∧ (grantState.landingAt 1 (2 ^ 44)).isNone = true) := by decide +kernel

def outReq : OutReq := { pkt := { pkt0 with tagIdx := 16383, tagGen := 2 }, first := 0, last := 0, use := .other }
def waiting0 : State := { zero with fab := { reqs := [(16383, outReq)] } }
def rsp (type : Nat) : Packet := { src := 3, type := type, tagIdx := 16383, tagGen := 2 }

theorem wit_ResponseRows :
    (∀ t ∈ [0x11, 0x21, 0x24, 0x2F], (rsp t).bcast = false ∧ (waiting0.takeIn (rsp t)).1 = 0 ∧
      ((waiting0.takeIn (rsp t)).2.bootCheck 0 (rsp t)).2 = true ∧
      mget ((waiting0.takeIn (rsp t)).2.bootCheck 0 (rsp t)).1.fab.reqs 16383 = some outReq ∧
      outReq.pkt.tagGen = (rsp t).tagGen) ∧
    mget ((zero.takeIn (rsp 0x11)).2.bootCheck 0 (rsp 0x11)).1.fab.reqs 16383 = none := by decide +kernel

/-! ## Collectives and the whistle -/

def exchSt (c : ExchDecl) : StationDecl := { idx := 0, name := [], kind := 9, exch := some c }
def grp0 : GroupSt := { decl := { group := 0, devices := [0, 1], maps := [[0, 1]] }, job := 1, devices := [0, 1] }
def exchState (c : ExchDecl) : State :=
  { withPan (panOf [exchSt c] []) with col := { groups := [(0, grp0)] } }
def restoring : State := { exchState { op := 6, purpose := 3 } with
  hcx := { jobs := [(1, { st := .restoring })] }, ckp := { jobs := [(1, { adopting := true })] } }

theorem wit_ExchangeStarts :
    (∀ op ∈ [0, 1, 2, 3, 4, 5, 6],
      (exchState { op := op }).exchStation 0 0 op = some (exchSt { op := op }, { op := op }, grp0)) ∧
    ((exchState {}).engineBusy 0 0 = false ∧ onWhistle { op := 2, block := 32 } = true ∧
      onWhistle { op := 5, block := 64 } = false ∧ onWhistle { op := 5, block := 32, path := 2 } = true) ∧
    ((exchState { op := 6 }).mayIssue 0 0 (exchSt { op := 6 }) 0 0 = true ∧
      entryFree (exchState { op := 6 }) (exchSt { op := 6 }) = true) ∧
    ((exchState { op := 6 }).adoptionVote 0 0 = none ∧ restoring.adoptionVote 0 0 = some grp0) := by decide +kernel

def ringAt (n : Nat) : State :=
  (zero.setF R.LLP_RSTAT_STATE (lRing 0) n).setF R.LLP_RSTAT_MEMBERS (lRing 0) 64

theorem wit_RingStateRows :
    ((ringAt 0).onRing 0 = true ∧ (ringAt 1).ringState 0 = RingRun.training ∧ (ringAt 2).ringState 0 = RingRun.running ∧
      (ringAt RingRun.degraded).ringState 0 = RingRun.degraded ∧ (ringAt RingRun.fallback).ringState 0 = RingRun.fallback ∧
      zero.ringState 0 = RingRun.down ∧
      ((zero.setF R.LLP_ID_BRIDGE2 (lDie 18) 1).onRing 2 = true)) ∧
    (cellCrcOk [1] = false ∧ (ringAt 2).ringState 0 ≠ RingRun.down ∧ (ringAt 2).ringState 0 ≠ RingRun.fallback) ∧
    ((ringAt 2).isMaster 0 = true ∧ (ringAt 2).deadAt 0 63 = false ∧ 63 ≠ (ringAt 2).ringPos 0) ∧
    lowest (((ringAt 2).until (((ringAt 2).wring 0).lastFrame + 10000)).getF R.LLP_RSTAT_MEMBERS (lRing 0))
      (fun p => p ≠ (ringAt 2).getF R.LLP_RSTAT_MASTER (lRing 0) &&
        !((ringAt 2).until (((ringAt 2).wring 0).lastFrame + 10000)).deadAt 0 p) = some 1 := by decide +kernel

/-! ## World ports and time -/

/-- World 16,383 on port 7, whose link is up. -/
def sched0 : WorldSched := { sched := 0, job := 1, port := 7, obsClose := 10000 }
def worldOf (st : WorldRun) : World := { st := st, gen := 2, sched := sched0, job := 1 }
def worldState (w : World) : State :=
  { (zero.setF R.WPT_PSTAT_STATE (portLoc 7) 2) with wpt := { worlds := [(16383, w)] } }
def frame0 (type : Nat) : WpFrame := { type := type, world := 16383, wgen := 2 }
def obs0 : WpFrame := { frame0 2 with seq := 5, tick := 3, len := 64, body := List.replicate 64 1 }

theorem wit_WorldFrameRows :
    ((worldState (worldOf .running)).portUp 7 = true ∧
      (((worldState (worldOf .running)).until 0).bump R.WPT_PCNT_RX (portLoc 7)).badFrame 7 obs0 = false ∧
      ((worldState (worldOf .running)).world 16383).st ≠ .detached ∧
      ((worldState (worldOf .running)).world 16383).sched.port = 7 ∧
      ((worldState (worldOf .running)).world 16383).gen = obs0.wgen ∧ (zero.world 16383).st = .detached) ∧
    (∀ t ∈ [1, 5, 7], (worldState (worldOf .running)).badFrame 7 (frame0 t) = false) ∧
    (((worldState (worldOf .running)).world 16383).ticking = true ∧
      ((worldState (worldOf .stopped)).world 16383).st = .stopped ∧ { frame0 1 with version := 2 }.version ≠ 1) := by
  decide +kernel

theorem wit_ObservationAdmitted :
    (worldState (worldOf .running)).portUp 7 = true ∧ obs0.type = 2 ∧ obs0.version = 1 ∧ obs0.frag = 0 ∧
    obs0.lastFrag = true ∧ obs0.len = obs0.body.length ∧
    obs0.len = ((worldState (worldOf .running)).world 16383).sched.obsBytes ∧
    ((worldState (worldOf .running)).world 16383).st ≠ .detached ∧
    ((worldState (worldOf .running)).world 16383).st ≠ .stopped ∧
    ((worldState (worldOf .running)).world 16383).gen = obs0.wgen ∧
    ((worldState (worldOf .running)).world 16383).parts = [] ∧
    ((worldState (worldOf .running)).world 16383).good = none ∧
    ((worldState (worldOf .running)).world 16383).inWindow
      (((worldState (worldOf .running)).world 16383).fullTick 150000 3) 150000 = true := by decide +kernel

def part0 : ObsPart := { seq := 0, tick := 3, aux := 0, ref := 0, frags := [] }
def missed0 : Latched := { tick := 1, type := 3, data := [], fallback := true, sent := true }
def latched0 : Latched := { tick := 1, type := 3, data := [], ramp := true, sent := true }

theorem wit_WorldTimerRows :
    ((∀ p ∈ (zero.world 16383).parts, p.tick ≠ 3) ∧
      ((worldState { worldOf .running with parts := [part0] }).world 16383).parts = [part0]) ∧
    ((worldState (worldOf .attaching)).world 16383).st = .attaching ∧
    { worldOf .running with latched := [missed0] }.lastMissed = true ∧
    ((worldState { worldOf .running with consec := 65535, silence := 65535 }).wptLimit
      (worldOf .running) R.WPT_LIMIT_MISSLIM ≤ 65535 ∧
      (worldState (worldOf .holding)).wptLimit (worldOf .holding) R.WPT_LIMIT_HOLDLIM ≤ 65535 ∧
      (worldState (worldOf .holding)).wptLimit (worldOf .holding) R.WPT_LIMIT_SILENCE ≤ 65535) ∧
    (((worldState { worldOf .spindown with rampTick := 1, latched := [latched0] }).world 16383).sched.ramp ≤ 1 ∧
      latched0.type ≠ 5 ∧ latched0.ramp = true ∧ latched0.sent = true) ∧
    (((worldState { worldOf .detached with quarAt := 9 }).world 16383).st = .detached ∧
      ((worldState { worldOf .detached with quarAt := 9 }).world 16383).quarAt ≠ 0) ∧
    zero.unitOut (portDie 7) 0x18 (7 % 4) = false := by decide +kernel

def good0 : ObsGood := { seq := 5, tick := 3, aux := 0, reward := 0, data := [] }
def portSt : StationDecl := { idx := 0, name := [], kind := 1, inputs := [0] }
/-- World 16,383 gives pan 0 its row, whose action waits at the PORT station. -/
def rowWorld : State :=
  { worldState { worldOf .running with given := some good0, row := true } with
    sch := (withRow { panOf [portSt] [stream0] with rowWorlds := [0] }).sch }

theorem wit_WorldSendRows :
    (((worldState (worldOf .running)).world 16383).ticking = true ∧
      ((worldState (worldOf .running)).world 16383).firstTick ≤ 7 ∧ (worldOf .running).st ≠ .spindown ∧
      ((worldState (worldOf .running)).world 16383).latchedFor 7 = none) ∧
    (worldState (worldOf .running)).sendersAt 7 10000 = [(16383, 0)] ∧
    ((rowWorld.world 16383).given = some good0 ∧ (rowWorld.world 16383).pan = 0 ∧ (rowWorld.world 16383).row = true ∧
      (rowWorld.world 16383).st ≠ .detached ∧
      rowWorld.portRow 0 (rowWorld.world 16383).inPan = some (portSt, stream0, row0) ∧ (rowWorld.pan 0).master = 0 ∧
      entryFree (rowWorld.until 9) portSt = true ∧ rowWorld.mayIssue 0 0 portSt row0.hdr.mb row0.hdr.slice = true) ∧
    (rowWorld.verdictCode (rowWorld.world 16383) 9 10 0 false = 0 ∧
      rowWorld.verdictCode (rowWorld.world 16383) 10 10 0 false = 1) := by decide +kernel

def locked0 : State := zero.setF R.WPT_TSYNC_LOCKED (lDie 17) 1
theorem wit_TimeRows :
    zero.getB R.WPT_TSYNC_GM (lDie 17) = false ∧ (zero.setF R.CLK_TSRC_SRC lKeep 0).getF R.CLK_TSRC_SRC lKeep ≠ 1 ∧
    (zero.setF R.CLK_TSRC_SRC lKeep 1).getF R.CLK_TSRC_SRC lKeep = 1 ∧ locked0.getB R.WPT_TSYNC_LOCKED (lDie 17) = true ∧
    (zero.setF R.CLK_TSRC_SRC lKeep 2).getF R.CLK_TSRC_SRC lKeep = 2 ∧
    (zero.setF R.CLK_TSRC_MASTER lKeep 9).getF R.CLK_TSRC_MASTER lKeep = 9 ∧ 9 ≠ zero.device ∧
    (zero.setF R.CLK_TSRC_MASTER lKeep zero.device).getF R.CLK_TSRC_MASTER lKeep = zero.device := by decide +kernel

/-! ## Host interface, jobs, tests -/

/-- Pair 63 with four entries, one submitted. -/
def pairState : State :=
  { ((zero.setF R.HCX_QCFG_ENABLE (pairLoc 63) 1).setF R.HCX_QCFG_LOG2DEPTH (pairLoc 63) 4) with
    hcx := { queues := [(63, { sqTail := 1 })] }, clk := { ready := true } }

theorem wit_QueueRows :
    (pairState.roomNow [17] (4, 63) = true ∧ 3 < pairState.qDepth 63 ∧ pairState.qDepth 63 ≤ 65536 ∧ pairState.nextPair = some 63 ∧ pairState.auditRoom 17 = true ∧
      pairState.stewardUp = true ∧ bit (fieldAt [(0 : Byte), 1] 1 1) 0 = true ∧ bit (fieldAt [(0 : Byte), 0] 1 1) 0 = false ∧
      pairState.getF R.HCX_QSTAT_INFLIGHT (pairLoc 63) = 0 ∧
      (pairState.setF R.HCX_QSTAT_INFLIGHT (pairLoc 63) 1).getF R.HCX_QSTAT_INFLIGHT (pairLoc 63) ≠ 0) ∧
    ((withCmd 4 []).cmdOf ref0 = some (cmd 4 []) ∧ (cmd 4 []).begun = false) := by decide +kernel

/-- A header with one empty section of kind 1. -/
def head0 (scope : Nat) : List Byte :=
  let b := fitTo 64 (toLe 4 0x31495744 ++ toLe 2 1 ++ toLe 1 scope ++ toLe 1 1 ++ toLe 8 768 ++ toLe 2 0xB1) ++
    fitTo 24 (toLe 1 1) ++ sha256 []
  let b := fitTo 0x2FC b
  b ++ toLe 4 (crc32 b).toNat
def image0 (c : Content) (scope : Nat) : Image := { header := head0 scope, sections := [[]], content := c }
def onePan : Content := { pans := [panCfg] }
/-- BITSTREAM_LOAD of 768 bytes. -/
def loadCmd (pan flags : Nat) : List Byte := toLe 8 0 ++ toLe 8 768 ++ toLe 1 pan ++ toLe 1 flags
def loadState (pan flags : Nat) (j : JobRun) (p : Pan) : State :=
  withCmd 1 (loadCmd pan flags) (withJob { st := j } { sch := { pans := [(0, p)] } })

theorem wit_LoadRows_whole :
    (cmd 1 (loadCmd 0xFF 0)).loadPan = 0xFF ∧ goes (loadState 0xFF 0 .none {}) (cmd 1 (loadCmd 0xFF 0)) = true ∧
    (loadState 0xFF 0 .none {}).wholeFail (image0 {} 0) 768 = none ∧
    (loadState 0xFF 0 .none {}).wholeFail { image0 {} 0 with header := [] } 768 = some { reason := 1, kind := 0, off := 0 } ∧
    (loadState 0xFF 0 .none {}).underTest (imageContent (image0 {} 0)).1.pans = false := by decide +kernel

theorem wit_LoadRows_pan :
    goes (loadState 0 0 .created {}) (cmd 1 (loadCmd 0 0)) = true ∧ (cmd 1 (loadCmd 0 0)).loadPan ≠ 0xFF ∧ (cmd 1 (loadCmd 0 0)).resizes = false ∧
    (loadState 0 0 .created {}).perPanFail (image0 onePan 1) 768 0 1 = none ∧
    (loadState 0 0 .running {}).perPanFail (image0 onePan 1) 768 0 1 = some { reason := 4, kind := 0, off := 0 } ∧
    (loadState 0 0 .created {}).underTest (imageContent (image0 onePan 1)).1.pans = false := by decide +kernel

theorem wit_LoadRows_resize :
    goes (loadState 0 1 .running pan0) (cmd 1 (loadCmd 0 1)) = true ∧ (cmd 1 (loadCmd 0 1)).resizes = true ∧ ((loadState 0 1 .running pan0).pan 0).resize = none ∧
    (loadState 0 1 .running pan0).resizeFail (image0 onePan 1) 768 0 1 = none ∧
    (loadState 0 1 .running {}).resizeFail (image0 onePan 1) 768 0 1 = some { reason := 4, kind := 0, off := 0 } := by
  decide +kernel

/-- IMAGE_LOAD for weight set 0, with and without a BASE copy. -/
def imgCmd (base : Nat) : List Byte := toLe 8 0 ++ toLe 8 512 ++ toLe 1 0 ++ toLe 1 base ++ toLe 8 0
def imgState (job base : Nat) : State :=
  { withCmd 2 (imgCmd base) with epc := { sets := [(0, { ws0 with job := job })] } }
def keyCmd (kind : Nat) : List Byte := toLe 8 0 ++ toLe 4 97 ++ toLe 1 kind

theorem wit_LoadRows_images :
    (goes (imgState 1 0xFF) (cmd 2 (imgCmd 0xFF)) = true ∧ goes (imgState 1 3) (cmd 2 (imgCmd 3)) = true ∧ (imgState 1 0xFF).epc.img = none ∧
      fieldAt (imgCmd 0xFF) 16 1 = 0 ∧ fieldAt (imgCmd 0xFF) 17 1 = 0xFF ∧ fieldAt (imgCmd 3) 17 1 = 3 ∧
      (imgState 2 0xFF).wset 0 = some { ws0 with job := 2 }) ∧
    (goes (withCmd 3 (keyCmd 3)) (cmd 3 (keyCmd 3)) = true ∧ fieldAt (keyCmd 3) 12 1 = 3 ∧
      (withCmd 3 (keyCmd 3)).blobKey 3 [] = none ∧
      ((withCmd 3 (keyCmd 3)).blobKey 3 (List.replicate 97 1)).isSome = true ∧
      (withCmd 3 (keyCmd 3)).freeKey.isSome = true) ∧
    goes (withCmd 0x15 [3, 0, 0, 0]) (cmd 0x15 [3, 0, 0, 0]) = true := by decide +kernel

/-- 256 jobs, each of which counts. -/
def allJobs : State := { zero with hcx := { jobs := (List.range 256).map (fun i => (i, { st := .created })) } }

theorem wit_JobRows :
    ([4, 5, 6, 7, 0x11].all (fun n => goes (withCmd n []) (cmd n [])) = true ∧ allJobs.freeJob = none ∧ (withCmd 4 []).freeJob = some 0 ∧
      ((withCmd 4 []).setF R.HCX_CLIENT_MAXJOBS (lKeepI 0) 0).getF R.HCX_CLIENT_MAXJOBS (lKeepI 0) ≤
        (withCmd 4 []).clientJobs 0 ∧
      (withCmd 4 []).clientJobs 0 < ((withCmd 4 []).setF R.HCX_CLIENT_MAXJOBS (lKeepI 0) 1).getF R.HCX_CLIENT_MAXJOBS
        (lKeepI 0)) ∧
    (((withJob { st := .stepHold } (withPan { pan0 with st := .fenced })).job 1).st = .stepHold ∧
      (withJob { st := .stepHold } (withPan { pan0 with st := .fenced })).jobPans 1 = [0] ∧
      ((withJob { st := .stepHold } (withPan { pan0 with st := .fenced })).pan 0).st = .fenced) ∧
    (((withJob { st := .running }).job 1).st = .running ∧ ((withJob { st := .running }).job 1).counts = true ∧
      ((withJob { st := .running }).job 1).destroyCmd = none ∧ (zero.job 1).counts = false ∧
      (∀ p ∈ (zero.jobPans 1), (zero.pan p).st ≠ .quiescing)) ∧
    (((withJob { quarAt := 5 }).job 1).counts = false ∧ ((withJob { quarAt := 5 }).job 1).quarAt ≠ 0 ∧
      ((withPan { quarAt := 5 }).pan 0).st = .free ∧ ((withPan { quarAt := 5 }).pan 0).quarAt ≠ 0) ∧
    ((page0.seq 0).live = true ∧ (page0.seq 0).gen = fieldAt (toLe 2 0 ++ toLe 4 3) 2 4 ∧
      (page0.pan (page0.seq 0).pan).job = 1 ∧ (page0.seq 0).gen ≠ fieldAt (toLe 2 0 ++ toLe 4 4) 2 4) := by
  decide +kernel

/-- Names of world 16,383, generation 2, and of epoch 1 of weight set 0. -/
def worldName : List Byte := toLe 2 16383 ++ toLe 4 2
def epochName (e : Nat) : List Byte := toLe 1 0 ++ toLe 4 e

theorem wit_WorldAndEpochCommands :
    [8, 9, 0xA, 0xB, 0xC, 0xD].all (fun n => goes (withCmd n []) (cmd n [])) = true ∧
    (mget { withCmd 8 [] with wpt := { scheds := [(65536, sched0)] } }.wpt.scheds (1 * 65536 + 0) = some sched0 ∧
      mget (withCmd 8 []).wpt.scheds 65536 = none ∧ ((withPan pan0).pan 0).st ≠ .free ∧ ((withPan pan0).pan 0).job = 1 ∧
      sched0.live = false) ∧
    ((worldState (worldOf .running)).namedWorld (cmd 9 worldName) = some (worldOf .running) ∧
      (worldState (worldOf .stopped)).namedWorld (cmd 9 worldName) = some (worldOf .stopped) ∧
      zero.namedWorld (cmd 9 worldName) = none) ∧
    ((withPan (panOf [{ pub0 with onCommand := true }] [])).commandedPan 1 0 = some 0 ∧
      fieldAt (epochName 1) 1 4 = 1 ∧ 1 < (wsDraft .draft).next ∧ (wsDraft .draft).next ≤ 2 ∧
      (wsDraft .confirmed).stateOf 1 = .confirmed ∧ leNat (hdrPart (epochName 1) 15 8) = 0 ∧
      ({ wsDraft .confirmed with slot0 := 1 }).slotOf 1 = some 0 ∧ zero.getB R.EPC_POLICY_ENCRYPT lKeep = false) := by
  decide +kernel

theorem wit_ReportRows :
    goes (withCmd 0x12 []) (cmd 0x12 []) = true ∧ goes (withCmd 0x13 []) (cmd 0x13 []) = true ∧ (withCmd 0x13 []).oldestSeq ≤ fieldAt [] 16 8 := by decide +kernel

/-- BIST_RUN of the array of brick 127 of CD15, of a unit that is absent, and a test that runs there. -/
def bistArg (code : Nat) (array : Bool) : List Byte := toLe 4 (code + 15 * 256 + b2n array * 2 ^ 24)
def bist0 : Bist := { cmd := ref0, block := 0xFF, unit := 0, arrayOnly := true }
def testing : State := { zero with obsv := { bists := [(15, bist0)] } }
def holdDepth (n : Nat) : State := testing.setF R.TST_HOLD_DEPTH (lDie 15) n

theorem wit_TestRows :
    (goes (withCmd 0x14 (bistArg 0xFF true)) (cmd 0x14 (bistArg 0xFF true)) = true ∧ zero.bistOk 15 0xFF 0 true = true ∧ bits (fieldAt (bistArg 0xFF true) 0 4) 12 8 = 15 ∧ zero.bistOk 15 0x10 0 false = false ∧
      mget zero.obsv.bists 15 = none) ∧
    (mget testing.obsv.bists 15 = some bist0 ∧ bist0.waiting = false ∧ testing.fencedDie 15 = true) ∧
    ((mgetD (holdDepth 1).obsv.held 15 []).length < (holdDepth 1).getF R.TST_HOLD_DEPTH (lDie 15) ∧
      (holdDepth 0).getF R.TST_HOLD_DEPTH (lDie 15) ≤ (mgetD (holdDepth 0).obsv.held 15 []).length ∧
      (zero.fencedDie 15 = false)) ∧
    ((∀ d, d < 20 → zero.getB R.TST_MODE_ENABLE (lDie d) = true) ∧ (zero.setF R.TST_MODE_ENABLE (lDie 19) 0).getB R.TST_MODE_ENABLE (lDie 19) = false ∧
      (zero.setF R.PERF_TRCTL_RUN (lDie 19) 1).getB R.PERF_TRCTL_RUN (lDie 19) = true ∧
      zero.getB R.PERF_TRCTL_RUN (lDie 19) = false) := by decide +kernel

/-- The measured signature can be the expected one, and can be another. -/
theorem wit_TestRows_signature (block unit : Nat) :
    (∃ m : U64, m = Config.signature block unit) ∧ (∃ m : U64, m ≠ Config.signature block unit) :=
  ⟨⟨_, rfl⟩, ⟨Config.signature block unit + 1, fun h => by
    have : (1 : U64) = 0 := by simp at h
    exact absurd this (by decide)⟩⟩

/-! ## Checkpoints -/

def cutBarrier : StationDecl := exchSt { op := 6, purpose := 1 }
/-- Job 1 with two devices, this one (0) at rank 0, the cut barrier in pan 0, a shard of pan 0's worlds and one held rank. -/
def ckpDecl : JobDecl :=
  { job := 1, anchor := some 0, shards := [{ kind := 7, index := 0 }], cutBufMib := 1, heldRanks := [1], buddyRank := 0 }
def cut0 : Cut := { step := 9, unacked := [0], entries := [{ kind := 7, index := 0, bytes := 0, digest := [5] }] }
def ckpState (st : JobRun) (k : Ckp) (c : Cmd := cmd 0 []) : State :=
  { withPan (panOf [cutBarrier] []) with
    hcx := { waiting := [c], jobs := [(1, { st := st, decl := some ckpDecl })] }
    col := { groups := [(0, grp0)] }, ckp := { jobs := [(1, k)] } }

theorem wit_CheckpointCommands :
    ((ckpState .running {}).anchored 1 = true ∧ zero.anchored 1 = false ∧ (ckpState .running {}).cutsOn 1 = false ∧
      fieldAt [(1 : Byte)] 0 1 = 1 ∧ [0, 1, 2].all (fun n => goes (ckpState .running {} (cmd 0xE [n])) (cmd 0xE [n])) = true) ∧
    (((ckpState .running { whole := some cut0 }).ckpJob 1).source (2 ^ 64 - 1) true false = some cut0 ∧
      ((ckpState .running {}).ckpJob 1).source (2 ^ 64 - 1) true false = none ∧
      ((ckpState .faulted { durable := [cut0] }).ckpJob 1).source 9 true true = some cut0 ∧
      (ckpState .faulted { durable := [cut0] }).canPlace cut0.config = true ∧
      (ckpState .faulted { durable := [cut0] }).underTest cut0.config.pans = false ∧
      ((ckpState .running {}).job 1).destroyCmd = none ∧
      goes (ckpState .running {} (cmd 0xF [])) (cmd 0xF []) = true ∧ ((ckpState .created {}).job 1).st = .created) ∧
    ((({ zero with clk := { ready := true } } : State).setF R.CKP_CFG_SPARE lKeep 1).isSpare = true ∧
      zero.isSpare = false ∧ zero.ckp.adopting = none ∧ zero.auditRoom 16 = true) := by decide +kernel

theorem wit_CutRows_writes :
    (((ckpState .running { cut := some cut0 }).ckpJob 1).cut = some cut0 ∧ cut0.unacked.contains 0 = true ∧
      (ckpState .running {}).shardKind 1 0 ≠ 2 ∧ (ckpState .running {}).shardKind 1 0 ≠ 9 ∧
      ((ckpState .running { cut := some cut0 }).ckpJob 1).prot.contains (0, 0) = false ∧
      (ckpState .running { cut := some cut0 }).bufferUsed 1 + 65536 ≤
        ((ckpState .running {}).jobDecl 1).cutBufMib * 2 ^ 20 ∧
      ((ckpState .running {}).jobDecl 1).cutBufMib * 2 ^ 20 <
        (ckpState .running { cut := some cut0, prot := (List.range 16).map (fun i => (0, i + 1)) }).bufferUsed 1 + 65536) ∧
    (((ckpState .running {}).jobDecl 1).shards[0]? = some { kind := 7, index := 0 } ∧
      (cut0.entryOf { kind := 7, index := 0 }).map (·.digest) = some [5] ∧
      mgetD ((ckpState .running { mismatches := [(0, 2)] }).ckpJob 1).mismatches 0 0 = 2 ∧
      (cut0.entryOf { kind := 7, index := 0 }).map (·.digest) ≠ some []) ∧
    (((ckpState .running { durableBusy := some cut0 }).ckpJob 1).durableBusy = some cut0 ∧
      ((ckpState .running { durableBusy := some cut0 }).ckpJob 1).durableRun = [] ∧
      (ckpState .running { durableBusy := some cut0 }).flashClosed = false ∧
      ((zero.setF R.NVT_SPACE_READONLY (lDie 18) 1).setF R.NVT_SPACE_READONLY (lDie 19) 1).flashClosed = true) := by decide +kernel

/-- The spare is device 7. -/
def spares (s : State) : State := { s with fab := { s.fab with spares := [7] } }
def barrierOn : State := { ckpState .running {} with
  col := { groups := [(0, grp0)], ops := [{ level := 0, wgroup := 0, opnum := 0, group := 0, job := 1, pan := 0, station := 0, type := 3, opc := 0, purpose := 1 }] } }

theorem wit_CutRows_adoption :
    ((ckpState .running {}).roster 1 = [0, 1] ∧ 1 ≠ (ckpState .running {}).device ∧
      barrierOn.col.ops.any (fun o => decide (o.job = 1 ∧ o.purpose = 1)) = true) ∧
    ((spares (ckpState .running {})).fab.spares.contains 7 = true ∧
      (spares (ckpState .running {})).hcx.jobs.any (fun j => j.2.counts &&
        decide (((spares (ckpState .running {})).roster j.1)[1]? = some 1) &&
        ((spares (ckpState .running {})).jobDecl j.1).heldRanks.contains 1) = true) ∧
    (((ckpState .running {}).job 1).st = .running ∧
      ((ckpState .running {}).roster 1)[((ckpState .running {}).jobDecl 1).buddyRank]? ≠ some 1 ∧
      ((ckpState .running {}).roster 1)[1]? = some 1 ∧ (ckpState .running {}).roomNow [16] (3, 1) = true ∧
      (((ckpState .running { whole := some cut0 }).replaceDevice [] 1 1 7).ckpJob 1).whole = some cut0 ∧
      (((ckpState .running {}).replaceDevice [] 1 1 7).ckpJob 1).whole = none) ∧
    ((ckpState .restoring { adopting := true }).roomNow [16] (3, 1) = true ∧
      ((ckpState .restoring { adopting := true }).job 1).st = .restoring ∧
      ((ckpState .restoring { adopting := true }).ckpJob 1).adopting = true ∧
      1 < ((ckpState .restoring { adopting := true }).roster 1).length) := by decide +kernel

/-! ## Lease, reset, power -/

def leaseAt (r : LeaseRun) (wit : Nat) : State := { zero with clk := { role1 := r, ready := true, witTerm := wit } }

theorem wit_LeaseRows :
    ((leaseAt .keeper 0).role 1 = .keeper ∧ (leaseAt .claiming 0).role 1 = .claiming ∧
      (leaseAt .follower 0).role 1 = .follower ∧ (leaseAt .follower 0).stewardUp = true ∧
      (leaseAt .follower 0).clk.off.contains 17 = false) ∧
    ((leaseAt .claiming 0).clk.witTerm = (leaseAt .claiming 0).term 1 ∧
      (leaseAt .claiming 7).clk.witTerm ≠ (leaseAt .claiming 7).term 1 ∧
      0 < ((leaseAt .keeper 0).setF R.AON_LEASE_TERM (lDie 17) 5).term 1 ∧ (leaseAt .keeper 0).term 1 < 5 ∧
      (leaseAt .keeper 0).clk.witTerm ≤ (leaseAt .keeper 0).term 1 ∧
      (leaseAt .keeper 7).term 1 < (leaseAt .keeper 7).clk.witTerm ∧
      ({ leaseAt .follower 0 with clk := { (leaseAt .follower 0).clk with seen1 := some 0 } } : State).clk.seen1 = some 0 ∧
      (leaseAt .follower 0).clk.lastRenew1 = 0) ∧
    zero.clk.hd0Lost = false := by decide +kernel

theorem wit_ResetRows :
    (({ zero with clk := { bootStep := 6 } } : State).clk.ready = false ∧
      ({ zero with clk := { bootStep := 6 } } : State).clk.bootStep ≠ 0) ∧
    ({ vin48 := false } : BootIn).vin48 = false ∧ zero.clk.vsb33 = true ∧
    ({ zero with clk := { vsb33 := false } } : State).clk.vsb33 = false ∧
    ({ zero with clk := { bootWait := 1 } } : State).clk.bootWait = 1 ∧ zero.clk.bootWait ≠ 1 := by decide +kernel

theorem wit_PowerRows :
    ((zero.setF R.CLK_CAP_MEASURED lKeep 16383).getF R.CLK_CAP_WATTS lKeep < 16383 ∧
      0 * 100 < (zero.setF R.CLK_CAP_MEASURED lKeep 0).getF R.CLK_CAP_WATTS lKeep * 95 ∧ zero.clk.lowUs < 900 ∧
      900 ≤ ({ zero with clk := { lowUs := 900 } } : State).clk.lowUs ∧
      (zero.getF R.CLK_CAP_WATTS lKeep) * 95 ≤ zero.getF R.CLK_CAP_WATTS lKeep * 100) ∧
    (zero.clk.hot.contains 19 = false ∧ (0 : Int) ≤ (zero.getF R.CLK_THERM_WARN lKeep * 16 : Nat)) := by decide +kernel

/-! ## Invariants and frames -/

theorem wit_StepIdles : zero.pending = [] ∧ zero.clk.slew = 0 := by decide +kernel

/-- Whether a command ends in a next state. -/
def goesOn (i : Instr) (s : State) : Bool :=
  match exec i s with
  | .next _ => true
  | _ => false

/-- A state whose memory lists a byte. -/
def stored : State := zero.wrBrick 0 0 0 [7]

theorem wit_MemSoundKept :
    MemSound stored ∧ stored.mem = [(0, 7)] ∧
    (match step { stored with pending := [.vin48Fault 60001 0] } with
      | .next t => t.mem.isEmpty
      | _ => false) = true := by
  refine ⟨?_, ?_, ?_⟩
  · unfold MemSound
    decide +kernel
  · decide +kernel
  · decide +kernel

/-- The last world goes on, the first one beyond it is no command of the device. -/
theorem wit_StopsOnlyOutside :
    (Instr.helloTimer 16383).wf = true ∧ goesOn (.helloTimer 16383) zero = true ∧ (Instr.helloTimer 16384).wf = false ∧
    (Instr.traceSample 19).wf = true ∧ goesOn (.traceSample 19) zero = true ∧ (Instr.traceSample 20).wf = false := by
  decide +kernel

theorem wit_QueueKept :
    ∃ t, exec (.perstRelease 1) { zero with pending := [.perstRelease 0] } = .next t ∧ t.pending = [.perstRelease 0] :=
  ⟨_, rfl, rfl⟩

theorem wit_LeaseStaysExclusive :
    LeaseSound (leaseAt .claiming 0) ∧ (leaseAt .claiming 0).clk.witTerm + 2 < 2 ^ 32 ∧
    goesOn (.renew 1) (leaseAt .claiming 0) = true ∧ goesOn (.renewReceive 1 5) (leaseAt .keeper 0) = true ∧
    goesOn (.leaseTimeout 1 true) (leaseAt .follower 0) = true ∧ goesOn (.witnessCas [1, 0]) (leaseAt .claiming 0) = true ∧
    goesOn (.stewardWatchdog 1) (leaseAt .keeper 0) = true := by
  refine ⟨⟨?_, ?_, ?_⟩, ?_, ?_, ?_, ?_, ?_, ?_⟩ <;> decide +kernel

/-- Five experts over two devices. -/
def expertJob : State := withJob { st := .running, decl := some { job := 1, cut := { experts := 5, expertDevices := 2 } } }

theorem wit_ExpertsPlaced :
    mget expertJob.sch.place (placeKey 1 0) = none ∧ 0 < (expertJob.jobDecl 1).cut.expertDevices ∧
    4 < (expertJob.jobDecl 1).cut.experts ∧
    ((List.range 5).filter (fun e => (expertJob.replicas 1 0 e).1.contains 0)).length = 3 ∧
    ((List.range 5).filter (fun e => (expertJob.replicas 1 0 e).1.contains 1)).length = 2 := by decide +kernel

def adoptArg : List Byte := toLe 1 255 ++ toLe 2 65535 ++ toLe 2 65535
theorem wit_SpareState :
    (withCmd 0x10 adoptArg).cmdOf ref0 = some (cmd 0x10 adoptArg) ∧ (withCmd 0x10 adoptArg).auditRoom 16 = true ∧
    (withCmd 0x10 adoptArg).ckp.adopting = none ∧
    (cmd 0x10 adoptArg).params.take 5 = toLe 1 255 ++ toLe 2 65535 ++ toLe 2 65535 ∧
    (withCmd 0x10 adoptArg).isSpare = false ∧
    (({ withCmd 0x10 adoptArg with clk := { ready := true } } : State).setF R.CKP_CFG_SPARE lKeep 1).isSpare = true := by
  decide +kernel

/-- The bounds of SramOffsets at their ends. -/
theorem wit_SramOffsets :
    sramHome (sramAddr 15 127 0x5FFFFF) = some (sramAddr 15 127 0x5FFFFF) ∧ sramHome (sramAddr 15 127 0x600000) = none ∧
    localBase 511 + 0x1FFF = 0x5FFFFF := by decide +kernel

/-- One command of each part goes on at reset. -/
theorem wit_FramesByPart :
    (Part.onWorldPort (.helloTimer 0) = true ∧ goesOn (.helloTimer 0) zero = true) ∧
    (Part.onTimeAndPower .ppsPulse = true ∧ Part.sends .ppsPulse = false ∧ goesOn .ppsPulse zero = true) ∧
    (Part.onQueues .findTimeout = true ∧ Part.sends .findTimeout = false ∧ Part.copies .findTimeout = false ∧ goesOn .findTimeout zero = true) ∧
    (Part.onLinks (.portRetrain 31) = true ∧ goesOn (.portRetrain 31) zero = true) := by decide +kernel

theorem wit_FramesOfUnits :
    (Part.onRegisters (.aonYield core0 0 1) = true ∧ goesOn (.aonYield core0 0 1) zero = true) ∧
    (Part.onArrays (.swap 0 0 0) = true ∧ Part.sends (.swap 0 0 0) = false ∧ goesOn (.swap 0 0 0) zero = true) ∧
    (Part.onTiers (.seqQuarantineExpiry 0) = true ∧ goesOn (.seqQuarantineExpiry 0) zero = true) ∧
    (Part.onEpochs (.stagingEviction 0 0) = true ∧ Part.endsEpochs (.stagingEviction 0 0) = false ∧ goesOn (.stagingEviction 0 0) (ringState ring0) = true) := by
  decide +kernel

/-- Lease commands reach registers of the AON block, and no key of another block is one of them. -/
theorem wit_LeaseRegisters :
    goesOn (.leaseTimeout 1 true) (leaseAt .follower 0) = true ∧ csrBlock (R.DIE_OP_OP.key (lDie 16)) ≠ 0x40 ∧
    csrBlock (R.DIE_OP_OP.key (lDie 16)) ≠ 0x58 ∧ csrBlock (R.AON_LEASE_TERM.key (lDie 17)) = 0x40 := by decide +kernel

/-! ## Ill-formed commands -/

/-- An operand out of its range in each kind of check. -/
def illFormed0 : List Instr :=
  [.ecall 16 0 0, .ecall 0 128 0, .ecall 0 0 512, .slRld 0 0 0 32 0 0 1 0, .slRst 0 0 0 0 32 0 1 0,
   .slPop 0 0 0 0 0 32 1 0, .slDraw 0 0 0 0 0 0 1 3,
   .slRred 0 0 0 0 0 0 128 1 0, .slFma2 0 0 0 0 0 0 32 0 1 0, .slBfma4 0 0 0 0 0 0 0 8 1 0, .brkDbgResume (.bar0 2) 0 0 0,
   .brkFaultClear (.queue 64) 0 0 0, .mxaErrClear (.hostCore 2 0) 0 0 0, .mxaErrClear (.hostCore 0 32) 0 0 0,
   .mxaErrClear (.fabric 65536) 0 0 0, .rowAccept 0 0 3 false 0 0,
   .rowAccept 0 0 0 false 256 0, .mxaFlagsClear .internal 0 0 2 0 0]

/-- The same, on the scheduler, tiers and fabric. -/
def illFormed1 : List Instr :=
  [.tileOpIssue 16 0 0 0 0 0 .observe, .tileOpIssue 0 256 0 0 0 0 .observe, .tileOpIssue 0 0 65536 0 0 0 .observe,
   .tileOpIssue 0 0 0 65536 0 0 .observe, .tileOpRetire (2 ^ 32) 0, .d2dRetrainDone 0 4 0, .seqOpen 0 (some 16384) 1 1 16 1 0 1 0,
   .seqQuarantineExpiry 65536, .walk 0 8 0 0 0 0, .spill 0 3, .publishChecks 256 [], .stagingEviction 64 0,
   .moveStart 0 2 (.buffer 0) 1, .moveStart 0 0 (.buffer 0) 4, .memorySideOp 16 0 .add .fp32 [] [], .bufferAllocate 0 0 1 true,
   .flashRelocate 17 0, .fabPctlEnable .internal 18 16 0, .portRetrain 32]

/-- The same, on links, rings, worlds and queues. -/
def illFormed2 : List Instr :=
  [.ack 0 (2 ^ 24) 0, .nak 0 0 0 16384 0, .requestResend 16384, .read { device := 65536 }, .write { space := 16 },
   .msop { offset := 2 ^ 44 }, .atomic { src := 65536 }, .fence { type := 256 }, .epoch { vc := 8 },
   .telem { payload := List.replicate 2049 0 }, .frameStart 3, .cellReceive 0 0 [] 0, .whistleDeadTimeout 0 64,
   .obs 8 0 {}, .hello 0 0 { world := 16384 }, .partnerStop 0 0 { type := 16 }, .helloTimer 16384, .gptpSync 2 0,
   .submissionDoorbell 64 0, .commandTake 0 [] true, .jobStop { pair := 64, cid := 0 }, .jobStop { pair := 0, cid := 65536 },
   .imageLoad ref0 []]

/-- The same, on host commands, clocks and registers. -/
def illFormed3 : List Instr :=
  [.indexQuarantineExpiry true 256, .bistComplete 20 0, .fencedRequest 0 0 (some { pair := 64, cid := 0 }),
   .durableWrite 256, .renew 2, .witnessCas [0, 2], .thermalSample 20 0 0, .perfSelectWrite .internal (20 * 2 ^ 24) 0,
   .readClear .internal (20 * 2 ^ 24), .registerWrite .internal (20 * 2 ^ 24) 0]

theorem test_wf_refuses :
    [illFormed0, illFormed1, illFormed2, illFormed3].all (fun l => l.all (fun i => !i.wf)) = true := by decide +kernel

/-- The same operands at the ends of their ranges. -/
theorem test_wf_takes :
    [Instr.ecall 15 127 511, .slFma2 15 127 511 31 31 31 31 7 1 2, .brkDbgResume (.hostCore 1 31) 15 127 0, .rowAccept 0 0 2 false 255 255,
      .tileOpIssue 15 255 65535 65535 0 0 .observe, .walk 15 7 65535 0 0 0, .spill 255 2, .moveStart 15 1 (.buffer 0) 3,
      .flashRelocate 19 0, .nak 31 (2 ^ 24 - 1) 0 16383 0, .read { payload := List.replicate 2048 0 }, .frameStart 2,
      .whistleDeadTimeout 2 63, .helloTimer 16383, .submissionDoorbell 63 0, .jobStop { pair := 63, cid := 65535 },
      .thermalSample 19 0 0].all Instr.wf = true := by decide +kernel

/-! ## Values of the manual -/

/-- 00_scope: the check values over "123456789". -/
theorem test_crc :
    crc32 [0x31, 0x32, 0x33, 0x34, 0x35, 0x36, 0x37, 0x38, 0x39] = 0xCBF43926 ∧
    crc16 [0x31, 0x32, 0x33, 0x34, 0x35, 0x36, 0x37, 0x38, 0x39] = 0x29B1 := by decide +kernel

/-- 02 worked example: SL.FMA2 f2, f4, f6, f8 with rm 000b. -/
theorem test_fma2_word : enc1 0 2 4 6 8 0 = 0x4062012B := by decide +kernel

/-- FIPS 180-4: SHA-256 of the empty message begins E3B0C442h. -/
theorem test_sha256 : (sha256 []).take 4 = [0xE3, 0xB0, 0xC4, 0x42] := by decide +kernel

/-- 04 worked example, cases A to D: an E5M2 lane with its element twice. -/
def e5 (a b : Nat) : (FV × Bool) × (FV × Bool) := (laneValue 4 a 127, laneValue 4 b 127)
def laneP := e5 0x7B 0x7B
def laneN := e5 0xFB 0x7B
def laneU := e5 0x3C 0x3C
def laneH := e5 0x0C 0x0C
def laneQ := e5 0x04 0x04

theorem test_merge_window :
    merge false 0 [laneP, laneN, laneQ] = (0, fNX) ∧ merge false 0 [laneP, laneN, laneU, laneQ] = (0x3F800000, fNX) ∧
    merge true 0x3F800000 [laneP, laneN, laneH, laneQ] = (0x3F800001, fNX) ∧
    merge true 0x3F800000 [laneH] = (0x3F800000, fNX) := by decide +kernel

/-- 04 worked example: overflow and NaN in one FP32 group. -/
def f32Lane (a b : Word) : (FV × Bool) × (FV × Bool) := ((f32z a, false), (f32z b, false))
theorem test_merge_special :
    merge false 0 [f32Lane 0x71800000 0x4E800000, f32Lane 0xFFC12345 0x3F800000, f32Lane 0x3FC00000 0x40000000] =
      (0x7FC00000, fNV ||| fOF) ∧
    merge false 0 [f32Lane 0x71800000 0x4E800000, f32Lane 0xFF000000 0x4E800000] = (0x7FC00000, fNV ||| fOF) ∧
    merge false 0 [f32Lane 0x71800000 0x4E800000, f32Lane 0x3FC00000 0x40000000] = (0x7F800000, fOF) := by decide +kernel

/-- 04 worked example: one MXFP4 output block, with 14.5, 13, 5 and 0.3. -/
theorem test_mx_block :
    mxBlock 9 false (List.replicate 4 .rne) [f32z 0x41680000, f32z 0x41500000, f32z 0x40A00000, f32z 0x3E99999A] =
      (0x80, [⟨7, fOF ||| fNX, true⟩, ⟨7, fNX, false⟩, ⟨4, fNX, false⟩, ⟨0, fUF ||| fNX, false⟩]) := by decide +kernel

/-- R171: a TEMP of 0, K of 0 and a TOPP that is NaN are clamped and counted. -/
theorem test_sample_clamps :
    (fun (d : SampleDesc) => (d.temp, d.k, d.topp, d.cTemp, d.cTopk, d.cTopp))
      (readSample (toLe 1 0 ++ toLe 1 8 ++ toLe 2 0 ++ toLe 4 0 ++ toLe 4 0 ++ toLe 4 0x7FC00000 ++ toLe 4 4 ++ toLe 12 0)) =
      (0x3C800000, 1, 0x3F800000, 1, 1, 1) := by decide +kernel

/-- 06 worked example: candidates 0, 1, 3 and 4 accepted under parents 1FFh, 0, 0, 1, 2, 3. -/
theorem test_tree :
    keptFrom 0b11011 [0x1FF, 0, 0, 1, 2, 3] [] = [true, true, false, true, false, false] := by decide +kernel

/-- 02 worked example: SL.FMA2 with rd = f3 raises ILLEGAL_INSN with the word, and only the brick's registers say so. -/
theorem test_fma2_odd :
    (match exec (.slFma2 0 0 0 3 4 6 8 0 1 0) (withGrain sliver) with
      | .next t => (t.getF R.BRK_FAULT_KIND (lBrick 0 0), t.getF R.BRK_FAULT_GRAIN (lBrick 0 0),
          t.getF R.BRK_FAULTPC_INSN (lBrick 0 0), (t.grain 0 0 0).run)
      | _ => (0, 0, 0, .gated)) = (1, 0, 0x406201AB, .faulted) := by decide +kernel

/-- 18 worked example: both dies claim in one cycle, HD0 wins and HD1 takes its view. -/
def tie : State :=
  ((({ zero with clk := { role0 := .claiming, role1 := .claiming, ready := true, witTerm := 7 } } : State).setF
    R.AON_LEASE_TERM (lDie 16) 7).setF R.AON_LEASE_TERM (lDie 17) 7)
theorem test_lease_tie :
    (match exec (.witnessCas [1, 0]) tie with
      | .next t => (t.role 0, t.term 0, t.role 1, t.term 1, t.clk.witTerm)
      | _ => (.claiming, 0, .claiming, 0, 0)) = (.keeper, 8, .follower, 8, 8) := by decide +kernel

/-- 14 (R337) and 20 give no command: an idle step of the reset state moves TIME by one period. -/
theorem test_idle : step State.reset = .next { State.reset with time := 5 } := rfl

end Sys2Proof.Tests
end

section
/-!
Frames. What a command leaves unchanged is said once for each operation of the state: outside the parts that it
writes, the state is as before. A lemma `op_outside` takes one hypothesis for each part that `op` may write, and
holds for every choice of parts that has those parts.
-/

namespace Sys2Proof.Machine

/-- A choice of parts of the state; `mem` is the bytes of the tiers with their marks of descent. -/
structure Parts where
  pending : Bool := false
  time : Bool := false
  free : Bool := false
  csr : Bool := false
  wo1 : Bool := false
  mem : Bool := false
  grains : Bool := false
  bricks : Bool := false
  arrays : Bool := false
  sch : Bool := false
  att : Bool := false
  lanes : Bool := false
  epc : Bool := false
  rings : Bool := false
  tier : Bool := false
  fab : Bool := false
  col : Bool := false
  wpt : Bool := false
  hcx : Bool := false
  ckp : Bool := false
  audit : Bool := false
  keys : Bool := false
  clk : Bool := false
  obsv : Bool := false

/-- What is left of a state when the chosen parts are blanked. Two states with the same rest differ in the chosen
parts alone. -/
def State.outside (s : State) (P : Parts) : State :=
  { pending := bif P.pending then [] else s.pending
    time := bif P.time then 0 else s.time
    free := bif P.free then 0 else s.free
    csr := bif P.csr then [] else s.csr
    wo1 := bif P.wo1 then [] else s.wo1
    mem := bif P.mem then [] else s.mem
    tainted := bif P.mem then [] else s.tainted
    grains := bif P.grains then [] else s.grains
    bricks := bif P.bricks then [] else s.bricks
    arrays := bif P.arrays then [] else s.arrays
    sch := bif P.sch then {} else s.sch
    att := bif P.att then {} else s.att
    lanes := bif P.lanes then [] else s.lanes
    epc := bif P.epc then {} else s.epc
    rings := bif P.rings then [] else s.rings
    tier := bif P.tier then {} else s.tier
    fab := bif P.fab then {} else s.fab
    col := bif P.col then {} else s.col
    wpt := bif P.wpt then {} else s.wpt
    hcx := bif P.hcx then {} else s.hcx
    ckp := bif P.ckp then {} else s.ckp
    audit := bif P.audit then {} else s.audit
    keys := bif P.keys then [] else s.keys
    clk := bif P.clk then {} else s.clk
    obsv := bif P.obsv then {} else s.obsv }

theorem bif_eq_bif_iff {α : Type} {b : Bool} {d x y : α} :
    (bif b then d else x) = (bif b then d else y) ↔ (b = false → x = y) := by
  cases b <;> simp

section Frames

variable {P : Parts} (pending : P.pending) (time : P.time) (free : P.free) (csr : P.csr) (wo1 : P.wo1) (mem : P.mem)
  (grains : P.grains) (bricks : P.bricks) (arrays : P.arrays) (sch : P.sch) (att : P.att) (lanes : P.lanes)
  (epc : P.epc) (rings : P.rings) (tier : P.tier) (fab : P.fab) (col : P.col) (wpt : P.wpt) (hcx : P.hcx)
  (ckp : P.ckp) (audit : P.audit) (keys : P.keys) (clk : P.clk) (obsv : P.obsv)

/-- Two states with the same rest agree in every part that is not chosen. -/
theorem State.outside_eq_iff {s t : State} : t.outside P = s.outside P ↔
    (P.pending = false → t.pending = s.pending) ∧ (P.time = false → t.time = s.time) ∧
    (P.free = false → t.free = s.free) ∧ (P.csr = false → t.csr = s.csr) ∧ (P.wo1 = false → t.wo1 = s.wo1) ∧
    (P.mem = false → t.mem = s.mem) ∧ (P.mem = false → t.tainted = s.tainted) ∧
    (P.grains = false → t.grains = s.grains) ∧ (P.bricks = false → t.bricks = s.bricks) ∧
    (P.arrays = false → t.arrays = s.arrays) ∧ (P.sch = false → t.sch = s.sch) ∧ (P.att = false → t.att = s.att) ∧
    (P.lanes = false → t.lanes = s.lanes) ∧ (P.epc = false → t.epc = s.epc) ∧ (P.rings = false → t.rings = s.rings) ∧
    (P.tier = false → t.tier = s.tier) ∧ (P.fab = false → t.fab = s.fab) ∧ (P.col = false → t.col = s.col) ∧
    (P.wpt = false → t.wpt = s.wpt) ∧ (P.hcx = false → t.hcx = s.hcx) ∧ (P.ckp = false → t.ckp = s.ckp) ∧
    (P.audit = false → t.audit = s.audit) ∧ (P.keys = false → t.keys = s.keys) ∧ (P.clk = false → t.clk = s.clk) ∧
    (P.obsv = false → t.obsv = s.obsv) := by
  simp only [State.outside, State.mk.injEq, bif_eq_bif_iff]

include pending in
theorem State.pending_outside (s : State) (v : List Instr) :
    ({ s with pending := v } : State).outside P = s.outside P := by
  simp only [State.outside, pending, cond_true]

include time in
theorem State.time_outside (s : State) (v : Nat) : ({ s with time := v } : State).outside P = s.outside P := by
  simp only [State.outside, time, cond_true]

include free in
theorem State.free_outside (s : State) (v : Nat) : ({ s with free := v } : State).outside P = s.outside P := by
  simp only [State.outside, free, cond_true]

include csr in
theorem State.csr_outside (s : State) (v : AMap Nat) : ({ s with csr := v } : State).outside P = s.outside P := by
  simp only [State.outside, csr, cond_true]

include wo1 in
theorem State.wo1_outside (s : State) (v : List Nat) : ({ s with wo1 := v } : State).outside P = s.outside P := by
  simp only [State.outside, wo1, cond_true]

include grains in
theorem State.grains_outside (s : State) (v : AMap Grain) :
    ({ s with grains := v } : State).outside P = s.outside P := by
  simp only [State.outside, grains, cond_true]

include bricks in
theorem State.bricks_outside (s : State) (v : AMap Brick) :
    ({ s with bricks := v } : State).outside P = s.outside P := by
  simp only [State.outside, bricks, cond_true]

include arrays in
theorem State.arrays_outside (s : State) (v : AMap ArraySt) :
    ({ s with arrays := v } : State).outside P = s.outside P := by
  simp only [State.outside, arrays, cond_true]

include sch in
theorem State.sch_outside (s : State) (v : SchedSt) : ({ s with sch := v } : State).outside P = s.outside P := by
  simp only [State.outside, sch, cond_true]

include att in
theorem State.att_outside (s : State) (v : AttSt) : ({ s with att := v } : State).outside P = s.outside P := by
  simp only [State.outside, att, cond_true]

include lanes in
theorem State.lanes_outside (s : State) (v : AMap Nat) : ({ s with lanes := v } : State).outside P = s.outside P := by
  simp only [State.outside, lanes, cond_true]

include epc in
theorem State.epc_outside (s : State) (v : EpcSt) : ({ s with epc := v } : State).outside P = s.outside P := by
  simp only [State.outside, epc, cond_true]

include rings in
theorem State.rings_outside (s : State) (v : AMap RingSt) :
    ({ s with rings := v } : State).outside P = s.outside P := by
  simp only [State.outside, rings, cond_true]

include tier in
theorem State.tier_outside (s : State) (v : TierSt) : ({ s with tier := v } : State).outside P = s.outside P := by
  simp only [State.outside, tier, cond_true]

include fab in
theorem State.fab_outside (s : State) (v : FabSt) : ({ s with fab := v } : State).outside P = s.outside P := by
  simp only [State.outside, fab, cond_true]

include col in
theorem State.col_outside (s : State) (v : ColSt) : ({ s with col := v } : State).outside P = s.outside P := by
  simp only [State.outside, col, cond_true]

include wpt in
theorem State.wpt_outside (s : State) (v : WptSt) : ({ s with wpt := v } : State).outside P = s.outside P := by
  simp only [State.outside, wpt, cond_true]

include hcx in
theorem State.hcx_outside (s : State) (v : HcxSt) : ({ s with hcx := v } : State).outside P = s.outside P := by
  simp only [State.outside, hcx, cond_true]

include ckp in
theorem State.ckp_outside (s : State) (v : CkpSt) : ({ s with ckp := v } : State).outside P = s.outside P := by
  simp only [State.outside, ckp, cond_true]

include audit in
theorem State.audit_outside (s : State) (v : AuditSt) : ({ s with audit := v } : State).outside P = s.outside P := by
  simp only [State.outside, audit, cond_true]

include keys in
theorem State.keys_outside (s : State) (v : List KeySlot) :
    ({ s with keys := v } : State).outside P = s.outside P := by
  simp only [State.outside, keys, cond_true]

include clk in
theorem State.clk_outside (s : State) (v : ClkSt) : ({ s with clk := v } : State).outside P = s.outside P := by
  simp only [State.outside, clk, cond_true]

include obsv in
theorem State.obsv_outside (s : State) (v : ObsSt) : ({ s with obsv := v } : State).outside P = s.outside P := by
  simp only [State.outside, obsv, cond_true]

include mem in
theorem State.mem_outside (s : State) (m : List Host.Cell) (d : AMap Bool) :
    ({ s with mem := m, tainted := d } : State).outside P = s.outside P := by
  simp only [State.outside, mem, cond_true]

theorem State.ite_outside {c : Prop} [Decidable c] (a b : State) :
    (if c then a else b).outside P = if c then a.outside P else b.outside P := apply_ite (State.outside · P) c a b

/-- A loop changes only what its body changes. -/
theorem forEach_outside {α : Type} {f : State → α → State} (h : ∀ t x, (f t x).outside P = t.outside P) (l : List α)
    (s : State) : (forEach l s f).outside P = s.outside P := by
  unfold forEach
  induction l generalizing s with
  | nil => rfl
  | cons x l ih => exact (ih (f s x)).trans (h s x)

/-- A fold over pairs changes in its second state only what its body changes there. -/
theorem foldl_snd_outside {α β : Type} {f : β × State → α → β × State}
    (h : ∀ a x, (f a x).2.outside P = a.2.outside P) (l : List α) (a : β × State) :
    (l.foldl f a).2.outside P = a.2.outside P := by
  induction l generalizing a with
  | nil => rfl
  | cons x l ih => exact (ih (f a x)).trans (h a x)

/-! ## Registers, alarms and the audit log -/

include csr in
theorem State.setF_outside (s : State) (f : Fld) (a : Loc) (v : Nat) : (s.setF f a v).outside P = s.outside P :=
  State.csr_outside csr s _

include csr wo1 in
theorem State.applyFld_outside (s : State) (p : FldWrite) : (s.applyFld p).outside P = s.outside P := by
  simp only [State.applyFld, State.wo1_outside wo1, State.setF_outside csr, State.ite_outside, ite_self]

include fab in
theorem State.setFab_outside (s : State) (f : FabSt) : (s.setFab f).outside P = s.outside P :=
  State.fab_outside fab s _

include csr fab in
theorem State.writeShadow_outside (s : State) (fd v : Nat) : (s.writeShadow fd v).outside P = s.outside P := by
  simp only [State.writeShadow, State.setFab_outside fab, State.setF_outside csr]

include free in
theorem State.draw_outside (s : State) (w : Nat) : (s.draw w).2.outside P = s.outside P :=
  State.free_outside free s _

include grains in
theorem State.setGrain_outside (s : State) (die brick g : Nat) (v : Grain) :
    (s.setGrain die brick g v).outside P = s.outside P :=
  State.grains_outside grains s _

include grains in
theorem State.modGrain_outside (s : State) (die brick g : Nat) (f : Grain → Grain) :
    (s.modGrain die brick g f).outside P = s.outside P := by
  simp only [State.modGrain, State.setGrain_outside grains]

include free grains in
theorem State.resumeBrick_outside (s : State) (die b : Nat) : (s.resumeBrick die b).outside P = s.outside P := by
  simp only [State.resumeBrick, State.draw_outside free, State.modGrain_outside grains, State.ite_outside, ite_self,
    forEach_outside, implies_true]

include csr in
theorem State.applyMode_outside (s : State) (die brick : Nat) : (s.applyMode die brick).outside P = s.outside P := by
  simp only [State.applyMode, State.setF_outside csr]

include csr in
theorem State.requestMode_outside (s : State) (die brick v : Nat) :
    (s.requestMode die brick v).outside P = s.outside P := by
  simp only [State.requestMode, State.setF_outside csr, State.applyMode_outside csr, State.ite_outside, ite_self]

include csr in
theorem State.setB_outside (s : State) (f : Fld) (a : Loc) (v : Bool) : (s.setB f a v).outside P = s.outside P := by
  simp only [State.setB, State.setF_outside csr]

include fab in
theorem State.setPort_outside (s : State) (p : Nat) (v : FPort) : (s.setPort p v).outside P = s.outside P :=
  State.fab_outside fab s _

include csr in
theorem State.portTo_outside (s : State) (p st : Nat) : (s.portTo p st).outside P = s.outside P := by
  simp only [State.portTo, State.setF_outside csr]

include csr fab in
theorem State.trainPort_outside (s : State) (port : Nat) : (s.trainPort port).outside P = s.outside P := by
  simp only [State.trainPort, State.setPort_outside fab, State.setF_outside csr, State.portTo_outside csr]

include csr fab in
theorem State.enablePort_outside (s : State) (port : Nat) : (s.enablePort port).outside P = s.outside P := by
  simp only [State.enablePort, State.trainPort_outside csr fab, State.setPort_outside fab, State.portTo_outside csr,
    State.ite_outside, ite_self]

include csr in
theorem State.bump_outside (s : State) (f : Fld) (a : Loc) (n : Nat) : (s.bump f a n).outside P = s.outside P := by
  simp only [State.bump, State.csr_outside csr, State.ite_outside, ite_self]

include csr hcx in
theorem State.msix_outside (s : State) (hd vector : Nat) : (s.msix hd vector).outside P = s.outside P := by
  simp only [State.msix, State.hcx_outside hcx, State.setF_outside csr, State.ite_outside, ite_self]

include csr hcx obsv in
theorem State.alarm_outside (s : State) (kind job key : Nat) : (s.alarm kind job key).outside P = s.outside P := by
  simp only [State.alarm]
  repeat' split
  all_goals simp only [State.obsv_outside obsv, State.msix_outside csr hcx, State.bump_outside csr]

include csr hcx obsv in
theorem State.flipRoutes_outside (s : State) (fd v : Nat) : (s.flipRoutes fd v).outside P = s.outside P := by
  simp only [State.flipRoutes, State.bump_outside csr, State.setF_outside csr, State.alarm_outside csr hcx obsv,
    State.ite_outside, ite_self]

include col in
theorem State.setWring_outside (s : State) (level : Nat) (w : WRing) : (s.setWring level w).outside P = s.outside P :=
  State.col_outside col s _

include col in
theorem State.modWring_outside (s : State) (level : Nat) (f : WRing → WRing) :
    (s.modWring level f).outside P = s.outside P := by
  simp only [State.modWring, State.setWring_outside col]

include col in
theorem State.rejoin_outside (s : State) (level : Nat) : (s.rejoin level).outside P = s.outside P := by
  simp only [State.rejoin, State.modWring_outside col, State.ite_outside, ite_self]

include csr in
theorem State.ringTo_outside (s : State) (level st : Nat) : (s.ringTo level st).outside P = s.outside P := by
  simp only [State.ringTo, State.setF_outside csr]

include csr col in
theorem State.retrainRing_outside (s : State) (level : Nat) : (s.retrainRing level).outside P = s.outside P := by
  simp only [State.retrainRing, State.ringTo_outside csr, State.setWring_outside col, State.ite_outside, ite_self]

include clk in
theorem State.setClk_outside (s : State) (c : ClkSt) : (s.setClk c).outside P = s.outside P :=
  State.clk_outside clk s _

include clk in
theorem State.setRole_outside (s : State) (hd : Nat) (r : LeaseRun) : (s.setRole hd r).outside P = s.outside P := by
  simp only [State.setRole, State.setClk_outside clk]

include csr clk in
theorem State.unkeep_outside (s : State) (hd : Nat) : (s.unkeep hd).outside P = s.outside P := by
  simp only [State.unkeep, State.setF_outside csr, State.setRole_outside clk]

include csr clk in
theorem State.yieldLease_outside (s : State) (hd : Nat) : (s.yieldLease hd).outside P = s.outside P := by
  simp only [State.yieldLease, State.unkeep_outside csr clk, State.ite_outside, ite_self]

include csr in
theorem State.settlePoint_outside (s : State) (die : Nat) : (s.settlePoint die).outside P = s.outside P := by
  simp only [State.settlePoint, State.setF_outside csr, State.ite_outside, ite_self]

include audit in
theorem drainStaging_outside (s : State) (l : List (Nat × AuditRec)) :
    (drainStaging l s).outside P = s.outside P := by
  induction l generalizing s with
  | nil => exact State.audit_outside audit s _
  | cons p l ih => simp only [drainStaging, State.ite_outside, ih, State.audit_outside audit, ite_self]

include free csr grains fab col hcx audit clk obsv in
theorem State.afterFld_outside (s : State) (p : FldWrite) : (s.afterFld p).outside P = s.outside P := by
  simp only [State.afterFld]
  split <;> simp only [State.obsv_outside obsv, State.resumeBrick_outside free grains, State.requestMode_outside csr,
    State.setF_outside csr, State.setB_outside csr, State.enablePort_outside csr fab,
    State.flipRoutes_outside csr hcx obsv, State.rejoin_outside col, State.retrainRing_outside csr col,
    State.yieldLease_outside csr clk, State.settlePoint_outside csr, drainStaging_outside audit, State.ite_outside,
    ite_self]

include free csr wo1 grains fab col hcx audit clk obsv in
theorem State.applyPlan_outside (s : State) (ps : List FldWrite) (v : Nat) :
    (s.applyPlan ps v).outside P = s.outside P := by
  unfold State.applyPlan
  split <;> simp only [State.applyFld_outside csr wo1, State.writeShadow_outside csr fab,
    State.afterFld_outside free csr grains fab col hcx audit clk obsv, State.ite_outside, ite_self, forEach_outside,
    implies_true]

include csr hcx obsv in
theorem State.auditAlarm_outside (s : State) : s.auditAlarm.outside P = s.outside P := by
  simp only [State.auditAlarm, State.alarm_outside csr hcx obsv, State.ite_outside, ite_self]

include csr hcx audit obsv in
theorem State.audit1_outside (s : State) (die : Nat) (r : AuditRec) : (s.audit1 die r).outside P = s.outside P := by
  simp only [State.audit1, State.audit_outside audit, State.auditAlarm_outside csr hcx obsv, State.ite_outside,
    ite_self]

include free csr wo1 grains fab col hcx audit clk obsv in
theorem State.csrWriteNow_outside (s : State) (o : Origin) (reg v : Nat) :
    (s.csrWriteNow o reg v).outside P = s.outside P := by
  simp only [State.csrWriteNow, State.applyPlan_outside free csr wo1 grains fab col hcx audit clk obsv,
    State.audit1_outside csr hcx audit obsv, State.ite_outside, ite_self]

include free csr wo1 grains fab col hcx audit clk obsv in
theorem State.csrWrite_outside (s : State) (o : Origin) (reg : Nat) (value : U64) :
    (s.csrWrite o reg value).outside P = s.outside P := by
  simp only [State.csrWrite, State.audit_outside audit,
    State.csrWriteNow_outside free csr wo1 grains fab col hcx audit clk obsv, State.bump_outside csr,
    State.ite_outside, ite_self]

include free csr wo1 grains fab col hcx audit clk obsv in
theorem State.writeAt_outside (s : State) (o : Origin) (f : Fld) (a : Loc) (value : U64) :
    (s.writeAt o f a value).outside P = s.outside P := by
  simp only [State.writeAt, State.csrWrite_outside free csr wo1 grains fab col hcx audit clk obsv]

include clk in
theorem State.atStep_outside (s : State) (n : Nat) : (s.atStep n).outside P = s.outside P := by
  simp only [State.atStep, State.setClk_outside clk]

include csr in
theorem State.trainMortar_outside (s : State) (b : BootIn) (i : Nat) :
    (s.trainMortar b i).outside P = s.outside P := by
  unfold State.trainMortar
  split <;> simp only [State.setF_outside csr]

include csr hcx obsv in
theorem State.unitFails_outside (s : State) (block : Nat) : (s.unitFails block).outside P = s.outside P := by
  simp only [State.unitFails, State.obsv_outside obsv, State.alarm_outside csr hcx obsv, State.setF_outside csr,
    State.ite_outside, ite_self]

include csr hcx clk obsv in
theorem State.boot7_outside (s : State) (b : BootIn) : (s.boot7 b).outside P = s.outside P := by
  simp only [State.boot7, State.atStep_outside clk, State.unitFails_outside csr hcx obsv, State.setClk_outside clk,
    State.ite_outside, ite_self, forEach_outside, implies_true]

include csr wo1 fab col hcx clk obsv in
theorem State.boot6_outside (s : State) (b : BootIn) : (s.boot6 b).outside P = s.outside P := by
  simp only [State.boot6, State.wo1_outside wo1, State.atStep_outside clk, State.setClk_outside clk,
    State.setF_outside csr, State.trainMortar_outside csr, State.enablePort_outside csr fab, State.setB_outside csr,
    State.boot7_outside csr hcx clk obsv, State.retrainRing_outside csr col, State.ite_outside, ite_self,
    forEach_outside, implies_true]

include csr wo1 fab col hcx clk obsv in
theorem State.numberArrives_outside (s : State) (boot : BootIn) : (s.numberArrives boot).outside P = s.outside P := by
  simp only [State.numberArrives, State.boot6_outside csr wo1 fab col hcx clk obsv, State.ite_outside, ite_self]

/-! ## Arrays and scoreboards -/

include arrays in
theorem State.setArray_outside (s : State) (die brick : Nat) (v : ArraySt) :
    (s.setArray die brick v).outside P = s.outside P :=
  State.arrays_outside arrays s _

include csr in
theorem State.mxaErr_outside (s : State) (die brick kind optag : Nat) :
    (s.mxaErr die brick kind optag).outside P = s.outside P := by
  simp only [State.mxaErr, State.setF_outside csr, State.ite_outside, ite_self]

include csr arrays in
theorem State.swapSets_outside (s : State) (die brick : Nat) : (s.swapSets die brick).outside P = s.outside P := by
  simp only [State.swapSets, State.setArray_outside arrays, State.mxaErr_outside csr, State.bump_outside csr,
    State.setF_outside csr, State.ite_outside, ite_self]

include mem in
theorem State.wrMem_outside (s : State) (space off : Nat) (bs : List Byte) :
    (s.wrMem space off bs).outside P = s.outside P := by
  simp only [State.wrMem, State.mem_outside mem]

include mem in
theorem State.wrBrick_outside (s : State) (die brick off : Nat) (bs : List Byte) :
    (s.wrBrick die brick off bs).outside P = s.outside P := by
  simp only [State.wrBrick, State.wrMem_outside mem]

include csr mem in
theorem State.mxaRetire_outside (s : State) (die brick : Nat) (c : MxCmd) :
    (s.mxaRetire die brick c).outside P = s.outside P := by
  simp only [State.mxaRetire, State.wrBrick_outside mem, State.bump_outside csr, State.ite_outside, ite_self]

include csr mem arrays in
theorem beginNext_outside (s : State) (die brick : Nat) (l : List MxCmd) :
    (beginNext die brick l s).outside P = s.outside P := by
  induction l generalizing s with
  | nil => exact State.setArray_outside arrays s _ _ _
  | cons c rest ih =>
    simp only [beginNext, State.ite_outside, ih, State.mxaRetire_outside csr mem,
      State.setArray_outside arrays, ite_self]

include csr mem arrays in
theorem State.endCommand_outside (s : State) (die brick : Nat) (c : MxCmd) :
    (s.endCommand die brick c).outside P = s.outside P := by
  simp only [State.endCommand, State.mxaRetire_outside csr mem, beginNext_outside csr mem arrays]

include csr mem arrays in
theorem State.swapTry_outside (s : State) (die brick cycles : Nat) :
    (s.swapTry die brick cycles).outside P = s.outside P := by
  simp only [State.swapTry]
  repeat' split
  all_goals simp only [State.bump_outside csr, State.swapSets_outside csr arrays,
    State.endCommand_outside csr mem arrays]

include csr arrays in
theorem State.loadDone_outside (s : State) (die brick : Nat) (parity : Bool) :
    (s.loadDone die brick parity).outside P = s.outside P := by
  simp only [State.loadDone]
  split <;> simp only [State.mxaErr_outside csr, State.bump_outside csr, State.setArray_outside arrays,
    State.ite_outside, ite_self]

include csr in
theorem State.readCmd_outside (s : State) (die brick : Nat) (w0 w1 w2 w3 : U64) :
    (s.readCmd die brick w0 w1 w2 w3).2.outside P = s.outside P := by
  simp only [State.readCmd]
  split <;> simp only [State.ite_outside, State.bump_outside csr, ite_self]

include csr mem arrays in
theorem State.mxaIssue_outside (s : State) (die brick : Nat) (w0 w1 w2 w3 : U64) :
    (s.mxaIssue die brick w0 w1 w2 w3).outside P = s.outside P := by
  simp only [State.mxaIssue]
  split
  · rfl
  · split <;> simp only [State.setArray_outside arrays, beginNext_outside csr mem arrays, State.readCmd_outside csr]

include csr in
theorem State.peak_outside (s : State) (f : Fld) (a : Loc) (v : Nat) : (s.peak f a v).outside P = s.outside P := by
  simp only [State.peak, State.setF_outside csr, State.ite_outside, ite_self]

include csr sch in
theorem State.takeEntry_outside {s t : State} {die tag : Nat} {e : ScoreEntry}
    (h : s.takeEntry die e = some (tag, t)) : t.outside P = s.outside P := by
  simp only [State.takeEntry, Option.map_eq_some_iff, Prod.mk.injEq] at h
  obtain ⟨i, -, -, rfl⟩ := h
  simp only [State.peak_outside csr, State.sch_outside sch]

include csr mem arrays sch in
theorem State.mxaCommand_outside (s : State) (die brick : Nat) (w0 w1 w2 w3 : U64) :
    (s.mxaCommand die brick w0 w1 w2 w3).outside P = s.outside P := by
  have issued := State.mxaIssue_outside csr mem arrays
  simp only [State.mxaCommand]
  split
  · exact issued s die brick w0 w1 w2 w3
  · split
    · split
      · next entry => rw [issued, State.takeEntry_outside csr sch entry]
      · rfl
    · rfl

include csr in
theorem State.linkTo_outside (s : State) (die port st : Nat) : (s.linkTo die port st).outside P = s.outside P := by
  simp only [State.linkTo, State.setF_outside csr, forEach_outside, implies_true]

include time in
theorem State.until_outside (s : State) (t : Nat) : (s.until t).outside P = s.outside P :=
  State.time_outside time s _

include sch in
theorem State.setRows_outside (s : State) (pan i : Nat) (l : List StreamRow) :
    (s.setRows pan i l).outside P = s.outside P :=
  State.sch_outside sch s _

include sch in
theorem State.emit_outside (s : State) (pan i : Nat) (r : Row) : (s.emit pan i r).outside P = s.outside P := by
  simp only [State.emit, State.sch_outside sch, State.setRows_outside sch]

include arrays sch in
theorem drainRows_outside (s : State) (die brick pan : Nat) (elastic : Bool) (l : List DrainRow) :
    (drainRows die brick pan elastic l s).outside P = s.outside P := by
  induction l generalizing s with
  | nil => exact State.setArray_outside arrays s _ _ _
  | cons p rest ih =>
    simp only [drainRows]
    split <;> simp only [State.ite_outside, ih, State.emit_outside sch, State.setArray_outside arrays, ite_self]

include arrays sch in
theorem State.drainArray_outside (s : State) (die brick ready : Nat) :
    (s.drainArray die brick ready).outside P = s.outside P := by
  unfold State.drainArray
  split <;> simp only [drainRows_outside arrays sch]

/-! ## Requests and exchanges -/

include fab in
theorem State.stamp_outside (s : State) (p : Packet) (idx : Nat) : (s.stamp p idx).2.outside P = s.outside P :=
  State.setFab_outside fab s _

include tier in
theorem State.request_outside (s : State) (r : TierReq) : (s.request r).outside P = s.outside P :=
  State.tier_outside tier s _

include tier in
theorem State.remoteTier_outside (s : State) (p : Packet) (idx : Nat) (u : ReqUse) :
    (s.remoteTier p idx u).outside P = s.outside P := by
  unfold State.remoteTier
  split <;> simp only [State.request_outside tier]

include fab in
theorem State.out_outside (s : State) (port : Option Nat) (p : Packet) : (s.out port p).outside P = s.outside P :=
  State.fab_outside fab s _

include fab in
theorem State.sendOn_outside (s : State) (port : Nat) (p : Packet) : (s.sendOn port p).outside P = s.outside P := by
  simp only [State.sendOn, State.out_outside fab, State.setPort_outside fab]

include fab in
theorem State.offer_outside (s : State) (port : Nat) (p : Packet) : (s.offer port p).outside P = s.outside P := by
  simp only [State.offer, State.fab_outside fab, State.sendOn_outside fab, State.ite_outside, ite_self]

include fab in
theorem State.unreachable_outside (s : State) (fd : Nat) (p : Packet) :
    (s.unreachable fd p).outside P = s.outside P := by
  simp only [State.unreachable, State.out_outside fab, State.ite_outside, ite_self]

include fab in
theorem State.transmit_outside (s : State) (fd : Nat) (p : Packet) : (s.transmit fd p).outside P = s.outside P := by
  unfold State.transmit
  split <;> simp only [State.offer_outside fab, State.unreachable_outside fab]

include fab in
theorem State.sendReq_outside (s : State) (p : Packet) : (s.sendReq p).outside P = s.outside P := by
  simp only [State.sendReq, State.offer_outside fab, State.transmit_outside fab, State.ite_outside, ite_self,
    forEach_outside, implies_true]

include tier fab in
theorem State.issue_outside (s : State) (p : Packet) (u : ReqUse) : (s.issue p u).outside P = s.outside P := by
  unfold State.issue
  split <;> simp only [State.setFab_outside fab, State.stamp_outside fab, State.remoteTier_outside tier,
    State.sendReq_outside fab, State.ite_outside, ite_self]

include tier fab in
theorem State.sendColl_outside (s : State) (x : Exch) (r kind : Nat) (b : List Byte) :
    (s.sendColl x r kind b).outside P = s.outside P := by
  simp only [State.sendColl, State.issue_outside tier fab]

include col in
theorem State.setExch_outside (s : State) (k : Nat) (x : Exch) : (s.setExch k x).outside P = s.outside P :=
  State.col_outside col s _

include tier fab col in
theorem State.sendDones_outside (s : State) (k : Nat) : (s.sendDones k).outside P = s.outside P := by
  unfold State.sendDones
  split
  · rfl
  · split
    · rfl
    · refine forEach_outside (fun t r => ?_) _ s
      split
      · rfl
      · simp only [State.ite_outside, State.sendColl_outside tier fab, State.setExch_outside col, ite_self]

include csr sch in
/-- An operation that issues changes the scoreboards and what `f` changes. -/
theorem State.issueEntry_outside {f : Nat → State → State} (hf : ∀ tag t, (f tag t).outside P = t.outside P)
    (s : State) (die pan : Nat) (d : StationDecl) (mb slice : Nat) :
    (s.issueEntry die pan d mb slice f).outside P = s.outside P := by
  unfold State.issueEntry
  split
  · split
    · rfl
    · next entry => exact (hf _ _).trans (State.takeEntry_outside csr sch entry)
  · rfl

include sch in
theorem State.codeEntry_outside (s : State) (die tag code : Nat) :
    (s.codeEntry die tag code).outside P = s.outside P :=
  State.sch_outside sch s _

include csr sch in
theorem State.chunkEntry_outside {f : Nat → State → State} (hf : ∀ tag t, (f tag t).outside P = t.outside P)
    (s : State) (die pan : Nat) (d : StationDecl) : (s.chunkEntry die pan d f).outside P = s.outside P :=
  State.issueEntry_outside csr sch (fun tag t => (hf tag _).trans (State.codeEntry_outside sch t _ _ _)) s _ _ _ _ _

include sch in
theorem State.setPan_outside (s : State) (p : Nat) (v : Pan) : (s.setPan p v).outside P = s.outside P :=
  State.sch_outside sch s _

include sch in
theorem State.modPan_outside (s : State) (p : Nat) (f : Pan → Pan) : (s.modPan p f).outside P = s.outside P := by
  simp only [State.modPan, State.setPan_outside sch]

include sch in
theorem State.freeEntry_outside (s : State) (die i : Nat) : (s.freeEntry die i).outside P = s.outside P := by
  simp only [State.freeEntry, State.sch_outside sch, State.modPan_outside sch]

include mem in
theorem State.wrTier_outside (s : State) (space off : Nat) (bs : List Byte) :
    (s.wrTier space off bs).outside P = s.outside P := by
  simp only [State.wrTier, State.mem_outside mem]

include csr in
theorem State.narrow_outside (s : State) (off n : Nat) : (s.narrow off n).outside P = s.outside P := by
  unfold State.narrow
  exact forEach_outside (fun t i => by split <;> simp only [State.bump_outside csr]) _ s

include csr in
theorem State.msCount_outside (s : State) (space off n : Nat) : (s.msCount space off n).outside P = s.outside P := by
  simp only [State.msCount, State.narrow_outside csr, State.bump_outside csr, State.ite_outside, ite_self]

include csr mem in
theorem State.msApply_outside (s : State) (space off : Nat) (op : MsOp) (e : Elem) (data cmp : List Byte) :
    (s.msApply space off op e data cmp).2.outside P = s.outside P := by
  simp only [State.msApply, State.msCount_outside csr, State.wrTier_outside mem]

include csr mem in
theorem State.reduceAt_outside (s : State) (a : Nat) (op : MsOp) (e : Elem) (b : List Byte) :
    (s.reduceAt a op e b).outside P = s.outside P := by
  simp only [State.reduceAt, State.msApply_outside csr mem, forEach_outside, implies_true]

include col in
theorem State.setLanding_outside (s : State) (k : Nat) (l : Landing) : (s.setLanding k l).outside P = s.outside P :=
  State.col_outside col s _

include mem in
theorem State.wrAt_outside (s : State) (a : Nat) (b : List Byte) : (s.wrAt a b).outside P = s.outside P := by
  simp only [State.wrAt, State.wrTier_outside mem]

include csr mem col in
theorem State.foldPiece_outside (s : State) (k : Nat) (x : Exch) (rank off : Nat) (b : List Byte) :
    (s.foldPiece k x rank off b).outside P = s.outside P := by
  simp only [State.foldPiece, State.wrAt_outside mem, State.reduceAt_outside csr mem, State.setExch_outside col,
    State.bump_outside csr, State.ite_outside, ite_self]

include csr mem col in
theorem foldLanded_outside (s : State) (k n : Nat) : (foldLanded k n s).outside P = s.outside P := by
  induction n generalizing s with
  | zero => rfl
  | succ n ih =>
    simp only [foldLanded]
    split
    · rfl
    · split <;> simp only [ih, State.foldPiece_outside csr mem col, State.setLanding_outside col]

include csr mem col in
theorem State.fold_outside (s : State) (k : Nat) : (s.fold k).outside P = s.outside P := by
  simp only [State.fold, foldLanded_outside csr mem col]

include csr mem col in
theorem State.land_outside (s : State) (k rank off : Nat) (b : List Byte) :
    (s.land k rank off b).outside P = s.outside P := by
  simp only [State.land, State.fold_outside csr mem col, State.setLanding_outside col]

include csr mem col in
theorem State.ownChunk_outside (s : State) (k : Nat) (x : Exch) (c : Chunk) :
    (s.ownChunk k x c).outside P = s.outside P := by
  simp only [State.ownChunk, State.bump_outside csr, State.reduceAt_outside csr mem, State.land_outside csr mem col,
    State.wrAt_outside mem, State.ite_outside, ite_self, forEach_outside, implies_true]

include csr mem tier fab col in
theorem State.sendChunk_outside (s : State) (k : Nat) (x : Exch) (c : Chunk) (tag : Nat) :
    (s.sendChunk k x c tag).outside P = s.outside P := by
  simp only [State.sendChunk, State.wrBrick_outside mem, State.wrAt_outside mem, State.issue_outside tier fab,
    State.setExch_outside col, State.bump_outside csr, State.ite_outside, ite_self, forEach_outside, implies_true]

include csr mem sch tier fab col in
theorem State.nextChunk_outside (s : State) (k : Nat) (x : Exch) : (s.nextChunk k x).outside P = s.outside P := by
  unfold State.nextChunk
  split <;> simp only [State.chunkEntry_outside csr sch, State.freeEntry_outside sch,
    State.ownChunk_outside csr mem col, State.setExch_outside col, State.sendChunk_outside csr mem tier fab col,
    State.ite_outside, ite_self, implies_true]

include csr mem sch tier fab col in
theorem sendChunks_outside (s : State) (k n : Nat) : (sendChunks k n s).outside P = s.outside P := by
  induction n generalizing s with
  | zero => rfl
  | succ n ih =>
    simp only [sendChunks]
    split <;> simp only [ih, State.nextChunk_outside csr mem sch tier fab col]

include sch in
theorem drainOut_outside (s : State) (pan i : Nat) (d : StreamDecl) (l : List Row) :
    (drainOut pan i d l s).outside P = s.outside P := by
  induction l generalizing s with
  | nil => exact State.sch_outside sch s _
  | cons r rest ih =>
      simp only [drainOut, State.ite_outside, ih, State.emit_outside sch, State.sch_outside sch, ite_self]

include sch in
theorem State.give_outside (s : State) (pan i : Nat) (r : Row) : (s.give pan i r).outside P = s.outside P := by
  unfold State.give
  split <;> simp only [drainOut_outside sch]

include sch in
theorem State.stationResult_outside (s : State) (pan station : Nat) (b : List Byte) :
    (s.stationResult pan station b).outside P = s.outside P := by
  unfold State.stationResult
  split <;> simp only [State.give_outside sch]

include csr sch col in
theorem State.endExch_outside (s : State) (k : Nat) (x : Exch) (status : Nat) :
    (s.endExch k x status).outside P = s.outside P := by
  simp only [State.endExch, State.col_outside col, State.modPan_outside sch, State.stationResult_outside sch,
    State.bump_outside csr, State.ite_outside, ite_self]

include csr mem sch tier fab col in
theorem State.stepExch_outside (s : State) (k : Nat) : (s.stepExch k).outside P = s.outside P := by
  simp only [State.stepExch]
  repeat' split
  all_goals simp only [State.sendDones_outside tier fab col, sendChunks_outside csr mem sch tier fab col,
    State.endExch_outside csr sch col, State.setExch_outside col]

include csr mem sch tier fab col in
theorem State.stepExchs_outside (s : State) (pan : Nat) : (s.stepExchs pan).outside P = s.outside P := by
  simp only [State.stepExchs, State.stepExch_outside csr mem sch tier fab col, forEach_outside, implies_true]

include csr in
theorem State.poisonOuts_outside (s : State) (pan die cause n : Nat) :
    (s.poisonOuts pan die cause n).outside P = s.outside P := by
  simp only [State.poisonOuts, State.setF_outside csr, State.bump_outside csr, State.ite_outside, ite_self]

include csr in
theorem State.poisonOut_outside (s : State) (pan die cause : Nat) :
    (s.poisonOut pan die cause).outside P = s.outside P := by
  simp only [State.poisonOut, State.poisonOuts_outside csr]

include csr sch in
theorem State.retireOp_outside (s : State) (die entry cause : Nat) (e : ScoreEntry) :
    (s.retireOp die entry cause e).outside P = s.outside P := by
  simp only [State.retireOp, State.freeEntry_outside sch, State.poisonOut_outside csr, State.ite_outside, ite_self]

/-! ## Moves, buffers and pages -/

include tier in
theorem State.setMoves_outside (s : State) (m : AMap Move) : (s.setMoves m).outside P = s.outside P :=
  State.tier_outside tier s _

include tier in
theorem State.modMove_outside (s : State) (k : Nat) (f : Move → Move) : (s.modMove k f).outside P = s.outside P := by
  simp only [State.modMove, State.setMoves_outside tier]

include mem tier in
theorem State.applyAccess_outside (s : State) (pool base : Nat) (a : Access) :
    (s.applyAccess pool base a).outside P = s.outside P := by
  simp only [State.applyAccess]
  repeat' split
  all_goals simp only [State.tier_outside tier, State.wrTier_outside mem]

include csr mem tier in
theorem State.stubAccess_outside (s : State) (k : Nat) (a : Access) : (s.stubAccess k a).outside P = s.outside P := by
  simp only [State.stubAccess]
  repeat' split
  all_goals simp only [State.bump_outside csr, State.modMove_outside tier, State.applyAccess_outside mem tier]

include csr mem tier in
theorem State.access_outside (s : State) (space off : Nat) (a : Nat → Access) :
    (s.access space off a).outside P = s.outside P := by
  simp only [State.access]
  repeat' split
  all_goals simp only [State.stubAccess_outside csr mem tier, State.modMove_outside tier,
    State.applyAccess_outside mem tier]

include tier in
theorem State.setFrames_outside (s : State) (pan pool : Nat) (l : List Nat) :
    (s.setFrames pan pool l).outside P = s.outside P :=
  State.tier_outside tier s _

include tier in
theorem State.takeFrame_outside (s : State) (pan pool n : Nat) :
    (s.takeFrame pan pool n).outside P = s.outside P := by
  simp only [State.takeFrame, State.setFrames_outside tier]

include mem att in
theorem State.setPte_outside (s : State) (k : Nat) (e : Pte) : (s.setPte k e).outside P = s.outside P := by
  simp only [State.setPte, State.att_outside att, State.wrTier_outside mem]

include mem att in
theorem State.setMoving_outside (s : State) (pool addr : Nat) (v : Bool) :
    (s.setMoving pool addr v).outside P = s.outside P := by
  simp only [State.setMoving, State.setPte_outside mem att, forEach_outside, implies_true]

include csr mem att tier in
theorem State.beginMove_outside (s : State) (die engine : Nat) (o : MovObj) (x : ObjAt) (dst n : Nat) :
    (s.beginMove die engine o x dst n).outside P = s.outside P := by
  unfold State.beginMove
  split <;> simp only [State.tier_outside tier, State.takeFrame_outside tier, State.setMoving_outside mem att,
    State.peak_outside csr]

include csr mem att tier in
theorem State.tryMove_outside {s t : State} {w : MoveWait} (h : s.tryMove w = some t) :
    t.outside P = s.outside P := by
  unfold State.tryMove at h
  split at h
  · cases h; rfl
  · split at h
    · cases h
    · simp only [Option.bind_eq_some_iff, Option.map_eq_some_iff] at h
      obtain ⟨x, -, n, -, rfl⟩ := h
      exact State.beginMove_outside csr mem att tier s _ _ _ _ _ _

include csr mem att tier in
theorem State.moveStart_outside (s : State) (die engine : Nat) (o : MovObj) (dst : Nat) :
    (s.moveStart die engine o dst).outside P = s.outside P := by
  simp only [State.moveStart]
  split
  · rfl
  · split
    · next begun => exact State.tryMove_outside csr mem att tier begun
    · simp only [State.tier_outside tier, State.ite_outside, State.bump_outside csr, ite_self]

include csr mem att tier in
theorem State.liftAll_outside (s : State) : s.liftAll.outside P = s.outside P := by
  unfold State.liftAll
  exact forEach_outside (fun t o => by
    split <;> simp only [State.moveStart_outside csr mem att tier, State.tier_outside tier]) _ s

include csr in
theorem State.flashWear_outside (s : State) (fd : Nat) : (s.flashWear fd).outside P = s.outside P := by
  simp only [State.flashWear, State.setF_outside csr]

include tier in
theorem State.setFlash_outside (s : State) (fd : Nat) (f : Flash) : (s.setFlash fd f).outside P = s.outside P :=
  State.tier_outside tier s _

include csr hcx obsv in
theorem State.flashSpare_outside (s : State) (fd : Nat) : (s.flashSpare fd).outside P = s.outside P := by
  simp only [State.flashSpare, State.setF_outside csr, State.alarm_outside csr hcx obsv, State.ite_outside, ite_self]

include tier in
theorem State.setBuf_outside (s : State) (i : Nat) (b : Buffer) : (s.setBuf i b).outside P = s.outside P :=
  State.tier_outside tier s _

include tier in
theorem State.tryAlloc_outside {s t : State} {w : BufWait} (h : s.tryAlloc w = some t) :
    t.outside P = s.outside P := by
  simp only [State.tryAlloc] at h
  split at h
  · cases h
    simp only [State.tier_outside tier, State.setBuf_outside tier, State.takeFrame_outside tier]
  · cases h

include csr in
theorem State.bumpPan_outside (s : State) (f : Fld) (p n : Nat) : (s.bumpPan f p n).outside P = s.outside P := by
  simp only [State.bumpPan, State.bump_outside csr, State.ite_outside, ite_self]

include sch in
theorem State.moveResult_outside (s : State) (pan : Nat) (station : Option Nat) (status : Nat) :
    (s.moveResult pan station status).outside P = s.outside P := by
  simp only [State.moveResult]
  repeat' split
  all_goals simp only [State.give_outside sch]

include tier in
theorem allocWaits_outside (s : State) (l : List BufWait) : (allocWaits l s).outside P = s.outside P := by
  induction l generalizing s with
  | nil => rfl
  | cons w rest ih =>
    simp only [allocWaits]
    split
    · next got => rw [ih, State.tier_outside tier _, State.tryAlloc_outside tier got]
    · exact ih s

include tier in
theorem State.poolFreed_outside (s : State) : s.poolFreed.outside P = s.outside P := by
  simp only [State.poolFreed, allocWaits_outside tier]

include tier in
theorem State.giveFrame_outside (s : State) (pan pool n : Nat) :
    (s.giveFrame pan pool n).outside P = s.outside P := by
  simp only [State.giveFrame, State.setFrames_outside tier]

include tier in
theorem State.endBuf_outside (s : State) (i : Nat) : (s.endBuf i).outside P = s.outside P := by
  unfold State.endBuf
  split <;> simp only [State.setBuf_outside tier, State.poolFreed_outside tier, State.giveFrame_outside tier,
    State.setMoves_outside tier]

include csr att in
theorem State.walkHit_outside (s : State) (die walker : Nat) (e : LabEntry) :
    (s.walkHit die walker e).outside P = s.outside P := by
  simp only [State.walkHit, State.att_outside att, State.bump_outside csr]

include csr in
theorem State.dueCommit_outside (s : State) (pan b : Nat) : (s.dueCommit pan b).outside P = s.outside P := by
  simp only [State.dueCommit, State.setF_outside csr, State.ite_outside, ite_self]

include csr att in
theorem State.walkMiss_outside (s : State) (die walker seq layer page : Nat) :
    (s.walkMiss die walker seq layer page).outside P = s.outside P := by
  simp only [State.walkMiss, State.att_outside att, State.narrow_outside csr, State.bump_outside csr,
    State.dueCommit_outside csr, State.ite_outside, ite_self]

include csr att in
theorem State.checkRead_outside (s : State) (die walker seq layer page : Nat) :
    (s.checkRead die walker seq layer page).2.outside P = s.outside P := by
  simp only [State.checkRead]
  split
  · rfl
  · split
    · exact State.bump_outside csr s _ _ _
    · split
      · split <;> simp only [State.bump_outside csr, State.walkMiss_outside csr att]
      · rfl

include csr att in
theorem State.walk_outside (s : State) (die walker seq gen layer page : Nat) :
    (s.walk die walker seq gen layer page).2.outside P = s.outside P := by
  simp only [State.walk]
  split
  · exact State.bump_outside csr s _ _ _
  · rw [State.checkRead_outside csr att _]
    split <;> simp only [State.walkHit_outside csr att, State.walkMiss_outside csr att]

include csr mem att tier in
theorem startWaits_outside (s : State) (l : List MoveWait) : (startWaits l s).outside P = s.outside P := by
  induction l generalizing s with
  | nil => rfl
  | cons w rest ih =>
    simp only [startWaits]
    split
    · next begun => rw [ih, State.tier_outside tier _, State.tryMove_outside csr mem att tier begun]
    · exact ih s

include csr mem att tier in
theorem State.moverFreed_outside (s : State) : s.moverFreed.outside P = s.outside P := by
  simp only [State.moverFreed, State.poolFreed_outside tier, startWaits_outside csr mem att tier]

include mem att in
theorem State.setIdent_outside (s : State) (pool addr : Nat) (i : Ident) :
    (s.setIdent pool addr i).outside P = s.outside P := by
  simp only [State.setIdent, State.att_outside att, State.wrTier_outside mem]

include mem att in
theorem State.modIdent_outside (s : State) (pool addr : Nat) (f : Ident → Ident) :
    (s.modIdent pool addr f).outside P = s.outside P := by
  unfold State.modIdent
  split <;> simp only [State.setIdent_outside mem att]

include mem att tier in
theorem State.freePage_outside (s : State) (pool addr : Nat) : (s.freePage pool addr).outside P = s.outside P := by
  unfold State.freePage
  split <;> simp only [State.att_outside att, State.giveFrame_outside tier, State.wrTier_outside mem]

include mem att tier in
theorem State.releaseRef_outside (s : State) (pool addr : Nat) :
    (s.releaseRef pool addr).outside P = s.outside P := by
  simp only [State.releaseRef]
  repeat' split
  all_goals simp only [State.tier_outside tier, State.modIdent_outside mem att, State.freePage_outside mem att tier]

include csr att in
theorem State.labDrop_outside (s : State) (pan seq layer page : Nat) :
    (s.labDrop pan seq layer page).outside P = s.outside P := by
  simp only [State.labDrop, State.att_outside att, State.dueCommit_outside csr, State.ite_outside, ite_self]

include csr mem att tier in
theorem State.dropPage_outside (s : State) (k : Nat) : (s.dropPage k).outside P = s.outside P := by
  simp only [State.dropPage, State.att_outside att, State.setPte_outside mem att,
    State.releaseRef_outside mem att tier, State.labDrop_outside csr att, State.bumpPan_outside csr,
    State.wrTier_outside mem, State.ite_outside, ite_self]

include csr mem att tier in
theorem spillDrops_outside (s : State) (pan pool low : Nat) (l : List (Nat × Ident)) :
    (spillDrops pan pool low l s).outside P = s.outside P := by
  induction l generalizing s with
  | nil => rfl
  | cons p rest ih =>
    simp only [spillDrops, State.ite_outside, ih, forEach_outside, State.dropPage_outside csr mem att tier, ite_self,
      implies_true]

include csr mem att tier in
theorem spillMoves_outside (s : State) (pan pool low : Nat) (l : List (Nat × Ident)) :
    (spillMoves pan pool low l s).outside P = s.outside P := by
  induction l generalizing s with
  | nil => rfl
  | cons p rest ih =>
      simp only [spillMoves, State.ite_outside, ih, State.moveStart_outside csr mem att tier, ite_self]

include csr mem att tier in
theorem State.spill_outside (s : State) (pan pool : Nat) : (s.spill pan pool).outside P = s.outside P := by
  simp only [State.spill, State.moverFreed_outside csr mem att tier, spillDrops_outside csr mem att tier,
    spillMoves_outside csr mem att tier, State.ite_outside, ite_self]

include mem att in
theorem State.setSeq_outside (s : State) (i : Nat) (q : Seq) : (s.setSeq i q).outside P = s.outside P := by
  simp only [State.setSeq, State.att_outside att, State.wrTier_outside mem]

include mem att in
theorem State.modSeq_outside (s : State) (i : Nat) (f : Seq → Seq) : (s.modSeq i f).outside P = s.outside P := by
  simp only [State.modSeq, State.setSeq_outside mem att]

include mem att in
theorem State.delPte_outside (s : State) (k : Nat) : (s.delPte k).outside P = s.outside P := by
  simp only [State.delPte, State.att_outside att, State.wrTier_outside mem]

include csr mem att tier in
theorem State.dropEntry_outside (s : State) (k : Nat) : (s.dropEntry k).outside P = s.outside P := by
  simp only [State.dropEntry, State.delPte_outside mem att, State.releaseRef_outside mem att tier,
    State.labDrop_outside csr att, State.ite_outside, ite_self]

include csr mem att tier in
theorem State.releaseSeq_outside (s : State) (seq : Nat) : (s.releaseSeq seq).outside P = s.outside P := by
  simp only [State.releaseSeq, State.dropEntry_outside csr mem att tier, forEach_outside, implies_true]

include csr mem sch att tier in
theorem State.openOn_outside (s : State) (pan i : Nat) (world : Option Nat) (q : Seq) :
    (s.openOn pan i world q).outside P = s.outside P := by
  unfold State.openOn
  split <;> simp only [State.setSeq_outside mem att, State.releaseSeq_outside csr mem att tier,
    State.modPan_outside sch]

include csr mem sch att tier in
theorem State.tryOpen_outside {s t : State} {w : SeqWait} (h : s.tryOpen w = some t) : t.outside P = s.outside P := by
  simp only [State.tryOpen, Option.map_eq_some_iff] at h
  obtain ⟨i, -, rfl⟩ := h
  exact State.openOn_outside csr mem sch att tier s _ _ _ _

include csr mem sch att tier in
theorem openWaiting_outside (s : State) (l : List SeqWait) : (openWaiting l s).outside P = s.outside P := by
  induction l with
  | nil => rfl
  | cons w rest ih =>
    simp only [openWaiting]
    split
    · next opened => rw [State.att_outside att _, State.tryOpen_outside csr mem sch att tier opened]
    · exact ih

include sch in
theorem State.entryPresent_outside (s : State) (pan step k : Nat) :
    (s.entryPresent pan step k).outside P = s.outside P := by
  simp only [State.entryPresent, State.modPan_outside sch]

include csr mem sch att tier in
theorem State.ladleIssue_outside (s : State) (pan step k : Nat) (d : PrefetchDecl) :
    (s.ladleIssue pan step k d).outside P = s.outside P := by
  simp only [State.ladleIssue]
  repeat' split
  all_goals simp only [State.bumpPan_outside csr, State.modPan_outside sch, State.entryPresent_outside sch,
    State.request_outside tier, State.moveStart_outside csr mem att tier]

/-! ## Draws -/

include csr sch in
theorem State.withEntry_outside {f : Nat → State → State} (hf : ∀ tag t, (f tag t).outside P = t.outside P)
    (s : State) (die pan : Nat) (d : StationDecl) (mb slice : Nat) :
    (s.withEntry die pan d mb slice f).outside P = s.outside P :=
  State.issueEntry_outside csr sch (fun tag t => (State.freeEntry_outside sch _ _ _).trans (hf tag t)) s _ _ _ _ _

include lanes in
theorem State.laneStep_outside (s : State) (lane n : Nat) : (s.laneStep lane n).outside P = s.outside P :=
  State.lanes_outside lanes s _

include lanes in
theorem State.takeWords_outside (s : State) (lane n : Nat) : (s.takeWords lane n).2.outside P = s.outside P :=
  State.laneStep_outside lanes s lane n

include csr in
theorem State.sieveCount_outside (s : State) (die : Nat) (d : SampleDesc) (clamps bad nan : Nat) :
    (s.sieveCount die d clamps bad nan).outside P = s.outside P := by
  simp only [State.sieveCount, State.bump_outside csr]

include csr sch in
theorem State.sieveOut_outside (s : State) (pan die : Nat) (st : StationDecl) (i tag : Nat) (r : Row)
    (fmt n cause : Nat) (data : List Byte) :
    (s.sieveOut pan die st i tag r fmt n cause data).outside P = s.outside P := by
  unfold State.sieveOut
  split <;> simp only [State.poisonOut_outside csr, State.give_outside sch, State.ite_outside, ite_self]

include csr sch lanes in
theorem State.drawRow_outside (s : State) (pan : Nat) (st : StationDecl) (d : SampleDesc) (tag : Nat) (r : Row) :
    (s.drawRow pan st d tag r).outside P = s.outside P := by
  simp only [State.drawRow, State.takeWords_outside lanes, State.sieveCount_outside csr,
    State.sieveOut_outside csr sch]

include sch in
theorem State.takeThe_outside (s : State) (pan i c : Nat) (d : StreamDecl) (f : Row → Bool) :
    (s.takeThe pan i c d f).outside P = s.outside P := by
  simp only [State.takeThe, State.setRows_outside sch, drainOut_outside sch, State.ite_outside, ite_self]

include csr sch lanes in
theorem State.sampleNext_outside (s : State) (pan station : Nat) (disc : Bool) :
    (s.sampleNext pan station disc).outside P = s.outside P := by
  simp only [State.sampleNext]
  split
  · rfl
  · split
    · rfl
    · split
      · split
        · exact State.withEntry_outside csr sch (fun tag t => by
            simp only [State.drawRow_outside csr sch lanes, State.takeThe_outside sch]) s _ _ _ _ _
        · rfl
      · rfl

include sch in
theorem State.adoptionPoint_outside (s : State) (pan : Nat) : (s.adoptionPoint pan).outside P = s.outside P := by
  simp only [State.adoptionPoint, State.modPan_outside sch, State.ite_outside, ite_self]

/-! ## Commands, epochs and images -/

include csr audit in
/-- A change that makes records changes the audit log's waits and counts, and what `f` changes. -/
theorem State.whenRoom_outside {f : State → State} (hf : ∀ t, (f t).outside P = t.outside P) (s : State)
    (dies : List Nat) (key : Nat × Nat) : (s.whenRoom dies key f).outside P = s.outside P := by
  simp only [State.whenRoom]
  split
  · split <;> simp only [hf, State.bump_outside csr, State.audit_outside audit]
  · simp only [State.ite_outside, State.bump_outside csr, State.audit_outside audit, ite_self]

include audit in
theorem State.setAux_outside (s : State) (seq aux : Nat) : (s.setAux seq aux).outside P = s.outside P :=
  State.audit_outside audit s _

include hcx in
theorem State.hostWrite_outside (s : State) (addr : Nat) (b : List Byte) :
    (s.hostWrite addr b).outside P = s.outside P :=
  State.hcx_outside hcx s _

include hcx in
theorem State.setQueue_outside (s : State) (pair : Nat) (q : Queue) : (s.setQueue pair q).outside P = s.outside P :=
  State.hcx_outside hcx s _

include csr hcx in
theorem State.postNow_outside (s : State) (c : Completion) : (s.postNow c).outside P = s.outside P := by
  simp only [State.postNow, State.hcx_outside hcx, State.hostWrite_outside hcx, State.setF_outside csr,
    State.setQueue_outside hcx, State.msix_outside csr hcx]

include csr hcx in
theorem State.post_outside (s : State) (c : Completion) : (s.post c).outside P = s.outside P := by
  simp only [State.post, State.hcx_outside hcx, State.postNow_outside csr hcx, State.ite_outside, ite_self]

include csr hcx audit in
theorem State.finish_outside (s : State) (c : Cmd) (status r0 r1 : Nat) :
    (s.finish c status r0 r1).outside P = s.outside P := by
  simp only [State.finish, State.hcx_outside hcx, State.setAux_outside audit, State.post_outside csr hcx]

include csr in
theorem State.clearPub_outside (s : State) : s.clearPub.outside P = s.outside P := by
  simp only [State.clearPub, State.setF_outside csr]

include csr sch in
theorem State.endStage6_outside (s : State) (p : PubWriter) : (s.endStage6 p).outside P = s.outside P := by
  unfold State.endStage6
  split <;> simp only [State.clearPub_outside csr, State.modPan_outside sch, State.freeEntry_outside sch,
    State.ite_outside, ite_self]

include csr sch hcx audit obsv in
theorem State.publishExhausted_outside (s : State) (ws pan station : Nat) (w : WSet) :
    (s.publishExhausted ws pan station w).outside P = s.outside P := by
  simp only [State.publishExhausted, State.alarm_outside csr hcx obsv, State.finish_outside csr hcx audit,
    State.endStage6_outside csr sch, forEach_outside, implies_true]

include csr hcx obsv in
theorem State.publishWait_outside (s : State) (ws waitedUs : Nat) (w : WSet) :
    (s.publishWait ws waitedUs w).outside P = s.outside P := by
  simp only [State.publishWait, State.setF_outside csr, State.setB_outside csr, State.bump_outside csr,
    State.alarm_outside csr hcx obsv, State.ite_outside, ite_self]

include tier fab in
theorem State.sendWeights_outside (s : State) (w : WSet) (target e i : Nat) (b : List Byte) :
    (s.sendWeights w target e i b).outside P = s.outside P := by
  unfold State.sendWeights
  split <;> simp only [State.issue_outside tier fab, forEach_outside, implies_true]

include tier fab in
theorem State.sendEpoch_outside (s : State) (ws e : Nat) : (s.sendEpoch ws e).outside P = s.outside P := by
  unfold State.sendEpoch
  split <;> simp only [State.sendWeights_outside tier fab, forEach_outside, implies_true]

include mem epc in
theorem State.setWset_outside (s : State) (ws : Nat) (w : WSet) : (s.setWset ws w).outside P = s.outside P := by
  simp only [State.setWset, State.epc_outside epc, State.wrTier_outside mem, forEach_outside, implies_true]

include tier fab in
theorem State.epochSend_outside (s : State) (w : WSet) (op : Nat) (b : List Byte) :
    (s.epochSend w op b).outside P = s.outside P := by
  simp only [State.epochSend, State.issue_outside tier fab, forEach_outside, implies_true]

include csr mem epc tier fab hcx audit obsv in
theorem State.putEpoch_outside (s : State) (ws e : Nat) (st : EpochRun) (cause : Nat) :
    (s.putEpoch ws e st cause).outside P = s.outside P := by
  simp only [State.putEpoch]
  repeat' split
  all_goals simp only [State.setWset_outside mem epc, State.audit1_outside csr hcx audit obsv,
    State.epochSend_outside tier fab]

include mem tier fab in
theorem State.ringWrite_outside (s : State) (r : RingSt) (stripe space off : Nat) (b : List Byte) :
    (s.ringWrite r stripe space off b).outside P = s.outside P := by
  unfold State.ringWrite
  split <;> simp only [State.wrTier_outside mem, State.issue_outside tier fab, forEach_outside, implies_true]

include mem rings tier fab in
theorem State.setRing_outside (s : State) (n : Nat) (v : RingSt) : (s.setRing n v).outside P = s.outside P := by
  simp only [State.setRing, State.rings_outside rings, State.wrTier_outside mem, State.ringWrite_outside mem tier fab,
    forEach_outside, implies_true]

include csr mem epc tier fab hcx audit obsv in
theorem State.retireIfDone_outside (s : State) (ws e : Nat) : (s.retireIfDone ws e).outside P = s.outside P := by
  simp only [State.retireIfDone]
  repeat' split
  all_goals simp only [State.putEpoch_outside csr mem epc tier fab hcx audit obsv]

include tier fab in
theorem State.reportEpoch_outside (s : State) (ws e : Nat) : (s.reportEpoch ws e).outside P = s.outside P := by
  simp only [State.reportEpoch]
  repeat' split
  all_goals simp only [State.epochSend_outside tier fab]

include mem epc in
theorem State.modWset_outside (s : State) (ws : Nat) (f : WSet → WSet) :
    (s.modWset ws f).outside P = s.outside P := by
  unfold State.modWset
  split <;> simp only [State.setWset_outside mem epc]

include mem epc tier fab in
theorem State.countEpoch_outside (s : State) (ws e : Nat) (f : EpochEntry → EpochEntry) :
    (s.countEpoch ws e f).outside P = s.outside P := by
  simp only [State.countEpoch, State.reportEpoch_outside tier fab, State.modWset_outside mem epc]

include csr mem epc tier fab hcx audit obsv in
theorem State.subRecords_outside (s : State) (ws e n : Nat) : (s.subRecords ws e n).outside P = s.outside P := by
  simp only [State.subRecords, State.retireIfDone_outside csr mem epc tier fab hcx audit obsv,
    State.countEpoch_outside mem epc tier fab]

include csr mem epc rings tier fab hcx audit obsv in
theorem State.blocksDeadIn_outside (s : State) (ws e ring : Nat) (count : Bool) :
    (s.blocksDeadIn ws e ring count).outside P = s.outside P := by
  unfold State.blocksDeadIn
  split <;> simp only [State.setRing_outside mem rings tier fab,
    State.subRecords_outside csr mem epc tier fab hcx audit obsv, State.ite_outside, ite_self]

include csr mem epc rings tier fab hcx audit obsv in
theorem State.blocksDead_outside (s : State) (ws e : Nat) (count : Bool) :
    (s.blocksDead ws e count).outside P = s.outside P := by
  simp only [State.blocksDead, State.blocksDeadIn_outside csr mem epc rings tier fab hcx audit obsv, forEach_outside,
    implies_true]

include csr mem epc rings tier fab hcx audit obsv in
theorem State.forceRetire_outside (s : State) (ws e : Nat) : (s.forceRetire ws e).outside P = s.outside P := by
  simp only [State.forceRetire, State.bump_outside csr, State.putEpoch_outside csr mem epc tier fab hcx audit obsv,
    State.blocksDead_outside csr mem epc rings tier fab hcx audit obsv]

include csr mem epc tier fab hcx audit obsv in
theorem State.enterEpoch_outside (s : State) (ws slot step : Nat) (own image : Bool) :
    (s.enterEpoch ws slot step own image).outside P = s.outside P := by
  unfold State.enterEpoch
  split <;> simp only [State.modWset_outside mem epc, State.putEpoch_outside csr mem epc tier fab hcx audit obsv]

include csr mem epc rings tier fab hcx audit obsv in
theorem State.issueEpoch_outside (s : State) (ws slot step : Nat) (p : Nat → PubWriter) :
    (s.issueEpoch ws slot step p).outside P = s.outside P := by
  simp only [State.issueEpoch]
  repeat' split
  all_goals simp only [State.forceRetire_outside csr mem epc rings tier fab hcx audit obsv,
    State.modWset_outside mem epc, State.enterEpoch_outside csr mem epc tier fab hcx audit obsv]

include hcx in
theorem State.setCmd_outside (s : State) (c : Cmd) : (s.setCmd c).outside P = s.outside P :=
  State.hcx_outside hcx s _

include csr mem sch epc tier fab hcx audit obsv in
theorem State.provisional_outside (s : State) (ws : Nat) (w : WSet) (p : PubWriter) :
    (s.provisional ws w p).outside P = s.outside P := by
  simp only [State.provisional, State.putEpoch_outside csr mem epc tier fab hcx audit obsv,
    State.endStage6_outside csr sch, State.modWset_outside mem epc, State.ite_outside, ite_self]

include csr mem sch epc rings tier fab hcx audit obsv in
theorem State.publishWrite_outside (s : State) (ws pan station tag : Nat) (w : WSet) :
    (s.publishWrite ws pan station tag w).outside P = s.outside P := by
  simp only [State.publishWrite]
  repeat' split
  all_goals simp only [State.sendEpoch_outside tier fab,
    State.issueEpoch_outside csr mem epc rings tier fab hcx audit obsv, State.setCmd_outside hcx,
    State.modPan_outside sch, State.setF_outside csr, State.clearPub_outside csr,
    State.provisional_outside csr mem sch epc tier fab hcx audit obsv, forEach_outside, implies_true]

include csr mem sch epc rings tier fab hcx audit obsv in
theorem State.publishBegin_outside (s : State) (pan station waitedUs : Nat) (d : StationDecl) :
    (s.publishBegin pan station waitedUs d).outside P = s.outside P := by
  unfold State.publishBegin
  split <;> simp only [State.publishExhausted_outside csr sch hcx audit obsv, State.publishWait_outside csr hcx obsv,
    State.issueEntry_outside csr sch, State.publishWrite_outside csr mem sch epc rings tier fab hcx audit obsv,
    State.ite_outside, ite_self, implies_true]

include csr mem sch epc tier fab hcx audit obsv in
theorem State.chunkGood_outside (s : State) (ws target chunk : Nat) (w : WSet) (p : PubWriter) :
    (s.chunkGood ws target chunk w p).outside P = s.outside P := by
  simp only [State.chunkGood, State.wrTier_outside mem,
    State.provisional_outside csr mem sch epc tier fab hcx audit obsv, State.modWset_outside mem epc,
    State.ite_outside, ite_self]

include csr hcx audit in
theorem State.publishDone_outside (s : State) (ws e : Nat) (st : EpochRun) :
    (s.publishDone ws e st).outside P = s.outside P := by
  simp only [State.publishDone, State.finish_outside csr hcx audit, forEach_outside, implies_true]

include mem in
theorem State.zeroTier_outside (s : State) (space off n : Nat) :
    (s.zeroTier space off n).outside P = s.outside P := by
  simp only [State.zeroTier, State.wrTier_outside mem]

include mem in
theorem State.zeroStream_outside (s : State) (w : WSet) (e : Nat) : (s.zeroStream w e).outside P = s.outside P := by
  unfold State.zeroStream
  split <;> simp only [State.zeroTier_outside mem, State.ite_outside, ite_self]

include csr hcx audit in
theorem State.finishRef_outside (s : State) (r : CmdRef) (status r0 r1 : Nat) :
    (s.finishRef r status r0 r1).outside P = s.outside P := by
  unfold State.finishRef
  split <;> simp only [State.finish_outside csr hcx audit]

include csr mem epc hcx audit in
theorem State.failImage_outside (s : State) (w : WSet) (i : ImgLoad) (reason : Nat) :
    (s.failImage w i reason).outside P = s.outside P := by
  simp only [State.failImage, State.epc_outside epc, State.zeroTier_outside mem, State.setF_outside csr,
    State.finishRef_outside csr hcx audit]

include csr mem sch epc hcx audit in
theorem State.stopWriting_outside (s : State) (w : WSet) (e : Nat) : (s.stopWriting w e).outside P = s.outside P := by
  simp only [State.stopWriting]
  repeat' split
  all_goals simp only [State.zeroStream_outside mem, State.endStage6_outside csr sch,
    State.failImage_outside csr mem epc hcx audit]

include csr att in
theorem State.prefixGone_outside (s : State) (ws e job : Nat) : (s.prefixGone ws e job).outside P = s.outside P := by
  unfold State.prefixGone
  split <;> simp only [State.att_outside att, State.dueCommit_outside csr, State.ite_outside, ite_self,
    forEach_outside, implies_true]

include csr mem sch att epc rings tier fab hcx audit obsv in
theorem State.retractEpoch_outside (s : State) (ws e cause : Nat) :
    (s.retractEpoch ws e cause).outside P = s.outside P := by
  unfold State.retractEpoch
  split <;> simp only [State.putEpoch_outside csr mem epc tier fab hcx audit obsv, State.modWset_outside mem epc,
    State.alarm_outside csr hcx obsv, State.bump_outside csr, State.publishDone_outside csr hcx audit,
    State.stopWriting_outside csr mem sch epc hcx audit,
    State.retireIfDone_outside csr mem epc tier fab hcx audit obsv,
    State.blocksDead_outside csr mem epc rings tier fab hcx audit obsv, State.prefixGone_outside csr att]

include csr mem sch att epc rings tier fab hcx audit obsv in
theorem State.chunkFailed_outside (s : State) (ws target chunk : Nat) (w : WSet) (p : PubWriter) :
    (s.chunkFailed ws target chunk w p).outside P = s.outside P := by
  simp only [State.chunkFailed, State.retractEpoch_outside csr mem sch att epc rings tier fab hcx audit obsv,
    State.modWset_outside mem epc, State.sendWeights_outside tier fab, State.ite_outside, ite_self]

include csr mem epc tier fab hcx audit obsv in
theorem State.remoteDraft_outside (s : State) (ws : Nat) (c : EpochChange) (w : WSet) :
    (s.remoteDraft ws c w).outside P = s.outside P := by
  simp only [State.remoteDraft, State.enterEpoch_outside csr mem epc tier fab hcx audit obsv,
    State.modWset_outside mem epc, State.ite_outside, ite_self]

include csr mem epc tier fab hcx audit obsv in
theorem State.confirmEpoch_outside (s : State) (ws e : Nat) : (s.confirmEpoch ws e).outside P = s.outside P := by
  unfold State.confirmEpoch
  split <;> simp only [State.putEpoch_outside csr mem epc tier fab hcx audit obsv, State.modWset_outside mem epc,
    State.publishDone_outside csr hcx audit, State.retireIfDone_outside csr mem epc tier fab hcx audit obsv,
    State.bump_outside csr]

include csr mem sch att epc rings tier fab hcx audit obsv in
theorem State.applyNow_outside (s : State) (ws : Nat) (c : EpochChange) (w : WSet) :
    (s.applyNow ws c w).outside P = s.outside P := by
  unfold State.applyNow
  split <;> simp only [State.remoteDraft_outside csr mem epc tier fab hcx audit obsv,
    State.putEpoch_outside csr mem epc tier fab hcx audit obsv,
    State.confirmEpoch_outside csr mem epc tier fab hcx audit obsv,
    State.retractEpoch_outside csr mem sch att epc rings tier fab hcx audit obsv,
    State.blocksDead_outside csr mem epc rings tier fab hcx audit obsv, State.ite_outside, ite_self]

include csr mem sch att epc rings tier fab hcx audit obsv in
theorem State.tryChange_outside (s : State) (ws : Nat) (c : EpochChange) :
    (s.tryChange ws c).outside P = s.outside P := by
  unfold State.tryChange
  split <;> simp only [State.modWset_outside mem epc,
    State.applyNow_outside csr mem sch att epc rings tier fab hcx audit obsv, State.ite_outside, ite_self]

include csr mem sch att epc rings tier fab hcx audit obsv in
theorem State.applyChange_outside (s : State) (ws : Nat) (c : EpochChange) :
    (s.applyChange ws c).outside P = s.outside P := by
  simp only [State.applyChange, State.tryChange_outside csr mem sch att epc rings tier fab hcx audit obsv,
    State.modWset_outside mem epc, State.ite_outside, ite_self, forEach_outside, implies_true]

include csr mem sch att epc rings tier fab hcx audit obsv in
theorem State.payloadFail_outside (s : State) (w : WSet) (i : ImgLoad) (reason : Nat) :
    (s.payloadFail w i reason).outside P = s.outside P := by
  simp only [State.payloadFail, State.retractEpoch_outside csr mem sch att epc rings tier fab hcx audit obsv,
    State.failImage_outside csr mem epc hcx audit]

include csr in
theorem State.countSealed_outside (s : State) (off : Nat) (good : Bool) :
    (s.countSealed off good).outside P = s.outside P := by
  simp only [State.countSealed, State.bump_outside csr]

include csr mem sch att epc rings tier fab hcx audit obsv in
theorem State.imageChunk_outside (s : State) (w : WSet) (i : ImgLoad) (data tag : List Byte) :
    (s.imageChunk w i data tag).outside P = s.outside P := by
  simp only [State.imageChunk]
  split <;> simp only [State.epc_outside epc,
    State.payloadFail_outside csr mem sch att epc rings tier fab hcx audit obsv, State.countSealed_outside csr,
    State.wrTier_outside mem, State.sendWeights_outside tier fab, State.setF_outside csr,
    State.finishRef_outside csr hcx audit, State.confirmEpoch_outside csr mem epc tier fab hcx audit obsv,
    State.ite_outside, ite_self, forEach_outside, implies_true]

include csr audit in
theorem State.onCmd_outside {f : Cmd → State → State} (hf : ∀ c t, (f c t).outside P = t.outside P) (s : State)
    (r : CmdRef) (op : Nat) : (s.onCmd r op f).outside P = s.outside P := by
  unfold State.onCmd
  split
  · next c _ => simp only [State.ite_outside, State.whenRoom_outside csr audit (hf c), ite_self]
  · rfl

/-! ## Rings -/

include mem rings tier fab in
theorem State.sendClaim_outside (s : State) (pan : Nat) (d : RecordDecl) (g : RingSt) (k : Nat) :
    (s.sendClaim pan d g k).outside P = s.outside P := by
  simp only [State.sendClaim, State.issue_outside tier fab, State.setRing_outside mem rings tier fab,
    State.ite_outside, ite_self]

include mem epc tier fab in
theorem State.addRecords_outside (s : State) (ws e n : Nat) : (s.addRecords ws e n).outside P = s.outside P := by
  simp only [State.addRecords, State.countEpoch_outside mem epc tier fab]

include csr mem epc rings tier fab hcx audit obsv in
theorem State.openBlock_outside (s : State) (ring i step ws epoch : Nat) :
    (s.openBlock ring i step ws epoch).outside P = s.outside P := by
  unfold State.openBlock
  split <;> simp only [State.setRing_outside mem rings tier fab,
    State.subRecords_outside csr mem epc tier fab hcx audit obsv, State.addRecords_outside mem epc tier fab,
    State.bump_outside csr, State.ite_outside, ite_self]

include csr mem epc rings tier fab hcx audit obsv in
theorem State.stepBlock_outside (s : State) (pan : Nat) (d : RecordDecl) :
    (s.stepBlock pan d).outside P = s.outside P := by
  simp only [State.stepBlock]
  repeat' split
  all_goals simp only [State.openBlock_outside csr mem epc rings tier fab hcx audit obsv]

include tier in
theorem State.wrote_outside (s : State) (die pan space off len : Nat) (dest : ReqFor) :
    (s.wrote die pan space off len dest).outside P = s.outside P := by
  simp only [State.wrote, State.request_outside tier]

include csr mem rings tier fab in
theorem State.setIndex_outside (s : State) (ring place wgen flags prio : Nat) :
    (s.setIndex ring place wgen flags prio).outside P = s.outside P := by
  unfold State.setIndex
  split <;> simp only [State.setRing_outside mem rings tier fab, State.bump_outside csr, State.ite_outside, ite_self]

include csr mem rings tier fab in
theorem State.writeRecord_outside (s : State) (pan : Nat) (d : RecordDecl) (lens : List Nat) (k : Nat) (r : RecordIn)
    (x : WorldRow) : (s.writeRecord pan d lens k r x).outside P = s.outside P := by
  unfold State.writeRecord
  split <;> simp only [State.ringWrite_outside mem tier fab, State.wrote_outside tier, State.narrow_outside csr,
    State.bump_outside csr, State.setIndex_outside csr mem rings tier fab, State.setRing_outside mem rings tier fab,
    State.ite_outside, ite_self]

include csr mem rings tier fab in
theorem State.completeRecord_outside (s : State) (ring stripe k w reward : Nat) (done trunc : Bool) (cause : Nat) :
    (s.completeRecord ring stripe k w reward done trunc cause).outside P = s.outside P := by
  unfold State.completeRecord
  split <;> simp only [State.setRing_outside mem rings tier fab, State.bump_outside csr,
    State.setIndex_outside csr mem rings tier fab, State.ringWrite_outside mem tier fab, State.ite_outside,
    ite_self]

include csr mem epc rings tier fab hcx audit obsv in
theorem State.recordStep_outside (s : State) (pan : Nat) (d : RecordDecl) (lens : List Nat) (r : RecordIn) :
    (s.recordStep pan d lens r).outside P = s.outside P := by
  simp only [State.recordStep]
  repeat' split
  all_goals simp only [State.stepBlock_outside csr mem epc rings tier fab hcx audit obsv,
    State.writeRecord_outside csr mem rings tier fab, State.completeRecord_outside csr mem rings tier fab]

include sch in
theorem State.takeRecord_outside (s : State) (pan : Nat) (st : StationDecl) (mb n : Nat) :
    (s.takeRecord pan st mb n).outside P = s.outside P := by
  unfold State.takeRecord
  exact forEach_outside (fun t i => by split <;> simp only [State.takeThe_outside sch]) _ s

include tier in
theorem State.flashTouch_outside (s : State) (ring : Option Nat) (off n : Nat) :
    (s.flashTouch ring off n).outside P = s.outside P := by
  simp only [State.flashTouch, State.setFlash_outside tier, State.ite_outside, ite_self, forEach_outside,
    implies_true]

include mem rings tier fab in
theorem State.evictPart_outside (s : State) (ring extent key k : Nat) :
    (s.evictPart ring extent key k).outside P = s.outside P := by
  unfold State.evictPart
  split <;> simp only [State.flashTouch_outside tier, State.wrTier_outside mem,
    State.setRing_outside mem rings tier fab, State.ite_outside, ite_self]

include csr mem rings tier fab in
theorem State.evict_outside (s : State) (ring extent : Nat) : (s.evict ring extent).outside P = s.outside P := by
  unfold State.evict
  split <;> simp only [State.bump_outside csr, State.evictPart_outside mem rings tier fab, State.ite_outside,
    ite_self, forEach_outside, implies_true]

include csr mem rings tier fab in
theorem State.prioUpdate_outside (s : State) (ring : Nat) (g : RingSt) (pos prio : Nat) :
    (s.prioUpdate ring g pos prio).outside P = s.outside P := by
  simp only [State.prioUpdate, State.bump_outside csr, State.setRing_outside mem rings tier fab, State.ite_outside,
    ite_self]

include free in
theorem State.maskedRow_outside (s : State) (paylen : Nat) (pos p : Option Nat) :
    (s.maskedRow paylen pos p).2.outside P = s.outside P := by
  simp only [State.maskedRow, State.draw, State.free_outside free]

include free in
theorem State.segment_outside (s : State) (g : RingSt) (paylen len lastConf i k w p : Nat) :
    (s.segment g paylen len lastConf i k w p).2.outside P = s.outside P := by
  unfold State.segment
  refine foldl_snd_outside (fun a n => ?_) _ ([], s)
  simp only
  split
  · rfl
  · simp only [State.maskedRow_outside free]

include free csr lanes in
theorem State.drawSegment_outside (s : State) (g : RingSt) (st : StationDecl) (d : DrawDecl) (paylen j : Nat) :
    (s.drawSegment g st d paylen j).2.outside P = s.outside P := by
  simp only [State.drawSegment]
  split <;> simp only [foldl_snd_outside, State.maskedRow_outside free, State.segment_outside free,
    State.narrow_outside csr, State.bump_outside csr, State.takeWords_outside lanes, implies_true]

include sch in
theorem State.emitDraw_outside (s : State) (pan : Nat) (st : StationDecl) (tag i n : Nat) (b : List Byte) :
    (s.emitDraw pan st tag i n b).outside P = s.outside P := by
  simp only [State.emitDraw]
  split <;> simp only [State.give_outside sch]

include free csr mem sch lanes rings tier fab in
theorem State.drawRun_outside (s : State) (pan tag : Nat) (st : StationDecl) (d : DrawDecl) (g : RingSt) :
    (s.drawRun pan tag st d g).outside P = s.outside P := by
  simp only [State.drawRun, forEach_outside, State.emitDraw_outside sch, State.setRing_outside mem rings tier fab,
    State.bump_outside csr, foldl_snd_outside, State.drawSegment_outside free csr lanes, implies_true]

/-! ## Outcomes -/

/-- Every next state that an outcome answers differs from `s` in the chosen parts alone. -/
def Keeps (P : Parts) (s : State) (o : Out) : Prop := ∀ t, o = .next t → t.outside P = s.outside P

theorem keeps_next {s t : State} (h : t.outside P = s.outside P) : Keeps P s (.next t) := by
  rintro u ⟨⟩
  exact h

theorem keeps_need {s : State} {o : Out} (h : Keeps P s o) {ok : Bool} {unit : String} :
    Keeps P s (need ok unit o) := by
  cases ok
  · rintro t ⟨⟩
  · exact h

theorem keeps_whenThere {s : State} {o : Out} (h : Keeps P s o) {ok : Bool} : Keeps P s (whenThere ok s o) := by
  cases ok
  · exact keeps_next rfl
  · exact h

/-! ## Commands on registers -/

include free csr wo1 grains fab col hcx audit clk obsv in
theorem keeps_execAuditStagingAccept (s : State) (die waitedUs : Nat) :
    Keeps P s (execAuditStagingAccept die waitedUs s) := by
  refine keeps_need (keeps_next ?_)
  split
  · simp only [State.ite_outside, State.csrWriteNow_outside free csr wo1 grains fab col hcx audit clk obsv,
      State.bump_outside csr, State.audit_outside audit, ite_self]
  · rfl

include free csr wo1 grains fab col hcx audit clk obsv in
/-- A command on registers changes registers, what they set going at once, and the audit log. -/
theorem keeps_onRegisters (s : State) (c : Instr) (hc : Part.onRegisters c = true) : Keeps P s (exec c s) := by
  have write := State.writeAt_outside free csr wo1 grains fab col hcx audit clk obsv s
  have arrives := State.numberArrives_outside csr wo1 fab col hcx clk obsv
  cases c with
  | brkDbgResume o _ _ v => exact keeps_need (keeps_next (write o _ _ v))
  | brkFaultClear o _ _ v => exact keeps_need (keeps_next (write o _ _ v))
  | mxaModeWrite o _ _ v => exact keeps_need (keeps_next (write o _ _ v))
  | mxaFlagsClear o _ _ _ v _ =>
      exact keeps_need (keeps_next ((State.setF_outside csr _ _ _ _).trans (write o _ _ v)))
  | mxaErrClear o _ _ v => exact keeps_need (keeps_next (write o _ _ v))
  | schSplitWrite o _ _ v => exact keeps_need (keeps_next (write o _ _ v))
  | attPmodeWrite o _ _ v => exact keeps_need (keeps_next (write o _ _ v))
  | fabPctlEnable o _ _ v => exact keeps_need (keeps_next (write o _ _ v))
  | routeSdataWrite o _ v => exact keeps_need (keeps_next (write o _ _ v))
  | routeSdone o _ v => exact keeps_need (keeps_next (write o _ _ v))
  | routeFlip o _ v => exact keeps_need (keeps_next (write o _ _ v))
  | llpRejoin o _ _ => exact keeps_need (keeps_next (write o _ _ _))
  | llpRetrain o _ _ => exact keeps_need (keeps_next (write o _ _ _))
  | aonYield o _ v => exact keeps_need (keeps_next (write o _ _ v))
  | aonDevnumWrite o v boot => exact keeps_next ((arrives _ boot).trans (write o _ _ v))
  | dieOpWrite o _ v => exact keeps_need (keeps_next (write o _ _ v))
  | auditStagingAccept die us =>
    exact keeps_execAuditStagingAccept free csr wo1 grains fab col hcx audit clk obsv s die us
  | auditAckWrite o v => exact keeps_next (write o _ _ v)
  | perfSelectWrite o csr' v =>
    exact keeps_whenThere (keeps_next
      (State.csrWrite_outside free csr wo1 grains fab col hcx audit clk obsv s o csr' v))
  | alarmRelease o v =>
    refine keeps_next ?_
    split
    · exact write o _ _ v
    · rfl
  | registerWrite o csr' v =>
    exact keeps_next ((arrives _ _).trans
      (State.csrWrite_outside free csr wo1 grains fab col hcx audit clk obsv s o csr' v))
  | _ => exact absurd hc Bool.false_ne_true

/-! ## Commands on arrays and mortar links -/

include time csr in
theorem keeps_execD2dRetrainTimeout (s : State) (die port rerouted : Nat) :
    Keeps P s (execD2dRetrainTimeout die port rerouted s) := by
  refine keeps_need (keeps_next ?_)
  simp only [State.ite_outside, forEach_outside, State.setF_outside csr, State.linkTo_outside csr,
    State.bump_outside csr, State.until_outside time, ite_self, implies_true]

include csr mem arrays sch tier fab col in
theorem keeps_execTileOpRetire (s : State) (optag cause : Nat) : Keeps P s (execTileOpRetire optag cause s) := by
  refine keeps_next ?_
  simp only [State.ite_outside, State.bump_outside csr, State.stepExchs_outside csr mem sch tier fab col,
    State.retireOp_outside csr sch, State.drainArray_outside arrays sch, ite_self]

/-- Of the commands on arrays and mortar links, the one that moves TIME to the time it was due (R131). -/
def Part.timesOut : Instr → Bool
  | .d2dRetrainTimeout .. => true
  | _ => false

include csr mem arrays sch in
/-- A command on arrays changes registers, memory, arrays and schedulers; one that may send, what a release sets going
too; a timeout, TIME. -/
theorem keeps_onArrays (s : State) (c : Instr) (hc : Part.onArrays c = true)
    (sends : Part.sends c = true → P.tier ∧ P.fab ∧ P.col) (timesOut : Part.timesOut c = true → P.time) :
    Keeps P s (exec c s) := by
  cases c with
  | swap _ _ _ => exact keeps_need (keeps_next (State.swapTry_outside csr mem arrays s _ _ _))
  | backgroundLoadDone _ _ _ => exact keeps_need (keeps_next (State.loadDone_outside csr arrays s _ _ _))
  | mxaCommand _ _ _ _ _ _ =>
    refine keeps_need (keeps_next ?_)
    simp only [State.ite_outside, State.mxaCommand_outside csr mem arrays sch, ite_self]
  | d2dRetrainDone _ _ _ =>
    refine keeps_need (keeps_next ?_)
    simp only [State.ite_outside, State.bump_outside csr, State.linkTo_outside csr, ite_self]
  | d2dRetrainTimeout die port u => exact keeps_execD2dRetrainTimeout (timesOut rfl) csr s die port u
  | tileOpRetire optag cause =>
    obtain ⟨tier, fab, col⟩ := sends rfl
    exact keeps_execTileOpRetire csr mem arrays sch tier fab col s optag cause
  | localBoundary _ _ =>
    refine keeps_whenThere (keeps_next ?_)
    simp only [State.ite_outside, State.modPan_outside sch, ite_self]
  | _ => exact absurd hc Bool.false_ne_true

/-! ## Commands on sequences, pages, buffers, media and draws -/

include csr mem att tier in
theorem keeps_execMemorySideOp (s : State) (space offset : Nat) (op : MsOp) (elem : Elem) (data cmp : List Byte) :
    Keeps P s (execMemorySideOp space offset op elem data cmp s) := by
  refine keeps_next ?_
  have access := State.access_outside csr mem tier
  split
  · rfl
  · split
    · exact (access _ _ _ _).trans (State.msCount_outside csr s _ _ _)
    · split
      · simp only [State.ite_outside, access, State.liftAll_outside csr mem att tier, State.tier_outside tier,
          ite_self]
      · exact State.bump_outside csr s _ _ _

include csr tier hcx obsv in
theorem keeps_execBufferAllocate (s : State) (pan pool bytes : Nat) (movable : Bool) :
    Keeps P s (execBufferAllocate pan pool bytes movable s) := by
  refine keeps_need (keeps_whenThere (keeps_next ?_))
  split
  · next got => exact State.tryAlloc_outside tier got
  · simp only [State.alarm_outside csr hcx obsv, State.bumpPan_outside csr, State.tier_outside tier]

include csr sch tier hcx obsv in
theorem keeps_execBufferFree (s : State) (pan : Nat) (handle : U64) (station : Option Nat) :
    Keeps P s (execBufferFree pan handle station s) := by
  refine keeps_next ?_
  simp only [State.ite_outside, State.moveResult_outside sch, State.endBuf_outside tier,
    State.alarm_outside csr hcx obsv, State.bumpPan_outside csr, ite_self]

include csr mem sch att tier hcx obsv in
theorem keeps_execSeqOpen (s : State) (pan : Nat) (world : Option Nat)
    (layers kvheads headdim fmt mode entries table : Nat) :
    Keeps P s (execSeqOpen pan world layers kvheads headdim fmt mode entries table s) := by
  refine keeps_whenThere (keeps_next ?_)
  split
  · next opened => exact State.tryOpen_outside csr mem sch att tier opened
  · simp only [State.alarm_outside csr hcx obsv, State.bumpPan_outside csr, State.att_outside att]

include time csr mem sch att lanes tier hcx obsv in
/-- A command on sequences, pages, buffers, media and draws changes TIME, registers, memory, tiers, pages, lanes,
schedulers, alarms and signals. -/
theorem keeps_onTiers (s : State) (c : Instr) (hc : Part.onTiers c = true) : Keeps P s (exec c s) := by
  cases c with
  | memorySideOp _ _ _ _ _ _ => exact keeps_execMemorySideOp csr mem att tier s _ _ _ _ _ _
  | patrolScrub _ _ =>
    exact keeps_need (keeps_next ((State.setF_outside csr _ _ _ _).trans (State.bump_outside csr s _ _ _)))
  | flashRelocate _ _ =>
    refine keeps_need (keeps_whenThere (keeps_next ?_))
    simp only [State.ite_outside, State.flashWear_outside csr, State.setFlash_outside tier, ite_self]
  | flashProgramFail _ _ =>
    refine keeps_need (keeps_whenThere (keeps_next ?_))
    simp only [State.flashSpare_outside csr hcx obsv, State.bump_outside csr, State.setFlash_outside tier]
  | bufferAllocate _ _ _ _ => exact keeps_execBufferAllocate csr tier hcx obsv s _ _ _ _
  | bufferFree _ _ _ => exact keeps_execBufferFree csr sch tier hcx obsv s _ _ _
  | bufferQuarantineExpiry _ =>
    refine keeps_next ?_
    simp only [State.ite_outside, State.poolFreed_outside tier, State.setBuf_outside tier, State.until_outside time,
      ite_self]
  | moveStart _ _ _ _ => exact keeps_need (keeps_next (State.moveStart_outside csr mem att tier s _ _ _ _))
  | stubAccess _ _ => exact keeps_next (State.stubAccess_outside csr mem tier s _ _)
  | walk _ _ _ _ _ _ =>
    refine keeps_need (keeps_next ?_)
    simp only [State.ite_outside, State.walk_outside csr att, ite_self]
  | spill _ _ => exact keeps_need (keeps_whenThere (keeps_next (State.spill_outside csr mem att tier s _ _)))
  | seqQuarantineExpiry _ =>
    refine keeps_next ?_
    simp only [State.ite_outside, openWaiting_outside csr mem sch att tier, State.modSeq_outside mem att,
      State.until_outside time, ite_self]
  | ladlePrefetch _ =>
    refine keeps_whenThere (keeps_next ?_)
    split
    · exact State.ladleIssue_outside csr mem sch att tier s _ _ _ _
    · rfl
  | discreteDraw _ _ => exact keeps_whenThere (keeps_next (State.sampleNext_outside csr sch lanes s _ _ true))
  | continuousDraw _ _ => exact keeps_whenThere (keeps_next (State.sampleNext_outside csr sch lanes s _ _ false))
  | seqOpen _ _ _ _ _ _ _ _ _ => exact keeps_execSeqOpen csr mem sch att tier hcx obsv s _ _ _ _ _ _ _ _ _
  | _ => exact absurd hc Bool.false_ne_true

/-! ## Commands on epochs and rings -/

include csr mem sch epc rings tier fab hcx audit obsv in
theorem keeps_execPublishBegin (s : State) (pan station waitedUs : Nat) :
    Keeps P s (execPublishBegin pan station waitedUs s) := by
  refine keeps_whenThere (keeps_next ?_)
  split
  · next d _ => exact State.whenRoom_outside csr audit (fun t =>
      State.publishBegin_outside csr mem sch epc rings tier fab hcx audit obsv t pan station waitedUs d) s _ _
  · rfl

include csr mem sch att epc rings tier fab hcx audit obsv in
theorem keeps_execPublishChunkAck (s : State) (ws target chunk : Nat) (answer : ChunkAnswer) :
    Keeps P s (execPublishChunkAck ws target chunk answer s) := by
  unfold execPublishChunkAck
  split
  · exact keeps_next rfl
  · refine keeps_next ?_
    split
    · rfl
    · split
      · rfl
      · refine State.whenRoom_outside csr audit (fun t => ?_) s _ _
        cases answer
        · exact State.chunkGood_outside csr mem sch epc tier fab hcx audit obsv t _ _ _ _ _
        · exact State.chunkFailed_outside csr mem sch att epc rings tier fab hcx audit obsv t _ _ _ _ _
        · exact State.retractEpoch_outside csr mem sch att epc rings tier fab hcx audit obsv t _ _ _

include csr mem sch att epc rings tier fab hcx audit obsv in
theorem keeps_execImageChunk (s : State) (ws : Nat) (data tag : List Byte) :
    Keeps P s (execImageChunk ws data tag s) := by
  unfold execImageChunk
  split
  · exact keeps_next rfl
  · next w _ =>
    refine keeps_next ?_
    split
    · next i _ =>
      have written := State.whenRoom_outside csr audit (fun t =>
        State.imageChunk_outside csr mem sch att epc rings tier fab hcx audit obsv t w i data tag) s [16] (1, ws)
      simp only [State.ite_outside, written, ite_self]
    · rfl

include csr mem sch att epc rings tier fab hcx audit obsv in
theorem keeps_execRetract (s : State) (cmd : CmdRef) : Keeps P s (execRetract cmd s) := by
  refine keeps_next (State.onCmd_outside csr audit (fun c t => ?_) s cmd 0x0C)
  have finish := State.finish_outside csr hcx audit
  dsimp only
  split
  · exact finish t c _ _ _
  · split
    · exact finish t c _ _ _
    · split
      · rw [finish, State.retractEpoch_outside csr mem sch att epc rings tier fab hcx audit obsv]
        split
        · simp only [State.ite_outside, State.epochSend_outside tier fab, ite_self]
        · rfl
      · exact finish t c _ _ _

include csr mem sch epc rings tier fab hcx audit obsv in
theorem keeps_execRecordWrite (s : State) (pan station : Nat) : Keeps P s (execRecordWrite pan station s) := by
  refine keeps_whenThere (keeps_next ?_)
  dsimp only
  split
  · rfl
  · split
    · split
      · split
        · split
          · exact State.sendClaim_outside mem rings tier fab s _ _ _ _
          · exact State.withEntry_outside csr sch (fun tag t => by
              simp only [State.recordStep_outside csr mem epc rings tier fab hcx audit obsv,
                State.takeRecord_outside sch]) s _ _ _ _ _
        · rfl
      · rfl
    · rfl

include free csr mem sch lanes rings tier fab in
theorem keeps_execDrawIssue (s : State) (pan station waitedUs : Nat) :
    Keeps P s (execDrawIssue pan station waitedUs s) := by
  refine keeps_whenThere (keeps_next ?_)
  split
  · rfl
  · split
    · rfl
    · simp only [State.ite_outside, State.issueEntry_outside csr sch,
        State.drawRun_outside free csr mem sch lanes rings tier fab, State.bump_outside csr, ite_self, implies_true]

include free csr mem sch lanes epc rings tier fab hcx audit obsv in
/-- A command on epochs and rings changes free numbers, registers, memory, schedulers, lanes, epochs, rings, tiers,
packets, signals, audit and alarms; one that may end an epoch, pages too. -/
theorem keeps_onEpochs (s : State) (c : Instr) (hc : Part.onEpochs c = true)
    (ends : Part.endsEpochs c = true → P.att) : Keeps P s (exec c s) := by
  cases c with
  | adoptionPoint _ => exact keeps_whenThere (keeps_next (State.adoptionPoint_outside sch s _))
  | publishBegin _ _ _ => exact keeps_execPublishBegin csr mem sch epc rings tier fab hcx audit obsv s _ _ _
  | publishChunkAck _ _ _ _ =>
    exact keeps_execPublishChunkAck csr mem sch (ends rfl) epc rings tier fab hcx audit obsv s _ _ _ _
  | epochChangeMessage _ _ _ _ _ =>
    exact keeps_whenThere (keeps_next (State.whenRoom_outside csr audit (fun t =>
      State.applyChange_outside csr mem sch (ends rfl) epc rings tier fab hcx audit obsv t _ _) s _ _))
  | imageChunk _ _ _ => exact keeps_execImageChunk csr mem sch (ends rfl) epc rings tier fab hcx audit obsv s _ _ _
  | retract _ => exact keeps_execRetract csr mem sch (ends rfl) epc rings tier fab hcx audit obsv s _
  | recordWrite _ _ => exact keeps_execRecordWrite csr mem sch epc rings tier fab hcx audit obsv s _ _
  | stagingEviction _ _ => exact keeps_whenThere (keeps_next (State.evict_outside csr mem rings tier fab s _ _))
  | priorityUpdate ring _ _ =>
    change Keeps P s (execPriorityUpdate ring _ _ s)
    unfold execPriorityUpdate
    split
    · exact keeps_next rfl
    · exact keeps_next (State.prioUpdate_outside csr mem rings tier fab s _ _ _ _)
  | drawIssue _ _ _ => exact keeps_execDrawIssue free csr mem sch lanes rings tier fab s _ _ _
  | _ => exact absurd hc Bool.false_ne_true

end Frames

/-! ## The parts that each group changes -/

/-- What commands on registers change: registers with their free numbers and WO1 marks, grains that go on, links and
rings that train, signals, the audit log, the lease and alarms. -/
def Part.registersChange : Parts :=
  { free := true, csr := true, wo1 := true, grains := true, fab := true, col := true, hcx := true, audit := true
    clk := true, obsv := true }

/-- What a command on arrays changes. -/
def Part.arraysChange (c : Instr) : Parts :=
  { time := Part.timesOut c, csr := true, mem := true, arrays := true, sch := true, tier := Part.sends c
    fab := Part.sends c, col := Part.sends c }

/-- What commands on sequences, pages, buffers, media and draws change. -/
def Part.tiersChange : Parts :=
  { time := true, csr := true, mem := true, sch := true, att := true, lanes := true, tier := true, hcx := true
    obsv := true }

/-- What a command on epochs and rings changes. -/
def Part.epochsChange (c : Instr) : Parts :=
  { free := true, csr := true, mem := true, sch := true, att := Part.endsEpochs c, lanes := true, epc := true
    rings := true, tier := true, fab := true, hcx := true, audit := true, obsv := true }

theorem Part.timesOut_eq_true {c : Instr} (h : Part.timesOut c = true) :
    ∃ die port u, c = .d2dRetrainTimeout die port u := by
  cases c with
  | d2dRetrainTimeout die port u => exact ⟨die, port, u, rfl⟩
  | _ => exact absurd h Bool.false_ne_true

theorem outside_of_onRegisters {c : Instr} {s t : State} (hc : Part.onRegisters c = true)
    (h : exec c s = .next t) : t.outside Part.registersChange = s.outside Part.registersChange :=
  keeps_onRegisters rfl rfl rfl rfl rfl rfl rfl rfl rfl rfl s c hc t h

theorem outside_of_onArrays {c : Instr} {s t : State} (hc : Part.onArrays c = true)
    (h : exec c s = .next t) : t.outside (Part.arraysChange c) = s.outside (Part.arraysChange c) :=
  keeps_onArrays rfl rfl rfl rfl s c hc (fun sends => ⟨sends, sends, sends⟩) id t h

theorem outside_of_onTiers {c : Instr} {s t : State} (hc : Part.onTiers c = true)
    (h : exec c s = .next t) : t.outside Part.tiersChange = s.outside Part.tiersChange :=
  keeps_onTiers rfl rfl rfl rfl rfl rfl rfl rfl rfl s c hc t h

theorem outside_of_onEpochs {c : Instr} {s t : State} (hc : Part.onEpochs c = true)
    (h : exec c s = .next t) : t.outside (Part.epochsChange c) = s.outside (Part.epochsChange c) :=
  keeps_onEpochs rfl rfl rfl rfl rfl rfl rfl rfl rfl rfl rfl rfl s c hc id t h

/-- Settles O59: the commands of each group keep the state outside the parts they change, and each part that the
statement names lies there. -/
theorem framesOfUnits : Obligations.FramesOfUnits := by
  unfold Obligations.FramesOfUnits
  intro c s t next
  refine ⟨fun hc => ?_, fun hc => ?_, fun hc => ?_, fun hc => ?_⟩
  · obtain ⟨pending, time, -, -, -, mem, -, -, bricks, arrays, sch, att, lanes, epc, -, tier, -, -, wpt, -,
      ckp, -, keys, -, -⟩ := State.outside_eq_iff.1 (outside_of_onRegisters hc next)
    exact ⟨pending rfl, time rfl, mem rfl, bricks rfl, arrays rfl, sch rfl, att rfl, lanes rfl, epc rfl, tier rfl,
      wpt rfl, ckp rfl, keys rfl⟩
  · obtain ⟨pending, time, free, -, wo1, -, -, grains, bricks, -, -, att, lanes, epc, rings, tier, fab, col, wpt, hcx,
      ckp, audit, keys, clk, obsv⟩ := State.outside_eq_iff.1 (outside_of_onArrays hc next)
    have moved : t.time = s.time ∨ ∃ die port u, c = .d2dRetrainTimeout die port u := by
      cases late : Part.timesOut c
      · exact .inl (time late)
      · exact .inr (Part.timesOut_eq_true late)
    exact ⟨pending rfl, free rfl, wo1 rfl, grains rfl, bricks rfl, att rfl, lanes rfl, epc rfl, rings rfl,
      fun quiet => ⟨tier quiet, fab quiet, col quiet⟩, moved, wpt rfl, hcx rfl, ckp rfl, audit rfl, keys rfl, clk rfl,
      obsv rfl⟩
  · obtain ⟨pending, -, -, -, wo1, -, -, grains, bricks, arrays, -, -, -, epc, rings, -, fab, col, wpt, -, ckp,
      audit, keys, clk, -⟩ := State.outside_eq_iff.1 (outside_of_onTiers hc next)
    exact ⟨pending rfl, wo1 rfl, grains rfl, bricks rfl, arrays rfl, epc rfl, rings rfl, fab rfl, col rfl, wpt rfl,
      ckp rfl, audit rfl, keys rfl, clk rfl⟩
  · obtain ⟨pending, time, -, -, wo1, -, -, grains, bricks, arrays, -, att, -, -, -, -, -, col, wpt, -, ckp, -,
      keys, clk, -⟩ := State.outside_eq_iff.1 (outside_of_onEpochs hc next)
    exact ⟨pending rfl, time rfl, wo1 rfl, grains rfl, bricks rfl, arrays rfl, col rfl, wpt rfl, ckp rfl, keys rfl,
      clk rfl, att⟩

end Sys2Proof.Machine
end

section
/-!
How a command stops. Every command answers a next state, or refuses for a unit that the device does not have, and the
fields of a well-formed command lie in the range of that unit.
-/

namespace Sys2Proof.Machine

/-- The outcome is a next state where `ok` holds, and otherwise a next state or the refusal of a missing unit. -/
def StopsOnly (ok : Bool) (o : Out) : Prop :=
  (ok = true → ∃ t, o = .next t) ∧ (∀ f, o ≠ .fault f) ∧ ∀ r, o = .refused r → ∃ u, r = .noSuchUnit u

section Stops

variable {ok b : Bool} {o : Out} {s t : State} {u : String}

theorem stopsOnly_next : StopsOnly ok (.next t) := by
  refine ⟨fun _ => ⟨t, rfl⟩, fun _ h => ?_, fun _ h => ?_⟩
  · cases h
  · cases h

theorem need_refuses (h : ¬ b = true) : need b u o = .refused (.noSuchUnit u) :=
  if_neg h

theorem stopsOnly_need (h : ok = true → b = true) (ho : StopsOnly ok o) : StopsOnly ok (need b u o) := by
  by_cases hb : b = true
  · rwa [need, if_pos hb]
  · rw [need_refuses hb]
    refine ⟨fun hk => absurd (h hk) hb, fun _ hf => ?_, fun _ hr => ?_⟩
    · cases hf
    · exact ⟨u, (Host.Outcome.refused.inj hr).symm⟩

theorem stopsOnly_need_next (h : ok = true → b = true) : StopsOnly ok (need b u (.next t)) :=
  stopsOnly_need h stopsOnly_next

theorem stopsOnly_whenThere (ho : StopsOnly ok o) : StopsOnly ok (whenThere b s o) := by
  unfold whenThere
  split
  · exact ho
  · exact stopsOnly_next

theorem stopsOnly_whenThere_next : StopsOnly ok (whenThere b s (.next t)) :=
  stopsOnly_whenThere stopsOnly_next

end Stops

/-! ### The unit that a command names, where the command is well formed -/

theorem isGrain_of_grainOk {die brick grain : Nat} (h : Instr.grainOk die brick grain = true) :
    isGrain die brick grain = true := h

/-- The custom-0 forms give an ECC class and three register numbers beside the grain. -/
theorem isGrain_of_operands {die brick grain : Nat} {ecc rd rs1 rs2 : Bool}
    (h : (Instr.grainOk die brick grain && ecc && rd && rs1 && rs2) = true) : isGrain die brick grain = true :=
  isGrain_of_grainOk (Bool.and_elim_left (Bool.and_elim_left (Bool.and_elim_left (Bool.and_elim_left h))))

theorem isBrick_of_brickOk {die brick : Nat} (h : Instr.brickOk die brick = true) : isBrick die brick = true := h

theorem isFabric_of_eq {fd : Nat} (h : (fd == 18 || fd == 19) = true) : isFabric fd = true := by
  simp only [Bool.or_eq_true, beq_iff_eq] at h
  simp only [isFabric, Bool.and_eq_true, decide_eq_true_eq]
  omega

theorem poolTier_of_eq {tier : Nat} (h : (tier == 1 || tier == 2 || tier == 3) = true) :
    (decide (1 ≤ tier) && decide (tier ≤ 3)) = true := by
  simp only [Bool.or_eq_true, beq_iff_eq] at h
  simp only [Bool.and_eq_true, decide_eq_true_eq]
  omega

/-- Each command stops only as `StopsOnly` says, at its own well-formedness; the cases stand by the unit that the
command asks for and by what it looks for in the state. -/
theorem stopsOnly_exec (c : Instr) (s : State) : StopsOnly c.wf (exec c s) := by
  cases c with
  -- no unit, and always a next state
  | commandTimeout | requestResend | seqQuarantineExpiry | bufferFree | bufferQuarantineExpiry | stubAccess
  | moveCopyDone | moveDrained | tierResponse | worldAttach | worldStop | worldDetach | allToAll | allToAllV
  | allReduce | reduceScatter | allGather | broadcast | barrier | read | write | msop | atomic | fence | epoch | telem
  | collDone | readRsp | writeAck | atomicRsp | fenceAck | mgmt | tierTimeout | fabricTime | ppsPulse | witnessCas
  | hostDieLost | coldReset | warmReset | bootStepTimeout | vin48Arrival | vin48Fault | vsb33Fault | powerCompare
  | imageLoad | snapshot | publish | retract | wholeLoad | perPanLoad | resize | keyLoad | lock | jobCreate | jobStart
  | jobStop | jobDestroy | seqCancel | summary | logRead | checkpointEnable | checkpointDisable | checkpointDurable
  | protectedWrite | shardAck | durableWrite | restore | find | adopt | spareAdopt | findTimeout | adoptionVoteTimeout
  | straggler | bistRun | aonDevnumWrite | auditAckWrite | alarmRelease | registerWrite | readClear | tileOpRetire
  | memorySideOp => exact stopsOnly_next
  -- nothing happens where what the command names does not stand in the state
  | discreteDraw | continuousDraw | adoptionPoint | publishBegin | epochChangeMessage | recordWrite | stagingEviction
  | drawIssue | perfSelectWrite | seqOpen | ladlePrefetch | localBoundary | done | stepRelease | boundaryLate =>
    exact stopsOnly_whenThere_next
  | publishChunkAck | publishChecks | priorityUpdate | imageChunk =>
    dsimp only [exec, execPublishChunkAck, execPublishChecks, execPriorityUpdate, execImageChunk]
    split
    · exact stopsOnly_next
    · exact stopsOnly_next
  -- grains
  | grainInstruction => exact stopsOnly_need_next fun h => isGrain_of_grainOk (Bool.and_elim_left h)
  | ecall | ebreak | watchdog | sentinelReturn => exact stopsOnly_need_next isGrain_of_grainOk
  | slRld | slRst | slPush | slPop | slCred | slDraw | slDrawf | slWaitb =>
    exact stopsOnly_need_next isGrain_of_operands
  | slRred => exact stopsOnly_need_next fun h => isGrain_of_operands (Bool.and_elim_left h)
  | slFma2 | slBfma4 =>
    exact stopsOnly_need_next fun h => isGrain_of_operands (Bool.and_elim_left (Bool.and_elim_left h))
  -- bricks
  | mxaCommand | swap | backgroundLoadDone => exact stopsOnly_need_next isBrick_of_brickOk
  | rowAccept =>
    exact stopsOnly_need_next fun h =>
      isBrick_of_brickOk (Bool.and_elim_left (Bool.and_elim_left (Bool.and_elim_left h)))
  | brkDbgResume | brkFaultClear | mxaModeWrite | mxaErrClear =>
    exact stopsOnly_need_next fun h => isBrick_of_brickOk (Bool.and_elim_right h)
  | mxaFlagsClear =>
    exact stopsOnly_need_next fun h =>
      Bool.and_intro (isBrick_of_brickOk (Bool.and_elim_right (Bool.and_elim_left h))) (Bool.and_elim_right h)
  -- compute dies and their units
  | tileOpIssue die pan station mb slice waited work =>
    refine stopsOnly_need (fun h => Bool.and_elim_left (Bool.and_elim_left (Bool.and_elim_left h)))
      (stopsOnly_whenThere ?_)
    split
    · exact stopsOnly_next
    · exact stopsOnly_next
  | patrolScrub | d2dRetrainDone | d2dRetrainTimeout => exact stopsOnly_need_next id
  | d2dRetrain | walk | moveStart => exact stopsOnly_need_next Bool.and_elim_left
  | schSplitWrite | attPmodeWrite =>
    exact stopsOnly_need_next fun h =>
      Bool.and_intro (Bool.and_elim_right (Bool.and_elim_left h)) (Bool.and_elim_right h)
  -- pools of the tiers
  | spill => exact stopsOnly_need Bool.and_elim_right stopsOnly_whenThere_next
  | bufferAllocate =>
    exact stopsOnly_need (fun h => poolTier_of_eq (Bool.and_elim_right h)) stopsOnly_whenThere_next
  -- fabric dies and fabric ports
  | flashRelocate | flashProgramFail => exact stopsOnly_need isFabric_of_eq stopsOnly_whenThere_next
  | routeSdataWrite | routeSdone | routeFlip =>
    exact stopsOnly_need_next fun h => isFabric_of_eq (Bool.and_elim_right h)
  | fabPctlEnable =>
    exact stopsOnly_need_next fun h =>
      Bool.and_intro (isFabric_of_eq (Bool.and_elim_right (Bool.and_elim_left h))) (Bool.and_elim_right h)
  | portTrained | portRetrain | retrainTimeout | frameReceive | replayTimeout | ackDelayExpiry =>
    exact stopsOnly_need_next id
  | ack => exact stopsOnly_need_next Bool.and_elim_left
  | nak => exact stopsOnly_need_next fun h => Bool.and_elim_left (Bool.and_elim_left h)
  -- whistle levels
  | frameStart | masterElection | ringTrainingTimeout | ringFallback | ringRetrainTimer =>
    exact stopsOnly_need_next id
  | cellReceive | whistleFb => exact stopsOnly_need_next Bool.and_elim_left
  | whistleDeadTimeout =>
    exact stopsOnly_need_next fun h =>
      decide_eq_true ⟨of_decide_eq_true (Bool.and_elim_left h), of_decide_eq_true (Bool.and_elim_right h)⟩
  | llpRejoin | llpRetrain => exact stopsOnly_need_next Bool.and_elim_right
  -- worlds and world ports
  | obsWindowClose | helloTimer | attachTimeout | frameLatch | missLimit | holdLimit | silenceLimit | rampEnd
  | worldQuarantineExpiry | sendTime | worldPortLink | worldPortForeignFrame => exact stopsOnly_need_next id
  | obs | hello | partnerStop | partnerSync => exact stopsOnly_need_next Bool.and_elim_left
  | actionVerdict => exact stopsOnly_need_next Bool.and_elim_right
  -- host dies and queue pairs
  | gptpSync | timeHoldover | renew | renewReceive | leaseTimeout | stewardWatchdog | perstRelease
  | pcieLinkTraining | submissionDoorbell | completionDoorbell => exact stopsOnly_need_next id
  | aonYield => exact stopsOnly_need_next Bool.and_elim_right
  | commandTake => exact stopsOnly_need_next Bool.and_elim_left
  -- dies and indices
  | indexQuarantineExpiry | bistComplete | thermalSample | auditStagingAccept | traceSample | scanEnable
  | busyTestReissue => exact stopsOnly_need_next id
  | fencedRequest => exact stopsOnly_need_next Bool.and_elim_left
  | dieOpWrite => exact stopsOnly_need_next Bool.and_elim_right

/-- Settles O53: `stopsOnly_exec` says the three general parts, and each of the four commands of the last part needs
its unit. -/
theorem stopsOnlyOutside : Obligations.StopsOnlyOutside := by
  unfold Obligations.StopsOnlyOutside
  refine ⟨fun c s => (stopsOnly_exec c s).1, fun c s => (stopsOnly_exec c s).2.1,
    fun c s => (stopsOnly_exec c s).2.2, fun s n => ?_⟩
  have missing {m : Nat} {u : String} {o : Out} (h : m ≤ n) :
      ∃ u', need (decide (n < m)) u o = .refused (.noSuchUnit u') :=
    ⟨u, need_refuses (by simpa using h)⟩
  exact ⟨missing, missing, missing, missing⟩

end Sys2Proof.Machine
end

section
/-!
Epochs: adoption points, publication with its checks, changes of state, and the chunks of an image.
-/

namespace Sys2Proof.Machine

/-! ## Counts: what a field reads after a count -/

/-- A field outside the brick windows lies in the register block of its code (R3, R4). -/
theorem Fld.csrBlock_key (f : Fld) (a : Loc) (unit : a.unit = 0) (off : f.off + a.idx * f.stride < 65536)
    (lsb : f.lsb < 64) : csrBlock (f.key a) = f.blk.code a.die % 256 := by
  simp only [csrBlock, Fld.key, unit]
  omega

/-- The keys outside block PERF, whose event counters take the increments of every count (R415). -/
abbrev outsidePerf (k : Nat) : Prop := csrBlock k ≠ 0x50 ∧ csrBlock k ≠ 0x58

theorem key_dcnt_ne {k : Nat} (hk : outsidePerf k) (die : Nat) {i : Nat} (hi : i < 64) :
    R.PERF_DCNT_VALUE.key (lIdx die i) ≠ k := by
  rintro rfl
  obtain ⟨compute, host⟩ := hk
  rw [Fld.csrBlock_key _ _ rfl (by simp only [R.PERF_DCNT_VALUE, lIdx]; omega) (by decide)] at compute host
  cases h : isHost die
  · simp [R.PERF_DCNT_VALUE, Blk.code, lIdx, h] at compute
  · simp [R.PERF_DCNT_VALUE, Blk.code, lIdx, h] at host

theorem mgetD_countDie (m : AMap Nat) {k : Nat} (hk : outsidePerf k) (die event inst n : Nat) {i : Nat} (hi : i < 64)
    (d : Nat) : mgetD (countDie m die event inst n i) k d = mgetD m k d := by
  simp only [countDie]
  split
  · exact mgetD_mset_ne _ _ _ _ (key_dcnt_ne hk die hi)
  · rfl

/-- The event counters of a count outside the brick windows stand in block PERF. -/
theorem mgetD_countEvent (m : AMap Nat) {f : Fld} (outside : f.blk ≠ .brick) {k : Nat} (hk : outsidePerf k) (a : Loc)
    (n d : Nat) : mgetD (countEvent m f a n) k d = mgetD m k d := by
  simp only [countEvent, outside, if_false]
  split
  · rfl
  · exact List.foldlRecOn (motive := fun c => mgetD c k d = mgetD m k d) _ _ rfl fun c hc i hi =>
      (mgetD_countDie c hk _ _ _ n (List.mem_range.1 hi) d).trans hc

/-- A count stays within its field. -/
theorem Fld.plus_mod (f : Fld) (old n : Nat) : f.plus old n % 2 ^ f.w = f.plus old n := by
  have width : 0 < 2 ^ f.w := Nat.two_pow_pos _
  refine Nat.mod_eq_of_lt ?_
  unfold Fld.plus
  split
  · exact Nat.mod_lt _ width
  · omega

/-- A count field reads the sum after a count (R415). -/
theorem State.getF_bump_self (s : State) {f : Fld} {a : Loc} (outside : f.blk ≠ .brick) (hk : outsidePerf (f.key a))
    {n : Nat} (hn : n ≠ 0) : (s.bump f a n).getF f a = f.plus (s.getF f a) n := by
  simp only [State.bump, hn, if_false, State.getF, mgetD_countEvent _ outside hk, csrSet, mgetD_mset_self, Fld.plus_mod]

/-- A count leaves the other fields outside block PERF alone. -/
theorem State.getF_bump_ne (s : State) {f g : Fld} {a b : Loc} (outside : f.blk ≠ .brick) (hk : outsidePerf (g.key b))
    (ne : f.key a ≠ g.key b) (n : Nat) : (s.bump f a n).getF g b = s.getF g b := by
  unfold State.bump
  split
  · rfl
  · simp only [State.getF, mgetD_countEvent _ outside hk, csrSet, mgetD_mset_ne _ _ _ _ ne]

/-! ## Waiting for the audit log -/

/-- A change whose records find no room begins to wait, and is counted (R388). -/
theorem State.whenRoom_begins (s : State) (dies : List Nat) (key : Nat × Nat) (f : State → State)
    (full : dies.all s.auditRoom = false) (new : s.audit.held.any (fun h => h.1 = key) = false) :
    s.whenRoom dies key f =
      ({ s with audit := { s.audit with held := s.audit.held ++ [(key, s.time)] } }).bump R.AUDIT_WAIT_EVENTS
        (lDie 16) := by
  have first : s.audit.held.find? (fun x => decide (x.1 = key)) = none := by
    simpa [List.find?_eq_none, List.any_eq_false] using new
  simp only [State.whenRoom, full, first, Option.isSome_none, Bool.false_eq_true, if_false]

/-! ## Weight sets -/

/-- A weight set reads what was written into it. -/
theorem State.wset_setWset_self (s : State) (ws : Nat) (w : WSet) : (s.setWset ws w).wset ws = some w := by
  obtain ⟨_, _, h⟩ := s.setWset_spec ws w
  simp only [h, State.wset, mget_mput_self]

theorem State.wset_modWset_self (s : State) {ws : Nat} {w : WSet} (f : WSet → WSet) (h : s.wset ws = some w) :
    (s.modWset ws f).wset ws = some (f w) := by
  simp only [State.modWset, h, State.wset_setWset_self]

/-- What a packet sent changes: outstanding requests and the fabric. -/
def Part.sendingChanges : Parts := { tier := true, fab := true }

theorem State.sendWeights_outside_sending (s : State) (w : WSet) (target e i : Nat) (b : List Byte) :
    (s.sendWeights w target e i b).outside Part.sendingChanges = s.outside Part.sendingChanges :=
  State.sendWeights_outside rfl rfl s w target e i b

/-- Sending leaves weight sets, memory and rings alone. -/
theorem keeps_of_outside_sending {s t : State} (h : t.outside Part.sendingChanges = s.outside Part.sendingChanges) :
    t.epc = s.epc ∧ t.mem = s.mem ∧ t.rings = s.rings := by
  obtain ⟨-, -, -, -, -, mem, -, -, -, -, -, -, -, epc, rings, -⟩ := State.outside_eq_iff.1 h
  exact ⟨epc rfl, mem rfl, rings rfl⟩

theorem State.wset_sendWeights (s : State) (w : WSet) (target e i : Nat) (b : List Byte) (ws : Nat) :
    (s.sendWeights w target e i b).wset ws = s.wset ws := by
  simp only [State.wset, (keeps_of_outside_sending (s.sendWeights_outside_sending w target e i b)).1]

/-- A chunk sent to some targets leaves weight sets, memory and rings alone. -/
theorem State.forEach_sendWeights (s : State) (w : WSet) (e i : Nat) (b : List Byte) (targets : List Nat) :
    (forEach targets s fun s t => s.sendWeights w t e i b).epc = s.epc ∧
      (forEach targets s fun s t => s.sendWeights w t e i b).mem = s.mem ∧
      (forEach targets s fun s t => s.sendWeights w t e i b).rings = s.rings :=
  keeps_of_outside_sending (forEach_outside (fun s t => s.sendWeights_outside_sending w t e i b) targets s)

/-! ## Adoption and publication -/

/-- A released pan that has latched no epoch latches the best one (R21). -/
theorem execAdoptionPoint_latches {s : State} {pan : Nat} (used : (s.pan pan).st ≠ .free)
    (released : (s.pan pan).released = true) (first : (s.pan pan).latched = none) :
    execAdoptionPoint pan s = .next (s.modPan pan (fun p =>
      { p with latched := some (s.bestEpoch pan), lastLatch := s.bestEpoch pan, ahead := some {} })) := by
  simp only [execAdoptionPoint, used, State.adoptionPoint, released, first, ne_eq, not_false_eq_true, decide_true,
    whenThere_true, and_self, if_true]

/-- An operation that may issue runs with the entry it takes. -/
theorem State.issueEntry_takes {s u : State} {die pan mb slice tag : Nat} {d : StationDecl}
    (f : Nat → State → State) (may : s.mayIssue die pan d mb slice = true)
    (entry : s.takeEntry die { pan := pan, step := (s.pan pan).step, station := d.idx, mb := mb, slice := slice }
      = some (tag, u)) : s.issueEntry die pan d mb slice f = f tag u := by
  simp only [State.issueEntry, may, if_true, entry]

/-- A PUBLISH station whose stage 6 is due and whose numbers are not exhausted waits while a PROVISIONAL epoch, a held
slot or a full table is in its way, and otherwise begins to write (R185, R190). -/
theorem State.publishBegin_due {s u : State} {pan station us tag : Nat} {d : StationDecl} {w : WSet}
    (set : s.wset d.ws = some w) (job : w.job = (s.pan pan).job) (todo : (s.pan pan).pubDone.contains station = false)
    (idle : s.publishing pan station = false) (kind : w.decl.kind ≠ 1)
    (command : d.onCommand = true → (s.pan pan).pubReleased = true) (numbers : w.exhausted = false)
    (may : s.mayIssue (s.pan pan).master pan d 0 0 = true)
    (entry : s.takeEntry (s.pan pan).master
      { pan := pan, step := (s.pan pan).step, station := d.idx, mb := 0, slice := 0 } = some (tag, u)) :
    s.publishBegin pan station us d =
      if w.anyProvisional = true ∨ w.nextHeld = true ∨ w.occupant = .held then s.publishWait d.ws us w
      else u.publishWrite d.ws pan station tag w := by
  have released : (s.pan pan).released = true := by
    simp only [State.mayIssue, Pan.running, Bool.and_eq_true] at may
    obtain ⟨⟨⟨released, -⟩, -⟩, -⟩ := may
    exact released
  have called : (d.onCommand && !(s.pan pan).pubReleased) = false := by
    cases h : d.onCommand
    · rfl
    · simp [command h]
  simp only [State.publishBegin, set, released, todo, idle, called, may, numbers, job, bne_self_eq_false,
    beq_eq_false_iff_ne.2 kind, Bool.not_true, Bool.or_false, Bool.false_eq_true, if_false, Bool.or_eq_true,
    beq_iff_eq, or_assoc, State.issueEntry_takes _ may entry]

/-- The answer of a target of the stream under way, to a chunk not yet acknowledged, has its effect (R187). -/
theorem execPublishChunkAck_answers {s : State} {ws target chunk : Nat} {w : WSet} {p : PubWriter}
    (set : s.wset ws = some w) (writer : w.writer = some p) (stream : p.image = false)
    (is : w.decl.targets.contains target = true) (lt : chunk < p.chunks)
    (fresh : p.acked.contains (target, chunk) = false) (room : s.roomNow [16] (1, ws) = true) (answer : ChunkAnswer) :
    execPublishChunkAck ws target chunk answer s = .next (match answer with
      | .good => s.chunkGood ws target chunk w p
      | .failed => s.chunkFailed ws target chunk w p
      | .targetDead => s.retractEpoch ws p.epoch 4) := by
  cases answer <;> simp only [execPublishChunkAck, set, writer, stream, is, fresh, Nat.not_le.2 lt, Bool.not_true,
    decide_false, Bool.or_false, Bool.false_eq_true, if_false, State.whenRoom_now _ _ _ _ room]

/-- Up to a third failure of a chunk is counted, and the chunk sent again (R187). -/
theorem State.wset_chunkFailed {s : State} {ws target chunk : Nat} {w : WSet} {p : PubWriter}
    (set : s.wset ws = some w) (few : p.fails.count (target, chunk) < 3) :
    (s.chunkFailed ws target chunk w p).wset ws =
      some { w with writer := some { p with fails := (target, chunk) :: p.fails } } := by
  simp only [State.chunkFailed, Nat.not_le.2 few, if_false]
  split
  · exact s.wset_modWset_self _ set
  · rw [State.wset_sendWeights]
    exact s.wset_modWset_self _ set

/-- The checks of an epoch whose learner boundary has passed confirm it, or retract it with their cause (R188). -/
theorem execPublishChecks_decides {s : State} {ws : Nat} (others : List CheckBlock) {w : WSet} {c : PendCheck}
    {d : StationDecl} (set : s.wset ws = some w) (check : w.check = some c) (boundary : c.boundary = true)
    (station : (s.pan c.pan).station c.station = some d) (room : s.roomNow [16] (1, ws) = true) :
    execPublishChecks ws others s = .next
      (match checkCause (s.getF R.EPC_LIMIT_GNORM lKeep) c.step (s.checkBlock d.checkAt c.poisoned :: others) with
       | some cause => s.retractEpoch ws c.epoch cause
       | none => s.confirmEpoch ws c.epoch) := by
  split
  all_goals
    next verdict =>
      simp only [execPublishChecks, set, check, boundary, station, Bool.not_true, Bool.false_eq_true, if_false,
        State.whenRoom_now _ _ _ _ room, verdict]

/-! ## Changes of state from another device -/

/-- A change of a known set is a change that waits for room (R183, R388). -/
theorem execEpochChangeMessage_of_wset {s : State} {ws : Nat} (e state cause step : Nat)
    (set : (s.wset ws).isSome = true) :
    execEpochChangeMessage ws e state cause step s = .next (s.whenRoom [16] (1, ws) (fun s =>
      s.applyChange ws { epoch := e, st := state, cause, step })) := by
  simp only [execEpochChangeMessage, set, whenThere_true]

/-- A change waits while a lower number of its set is unfinished (R183). -/
theorem State.tryChange_waits {s : State} {ws : Nat} {c : EpochChange} {w : WSet} (set : s.wset ws = some w)
    (number : c.epoch ≠ 0) (low : w.waitsFor c.epoch = true) :
    s.tryChange ws c = s.modWset ws (fun w => { w with changes := w.changes ++ [c] }) := by
  simp only [State.tryChange, set, number, low, if_true, if_false]

/-- A change that waits for no lower number is applied (R183). -/
theorem State.tryChange_applies {s : State} {ws : Nat} {c : EpochChange} {w : WSet} (set : s.wset ws = some w)
    (number : c.epoch ≠ 0) (low : w.waitsFor c.epoch = false) : s.tryChange ws c = s.applyNow ws c w := by
  simp only [State.tryChange, set, number, low, if_false, Bool.false_eq_true]

theorem State.applyNow_provisional (s : State) (ws : Nat) {c : EpochChange} {w : WSet} (turn : c.st = 2)
    (draft : w.stateOf c.epoch = .draft) : s.applyNow ws c w = s.putEpoch ws c.epoch .provisional 0 := by
  simp only [State.applyNow, turn, draft, if_true]

theorem State.applyNow_confirmed (s : State) (ws : Nat) {c : EpochChange} {w : WSet} (turn : c.st = 3)
    (unfinished : w.stateOf c.epoch = .draft ∨ w.stateOf c.epoch = .provisional) :
    s.applyNow ws c w = s.confirmEpoch ws c.epoch := by
  simp only [State.applyNow, turn, unfinished, if_true]

theorem State.applyNow_retracted (s : State) (ws : Nat) {c : EpochChange} {w : WSet} (turn : c.st = 4)
    (unfinished : w.stateOf c.epoch = .draft ∨ w.stateOf c.epoch = .provisional) :
    s.applyNow ws c w = s.retractEpoch ws c.epoch c.cause := by
  simp only [State.applyNow, turn, unfinished, if_true]

/-- A change whose record finds no room waits, counted, and changes neither epochs nor memory (R388). -/
theorem execEpochChangeMessage_without_room {s : State} {ws : Nat} (e state cause step : Nat)
    (set : (s.wset ws).isSome = true) (full : s.auditRoom 16 = false)
    (new : s.audit.held.any (fun h => h.1 = (1, ws)) = false) :
    ∃ t, execEpochChangeMessage ws e state cause step s = .next t ∧ t.epc = s.epc ∧ t.mem = s.mem ∧
      t.audit.held = s.audit.held ++ [((1, ws), s.time)] ∧
      t.getF R.AUDIT_WAIT_EVENTS (lDie 16) =
        R.AUDIT_WAIT_EVENTS.plus (s.getF R.AUDIT_WAIT_EVENTS (lDie 16)) 1 := by
  have noRoom : [16].all s.auditRoom = false := by simp only [List.all_cons, full, Bool.false_and]
  refine ⟨_, (execEpochChangeMessage_of_wset e state cause step set).trans
    (congrArg _ (s.whenRoom_begins _ _ _ noRoom new)), ?_, ?_, ?_, ?_⟩
  · exact State.bump_epc ..
  · exact State.bump_mem ..
  · rw [State.bump_audit]
  · exact State.getF_bump_self _ (by decide) (by decide) one_ne_zero

/-! ## Chunks of an image -/

/-- Bytes go to the same places of a tier in two states that map its addresses alike. -/
theorem wrTierFrom_congr {s t : State} {space : Nat} (map : ∀ off, s.byteKey space off = t.byteKey space off)
    (bs : List Byte) (off : Nat) (m : AMap Byte) : wrTierFrom s space off bs m = wrTierFrom t space off bs m := by
  induction bs generalizing off m with
  | nil => rfl
  | cons b rest ih => simp only [wrTierFrom, map, ih]

/-- The field that counts a sealed chunk on the die that opens it (R206). -/
def sealedField (good : Bool) : Fld := if good then R.EPC_DSTREAM_CHUNKS else R.EPC_DSTREAM_TAGFAIL

theorem State.countSealed_eq_bump (s : State) (at_ : Nat) (good : Bool) :
    s.countSealed at_ good = s.bump (sealedField good) (lDie (s.hbmDie at_)) := rfl

theorem csrBlock_sealedField (good : Bool) (die : Nat) : csrBlock ((sealedField good).key (lDie die)) = 0x48 := by
  cases good
  · exact Fld.csrBlock_key R.EPC_DSTREAM_TAGFAIL (lDie die) rfl (Nat.zero_lt_succ _) (by decide)
  · exact Fld.csrBlock_key R.EPC_DSTREAM_CHUNKS (lDie die) rfl (Nat.zero_lt_succ _) (by decide)

/-- A count of a sealed chunk leaves the addresses of T1 as they are. -/
theorem State.countSealed_byteKey (s : State) (at_ : Nat) (good : Bool) (off : Nat) :
    (s.countSealed at_ good).byteKey 1 off = s.byteKey 1 off := by
  have outside : (sealedField good).blk ≠ .brick := by cases good <;> decide
  have elsewhere : (sealedField good).key (lDie (s.hbmDie at_)) ≠ R.HBM_DIMAP_RANGES.key (lDie 0) := fun same =>
    absurd ((csrBlock_sealedField good _).symm.trans (congrArg csrBlock same)) (by decide)
  have ranges : (s.countSealed at_ good).getF R.HBM_DIMAP_RANGES (lDie 0) = s.getF R.HBM_DIMAP_RANGES (lDie 0) := by
    rw [State.countSealed_eq_bump]
    exact s.getF_bump_ne outside (by decide) elsewhere 1
  simp only [State.byteKey, State.moverHome, State.home, State.hbmHome, ranges]

theorem State.countSealed_wrTier_mem (s : State) (at_ : Nat) (good : Bool) (off : Nat) (b : List Byte) :
    ((s.countSealed at_ good).wrTier 1 off b).mem = (s.wrTier 1 off b).mem := by
  have mem : (s.countSealed at_ good).mem = s.mem := State.bump_mem ..
  simp only [State.wrTier, mem, wrTierFrom_congr (s.countSealed_byteKey at_ good)]

/-- A good chunk that is not the last is written at its place in the slot, and the load goes on behind it (R200). -/
theorem State.imageChunk_goes_on {s : State} {w : WSet} {i : ImgLoad} {data tag b : List Byte}
    (good : i.openChunk (fitTo (chunkSize w.decl.payload i.done) data) tag = some b)
    (more : i.done + 1 < chunksOf w.decl.payload) :
    (s.imageChunk w i data tag).mem = (s.wrTier 1 (w.baseOf i.epoch + i.done * mib) b).mem ∧
      (s.imageChunk w i data tag).epc =
        { s.epc with img := some { i with done := i.done + 1, plain := i.plain ++ b } } ∧
      (s.imageChunk w i data tag).rings = s.rings := by
  simp only [State.imageChunk, good, more, if_true, State.setF_mem, State.setF_epc, State.setF_rings,
    State.forEach_sendWeights, State.wrTier_epc, State.wrTier_rings]
  split
  · exact ⟨s.countSealed_wrTier_mem _ _ _ _, by rw [State.countSealed_eq_bump, State.bump_epc],
      by rw [State.countSealed_eq_bump, State.bump_rings]⟩
  · exact ⟨rfl, rfl, rfl⟩

/-- A chunk of the load under way goes into its slot (R200). -/
theorem execImageChunk_of_load {s : State} {ws : Nat} (data tag : List Byte) {w : WSet} {i : ImgLoad}
    (set : s.wset ws = some w) (load : s.epc.img = some i) (same : i.ws = ws) (room : s.roomNow [16] (1, ws) = true) :
    execImageChunk ws data tag s = .next (s.imageChunk w i data tag) := by
  simp only [execImageChunk, set, load, same, if_true, State.whenRoom_now _ _ _ _ room]

/-- Settles O19: each part is what the lemmas above say of its command. -/
theorem epochRows : Obligations.EpochRows := by
  unfold Obligations.EpochRows
  refine ⟨?adoption, ?begins, ?acks, ?checks, ?message, ?change, ?chunk, ?full⟩
  case adoption => exact fun s pan => execAdoptionPoint_latches
  case begins =>
    intro s u pan station us tag d w has station_ set job todo idle kind command numbers may room entry
    change execPublishBegin pan station us s = _
    simp only [execPublishBegin, has, whenThere_true, station_, State.whenRoom_now _ _ _ _ room,
      State.publishBegin_due set job todo idle kind command numbers may entry]
  case acks =>
    intro s ws target chunk w p set writer stream is lt fresh room
    have answers := execPublishChunkAck_answers set writer stream is lt fresh room
    refine ⟨answers .good, fun many => (answers .failed).trans ?_, fun few => ⟨_, answers .failed, ?_⟩,
      answers .targetDead⟩
    · simp only [State.chunkFailed, many, if_true]
    · simp only [State.wset_chunkFailed set few, Option.map_some]
  case checks => exact fun s ws others w c d => execPublishChecks_decides others
  case message =>
    intro s ws e state cause step w set room
    refine (execEpochChangeMessage_of_wset e state cause step (Option.isSome_of_eq_some set)).trans ?_
    rw [State.whenRoom_now _ _ _ _ room]
  case change =>
    intro s ws c w set number
    refine ⟨State.tryChange_waits set number, fun low => ?_⟩
    rw [State.tryChange_applies set number low]
    exact ⟨s.applyNow_provisional ws, fun unfinished =>
      ⟨fun turn => s.applyNow_confirmed ws turn unfinished, fun turn => s.applyNow_retracted ws turn unfinished⟩⟩
  case chunk =>
    intro s ws data tag b w i set load same room good more
    obtain ⟨mem, epc, rings⟩ := State.imageChunk_goes_on (s := s) good more
    exact ⟨_, execImageChunk_of_load data tag set load same room, mem, by rw [epc], by rw [epc], rings⟩
  case full => exact fun s ws e state cause step => execEpochChangeMessage_without_room e state cause step

end Sys2Proof.Machine
end

section
/-!
Instructions of a grain: the fields of an instruction word, how an instruction ends, additions, loads, stores and
branches, and the return at the sentinel.
-/

namespace Sys2Proof.Machine

/-! ## Words of register instructions -/

namespace Rv

section Fields

variable {w op fn3 fn7 d p q : Nat} (word : w = encR op fn3 fn7 d p q)

include word

theorem opcode_of_encR (hop : op < 128) : opcode w = op := by
  simp only [word, opcode, encR]; omega

theorem rd_of_encR (hop : op < 128) (hd : d < 32) : rd w = d := by
  simp only [word, rd, bits, encR]; omega

theorem f3_of_encR (hop : op < 128) (hd : d < 32) (h3 : fn3 < 8) : f3 w = fn3 := by
  simp only [word, f3, bits, encR]; omega

theorem rs1_of_encR (hop : op < 128) (hd : d < 32) (h3 : fn3 < 8) (hp : p < 32) : rs1 w = p := by
  simp only [word, rs1, bits, encR]; omega

theorem rs2_of_encR (hop : op < 128) (hd : d < 32) (h3 : fn3 < 8) (hp : p < 32) (hq : q < 32) : rs2 w = q := by
  simp only [word, rs2, bits, encR]; omega

theorem f7_of_encR (hop : op < 128) (hd : d < 32) (h3 : fn3 < 8) (hp : p < 32) (hq : q < 32) (h7 : fn7 < 128) :
    f7 w = fn7 := by
  simp only [word, f7, bits, encR]; omega

end Fields

section Immediates

variable {w op fn3 d p q : Nat} (hop : op < 128) (h3 : fn3 < 8) (hp : p < 32)

include hop h3 hp

/-- A load whose rs2 and f7 fields are 0 has the offset 0. -/
theorem immI_of_encR (word : w = encR op fn3 0 d p 0) (hd : d < 32) : immI w = 0 := by
  have field : bits w 31 20 = 0 := by simp only [word, bits, encR]; omega
  rw [immI, field]
  rfl

/-- A store whose rd and f7 fields are 0 has the offset 0. -/
theorem immS_of_encR (word : w = encR op fn3 0 0 p q) (hq : q < 32) : immS w = 0 := by
  have high : bits w 31 25 = 0 := by simp only [word, bits, encR]; omega
  have low : bits w 11 7 = 0 := by simp only [word, bits, encR]; omega
  rw [immS, high, low]
  rfl

/-- A branch whose rd field is 8 and whose f7 field is 0 has the offset 8. -/
theorem immB_of_encR (word : w = encR op fn3 0 8 p q) (hq : q < 32) : immB w = 8 := by
  have b31 : bits w 31 31 = 0 := by simp only [word, bits, encR]; omega
  have b7 : bits w 7 7 = 0 := by simp only [word, bits, encR]; omega
  have high : bits w 30 25 = 0 := by simp only [word, bits, encR]; omega
  have low : bits w 11 8 = 4 := by simp only [word, bits, encR]; omega
  rw [immB, b31, b7, high, low]
  rfl

end Immediates

end Rv

/-! ## How an instruction ends -/

/-- An instruction that is done retires its grain (R30, R38, R46). -/
theorem State.endInsn_step (s t : State) (a : GAt) (x y : Grain) (insn cyc : Nat) :
    s.endInsn a x insn cyc (a.step t y) = t.setGrain a.die a.brick a.g (y.retired a.len cyc) := rfl

/-- Under no memory error, or a corrected one, an instruction has its effect after the count of the error (R52). -/
theorem State.withEcc_corrected (s : State) (a : GAt) (x : Grain) (insn cyc : Nat) (push : Bool) (f : State → GOut)
    (ecc : a.ecc < 2) : s.withEcc a x insn cyc push f =
      (s.eccFix a.die a.brick a.ecc).endInsn a x insn cyc (f (s.eccFix a.die a.brick a.ecc)) := by
  simp only [State.withEcc, Nat.not_le.2 ecc, false_and, if_false]

/-- SL.PUSH has its effect under every memory error (R112). -/
theorem State.withEcc_push (s : State) (a : GAt) (x : Grain) (insn cyc : Nat) (f : State → GOut) :
    s.withEcc a x insn cyc true f =
      (s.eccFix a.die a.brick a.ecc).endInsn a x insn cyc (f (s.eccFix a.die a.brick a.ecc)) := by
  simp only [State.withEcc, Bool.not_true, Bool.false_eq_true, and_false, if_false]

section Rows

variable {s t : State} {die brick grain cyc ecc insn : Nat} (f : State → GAt → Grain → GOut) {y : Grain}
  (unit : isGrain die brick grain = true) (active : (s.grain die brick grain).active = true)

include unit active

/-- A row of a grain that runs is an instruction under the memory error it met. -/
theorem State.runRow_active : s.runRow die brick grain cyc ecc insn f = .next (
    s.withEcc { die, brick, g := grain, ecc } (s.grain die brick grain) insn cyc (isPush insn)
      (fun s' => f s' { die, brick, g := grain, ecc } (s.grain die brick grain))) := by
  simp only [State.runRow, unit, need_true, active, if_true]

/-- A row of a grain that runs retires, when its instruction is done. -/
theorem State.runRow_retires (corrected : ecc < 2)
    (done : f (s.eccFix die brick ecc) { die, brick, g := grain, ecc } (s.grain die brick grain) =
      GAt.step { die, brick, g := grain, ecc } t y) :
    s.runRow die brick grain cyc ecc insn f = .next (t.setGrain die brick grain (y.retired 4 cyc)) := by
  rw [State.runRow_active f unit active, State.withEcc_corrected _ _ _ _ _ _ _ corrected]
  exact congrArg Host.Outcome.next ((congrArg _ done).trans (State.endInsn_step ..))

/-- SL.PUSH of a grain that runs retires, when its instruction is done, whatever memory error it met. -/
theorem State.runRow_push_retires (push : isPush insn = true)
    (done : f (s.eccFix die brick ecc) { die, brick, g := grain, ecc } (s.grain die brick grain) =
      GAt.step { die, brick, g := grain, ecc } t y) :
    s.runRow die brick grain cyc ecc insn f = .next (t.setGrain die brick grain (y.retired 4 cyc)) := by
  rw [State.runRow_active f unit active, push, State.withEcc_push]
  exact congrArg Host.Outcome.next ((congrArg _ done).trans (State.endInsn_step ..))

end Rows

/-! ## Additions, loads, stores and branches -/

section Words

variable (s : State) (a : GAt) (x : Grain) {w rd rs1 rs2 o : Nat}

/-- ADD writes the sum of its registers. -/
theorem State.execWord_add (word : w = Rv.encR 0x33 0 0 rd rs1 rs2) (hd : rd < 32) (h1 : rs1 < 32) (h2 : rs2 < 32) :
    s.execWord a x w = a.step s (x.wx rd (x.rx rs1 + x.rx rs2) (x.dx [rs1, rs2])) := by
  have op : (0x33 : Nat) < 128 := by decide
  have f3 : (0 : Nat) < 8 := by decide
  simp only [State.execWord, Rv.opcode_of_encR word op, State.aluInsn, Rv.f3_of_encR word op hd f3,
    Rv.f7_of_encR word op hd f3 h1 h2 (Nat.zero_lt_succ _), Rv.rd_of_encR word op hd, Rv.rs1_of_encR word op hd f3 h1,
    Rv.rs2_of_encR word op hd f3 h1 h2, Bool.false_and, Bool.false_eq_true, if_false, true_or, if_true]
  rfl

/-- LW with offset 0 writes the readable word at its base. -/
theorem State.execWord_lw (word : w = Rv.encR 0x03 2 0 rd rs1 0) (hd : rd < 32) (h1 : rs1 < 32)
    (readable : s.grainData a x false (x.rx rs1).toNat 4 = some o) :
    s.execWord a x w = a.step s (x.wx rd
      (BitVec.ofNat 32 (leNat (s.rdBrick a.die a.brick o 4))) (s.descends a.die a.brick o 4)) := by
  have op : (0x03 : Nat) < 128 := by decide
  have f3 : (2 : Nat) < 8 := by decide
  have addr : x.rx rs1 + Rv.immI w = x.rx rs1 := by
    rw [Rv.immI_of_encR op f3 h1 word hd]
    exact BitVec.add_zero _
  simp only [State.execWord, Rv.opcode_of_encR word op, State.loadInsn, Rv.f3_of_encR word op hd f3, Rv.loadSize,
    Rv.rd_of_encR word op hd, Rv.rs1_of_encR word op hd f3 h1, addr, readable, Bool.false_eq_true, if_false]

/-- SW with offset 0 stores at its base, where it may write. -/
theorem State.execWord_sw (word : w = Rv.encR 0x23 2 0 0 rs1 rs2) (h1 : rs1 < 32) (h2 : rs2 < 32)
    (writable : s.grainData a x true (x.rx rs1).toNat 4 = some o) :
    s.execWord a x w = a.step
      ((s.wrBrick a.die a.brick o (toLe 4 (x.rx rs2).toNat)).taint a.die a.brick o 4 (x.dx [rs2])) x := by
  have op : (0x23 : Nat) < 128 := by decide
  have rd : (0 : Nat) < 32 := by decide
  have f3 : (2 : Nat) < 8 := by decide
  have store : (2 : Nat) < 3 := by decide
  have addr : x.rx rs1 + Rv.immS w = x.rx rs1 := by
    rw [Rv.immS_of_encR op f3 h1 word h2]
    exact BitVec.add_zero _
  simp only [State.execWord, Rv.opcode_of_encR word op, Rv.f3_of_encR word op rd f3, store, if_true, State.storeInsn,
    Rv.rs1_of_encR word op rd f3 h1, Rv.rs2_of_encR word op rd f3 h1 h2, addr, Nat.reducePow, writable]

/-- BEQ with offset 8 goes there where its registers are equal. -/
theorem State.execWord_beq (word : w = Rv.encR 0x63 0 0 8 rs1 rs2) (h1 : rs1 < 32) (h2 : rs2 < 32) :
    s.execWord a x w =
      if x.rx rs1 = x.rx rs2 then .done s { x with pc := x.pc + 8 } else a.step s x := by
  have op : (0x63 : Nat) < 128 := by decide
  have rd : (8 : Nat) < 32 := by decide
  have f3 : (0 : Nat) < 8 := by decide
  by_cases taken : x.rx rs1 = x.rx rs2
  all_goals
    simp only [State.execWord, Rv.opcode_of_encR word op, Rv.f3_of_encR word op rd f3, Rv.branch,
      Rv.rs1_of_encR word op rd f3 h1, Rv.rs2_of_encR word op rd f3 h1 h2, Rv.immB_of_encR op f3 h1 word h2, taken,
      decide_true, decide_false, if_true, if_false]

end Words

/-- A grain that runs, away from the sentinel, executes the 32-bit word at its pc (R30, R34). -/
theorem execGrainInstruction_word {s : State} {die brick grain cyc ecc w : Nat}
    (unit : isGrain die brick grain = true) (active : (s.grain die brick grain).active = true) (corrected : ecc < 2)
    (away : (s.grain die brick grain).pc ≠ sentinel)
    (fetch : s.fetchInsn { die, brick, g := grain } (s.grain die brick grain).pc.toNat = some (w, 4)) :
    execGrainInstruction die brick grain cyc ecc s = .next ((s.eccFix die brick ecc).endInsn
      { die, brick, g := grain, ecc } (s.grain die brick grain) w cyc
      ((s.eccFix die brick ecc).execWord { die, brick, g := grain, ecc } (s.grain die brick grain) w)) := by
  have fetched : s.fetchInsn { die, brick, g := grain, ecc } (s.grain die brick grain).pc.toNat = some (w, 4) := fetch
  simp only [execGrainInstruction, unit, need_true, active, away, Bool.not_true, Bool.false_eq_true, and_false, or_self,
    if_false, fetched, if_true]
  exact congrArg Host.Outcome.next (s.withEcc_corrected _ _ _ _ _ _ corrected)

/-- Settles O6. The words and results are RV32I's, which is the model's choice (log 105). -/
theorem grainInstructions : Obligations.GrainInstructions := by
  unfold Obligations.GrainInstructions
  intro s die brick grain cyc ecc w unit active corrected away x a s0 fetch
  have runs {r : GOut} (done : s0.execWord { a with ecc } x w = r) :
      exec (.grainInstruction die brick grain cyc ecc) s = .next (s0.endInsn { a with ecc } x w cyc r) :=
    (execGrainInstruction_word unit active corrected away fetch).trans
      (congrArg (fun r => Host.Outcome.next (s0.endInsn { a with ecc } x w cyc r)) done)
  refine ⟨?add, ?lw, ?sw, ?beq⟩
  case add => exact fun rd rs1 rs2 hd h1 h2 word => runs (s0.execWord_add _ x word hd h1 h2)
  case lw => exact fun rd rs1 o hd h1 word readable => runs (s0.execWord_lw _ x word hd h1 readable)
  case sw => exact fun rs1 rs2 o h1 h2 word writable => runs (s0.execWord_sw _ x word h1 h2 writable)
  case beq =>
    intro rs1 rs2 h1 h2 word
    rw [runs (s0.execWord_beq _ x word h1 h2)]
    split <;> rfl

/-- A world of which some grain has not ended its part stays as it is (R49). -/
theorem State.worldReturned_of_open {s : State} {pan w g : Nat} {d : DevWorld}
    (world : (s.pan pan).worlds.find? (fun d => d.decl.world = w) = some d) (mem : g ∈ s.worldGrains d.decl)
    (running : (s.grain d.decl.die d.decl.brick g).ended = false) : s.worldReturned pan w = s := by
  have notAll : ((s.worldGrains d.decl).map (fun g => s.grain d.decl.die d.decl.brick g)).all
      (fun x => x.ended && !x.inReset) = false :=
    List.all_eq_false.2 ⟨_, List.mem_map_of_mem mem, by simp only [running, Bool.false_and, Bool.false_eq_true,
      not_false_eq_true]⟩
  simp only [State.worldReturned, world, notAll, Bool.false_eq_true, false_and, if_false]

/-- Settles O7: a grain other than grain 0 of its world gives no result, and its world goes on. -/
theorem sentinelReturn : Obligations.SentinelReturn := by
  unfold Obligations.SentinelReturn
  rintro s die brick grain p d unit owner x role run pc number world t ⟨g, mem, running⟩
  have world' : (t.pan p).worlds.find? (fun d => d.decl.world = x.world) = some d := world
  have ends : ¬ (x.role ≠ 1 ∨ x.run ≠ .run ∨ x.pc ≠ sentinel) := by
    simp only [role, run, pc, ne_eq, not_true, or_self, not_false_eq_true]
  change execSentinelReturn die brick grain s = _
  simp only [execSentinelReturn, unit, need_true, owner]
  rw [if_neg ends, if_neg (fun h => number h.1)]
  exact congrArg Host.Outcome.next (State.worldReturned_of_open world' mem running)

end Sys2Proof.Machine
end

section
/-!
Xsliver: what each custom instruction does where it is legal.
-/

namespace Sys2Proof.Machine

/-! ## Arithmetic of two lanes, and reductions -/

/-- A local address lies in the grain's part of local memory (R36). -/
theorem GAt.local_of_le (a : GAt) {addr n : Nat} (h : addr + n ≤ 0x2000) :
    a.local addr n = some (localBase a.g + addr) := if_pos h

section Slivers

variable (s : State) (a : GAt) (x : Grain)

/-- SL.FMA2 on even registers with a legal rounding mode works lane by lane (R40). -/
theorem State.slFma2_even {rd rs1 rs2 rs3 rm : Nat} {m : RMode} (hd : rd % 2 = 0) (h1 : rs1 % 2 = 0)
    (h2 : rs2 % 2 = 0) (h3 : rs3 % 2 = 0) (mode : Rv.rmode rm x.frm.toNat = some m) :
    let p := fp32.fmaLane m (x.rf rs1).toNat (x.rf rs2).toNat (x.rf rs3).toNat
    let q := fp32.fmaLane m (x.rf (rs1 + 1)).toNat (x.rf (rs2 + 1)).toNat (x.rf (rs3 + 1)).toNat
    s.slFma2 a x rd rs1 rs2 rs3 rm = a.step s (((x.wf rd (BitVec.ofNat 32 p.1) (x.df [rs1, rs2, rs3])).wf (rd + 1)
      (BitVec.ofNat 32 q.1) (x.df [rs1 + 1, rs2 + 1, rs3 + 1])).flag (p.2 ||| q.2)) := by
  simp only [State.slFma2, hd, h1, h2, h3, mode, Nat.zero_ne_one, or_self, if_false, Nat.add_zero]

/-- SL.BFMA4 on even registers works lane by lane, rounding to nearest even (R40). -/
theorem State.slBfma4_even {rd rs1 rs2 rs3 rm : Nat} (hd : rd % 2 = 0) (h1 : rs1 % 2 = 0)
    (h2 : rs2 % 2 = 0) (h3 : rs3 % 2 = 0) (mode : rm = 0 ∨ rm = 7) :
    let p := bfmaWord (x.rf rs1).toNat (x.rf rs2).toNat (x.rf rs3).toNat
    let q := bfmaWord (x.rf (rs1 + 1)).toNat (x.rf (rs2 + 1)).toNat (x.rf (rs3 + 1)).toNat
    s.slBfma4 a x rd rs1 rs2 rs3 rm = a.step s (((x.wf rd (BitVec.ofNat 32 p.1) (x.df [rs1, rs2, rs3])).wf (rd + 1)
      (BitVec.ofNat 32 q.1) (x.df [rs1 + 1, rs2 + 1, rs3 + 1])).flag (p.2 ||| q.2)) := by
  have legal : ¬ (rm ≠ 0 ∧ rm ≠ 7) := by omega
  simp only [State.slBfma4, hd, h1, h2, h3, legal, Nat.zero_ne_one, or_self, if_false, Nat.add_zero]

/-- SL.RRED folds the words of local memory (R41). -/
theorem State.slRred_local {rd rs1 fn : Nat} (op : fn ≤ 3) (inside : (x.rx rs1).toNat + x.slCount * 4 ≤ 0x2000) :
    let o := localBase a.g + (x.rx rs1).toNat
    let b := s.rdBrick a.die a.brick o (x.slCount * 4)
    s.slRred a x rd rs1 0 fn = a.step s
      (x.wf rd (BitVec.ofNat 32 (rred fn ((List.range x.slCount).map (fun i => fieldAt b (i * 4) 4))))
        (s.descends a.die a.brick o (x.slCount * 4))) := by
  simp only [State.slRred, Nat.not_lt.2 op, ne_eq, not_true_eq_false, or_self, if_false, a.local_of_le inside]

/-! ## Moves between the tile store and local memory -/

/-- SL.RLD decodes a readable row of the tile store into local memory (R39, R104). -/
theorem State.slRld_inside {rd rs1 rs2 o : Nat}
    (tile : s.grainTile a x false (x.rx rs1).toNat (x.slCount * slBytes x.slCode) = some o)
    (inside : (x.rx rs2).toNat + x.slCount * 4 ≤ 0x2000) :
    let d := localBase a.g + (x.rx rs2).toNat
    let b := s.rdBrick a.die a.brick o (x.slCount * slBytes x.slCode)
    let es := (List.range x.slCount).map (fun i =>
      slDecode x.slCode (fieldAt b (i * slBytes x.slCode) (slBytes x.slCode)))
    s.slRld a x rd rs1 rs2 = a.step
      ((s.wrBrick a.die a.brick d (es.flatMap (fun e => toLe 4 e.1.toNat))).spread s a o (slBytes x.slCode) d 4
        x.slCount)
      ((x.wx rd (BitVec.ofNat 32 (x.slCount * 4))).flag (es.foldl (fun f e => f ||| e.2) 0)) := by
  simp only [State.slRld, tile, a.local_of_le inside]

/-- SL.RST encodes a local row into a writable row of the tile store (R39, R104). -/
theorem State.slRst_inside {rd rs1 rs2 o : Nat} (inside : (x.rx rs2).toNat + x.slCount * 4 ≤ 0x2000)
    (tile : s.grainTile a x true (x.rx rs1).toNat (x.slCount * slBytes x.slCode) = some o) :
    let i := localBase a.g + (x.rx rs2).toNat
    let b := s.rdBrick a.die a.brick i (x.slCount * 4)
    let es := (List.range x.slCount).map (fun i =>
      slEncode x.slCode (bit x.slfmt.toNat 24) (BitVec.ofNat 32 (fieldAt b (i * 4) 4)))
    s.slRst a x rd rs1 rs2 = a.step
      ((s.wrBrick a.die a.brick o (es.flatMap (fun e => toLe (slBytes x.slCode) e.1))).spread s a i 4 o
        (slBytes x.slCode) x.slCount)
      ((x.wx rd (BitVec.ofNat 32 (x.slCount * slBytes x.slCode))).flag (es.foldl (fun f e => f ||| e.2) 0)) := by
  simp only [State.slRst, tile, a.local_of_le inside]

/-! ## Rows of a stream -/

/-- OPTAG, micro-batch and slice of the operation that runs on the grain, which the rows it pushes bear (log 111). -/
def State.pushTag (s : State) (a : GAt) : Nat × Nat × Nat :=
  match s.grainOp a.die a.brick a.g with
  | some e => (optagOf a.die (e.1 % 4096) e.2.gen, e.2.mb, e.2.slice)
  | none => (0, 0, 0)

/-- SL.PUSH of a grain whose stream has room emits a row of the local bytes (R42, R43, R112). -/
theorem State.slPush_emits {rd rs1 rs2 p : Nat} {d : PortDecl} {t : StreamDecl}
    (port : s.grainPort a x ((x.rx rs2).toNat % 8) = some (p, d, t)) (outbound : d.outbound = true)
    (inside : (x.rx rs1).toNat + rowBytes t.fmt t.width ≤ 0x2000) (room : canEmit t (s.rows p t.idx) = true) :
    let o := localBase a.g + (x.rx rs1).toNat
    let n := rowBytes t.fmt t.width
    let cause := if a.ecc = 2 then 4 else if s.descends a.die a.brick o n then 5 else 0
    let tag := s.pushTag a
    let r := mkRow t.fmt t.width cause tag.1 tag.2.1 tag.2.2 x.epoch (s.rdBrick a.die a.brick o n)
    let u := if cause = 0 then s.emit p t.idx r else (s.emit p t.idx r).poisonOut p a.die cause
    s.slPush a x rd rs1 rs2 = a.step u (x.wx rd (BitVec.ofNat 32 (streamCredits t (u.rows p t.idx)))) := by
  simp only [State.slPush, port, outbound, a.local_of_le inside, room, Bool.not_true, Bool.false_eq_true, if_false]
  rfl

/-- SL.POP takes a waiting row (R39, R43). -/
theorem State.slPop_takes {rd rs1 rs2 p : Nat} {d : PortDecl} {t : StreamDecl} {r : Row}
    (port : s.grainPort a x ((x.rx rs2).toNat % 8) = some (p, d, t)) (inbound : d.outbound = false)
    (inside : (x.rx rs1).toNat + rowBytes t.fmt t.width ≤ 0x2000)
    (waits : nextRow (s.rows p t.idx) d.station = some r) :
    let o := localBase a.g + (x.rx rs1).toNat
    let b := r.data.take (rowBytes t.fmt t.width)
    s.slPop a x rd rs1 rs2 = a.step
      (((s.takeRow p t.idx d.station t).wrBrick a.die a.brick o b).taint a.die a.brick o b.length (r.cause != 0))
      { x.wx rd (BitVec.ofNat 32 (r.valid % 2 ^ 16 + b2n r.last * 2 ^ 16 + b2n (r.cause != 0) * 2 ^ 17)) with
        epoch := r.hdr.epoch } := by
  simp only [State.slPop, port, inbound, a.local_of_le inside, waits, Bool.false_eq_true, if_false]

/-- SL.CRED counts the credits or the waiting rows of its port (R39). -/
theorem State.slCred_bound {rd rs2 p : Nat} {d : PortDecl} {t : StreamDecl}
    (port : s.grainPort a x ((x.rx rs2).toNat % 8) = some (p, d, t)) :
    s.slCred a x rd 0 rs2 = a.step s (x.wx rd (BitVec.ofNat 32 (if d.outbound then streamCredits t (s.rows p t.idx)
      else waitingRows (s.rows p t.idx) d.station))) := by
  simp only [State.slCred, port, ne_eq, not_true_eq_false, if_false]

/-! ## Draws and waits -/

/-- SL.DRAW takes one word of the grain's lane (R39, R164). -/
theorem State.slDraw_plain {rd : Nat} :
    let r := s.takeWords (grainLane a.die a.brick a.g) 1
    s.slDraw a x rd 0 0 = a.step r.2 (x.wx rd (BitVec.ofNat 32 (nth r.1 0 0))) := by
  simp only [State.slDraw, ne_eq, not_true_eq_false, or_self, if_false]

/-- SL.DRAWF takes the top 24 bits of one word of the grain's lane (R39, R164). -/
theorem State.slDrawf_plain {rd : Nat} :
    let r := s.takeWords (grainLane a.die a.brick a.g) 1
    s.slDrawf a x rd 0 0 = a.step r.2 (x.wf rd (packF32 .rne (.fin false (nth r.1 0 0 / 256) (-24))).1) := by
  simp only [State.slDrawf, ne_eq, not_true_eq_false, or_self, if_false]

/-- SL.WAITB waits for the boundary and keeps rd for the release (R45). -/
theorem State.slWaitb_plain {rd : Nat} : s.slWaitb a x rd 0 0 =
    a.step s { x with run := .waitBoundary, waitRd := rd, ended := x.ended || decide (x.role = 2) } := by
  simp only [State.slWaitb, ne_eq, not_true_eq_false, or_self, if_false]

end Slivers

/-- The count of a corrected memory error changes the register file alone. -/
theorem State.eccFix_mem (s : State) (die brick ecc : Nat) : (s.eccFix die brick ecc).mem = s.mem := by
  unfold State.eccFix
  split
  · exact State.bump_mem ..
  · rfl

/-- SL.PUSH is the custom-0 instruction of function 3 (R39). -/
theorem isPush_of_encR {w rd rs1 rs2 : Nat} (word : w = Rv.encR 0x0B 3 0 rd rs1 rs2) (hd : rd < 32) :
    isPush w = true := by
  have op : (0x0B : Nat) < 128 := by decide
  have f3 : (3 : Nat) < 8 := by decide
  simp only [isPush, Rv.opcode_of_encR word op, Rv.f3_of_encR word op hd f3, BEq.rfl, Bool.and_self]

/-- Settles O1: each row retires with the result of its two lanes, or of its reduction. -/
theorem sliverArithmetic : Obligations.SliverArithmetic := by
  unfold Obligations.SliverArithmetic
  refine ⟨?fma, ?bfma, ?rred⟩
  case fma =>
    intro s die brick grain rd rs1 rs2 rs3 rm cyc ecc m unit active corrected hd h1 h2 h3 mode
    exact State.runRow_retires (fun s a x => s.slFma2 a x rd rs1 rs2 rs3 rm) unit active corrected
      (State.slFma2_even _ _ _ hd h1 h2 h3 mode)
  case bfma =>
    intro s die brick grain rd rs1 rs2 rs3 rm cyc ecc unit active corrected hd h1 h2 h3 mode
    exact State.runRow_retires (fun s a x => s.slBfma4 a x rd rs1 rs2 rs3 rm) unit active corrected
      (State.slBfma4_even _ _ _ hd h1 h2 h3 mode)
  case rred =>
    intro s die brick grain rd rs1 fn cyc ecc unit active corrected op inside
    exact State.runRow_retires (fun s a x => s.slRred a x rd rs1 0 fn) unit active corrected
      (State.slRred_local _ _ _ op inside)

/-- Settles O2: a row inside its window and inside local memory is moved element by element. -/
theorem sliverMoves : Obligations.SliverMoves := by
  unfold Obligations.SliverMoves
  refine ⟨?rld, ?rst⟩
  case rld =>
    intro s die brick grain rd rs1 rs2 cyc ecc o unit active corrected x s0 a n w tile inside
    exact State.runRow_retires (fun s a x => s.slRld a x rd rs1 rs2) unit active corrected
      (State.slRld_inside s0 { a with ecc } x tile inside)
  case rst =>
    intro s die brick grain rd rs1 rs2 cyc ecc o unit active corrected x s0 a n w inside tile
    exact State.runRow_retires (fun s a x => s.slRst a x rd rs1 rs2) unit active corrected
      (State.slRst_inside s0 { a with ecc } x inside tile)

/-- Settles O3: a draw takes one word of the lane, and a wait for the boundary keeps its rd for the release. -/
theorem sliverDraws : Obligations.SliverDraws := by
  unfold Obligations.SliverDraws
  refine ⟨?draw, ?drawf, ?waitb⟩
  case draw =>
    intro s die brick grain rd cyc ecc unit active corrected
    exact State.runRow_retires (fun s a x => s.slDraw a x rd 0 0) unit active corrected
      (State.slDraw_plain _ _ _)
  case drawf =>
    intro s die brick grain rd cyc ecc unit active corrected
    exact State.runRow_retires (fun s a x => s.slDrawf a x rd 0 0) unit active corrected
      (State.slDrawf_plain _ _ _)
  case waitb =>
    intro s die brick grain rd cyc ecc unit active corrected
    refine ⟨_, State.runRow_retires (fun s a x => s.slWaitb a x rd 0 0) unit active corrected
      (State.slWaitb_plain _ _ _), ?_⟩
    rw [State.grain_setGrain_self]
    exact ⟨rfl, rfl, rfl, rfl, s.eccFix_mem die brick ecc, rfl⟩

/-- Settles O4: each row does on its bound port what its lemma above says. The epochs of pushed and popped rows are
the model's choice (log 111). -/
theorem sliverStreams : Obligations.SliverStreams := by
  unfold Obligations.SliverStreams
  refine ⟨?push, ?pop, ?cred⟩
  case push =>
    intro s die brick grain rd rs1 rs2 cyc ecc p d t unit active _ hd _ _ x a s0 o n port outbound inside room cause
    exact ⟨_, rfl, rfl, rfl, rfl, State.runRow_push_retires (fun s a x => s.slPush a x rd rs1 rs2) unit active
      (isPush_of_encR rfl hd) (s0.slPush_emits { a with ecc } x port outbound inside room)⟩
  case pop =>
    intro s die brick grain rd rs1 rs2 cyc ecc p d t r unit active corrected x a s0 o b port inbound inside waits
    exact State.runRow_retires (fun s a x => s.slPop a x rd rs1 rs2) unit active corrected
      (s0.slPop_takes { a with ecc } x port inbound inside waits)
  case cred =>
    intro s die brick grain rd rs2 cyc ecc p d t unit active corrected x a s0 port
    exact State.runRow_retires (fun s a x => s.slCred a x rd 0 rs2) unit active corrected
      (s0.slCred_bound { a with ecc } x port)

end Sys2Proof.Machine
end

section
/-!
Writes of a brick window's command registers: the fields of a register, the plan of its write, the record that goes
before it, and what each field's effect is.
-/

namespace Sys2Proof.Machine

/-! ## Registers of a brick window -/

/-- The CSR offset of a register of a brick window (R3, R4). -/
theorem csrOf_lBrick {f : Fld} (window : f.blk = .brick) (lsb : f.lsb < 64) (die brick : Nat) :
    csrOf f (lBrick die brick) = (die * 256 + 0x80 + brick) * 65536 + f.off := by
  simp only [csrOf, Fld.key, lBrick, window, Blk.code]
  omega

/-- The fields of the brick register at an offset, each with its number. -/
def brickRegister (off : Nat) : List (Fld × Nat) := R.brickFields.filterMap (fun g => (g.at? off).map (g, ·))

theorem blkOf_brick {die code : Nat} (compute : die < 16) (window : 0x80 ≤ code) : blkOf die code = some .brick := by
  simp only [blkOf, isCompute, compute, decide_true, window, if_true, List.find?_cons, true_or]

/-- The register of a field of a brick window has that window's fields at its offset (R3, R4). -/
theorem regFields_brick {f : Fld} {die brick : Nat} (unit : isBrick die brick = true) (window : f.blk = .brick)
    (lsb : f.lsb < 64) (off : f.off < 65536) (aligned : f.off % 8 = 0) :
    regFields (csrOf f (lBrick die brick)) = (brickRegister f.off).map (fun g => (g.1, lBrickI die brick g.2)) := by
  simp only [isBrick, Bool.and_eq_true, decide_eq_true_eq] at unit
  obtain ⟨hd, hb⟩ := unit
  rw [csrOf_lBrick window lsb]
  have at_ : bits ((die * 256 + 0x80 + brick) * 65536 + f.off) 28 24 = die ∧
      bits ((die * 256 + 0x80 + brick) * 65536 + f.off) 23 16 = 0x80 + brick ∧
      bits ((die * 256 + 0x80 + brick) * 65536 + f.off) 15 0 = f.off ∧
      (die * 256 + 0x80 + brick) * 65536 + f.off < 2 ^ 29 := by
    simp only [bits]
    omega
  obtain ⟨hdie, hcode, hoff, hsize⟩ := at_
  simp only [regFields, hdie, hcode, hoff, blkOf_brick hd (Nat.le_add_right _ _), aligned, Nat.not_le.2 hsize, ne_eq,
    not_true_eq_false, or_self, if_false, Blk.fields, if_true, Nat.add_sub_cancel_left, brickRegister,
    List.map_filterMap, Option.map_map]
  rfl

/-- Fields of one brick window lie apart where their offsets and lowest bits do. -/
theorem Fld.key_lBrick_ne {f g : Fld} (window : f.blk = g.blk) (ne : f.off * 64 + f.lsb ≠ g.off * 64 + g.lsb)
    (die brick : Nat) : f.key (lBrick die brick) ≠ g.key (lBrick die brick) := by
  simp only [Fld.key, lBrick, window]
  omega

/-- A brick window is a register block of its own, above the blocks of its die (R4). -/
theorem csrBlock_key_lBrick {f : Fld} {die brick : Nat} (unit : isBrick die brick = true) (window : f.blk = .brick)
    (off : f.off < 65536) (lsb : f.lsb < 64) : 0x80 ≤ csrBlock (f.key (lBrick die brick)) := by
  simp only [isBrick, Bool.and_eq_true, decide_eq_true_eq] at unit
  obtain ⟨-, hb⟩ := unit
  simp only [csrBlock, Fld.key, lBrick, window, Blk.code]
  omega

/-! ## What the record of a write leaves as it is -/

section Record

variable (s : State) {g : Fld} {b : Loc} (window : 0x80 ≤ csrBlock (g.key b))

include window

theorem State.getF_setF_of_window {f : Fld} {a : Loc} (below : csrBlock (f.key a) < 0x80) (v : Nat) :
    (s.setF f a v).getF g b = s.getF g b :=
  s.getF_setF_ne f g a b v (fun same => by rw [same] at below; omega)

theorem State.getF_msix_of_window (hd v : Nat) : (s.msix hd v).getF g b = s.getF g b := by
  have below : csrBlock (R.PCIE_MSIX_PENDING.key (lDie (16 + hd))) < 0x80 := by
    have off : R.PCIE_MSIX_PENDING.off + (lDie (16 + hd)).idx * R.PCIE_MSIX_PENDING.stride < 65536 := by
      rw [show (lDie (16 + hd)).idx = 0 from rfl, Nat.zero_mul]
      decide
    rw [Fld.csrBlock_key _ _ rfl off (by decide)]
    exact (by decide : 0x10 < 0x80)
  rcases s.msix_spec hd v with ⟨-, up⟩ | ⟨-, down⟩
  · rw [up]
    rfl
  · rw [down, s.getF_setF_of_window window below]

theorem State.getF_alarm_of_window (kind job key : Nat) : (s.alarm kind job key).getF g b = s.getF g b := by
  have overflow : csrBlock (R.PERF_ALSTAT_OVERFLOW.key lKeep) < 0x80 := by decide
  unfold State.alarm
  dsimp only
  split
  · rfl
  · split
    · rw [State.getF_msix_of_window _ window, State.getF_msix_of_window _ window]
      rfl
    · rw [State.getF_bump_ne _ (by decide) ⟨by omega, by omega⟩ (fun same => by rw [same] at overflow; omega)]
      rfl

theorem State.getF_auditAlarm_of_window : s.auditAlarm.getF g b = s.getF g b := by
  unfold State.auditAlarm
  split
  · rfl
  · exact s.getF_alarm_of_window window _ _ _

/-- A record in the audit log leaves the brick windows as they are. -/
theorem State.getF_audit1_of_window (die : Nat) (r : AuditRec) : (s.audit1 die r).getF g b = s.getF g b := by
  unfold State.audit1
  split
  · exact State.getF_auditAlarm_of_window _ window
  · exact State.getF_auditAlarm_of_window _ window

end Record

theorem State.alarm_bists (s : State) (kind job key : Nat) : (s.alarm kind job key).obsv.bists = s.obsv.bists := by
  unfold State.alarm
  dsimp only
  split
  · rfl
  · split <;> simp only [State.msix_obsv, State.bump_obsv] <;> rfl

theorem State.auditAlarm_bists (s : State) : s.auditAlarm.obsv.bists = s.obsv.bists := by
  unfold State.auditAlarm
  split
  · rfl
  · exact s.alarm_bists _ _ _

/-- A record in the audit log leaves self-tests as they are. -/
theorem State.audit1_bists (s : State) (die : Nat) (r : AuditRec) : (s.audit1 die r).obsv.bists = s.obsv.bists := by
  unfold State.audit1
  split
  · exact State.auditAlarm_bists _
  · exact State.auditAlarm_bists _

/-! ## The write of a register with room for its record -/

/-- A write that its die's audit staging accepts makes its record, and its plan is carried out (R382, R388). -/
theorem State.csrWrite_open {s : State} {o : Origin} {csr : Nat} {v : U64} {p : FldWrite} {ps : List FldWrite}
    (room : s.writeOpen o csr = true) (plan : s.plan (regFields csr) v.toNat = p :: ps) :
    ∃ d r, s.csrWrite o csr v = (s.audit1 d r).applyPlan (p :: ps) v.toNat := by
  simp only [State.writeOpen, Bool.and_eq_true] at room
  obtain ⟨⟨reach, staging⟩, first⟩ := room
  refine ⟨originDie o (bits csr 28 24), s.writeRec o csr v.toNat (p :: ps), ?_⟩
  simp only [State.csrWrite, reach, plan, List.isEmpty_cons, staging, first, Bool.not_true, Bool.false_eq_true, or_self,
    if_false, and_self, if_true, State.csrWriteNow]

/-- A field of a brick window is live where it stands, and takes writes unless it is read-only (R381). -/
theorem State.writable_brick (s : State) {f : Fld} (window : f.blk = .brick) (a : Loc) :
    s.writable f a = if f.acc = .ro ∨ f.acc = .rc then none else some a := by
  simp only [State.writable, State.regHome, window, reduceCtorEq, false_and, or_false]

/-- Fields that are read-only take no part in the plan of a brick register. -/
theorem State.plan_readOnly (s : State) {f : Fld} (window : f.blk = .brick) (writes : ¬ (f.acc = .ro ∨ f.acc = .rc))
    (a : Loc) {rest : List (Fld × Loc)} (ro : ∀ g ∈ rest, g.1.blk = .brick ∧ g.1.acc = .ro) (v : Nat) :
    s.plan ((f, a) :: rest) v = [s.planFld f a a v] := by
  simp only [State.plan, List.foldl_cons, s.writable_brick window, writes, if_false, List.nil_append]
  refine List.foldlRecOn (motive := fun x : State × List FldWrite => x.2 = [s.planFld f a a v]) _ _ rfl
    fun x hx g hg => ?_
  simp only [State.writable_brick _ (ro g hg).1, (ro g hg).2, true_or, if_true, hx]

@[simp] theorem State.planFld_fld (s : State) (f : Fld) (a h : Loc) (v : Nat) : (s.planFld f a h v).fld = f := by
  simp only [State.planFld]
  split <;> simp only [apply_ite FldWrite.fld, ite_self]

@[simp] theorem State.planFld_loc (s : State) (f : Fld) (a h : Loc) (v : Nat) : (s.planFld f a h v).loc = h := by
  simp only [State.planFld]
  split <;> simp only [apply_ite FldWrite.loc, ite_self]

@[simp] theorem State.planFld_raw (s : State) (f : Fld) (a h : Loc) (v : Nat) :
    (s.planFld f a h v).raw = bits v (f.lsb + f.w - 1) f.lsb := by
  simp only [State.planFld]
  split <;> simp only [apply_ite FldWrite.raw, ite_self]

/-- A field that is not write-once takes its planned value. -/
theorem State.applyFld_setF (s : State) (p : FldWrite) (often : p.fld.acc ≠ .wo1) :
    s.applyFld p = s.setF p.fld p.loc p.new := by
  simp only [State.applyFld, often, false_and, if_false]

/-- A register of a brick window takes its plan field by field, and then has its effects. -/
theorem State.applyPlan_brick (s : State) {p : FldWrite} (window : p.fld.blk = .brick) (ps : List FldWrite) (v : Nat) :
    s.applyPlan (p :: ps) v = forEach (p :: ps) (forEach (p :: ps) s State.applyFld) State.afterFld := by
  simp only [State.applyPlan, window, reduceCtorEq, false_and, if_false]

/-- What the fields of a brick window do beside taking their value (R31, R76, R416). -/
theorem State.afterFld_brick (s : State) {p : FldWrite} (window : p.fld.blk = .brick) :
    s.afterFld p =
      if p.fld = R.BRK_DBG_RESUME then (if (p.raw == 1) = true then s.resumeBrick p.loc.die p.loc.unit else s)
      else if p.fld = R.MXA_MODE_ELASTIC then s.requestMode p.loc.die p.loc.unit p.new
      else if p.fld = R.PERF_BSEL_EVENT then s.setF R.PERF_BCNT_VALUE p.loc 0
      else s := by
  simp only [State.afterFld, window]

/-- A field of a brick window that is the only writable one of its register. -/
structure SoleField (f : Fld) : Prop where
  window : f.blk = .brick
  lsb : f.lsb < 64
  off : f.off < 65536
  aligned : f.off % 8 = 0
  writes : f.acc = .rw ∨ f.acc = .w1c
  sole : ∃ rest, brickRegister f.off = (f, 0) :: rest ∧ ∀ g ∈ rest, g.1.blk = .brick ∧ g.1.acc = .ro

/-- A write to the sole writable field of a brick register sets it, and has its effect. -/
theorem State.csrWrite_sole {s : State} {o : Origin} {die brick : Nat} {f : Fld} (v : U64) (sole : SoleField f)
    (unit : isBrick die brick = true) (room : s.writeOpen o (csrOf f (lBrick die brick)) = true) :
    ∃ d r, s.csrWrite o (csrOf f (lBrick die brick)) v =
      (let p := s.planFld f (lBrick die brick) (lBrick die brick) v.toNat
       ((s.audit1 d r).setF f (lBrick die brick) p.new).afterFld p) := by
  obtain ⟨window, lsb, off, aligned, writes, rest, register, ro⟩ := sole
  have fields : regFields (csrOf f (lBrick die brick)) =
      (f, lBrick die brick) :: rest.map (fun g => (g.1, lBrickI die brick g.2)) := by
    rw [regFields_brick unit window lsb off aligned, register]
    rfl
  have plan : s.plan (regFields (csrOf f (lBrick die brick))) v.toNat =
      [s.planFld f (lBrick die brick) (lBrick die brick) v.toNat] := by
    rw [fields]
    refine s.plan_readOnly window ?_ _ (fun g hg => ?_) _
    · rcases writes with h | h <;> simp only [h, reduceCtorEq, or_self, not_false_eq_true]
    · obtain ⟨g', hg', rfl⟩ := List.mem_map.1 hg
      exact ro g' hg'
  obtain ⟨d, r, write⟩ := State.csrWrite_open room plan
  have often : f.acc ≠ .wo1 := by rcases writes with h | h <;> simp only [h, ne_eq, reduceCtorEq, not_false_eq_true]
  refine ⟨d, r, write.trans ?_⟩
  rw [State.applyPlan_brick _ (by rw [State.planFld_fld, window])]
  simp only [forEach, List.foldl_cons, List.foldl_nil]
  rw [State.applyFld_setF _ _ (by rw [State.planFld_fld]; exact often), State.planFld_fld, State.planFld_loc]

theorem soleField_BRK_FAULT_VALID : SoleField R.BRK_FAULT_VALID :=
  ⟨rfl, by decide, by decide, by decide, .inr rfl, _, rfl, by decide⟩

theorem soleField_MXA_MODE_ELASTIC : SoleField R.MXA_MODE_ELASTIC :=
  ⟨rfl, by decide, by decide, by decide, .inl rfl, _, rfl, by decide⟩

theorem soleField_MXA_ERR_VALID : SoleField R.MXA_ERR_VALID :=
  ⟨rfl, by decide, by decide, by decide, .inr rfl, _, rfl, by decide⟩

theorem soleField_MXA_FLAGS0_BANKS : SoleField R.MXA_FLAGS0_BANKS :=
  ⟨rfl, by decide, by decide, by decide, .inr rfl, _, rfl, by decide⟩

theorem soleField_MXA_FLAGS1_BANKS : SoleField R.MXA_FLAGS1_BANKS :=
  ⟨rfl, by decide, by decide, by decide, .inr rfl, _, rfl, by decide⟩

/-- A sole field that is cleared by ones keeps the bits that the write does not name, and has no other effect. -/
theorem State.csrWrite_clears {s : State} {o : Origin} {die brick : Nat} {f : Fld} (v : U64) (sole : SoleField f)
    (unit : isBrick die brick = true) (room : s.writeOpen o (csrOf f (lBrick die brick)) = true)
    (clears : f.acc = .w1c) : ∃ d r, s.csrWrite o (csrOf f (lBrick die brick)) v =
      (s.audit1 d r).setF f (lBrick die brick)
        (s.getF f (lBrick die brick) &&& (bits v.toNat (f.lsb + f.w - 1) f.lsb ^^^ (2 ^ f.w - 1))) := by
  obtain ⟨d, r, write⟩ := State.csrWrite_sole v sole unit room
  have other {g : Fld} (h : g.acc ≠ .w1c) : f ≠ g := fun same => h (same ▸ clears)
  refine ⟨d, r, write.trans ?_⟩
  dsimp only
  rw [State.afterFld_brick _ (by rw [State.planFld_fld, sole.window]), State.planFld_fld, if_neg (other (by decide)),
    if_neg (other (by decide)), if_neg (other (by decide))]
  simp only [State.planFld, clears]

end Sys2Proof.Machine
end

section
/-!
Commands on the registers of a brick window: what each does when its record is accepted.
-/

namespace Sys2Proof.Machine

/-! ## BRK_FAULT, MXA_ERR and MXA_FLAGS -/

/-- A one-bit field that is cleared by ones stays set where it was set and the write has a 0. -/
theorem clearedBit (old v : Nat) :
    ((old &&& (bits v 0 0 ^^^ (2 ^ 1 - 1))) % 2 ^ 1 != 0) = (bit old 0 && !bit v 0) := by
  have bit0 (n : Nat) : (n % 2 != 0) = bit n 0 := by
    rcases Nat.mod_two_eq_zero_or_one n with h | h <;> simp [bit, h]
  have written : (bits v 0 0).testBit 0 = v.testBit 0 := by simp [bits]
  rw [pow_one, bit0, bit, Nat.testBit_and, Nat.testBit_xor, written, Nat.testBit_one_zero, Bool.xor_true]
  rfl

/-- A write to a VALID bit at the foot of a brick register clears it by 1, and keeps it by 0 (R54, R83). -/
theorem State.csrWrite_clears_bit {s : State} {o : Origin} {die brick : Nat} {f : Fld} (v : U64) (sole : SoleField f)
    (unit : isBrick die brick = true) (room : s.writeOpen o (csrOf f (lBrick die brick)) = true)
    (clears : f.acc = .w1c) (foot : f.lsb = 0 ∧ f.w = 1) :
    (s.csrWrite o (csrOf f (lBrick die brick)) v).grains = s.grains ∧
      (s.csrWrite o (csrOf f (lBrick die brick)) v).getB f (lBrick die brick) =
        (bit (s.getF f (lBrick die brick)) 0 && !bit v.toNat 0) := by
  obtain ⟨lsb, w⟩ := foot
  obtain ⟨d, r, write⟩ := State.csrWrite_clears v sole unit room clears
  rw [write]
  refine ⟨by rw [State.setF_grains, State.audit1_grains], ?_⟩
  rw [State.getB, State.getF_setF_self, lsb, w]
  exact clearedBit _ _

/-- A write to 64 flags of a brick register clears those that it names (R94). -/
theorem State.getF_csrWrite_flags {s : State} {o : Origin} {die brick : Nat} {f : Fld} (v : U64) (sole : SoleField f)
    (unit : isBrick die brick = true) (room : s.writeOpen o (csrOf f (lBrick die brick)) = true)
    (clears : f.acc = .w1c) (whole : f.lsb = 0 ∧ f.w = 64) :
    (s.csrWrite o (csrOf f (lBrick die brick)) v).getF f (lBrick die brick) =
      s.getF f (lBrick die brick) &&& (v.toNat ^^^ (2 ^ 64 - 1)) := by
  obtain ⟨lsb, w⟩ := whole
  obtain ⟨d, r, write⟩ := State.csrWrite_clears v sole unit room clears
  have value : bits v.toNat (0 + 64 - 1) 0 = v.toNat := by
    simpa [bits] using Nat.mod_eq_of_lt v.isLt
  have kept : v.toNat ^^^ (2 ^ 64 - 1) < 2 ^ 64 := Nat.xor_lt_two_pow v.isLt (by decide)
  rw [write, State.getF_setF_self, lsb, w, value]
  exact Nat.mod_eq_of_lt (Nat.and_lt_two_pow _ kept)

/-- The bank flags of a brick's array, by the register that holds them. -/
theorem soleField_MXA_FLAGS (reg : Nat) : SoleField (if reg = 0 then R.MXA_FLAGS0_BANKS else R.MXA_FLAGS1_BANKS) := by
  split
  · exact soleField_MXA_FLAGS0_BANKS
  · exact soleField_MXA_FLAGS1_BANKS

theorem MXA_FLAGS_whole (reg : Nat) :
    let f := if reg = 0 then R.MXA_FLAGS0_BANKS else R.MXA_FLAGS1_BANKS
    f.acc = .w1c ∧ f.lsb = 0 ∧ f.w = 64 := by
  dsimp only
  split <;> exact ⟨rfl, rfl, rfl⟩

/-! ## MXA_MODE -/

/-- MXA_MODE.ELASTIC takes any value that is written to it. -/
theorem State.planFld_MXA_MODE (s : State) (l : Loc) (v : Nat) :
    (s.planFld R.MXA_MODE_ELASTIC l l v).new = v % 2 := by
  have value : bits v 0 0 = v % 2 := by simp [bits]
  exact value

/-- A write to MXA_MODE requests the mode (R76). -/
theorem State.csrWrite_mode {s : State} {o : Origin} {die brick : Nat} (v : U64) (unit : isBrick die brick = true)
    (room : s.writeOpen o (csrOf R.MXA_MODE_ELASTIC (lBrick die brick)) = true) :
    ∃ d r, s.csrWrite o (csrOf R.MXA_MODE_ELASTIC (lBrick die brick)) v =
      ((s.audit1 d r).setF R.MXA_MODE_ELASTIC (lBrick die brick) (v.toNat % 2)).requestMode die brick
        (v.toNat % 2) := by
  obtain ⟨d, r, write⟩ := State.csrWrite_sole v soleField_MXA_MODE_ELASTIC unit room
  refine ⟨d, r, write.trans ?_⟩
  dsimp only
  rw [State.afterFld_brick _ (by rw [State.planFld_fld]; rfl), State.planFld_fld, State.planFld_loc,
    State.planFld_MXA_MODE, if_neg (by decide), if_pos rfl]
  rfl

/-- A brick has its owner in two fields of its window. -/
theorem State.owner_congr {s t : State} {die brick : Nat}
    (owned : t.getF R.BRK_OWNER_OWNED (lBrick die brick) = s.getF R.BRK_OWNER_OWNED (lBrick die brick))
    (pan : t.getF R.BRK_OWNER_PAN (lBrick die brick) = s.getF R.BRK_OWNER_PAN (lBrick die brick)) :
    t.owner die brick = s.owner die brick := by
  unfold State.owner State.getB
  rw [owned, pan]

/-- A record in the audit log leaves the fields of a brick window as they are. -/
theorem State.getF_audit1_brick (s : State) {g : Fld} {die brick : Nat} (unit : isBrick die brick = true)
    (window : g.blk = .brick) (off : g.off < 65536) (lsb : g.lsb < 64) (d : Nat) (r : AuditRec) :
    (s.audit1 d r).getF g (lBrick die brick) = s.getF g (lBrick die brick) :=
  s.getF_audit1_of_window (csrBlock_key_lBrick unit window off lsb) d r

theorem State.owner_audit1 (s : State) {die brick : Nat} (unit : isBrick die brick = true) (d : Nat) (r : AuditRec) :
    (s.audit1 d r).owner die brick = s.owner die brick :=
  State.owner_congr (s.getF_audit1_brick unit rfl (by decide) (by decide) d r)
    (s.getF_audit1_brick unit rfl (by decide) (by decide) d r)

theorem State.owner_setF_MXA_MODE (s : State) (die brick v : Nat) :
    (s.setF R.MXA_MODE_ELASTIC (lBrick die brick) v).owner die brick = s.owner die brick :=
  have owned := Fld.key_lBrick_ne (f := R.MXA_MODE_ELASTIC) (g := R.BRK_OWNER_OWNED) rfl (by decide) die brick
  have pan := Fld.key_lBrick_ne (f := R.MXA_MODE_ELASTIC) (g := R.BRK_OWNER_PAN) rfl (by decide) die brick
  State.owner_congr (s.getF_setF_ne _ _ _ _ _ owned) (s.getF_setF_ne _ _ _ _ _ pan)

/-- A mode requested of a brick that is in no pan and not under self-test is in force at once (R76). -/
theorem State.requestMode_now {s : State} {die brick : Nat} (idle : s.bistOn die brick = false)
    (alone : s.owner die brick = none) (v : Nat) :
    s.requestMode die brick v = (s.setF R.MXA_MODE_ELASTIC (lBrick die brick) v).applyMode die brick := by
  have now : (s.setF R.MXA_MODE_ELASTIC (lBrick die brick) v).modeNow die brick = true := by
    simp only [State.modeNow, State.owner_setF_MXA_MODE, alone]
  have quiet : (s.setF R.MXA_MODE_ELASTIC (lBrick die brick) v).bistOn die brick = false := idle
  simp only [State.requestMode, now, quiet, Bool.not_true, Bool.or_self, Bool.false_eq_true, if_false]

/-- A mode requested of a brick whose pan is not FENCED stands PENDING (R76). -/
theorem State.requestMode_pending {s : State} {die brick p : Nat} (owned : s.owner die brick = some p)
    (runs : (s.pan p).st ≠ .fenced) (v : Nat) :
    s.requestMode die brick v =
      (s.setF R.MXA_MODE_ELASTIC (lBrick die brick) v).setF R.MXA_MODE_PENDING (lBrick die brick) 1 := by
  have runs' : ((s.setF R.MXA_MODE_ELASTIC (lBrick die brick) v).pan p).st ≠ .fenced := runs
  have later : (s.setF R.MXA_MODE_ELASTIC (lBrick die brick) v).modeNow die brick = false := by
    simp only [State.modeNow, State.owner_setF_MXA_MODE, owned, runs', decide_false]
  simp only [State.requestMode, later, Bool.not_false, Bool.or_true, if_true]

/-- The mode of a brick in no pan after a write to MXA_MODE (R76). -/
theorem State.csrWrite_mode_now {s : State} {o : Origin} {die brick : Nat} (v : U64)
    (unit : isBrick die brick = true)
    (room : s.writeOpen o (csrOf R.MXA_MODE_ELASTIC (lBrick die brick)) = true)
    (idle : s.bistOn die brick = false) (alone : s.owner die brick = none) :
    let t := s.csrWrite o (csrOf R.MXA_MODE_ELASTIC (lBrick die brick)) v
    t.grains = s.grains ∧ t.getF R.MXA_MODE_ELASTIC (lBrick die brick) = v.toNat % 2 ∧
      t.getF R.MXA_MODE_EFFECTIVE (lBrick die brick) = v.toNat % 2 ∧
      t.getF R.MXA_MODE_PENDING (lBrick die brick) = 0 := by
  obtain ⟨d, r, write⟩ := State.csrWrite_mode v unit room
  have idle' : ((s.audit1 d r).setF R.MXA_MODE_ELASTIC (lBrick die brick) (v.toNat % 2)).bistOn die brick = false := by
    simpa only [State.bistOn, State.testing, State.setF_obsv, State.audit1_bists] using idle
  have alone' : ((s.audit1 d r).setF R.MXA_MODE_ELASTIC (lBrick die brick) (v.toNat % 2)).owner die brick = none := by
    rw [State.owner_setF_MXA_MODE, State.owner_audit1 _ unit, alone]
  rw [write, State.requestMode_now idle' alone']
  have bit : v.toNat % 2 % 2 ^ 1 = v.toNat % 2 := Nat.mod_mod _ _
  have pe := Fld.key_lBrick_ne (f := R.MXA_MODE_PENDING) (g := R.MXA_MODE_ELASTIC) rfl (by decide) die brick
  have pf := Fld.key_lBrick_ne (f := R.MXA_MODE_PENDING) (g := R.MXA_MODE_EFFECTIVE) rfl (by decide) die brick
  have fe := Fld.key_lBrick_ne (f := R.MXA_MODE_EFFECTIVE) (g := R.MXA_MODE_ELASTIC) rfl (by decide) die brick
  refine ⟨s.audit1_grains d r, ?_, ?_, ?_⟩
  · rw [State.applyMode, State.getF_setF_ne _ _ _ _ _ _ pe, State.getF_setF_ne _ _ _ _ _ _ fe, State.getF_setF_self]
    exact bit
  · rw [State.applyMode, State.getF_setF_ne _ _ _ _ _ _ pf, State.getF_setF_self, State.getF_setF_self]
    exact (congrArg (· % 2 ^ 1) bit).trans bit
  · rw [State.applyMode, State.getF_setF_self]
    rfl

/-- The mode of a brick of a pan that is not FENCED after a write to MXA_MODE (R76). -/
theorem State.csrWrite_mode_pending {s : State} {o : Origin} {die brick p : Nat} (v : U64)
    (unit : isBrick die brick = true)
    (room : s.writeOpen o (csrOf R.MXA_MODE_ELASTIC (lBrick die brick)) = true)
    (owned : s.owner die brick = some p) (runs : (s.pan p).st ≠ .fenced) :
    let t := s.csrWrite o (csrOf R.MXA_MODE_ELASTIC (lBrick die brick)) v
    t.getF R.MXA_MODE_ELASTIC (lBrick die brick) = v.toNat % 2 ∧
      t.getF R.MXA_MODE_EFFECTIVE (lBrick die brick) = s.getF R.MXA_MODE_EFFECTIVE (lBrick die brick) ∧
      t.getF R.MXA_MODE_PENDING (lBrick die brick) = 1 := by
  obtain ⟨d, r, write⟩ := State.csrWrite_mode v unit room
  have owned' : ((s.audit1 d r).setF R.MXA_MODE_ELASTIC (lBrick die brick) (v.toNat % 2)).owner die brick = some p := by
    rw [State.owner_setF_MXA_MODE, State.owner_audit1 _ unit, owned]
  have runs' : (((s.audit1 d r).setF R.MXA_MODE_ELASTIC (lBrick die brick) (v.toNat % 2)).pan p).st ≠ .fenced := by
    simpa only [State.pan, State.setF_sch, State.audit1_sch] using runs
  rw [write, State.requestMode_pending owned' runs']
  have pe := Fld.key_lBrick_ne (f := R.MXA_MODE_PENDING) (g := R.MXA_MODE_ELASTIC) rfl (by decide) die brick
  have pf := Fld.key_lBrick_ne (f := R.MXA_MODE_PENDING) (g := R.MXA_MODE_EFFECTIVE) rfl (by decide) die brick
  have ef := Fld.key_lBrick_ne (f := R.MXA_MODE_ELASTIC) (g := R.MXA_MODE_EFFECTIVE) rfl (by decide) die brick
  refine ⟨?_, ?_, ?_⟩
  · rw [State.getF_setF_ne _ _ _ _ _ _ pe, State.getF_setF_self]
    exact Nat.mod_mod _ _
  · rw [State.getF_setF_ne _ _ _ _ _ _ pf, State.getF_setF_ne _ _ _ _ _ _ ef, State.getF_setF_ne _ _ _ _ _ _ ef,
      s.getF_audit1_brick unit rfl (by decide) (by decide)]
  · rw [State.getF_setF_self]
    rfl

/-! ## BRK_DBG -/

theorem grainKey_ne (die brick : Nat) {g k : Nat} (ne : k ≠ g) : grainKey die brick k ≠ grainKey die brick g := by
  simp only [grainKey]
  omega

theorem State.grain_modGrain_self (s : State) (die brick g : Nat) (f : Grain → Grain) :
    (s.modGrain die brick g f).grain die brick g = f (s.grain die brick g) := s.grain_setGrain_self ..

theorem State.grain_modGrain_ne (s : State) (die brick : Nat) {g k : Nat} (ne : k ≠ g) (f : Grain → Grain) :
    (s.modGrain die brick k f).grain die brick g = s.grain die brick g :=
  mgetD_mput_ne _ _ _ (grainKey_ne die brick ne)

/-- The state of a grain after RESUME: a halted one goes on (R31). -/
def resumed (r : GrainRun) : GrainRun := if r = .halted then .run else r

/-- One grain's part of RESUME, with the cycles it has waited (R31, R38). -/
def State.resumeGrain (s : State) (die brick g : Nat) : State :=
  if (s.grain die brick g).run = .halted then
    (s.draw 32).2.modGrain die brick g (fun x => { x.waited (s.draw 32).1 with run := .run })
  else s

theorem State.resumeBrick_eq (s : State) (die brick : Nat) :
    s.resumeBrick die brick = forEach (List.range 512) s (fun s g => s.resumeGrain die brick g) := rfl

theorem State.run_resumeGrain (s : State) (die brick g k : Nat) :
    ((s.resumeGrain die brick k).grain die brick g).run =
      if k = g then resumed (s.grain die brick g).run else (s.grain die brick g).run := by
  unfold State.resumeGrain
  split
  · next halted =>
    by_cases same : k = g
    · subst same
      simp only [State.grain_modGrain_self, if_true, resumed, halted]
    · rw [State.grain_modGrain_ne _ _ _ same, if_neg same]
      rfl
  · next other =>
    by_cases same : k = g
    · subst same
      simp only [if_true, resumed, other, if_false]
    · rw [if_neg same]

/-- RESUME over the first grains of a brick sets those going that are halted, and no other. -/
theorem State.run_resumeGrains (s : State) (die brick n g : Nat) :
    ((forEach (List.range n) s (fun s k => s.resumeGrain die brick k)).grain die brick g).run =
      if g < n then resumed (s.grain die brick g).run else (s.grain die brick g).run := by
  induction n with
  | zero => rfl
  | succ n ih =>
    simp only [forEach] at ih ⊢
    rw [List.range_succ, List.foldl_concat, State.run_resumeGrain, ih]
    by_cases same : n = g
    · simp only [same, if_true, Nat.lt_irrefl, if_false, Nat.lt_succ_self]
    · have bound : g < n + 1 ↔ g < n := by omega
      simp only [same, if_false, bound]

/-- A write of 1 to BRK_DBG.RESUME, whose record is accepted, resumes the brick's grains (R31). -/
theorem State.csrWrite_resume {s : State} {o : Origin} {die brick : Nat} {v : U64} (unit : isBrick die brick = true)
    (room : s.writeOpen o (csrOf R.BRK_DBG_RESUME (lBrick die brick)) = true) (one : bit v.toNat 1 = true) :
    ∃ t : State, t.grains = s.grains ∧
      s.csrWrite o (csrOf R.BRK_DBG_RESUME (lBrick die brick)) v = t.resumeBrick die brick := by
  have fields : regFields (csrOf R.BRK_DBG_RESUME (lBrick die brick)) =
      [(R.BRK_DBG_EN, lBrick die brick), (R.BRK_DBG_RESUME, lBrick die brick)] :=
    regFields_brick unit rfl (by decide) (by decide) (by decide)
  let p := s.planFld R.BRK_DBG_EN (lBrick die brick) (lBrick die brick) v.toNat
  let q := (s.applyFld p).planFld R.BRK_DBG_RESUME (lBrick die brick) (lBrick die brick) v.toNat
  have plan : s.plan (regFields (csrOf R.BRK_DBG_RESUME (lBrick die brick))) v.toNat = [p, q] := by
    rw [fields]
    rfl
  obtain ⟨d, r, write⟩ := State.csrWrite_open room plan
  have pf : p.fld = R.BRK_DBG_EN := State.planFld_fld ..
  have qf : q.fld = R.BRK_DBG_RESUME := State.planFld_fld ..
  have ql : q.loc = lBrick die brick := State.planFld_loc ..
  have raw : (q.raw == 1) = true := by
    have value : bits v.toNat 1 1 = 1 := by
      have odd := one
      rw [bit, Nat.testBit_eq_decide_div_mod_eq, decide_eq_true_eq] at odd
      exact odd
    rw [show q.raw = bits v.toNat 1 1 from State.planFld_raw .., value]
    rfl
  refine ⟨((s.audit1 d r).applyFld p).applyFld q, ?_, ?_⟩
  · rw [State.applyFld_setF _ q (by rw [qf]; decide), State.applyFld_setF _ p (by rw [pf]; decide), State.setF_grains,
      State.setF_grains, State.audit1_grains]
  · rw [write, State.applyPlan_brick _ (by rw [pf]; rfl)]
    simp only [forEach, List.foldl_cons, List.foldl_nil]
    rw [State.afterFld_brick _ (p := p) (by rw [pf]; rfl), pf, if_neg (by decide), if_neg (by decide),
      if_neg (by decide), State.afterFld_brick _ (p := q) (by rw [qf]; rfl), qf, if_pos rfl, if_pos raw, ql]
    rfl

/-! ## The rows -/

/-- A command on registers leaves memory and arrays as they are. -/
theorem keeps_of_onRegisters {c : Instr} {s t : State} (hc : Part.onRegisters c = true) (h : exec c s = .next t) :
    t.mem = s.mem ∧ t.arrays = s.arrays := by
  obtain ⟨-, -, -, -, -, mem, -, -, -, arrays, -⟩ := State.outside_eq_iff.1 (outside_of_onRegisters hc h)
  exact ⟨mem rfl, arrays rfl⟩

section Rows

variable {die brick : Nat} (unit : isBrick die brick = true) (s : State) (o : Origin) (v : U64)

include unit

theorem exec_brkDbgResume :
    exec (.brkDbgResume o die brick v) s = .next (s.csrWrite o (csrOf R.BRK_DBG_RESUME (lBrick die brick)) v) :=
  if_pos unit

theorem exec_brkFaultClear :
    exec (.brkFaultClear o die brick v) s = .next (s.csrWrite o (csrOf R.BRK_FAULT_VALID (lBrick die brick)) v) :=
  if_pos unit

theorem exec_mxaModeWrite :
    exec (.mxaModeWrite o die brick v) s = .next (s.csrWrite o (csrOf R.MXA_MODE_ELASTIC (lBrick die brick)) v) :=
  if_pos unit

theorem exec_mxaErrClear :
    exec (.mxaErrClear o die brick v) s = .next (s.csrWrite o (csrOf R.MXA_ERR_VALID (lBrick die brick)) v) :=
  if_pos unit

/-- MXA_FLAGS_CLEAR sets the flags again that are set in the same cycle (R94). -/
theorem exec_mxaFlagsClear {reg : Nat} (hreg : reg < 2) (c : U64) :
    let f := if reg = 0 then R.MXA_FLAGS0_BANKS else R.MXA_FLAGS1_BANKS
    let t := s.csrWrite o (csrOf f (lBrick die brick)) v
    exec (.mxaFlagsClear o die brick reg v c) s =
      .next (t.setF f (lBrick die brick) (t.getF f (lBrick die brick) ||| c.toNat)) :=
  if_pos (Bool.and_eq_true_iff.2 ⟨unit, decide_eq_true hreg⟩)

end Rows

/-- Settles O9: each row is the write of its register, and an accepted write does what its lemma above says. -/
theorem brickRegisterRows : Obligations.BrickRegisterRows := by
  unfold Obligations.BrickRegisterRows
  refine ⟨?rows, ?resumes, ?faults, ?now, ?pending, ?flags, ?errs⟩
  case rows =>
    exact fun s o die brick v unit => ⟨exec_brkDbgResume unit s o v, exec_brkFaultClear unit s o v,
      exec_mxaModeWrite unit s o v, exec_mxaErrClear unit s o v⟩
  case resumes =>
    intro s o die brick v unit room one
    obtain ⟨mem, arrays⟩ := keeps_of_onRegisters rfl (exec_brkDbgResume unit s o v)
    obtain ⟨t, grains, write⟩ := State.csrWrite_resume unit room one
    refine ⟨_, exec_brkDbgResume unit s o v, mem, arrays, fun g hg => ?_⟩
    rw [write, State.resumeBrick_eq, State.run_resumeGrains, if_pos hg, State.grain, grains]
    rfl
  case faults =>
    intro s o die brick v unit room
    obtain ⟨mem, -⟩ := keeps_of_onRegisters rfl (exec_brkFaultClear unit s o v)
    exact ⟨_, exec_brkFaultClear unit s o v, mem,
      State.csrWrite_clears_bit v soleField_BRK_FAULT_VALID unit room rfl ⟨rfl, rfl⟩⟩
  case now =>
    intro s o die brick v unit room idle alone
    obtain ⟨mem, -⟩ := keeps_of_onRegisters rfl (exec_mxaModeWrite unit s o v)
    exact ⟨_, exec_mxaModeWrite unit s o v, mem, State.csrWrite_mode_now v unit room idle alone⟩
  case pending =>
    intro s o die brick p v unit room owned runs
    exact ⟨_, exec_mxaModeWrite unit s o v, State.csrWrite_mode_pending v unit room owned runs⟩
  case flags =>
    intro s o die brick reg v c unit small f room
    have row := exec_mxaFlagsClear unit s o v small c
    obtain ⟨mem, arrays⟩ := keeps_of_onRegisters rfl row
    obtain ⟨clears, lsb, w⟩ := MXA_FLAGS_whole reg
    have kept := State.getF_csrWrite_flags v (soleField_MXA_FLAGS reg) unit room clears ⟨lsb, w⟩
    refine ⟨_, row, mem, arrays, ?_⟩
    have bound : (s.getF f (lBrick die brick) &&& (v.toNat ^^^ (2 ^ 64 - 1)) ||| c.toNat) < 2 ^ 64 :=
      Nat.or_lt_two_pow (Nat.and_lt_two_pow _ (Nat.xor_lt_two_pow v.isLt (by decide))) c.isLt
    rw [State.getF_setF_self, kept, w]
    exact Nat.mod_eq_of_lt bound
  case errs =>
    intro s o die brick v unit room
    obtain ⟨mem, arrays⟩ := keeps_of_onRegisters rfl (exec_mxaErrClear unit s o v)
    obtain ⟨-, valid⟩ := State.csrWrite_clears_bit v soleField_MXA_ERR_VALID unit room rfl ⟨rfl, rfl⟩
    exact ⟨_, exec_mxaErrClear unit s o v, mem, arrays, valid⟩

end Sys2Proof.Machine
end

section
/-!
Matrix arrays: what the operations of one array do to its state, and what they leave alone.
-/

namespace Sys2Proof.Machine

/-! ## The array of a brick after an operation elsewhere -/

/-- What an array changes while no command of it retires: registers, arrays, and the rows of streams. A retirement
also writes statistics into memory (R101). -/
def Part.arrayStep : Parts := { csr := true, arrays := true, sch := true }

/-- What an array's counts, flags and reads of its feed change. -/
def Part.besideArrays : Parts := { csr := true, sch := true }

theorem State.mem_grains_of_outside {s t : State}
    (h : t.outside Part.arrayStep = s.outside Part.arrayStep) : t.mem = s.mem ∧ t.grains = s.grains := by
  obtain ⟨-, -, -, -, -, mem, -, grains, -⟩ := State.outside_eq_iff.1 h
  exact ⟨mem rfl, grains rfl⟩

theorem State.array_of_outside {s t : State} (h : t.outside Part.besideArrays = s.outside Part.besideArrays)
    (die brick : Nat) : t.array die brick = s.array die brick := by
  obtain ⟨-, -, -, -, -, -, -, -, -, arrays, -⟩ := State.outside_eq_iff.1 h
  rw [State.array, arrays rfl, State.array]

section Reads

variable (s : State) (d b die brick : Nat)

@[simp] theorem State.array_setF (f : Fld) (a : Loc) (v : Nat) : (s.setF f a v).array die brick = s.array die brick :=
  rfl

@[simp] theorem State.array_bump (f : Fld) (a : Loc) (n : Nat) : (s.bump f a n).array die brick = s.array die brick :=
  State.array_of_outside (State.bump_outside rfl s f a n) die brick

@[simp] theorem State.array_mxaErr (kind optag : Nat) : (s.mxaErr d b kind optag).array die brick = s.array die brick :=
  State.array_of_outside (State.mxaErr_outside rfl s d b kind optag) die brick

@[simp] theorem State.array_readCmd (w0 w1 w2 w3 : U64) :
    (s.readCmd d b w0 w1 w2 w3).2.array die brick = s.array die brick :=
  State.array_of_outside (State.readCmd_outside rfl s d b w0 w1 w2 w3) die brick

end Reads

/-! ## Foreground, background and loads (R59 to R63) -/

namespace ArraySt

variable (a : ArraySt) (v : MxSet)

@[simp] theorem fg_withBg : (a.withBg v).fg = a.fg := by
  cases h : a.fgB <;> simp [ArraySt.withBg, ArraySt.fg, h]

@[simp] theorem bg_withBg : (a.withBg v).bg = v := by
  cases h : a.fgB <;> simp [ArraySt.withBg, ArraySt.bg, h]

/-- A new background set leaves the rest of the array alone. -/
theorem withBg_spec : ∃ x y, a.withBg v = { a with setA := x, setB := y } := by
  unfold ArraySt.withBg
  split
  · exact ⟨_, _, rfl⟩
  · exact ⟨_, _, rfl⟩

@[simp] theorem acc_withBg : (a.withBg v).acc = a.acc := by
  obtain ⟨x, y, h⟩ := a.withBg_spec v
  rw [h]

@[simp] theorem cur_withBg : (a.withBg v).cur = a.cur := by
  obtain ⟨x, y, h⟩ := a.withBg_spec v
  rw [h]

/-- Everything the start of a load does: a load may be in progress, and contents it replaces are not valid. -/
theorem startLoad_spec : ∃ l loaded, a.startLoad = { a with loading := l, bgValid := loaded } ∧
    (a.bgValid = false → loaded = false) := by
  unfold ArraySt.startLoad
  split
  · split
    · exact ⟨_, _, rfl, fun _ => rfl⟩
    · exact ⟨_, _, rfl, id⟩
  · exact ⟨_, _, rfl, id⟩

/-- The sets change places: the array holds no background contents and waits for no swap. -/
def flipped (a : ArraySt) : ArraySt := { a with fgB := !a.fgB, bgValid := false, swapPending := false }

theorem fg_flipped : a.flipped.fg = a.bg := by
  cases h : a.fgB <;> simp [flipped, ArraySt.fg, ArraySt.bg, h]

theorem bg_flipped : a.flipped.bg = a.fg := by
  cases h : a.fgB <;> simp [flipped, ArraySt.fg, ArraySt.bg, h]

/-- The array with its sets exchanged: background contents that no load put there come poisoned (R63). -/
def exchanged (a : ArraySt) : ArraySt := (if a.bgValid then a else a.withBg a.inSwapped).flipped

theorem fg_exchanged : a.exchanged.fg = if a.bgValid then a.bg else { a.bg with poison := 3 } := by
  rw [exchanged, fg_flipped]
  split
  · rfl
  · exact a.bg_withBg a.inSwapped

theorem bg_exchanged : a.exchanged.bg = a.fg := by
  rw [exchanged, bg_flipped]
  split
  · rfl
  · exact a.fg_withBg a.inSwapped

theorem acc_exchanged : a.exchanged.acc = a.acc := by
  unfold exchanged
  split
  · rfl
  · exact acc_withBg _ _

theorem cur_exchanged : a.exchanged.cur = a.cur := by
  unfold exchanged
  split
  · rfl
  · exact cur_withBg _ _

/-- The array with a command that has come up, others behind it: the load of one without a swap starts. -/
def begun (a : ArraySt) (c : MxCmd) (rest : List MxCmd) : ArraySt :=
  let b := { a with cur := some c, queue := rest, swapPending := c.swap }
  if c.swap then b else b.startLoad

theorem begun_spec (c : MxCmd) (rest : List MxCmd) : (a.begun c rest).cur = some c ∧
    (a.begun c rest).swapPending = c.swap ∧ (a.begun c rest).acc = a.acc := by
  unfold begun
  split
  · exact ⟨rfl, rfl, rfl⟩
  · obtain ⟨l, loaded, started, -⟩ :=
      startLoad_spec { a with cur := some c, queue := rest, swapPending := c.swap }
    rw [started]
    exact ⟨rfl, rfl, rfl⟩

end ArraySt

theorem State.array_swapSets (s : State) (die brick : Nat) :
    (s.swapSets die brick).array die brick = (s.array die brick).exchanged.startLoad := by
  cases loaded : (s.array die brick).bgValid <;>
    simp [State.swapSets, ArraySt.exchanged, ArraySt.flipped, loaded]

/-- The background set that a load leaves: header and set as read, against the format and the parity of the load. -/
def loadedSet (r : TileHdr × MxSet) (fmt : Nat) (parity : Bool) : MxSet :=
  { (if r.1.fmt ≠ fmt then { r.2 with codes := [], scales := [] } else r.2) with
    poison := if r.1.fmt ≠ fmt ∨ parity = true then 3 else if r.1.cause = 6 then 6 else if r.1.poison then 5 else 0 }

theorem loadedSet_of_fmt {r : TileHdr × MxSet} {fmt : Nat} (same : r.1.fmt = fmt) (parity : Bool) :
    (loadedSet r fmt parity).codes = r.2.codes ∧ (loadedSet r fmt parity).scales = r.2.scales := by
  simp only [loadedSet, same, ne_eq, not_true_eq_false, if_false, and_self]

/-- A load that completes puts its set into the background; the rest is errors counted in registers. -/
theorem State.array_loadDone {s : State} {die brick addr fmt tag : Nat} (parity : Bool)
    (load : (s.array die brick).loading = some (addr, fmt, tag)) :
    (s.loadDone die brick parity).array die brick =
      { (s.array die brick).withBg (loadedSet (s.readSet die brick (addr * 64) fmt) fmt parity) with
        bgValid := true, loading := none } := by
  simp only [State.loadDone, load, State.array_setArray_self, loadedSet, Bool.or_eq_true, decide_eq_true_eq]

/-! ## Commands come up (R64, R69) -/

theorem State.readCmd_spec (s : State) (die brick : Nat) (w0 w1 w2 w3 : U64) :
    let q := (s.readCmd die brick w0 w1 w2 w3).1
    q.w0 = w0 ∧ q.w1 = w1 ∧ q.w2 = w2 ∧ q.w3 = w3 ∧ q.row = 0 := by
  dsimp only [State.readCmd]
  split
  · exact ⟨rfl, rfl, rfl, rfl, rfl⟩
  · exact ⟨rfl, rfl, rfl, rfl, rfl⟩

/-- A command with a row to stream stays current once it has come up. -/
theorem beginNext_of_rows (s : State) (die brick : Nat) {c : MxCmd} (rest : List MxCmd) (rows : c.count ≠ 0) :
    beginNext die brick (c :: rest) s = s.setArray die brick ((s.array die brick).begun c rest) := by
  simp only [beginNext, rows, false_and, if_false]
  rfl

section Issue

variable {s : State} {die brick : Nat} {w0 : U64} (rows : w0.toNat % 2 ^ 32 ≠ 0) (w1 w2 w3 : U64)

include rows in
theorem State.mxaIssue_queues {c : MxCmd} (cur : (s.array die brick).cur = some c) :
    s.mxaIssue die brick w0 w1 w2 w3 = (s.readCmd die brick w0 w1 w2 w3).2.setArray die brick
      { s.array die brick with
        queue := (s.array die brick).queue ++ [(s.readCmd die brick w0 w1 w2 w3).1] } := by
  have some_rows : bits w0.toNat 31 0 ≠ 0 := by simpa [bits] using rows
  simp only [State.mxaIssue, some_rows, if_false, State.array_readCmd, cur]

include rows in
theorem State.mxaIssue_begins (idle : (s.array die brick).cur = none) :
    s.mxaIssue die brick w0 w1 w2 w3 = beginNext die brick [(s.readCmd die brick w0 w1 w2 w3).1]
      (s.readCmd die brick w0 w1 w2 w3).2 := by
  have some_rows : bits w0.toNat 31 0 ≠ 0 := by simpa [bits] using rows
  simp only [State.mxaIssue, some_rows, if_false, State.array_readCmd, idle]

end Issue

/-! ## An empty drain (R74, R75) -/

/-- No column group gives a part of a row where the drain holds none. -/
theorem foldl_groupSend_nil (ready : Nat) :
    (List.range 8).foldl (fun l g => if bit ready g then groupSend g l else l) [] = [] :=
  List.foldl_fixed' (fun g => by simp only [groupSend, ite_self]) _

/-- The cycle of an empty drain leaves the array, what its feed offers, and its mode as they are. -/
theorem State.drainArray_of_empty {s : State} {die brick : Nat} (empty : (s.array die brick).drain = [])
    (ready : Nat) : (s.drainArray die brick ready).array die brick = s.array die brick ∧
      (s.drainArray die brick ready).feedRow die brick = s.feedRow die brick ∧
      (s.drainArray die brick ready).getB R.MXA_MODE_EFFECTIVE = s.getB R.MXA_MODE_EFFECTIVE := by
  unfold State.drainArray
  split
  · rw [empty, foldl_groupSend_nil, drainRows, ← empty]
    exact ⟨State.array_setArray_self .., rfl, rfl⟩
  · exact ⟨rfl, rfl, rfl⟩

theorem State.drainRoom_of_empty {s : State} {die brick : Nat} (empty : (s.array die brick).drain = []) :
    s.drainRoom die brick = true := by
  simp only [State.drainRoom, empty]
  split
  · exact List.all_eq_true.2 fun g _ => rfl
  · rfl

/-! ## A clean row of a command that does not convert (R67, R77) -/

theorem State.takeFeed_outside {P : Parts} (sch : P.sch) (s : State) (die brick : Nat) (c : MxCmd) :
    (s.takeFeed die brick c).outside P = s.outside P := by
  unfold State.takeFeed
  split
  · split
    · exact State.takeThe_outside sch ..
    · rfl
  · rfl

theorem State.bankSet_outside {P : Parts} (csr : P.csr) (s : State) (die brick bank fl : Nat) :
    (s.bankSet die brick bank fl).outside P = s.outside P :=
  State.setF_outside csr ..

/-- The array after a clean row of a command that does not convert: the row is merged into its accumulator row, which
stays poisoned only where it was added to. -/
def ArraySt.merged (a : ArraySt) (c : MxCmd) (f : Feed) : ArraySt :=
  { a with
    acc := setAccRow a.acc c.accAt ((c.mergeRow a.fg f (a.accRow c.accAt a.fg.vn)).map (·.1))
    accPoison := if c.mode = 1 then a.accPoison else a.accPoison.filter (fun r => r ≠ c.accAt) }

/-- The merge sets flags of its bank, and the array. -/
theorem State.acceptClean_of_keep (s : State) (die brick : Nat) {c : MxCmd} (keep : c.convert = false) (f : Feed) :
    ∃ fl, s.acceptClean die brick c f =
      (s.bankSet die brick (c.accAt / 128) fl).setArray die brick ((s.array die brick).merged c f) := by
  simp only [State.acceptClean, keep]
  exact ⟨_, rfl⟩

/-- The array after such a row, where it is not the last of its command. -/
def ArraySt.accepted (a : ArraySt) (c : MxCmd) (f : Feed) : ArraySt :=
  { a.merged c f with cur := some { c with row := c.row + 1 }, arrived := 0 }

/-- The state in which a row without an accumulator error is merged: the row has left its stream and is counted, and
the error that it brings is captured. -/
def State.rowTaken (s : State) (die brick : Nat) (c : MxCmd) (f : Feed) : State :=
  let t := (s.takeFeed die brick c).bump R.MXA_ROWCNT_ROWS (lBrick die brick)
  if f.err ≠ 0 then t.mxaErr die brick f.err c.optag else t

theorem State.rowTaken_outside {P : Parts} (csr : P.csr) (sch : P.sch) (s : State) (die brick : Nat) (c : MxCmd)
    (f : Feed) : (s.rowTaken die brick c f).outside P = s.outside P := by
  simp only [State.rowTaken, State.ite_outside, State.mxaErr_outside csr, State.bump_outside csr,
    State.takeFeed_outside sch, ite_self]

section Accept

variable {s : State} {die brick : Nat} {c : MxCmd} {f : Feed} (cur : (s.array die brick).cur = some c)
  (empty : (s.array die brick).drain = []) (clean : c.poisonOf (s.array die brick) f 0 = 0)
  (keep : c.convert = false) (more : c.row + 1 < c.count)

include cur clean keep more in
/-- A row that is not the last is taken and merged, and the command moves on before the drain's next cycle. -/
theorem State.acceptRow_of_clean : ∃ u, s.acceptRow die brick 0 c f = State.drainArray u die brick 0 ∧
    u.array die brick = (s.array die brick).accepted c f ∧
    u.outside Part.arrayStep = s.outside Part.arrayStep := by
  obtain ⟨fl, merges⟩ := (s.rowTaken die brick c f).acceptClean_of_keep die brick keep f
  have same : (s.rowTaken die brick c f).array die brick = s.array die brick :=
    State.array_of_outside (State.rowTaken_outside rfl rfl s die brick c f) die brick
  have goes_on : ¬ ({ c with row := c.row + 1 } : MxCmd).count ≤ c.row + 1 := not_le.2 more
  have stays : ((s.array die brick).merged c f).cur = some c := cur
  rw [same, State.rowTaken] at merges
  simp only [State.acceptRow, clean, OfNat.zero_ne_ofNat, zero_ne_one, if_true, if_false, merges,
    State.array_setArray_self, stays, Option.getD_some, goes_on]
  refine ⟨_, rfl, State.array_setArray_self .., ?_⟩
  rw [State.setArray_outside rfl, State.setArray_outside rfl, State.bankSet_outside rfl]
  exact State.rowTaken_outside rfl rfl s die brick c f

include cur empty clean keep more in
theorem State.acceptRow_spec :
    (s.acceptRow die brick 0 c f).array die brick = (s.array die brick).accepted c f ∧
    (s.acceptRow die brick 0 c f).outside Part.arrayStep = s.outside Part.arrayStep := by
  obtain ⟨u, accepts, array, outside⟩ := State.acceptRow_of_clean cur clean keep more
  have still : (u.array die brick).drain = [] := by rw [array]; exact empty
  obtain ⟨drained, -⟩ := State.drainArray_of_empty still 0
  rw [accepts, drained, State.drainArray_outside rfl rfl]
  exact ⟨array, outside⟩

end Accept

/-! ## The cycle in which a row is accepted (R74, R75) -/

section Cycle

variable {s : State} {die brick : Nat} {c : MxCmd} {f : Feed} (room : s.drainRoom die brick = true)
  (feed : s.feedRow die brick c = some f) (accError : Nat)

include room feed in
theorem State.rowService_accepts : s.rowService die brick accError c = s.acceptRow die brick accError c f := by
  simp only [State.rowService, feed, room, if_true]

include room feed in
theorem State.rowElastic_accepts {segs : Nat} (whole : ((s.array die brick).arrived ||| segs) % 256 = 255) :
    s.rowElastic die brick accError segs c =
      (s.setArray die brick { s.array die brick with arrived := 255 }).acceptRow die brick accError c f := by
  have room' : (s.setArray die brick { s.array die brick with arrived := 255 }).drainRoom die brick = true := by
    rw [← room]
    simp only [State.drainRoom, State.array_setArray_self]
    rfl
  simp only [State.rowElastic, feed, whole, room', and_self, if_true]

end Cycle

/-- A cycle without an error goes on from the drain by the mode in force. -/
theorem State.rowTry_by_mode {s : State} {die brick : Nat} {c : MxCmd} (accError segs groups : Nat)
    (same : (s.drainArray die brick groups).array die brick = s.array die brick)
    (set : (s.array die brick).swapPending = false) (cur : (s.array die brick).cur = some c) :
    s.rowTry die brick accError false segs groups =
      if (s.drainArray die brick groups).getB R.MXA_MODE_EFFECTIVE (lBrick die brick) then
        (s.drainArray die brick groups).rowElastic die brick accError segs c
      else (s.drainArray die brick groups).rowService die brick accError c := by
  simp only [State.rowTry, Bool.false_eq_true, if_false, same, cur, set]

/-- A cycle in which the feed has a row, whole in ELASTIC mode, and the drain is empty accepts the row. -/
theorem State.rowTry_accepts {s : State} {die brick segs : Nat} {c : MxCmd} {f : Feed} (accError groups : Nat)
    (empty : (s.array die brick).drain = []) (set : (s.array die brick).swapPending = false)
    (whole : s.getB R.MXA_MODE_EFFECTIVE (lBrick die brick) = false ∨
      ((s.array die brick).arrived ||| segs) % 256 = 255)
    (cur : (s.array die brick).cur = some c) (feed : s.feedRow die brick c = some f) :
    ∃ t n, s.rowTry die brick accError false segs groups = State.acceptRow t die brick accError c f ∧
      t.array die brick = { s.array die brick with arrived := n } ∧
      t.outside Part.arrayStep = s.outside Part.arrayStep := by
  obtain ⟨same, feedSame, modeSame⟩ := State.drainArray_of_empty empty groups
  have beside : (s.drainArray die brick groups).outside Part.arrayStep = s.outside Part.arrayStep :=
    State.drainArray_outside rfl rfl s die brick groups
  rw [State.rowTry_by_mode accError segs groups same set cur, modeSame]
  generalize s.drainArray die brick groups = t at same feedSame beside
  have room : t.drainRoom die brick = true := State.drainRoom_of_empty (same.symm ▸ empty)
  have offered : t.feedRow die brick c = some f := (congrFun feedSame c).trans feed
  cases mode : s.getB R.MXA_MODE_EFFECTIVE (lBrick die brick)
  · exact ⟨t, (s.array die brick).arrived, State.rowService_accepts room offered accError, same, beside⟩
  · have arrived : ((t.array die brick).arrived ||| segs) % 256 = 255 :=
      same.symm ▸ whole.resolve_left (mode ▸ Bool.noConfusion)
    refine ⟨_, 255, State.rowElastic_accepts room offered accError arrived, ?_, ?_⟩
    · rw [State.array_setArray_self, same]
    · rw [State.setArray_outside rfl, beside]

/-! ## The rows -/

section Rows

variable {die brick : Nat} (unit : isBrick die brick = true) (s : State)

include unit

theorem exec_mxaCommand (live : s.bistOn die brick = false) (w0 w1 w2 w3 : U64) :
    exec (.mxaCommand die brick w0 w1 w2 w3) s = .next (s.mxaCommand die brick w0 w1 w2 w3) := by
  change need _ _ _ = _
  rw [unit, need_true, live]
  rfl

theorem exec_swap (cycles : Nat) : exec (.swap die brick cycles) s = .next (s.swapTry die brick cycles) :=
  if_pos unit

theorem exec_backgroundLoadDone (parity : Bool) :
    exec (.backgroundLoadDone die brick parity) s = .next (s.loadDone die brick parity) :=
  if_pos unit

theorem exec_rowAccept (accError : Nat) (parity : Bool) (segs groups : Nat) :
    exec (.rowAccept die brick accError parity segs groups) s =
      .next (s.rowTry die brick accError parity segs groups) :=
  if_pos unit

end Rows

/-- On a brick of no pan a command goes to the array as it is. -/
theorem State.mxaCommand_of_unowned {s : State} {die brick : Nat} (free : s.owner die brick = none)
    (w0 w1 w2 w3 : U64) : s.mxaCommand die brick w0 w1 w2 w3 = s.mxaIssue die brick w0 w1 w2 w3 := by
  simp only [State.mxaCommand, free]

/-- On a brick of a pan a command of a released step takes an entry of the scoreboard, whose OPTAG it bears. -/
theorem State.mxaCommand_of_entry {s u : State} {die brick p tag : Nat} {w0 w1 w2 w3 : U64}
    (owned : s.owner die brick = some p) (runs : (s.pan p).running die = true) (quota : s.quotaFree p die = true)
    (entry : s.takeEntry die
      { pan := p, step := (s.pan p).step, brick := brick, isArray := true
        station := (((s.pan p).stationOf w0 w1 w2 w3).map (·.idx)).getD 4096 } = some (tag, u)) :
    s.mxaCommand die brick w0 w1 w2 w3 = u.mxaIssue die brick w0 w1 w2 (withOptag w3 tag) := by
  cases station : (s.pan p).stationOf w0 w1 w2 w3 with
  | none =>
    simp only [station, Option.map_none, Option.getD_none] at entry
    simp only [State.mxaCommand, owned, runs, quota, Bool.and_self, if_true, station, entry]
  | some d =>
    simp only [station, Option.map_some, Option.getD_some] at entry
    simp only [State.mxaCommand, owned, runs, quota, Bool.and_self, if_true, station, entry]

/-- A swap that waits, with no load in progress, is performed, and the command stays current for its rows. -/
theorem State.swapTry_of_ready {s : State} {die brick : Nat} {c : MxCmd} (cycles : Nat)
    (waits : (s.array die brick).swapPending = true) (quiet : (s.array die brick).loading = none)
    (cur : (s.array die brick).cur = some c) (rows : c.count ≠ 0) :
    s.swapTry die brick cycles = (s.bump R.MXA_WAIT_SWAPWAIT (lBrick die brick) cycles).swapSets die brick := by
  simp only [State.swapTry, waits, quiet, cur, rows, if_false, Bool.not_true, Bool.false_eq_true, Option.isSome_none]

/-- Settles O14: each part is what the lemmas above say of its command. That a set swapped in without a load bears
poison 3 (log 116), and that a command on an array of a pan takes an entry (log 119), are the model's choices. -/
theorem arrayCommands : Obligations.ArrayCommands := by
  unfold Obligations.ArrayCommands
  refine ⟨?queues, ?begins, ?entry, ?swap, ?load, ?row⟩
  case queues =>
    intro s die brick w0 w1 w2 w3 c unit live free rows cur
    have issue := (State.mxaCommand_of_unowned free w0 w1 w2 w3).trans (State.mxaIssue_queues rows w1 w2 w3 cur)
    obtain ⟨mem, -⟩ := State.mem_grains_of_outside (s := s) (t := s.mxaCommand die brick w0 w1 w2 w3) (by
      rw [issue, State.setArray_outside rfl, State.readCmd_outside rfl])
    refine ⟨_, (s.readCmd die brick w0 w1 w2 w3).1, exec_mxaCommand unit s live w0 w1 w2 w3, mem, ?_⟩
    rw [issue, State.array_setArray_self]
    exact ⟨rfl, cur, rfl, State.readCmd_spec s die brick w0 w1 w2 w3⟩
  case begins =>
    intro s die brick w0 w1 w2 w3 unit live free rows idle more
    have issue := ((State.mxaCommand_of_unowned free w0 w1 w2 w3).trans
      (State.mxaIssue_begins rows w1 w2 w3 idle)).trans (beginNext_of_rows _ die brick [] more)
    obtain ⟨mem, -⟩ := State.mem_grains_of_outside (s := s) (t := s.mxaCommand die brick w0 w1 w2 w3) (by
      rw [issue, State.setArray_outside rfl, State.readCmd_outside rfl])
    refine ⟨_, (s.readCmd die brick w0 w1 w2 w3).1, exec_mxaCommand unit s live w0 w1 w2 w3, mem, ?_⟩
    rw [issue, State.array_setArray_self, State.array_readCmd]
    obtain ⟨cur, swap, acc⟩ := (s.array die brick).begun_spec (s.readCmd die brick w0 w1 w2 w3).1 []
    exact ⟨cur, swap, acc, State.readCmd_spec s die brick w0 w1 w2 w3⟩
  case entry =>
    intro s u die brick p tag w0 w1 w2 w3 unit live owned runs quota entry
    rw [exec_mxaCommand unit s live, State.mxaCommand_of_entry owned runs quota entry]
  case swap =>
    intro s die brick cycles c unit waits quiet cur rows
    have swaps := State.swapTry_of_ready cycles waits quiet cur rows
    obtain ⟨mem, -⟩ := State.mem_grains_of_outside (s := s) (t := s.swapTry die brick cycles) (by
      rw [swaps, State.swapSets_outside rfl rfl, State.bump_outside rfl])
    refine ⟨_, exec_swap unit s cycles, mem, ?_⟩
    rw [swaps, State.array_swapSets, State.array_bump]
    obtain ⟨l, loaded, started, invalid⟩ := (s.array die brick).exchanged.startLoad_spec
    rw [started]
    exact ⟨rfl, invalid rfl, (ArraySt.cur_exchanged _).trans cur, ArraySt.acc_exchanged _, ArraySt.fg_exchanged _,
      ArraySt.bg_exchanged _⟩
  case load =>
    intro s die brick addr fmt tag parity unit load
    obtain ⟨mem, -⟩ := State.mem_grains_of_outside (State.loadDone_outside rfl rfl s die brick parity)
    refine ⟨_, exec_backgroundLoadDone unit s parity, mem, ?_⟩
    rw [State.array_loadDone parity load]
    have set := ArraySt.bg_withBg (s.array die brick) (loadedSet (s.readSet die brick (addr * 64) fmt) fmt parity)
    refine ⟨rfl, rfl, ArraySt.fg_withBg _ _, ArraySt.acc_withBg _ _, congrArg MxSet.poison set, fun same => ?_⟩
    obtain ⟨codes, scales⟩ := loadedSet_of_fmt same parity
    exact ⟨(congrArg MxSet.codes set).trans codes, (congrArg MxSet.scales set).trans scales⟩
  case row =>
    intro s die brick pan segs groups c f unit _ empty set whole cur feed clean keep more
    obtain ⟨t, n, accepts, array, before⟩ := State.rowTry_accepts 0 groups empty set whole cur feed
    have cur' : (t.array die brick).cur = some c := by rw [array, cur]
    have empty' : (t.array die brick).drain = [] := by rw [array, empty]
    have clean' : c.poisonOf (t.array die brick) f 0 = 0 := by rw [array]; exact clean
    obtain ⟨accepted, after⟩ := State.acceptRow_spec cur' empty' clean' keep more
    obtain ⟨mem, grains⟩ := State.mem_grains_of_outside (after.trans before)
    refine ⟨_, exec_rowAccept unit s 0 false segs groups, ?_⟩
    rw [accepts, accepted, array]
    exact ⟨mem, grains, rfl, rfl, rfl, rfl⟩

end Sys2Proof.Machine
end

section
/-!
Fields that lie apart by their lowest bit: what a count, an alarm and a record in the audit log leave as it is.
-/

namespace Sys2Proof.Machine

/-- The key of a field ends in its lowest bit. -/
theorem Fld.key_mod {f : Fld} (lsb : f.lsb < 64) (a : Loc) : f.key a % 64 = f.lsb := by
  simp only [Fld.key]
  omega

/-- Fields with different lowest bits lie apart, wherever they stand. -/
theorem Fld.key_ne_of_lsb {f g : Fld} (hf : f.lsb < 64) (hg : g.lsb < 64) (ne : f.lsb ≠ g.lsb) (a b : Loc) :
    f.key a ≠ g.key b := fun same => by
  rw [← Fld.key_mod hf a, ← Fld.key_mod hg b, same] at ne
  exact ne rfl

theorem State.getF_setF_of_lsb (s : State) {f g : Fld} (hf : f.lsb < 64) (hg : g.lsb < 64) (ne : f.lsb ≠ g.lsb)
    (a b : Loc) (v : Nat) : (s.setF f a v).getF g b = s.getF g b :=
  s.getF_setF_ne f g a b v (Fld.key_ne_of_lsb hf hg ne a b)

/-- The event counters of a die stand at bit 0. -/
theorem mgetD_countDie_of_lsb (m : AMap Nat) {k : Nat} (above : k % 64 ≠ 0) (die event inst n i d : Nat) :
    mgetD (countDie m die event inst n i) k d = mgetD m k d := by
  simp only [countDie]
  split
  · refine mgetD_mset_ne _ _ _ _ fun same => above ?_
    rw [← same]
    exact Fld.key_mod (by decide) _
  · rfl

theorem mgetD_countEvent_of_lsb (m : AMap Nat) {f : Fld} (outside : f.blk ≠ .brick) {k : Nat} (above : k % 64 ≠ 0)
    (a : Loc) (n d : Nat) : mgetD (countEvent m f a n) k d = mgetD m k d := by
  simp only [countEvent, outside, if_false]
  split
  · rfl
  · exact List.foldlRecOn (motive := fun c => mgetD c k d = mgetD m k d) _ _ rfl fun c hc i _ =>
      (mgetD_countDie_of_lsb c above _ _ _ n i d).trans hc

/-- A count outside the brick windows leaves every field above bit 0 but its own as it is. -/
theorem State.getF_bump_of_lsb (s : State) {f g : Fld} (outside : f.blk ≠ .brick) (hf : f.lsb < 64) (hg : g.lsb < 64)
    (above : g.lsb ≠ 0) (ne : f.lsb ≠ g.lsb) (a b : Loc) (n : Nat) : (s.bump f a n).getF g b = s.getF g b := by
  have apart := Fld.key_ne_of_lsb hf hg ne a b
  rw [← Fld.key_mod hg b] at above
  unfold State.bump
  split
  · rfl
  · simp only [State.getF, mgetD_countEvent_of_lsb _ outside above, csrSet, mgetD_mset_ne _ _ _ _ apart]

/-- A loop that leaves a field as it is at each turn leaves it as it was. -/
theorem State.getF_forEach {α : Type} {f : State → α → State} {g : Fld} {b : Loc} {l : List α}
    (keeps : ∀ t, ∀ x ∈ l, (f t x).getF g b = t.getF g b) (s : State) : (forEach l s f).getF g b = s.getF g b :=
  List.foldlRecOn (motive := fun t : State => t.getF g b = s.getF g b) l f rfl
    fun t same x hx => (keeps t x hx).trans same

section Record

variable (s : State) {g : Fld} (lsb : g.lsb < 64) (apart : g.lsb ≠ 0 ∧ g.lsb ≠ 16) (b : Loc)

include lsb apart

theorem State.getF_msix_of_lsb (hd v : Nat) : (s.msix hd v).getF g b = s.getF g b := by
  rcases s.msix_spec hd v with ⟨-, up⟩ | ⟨-, down⟩
  · rw [up]
    rfl
  · rw [down, s.getF_setF_of_lsb (by decide) lsb apart.1.symm]

/-- An alarm writes fields at bits 0 and 16 alone. -/
theorem State.getF_alarm_of_lsb (kind job key : Nat) : (s.alarm kind job key).getF g b = s.getF g b := by
  unfold State.alarm
  dsimp only
  split
  · rfl
  · split
    · rw [State.getF_msix_of_lsb _ lsb apart, State.getF_msix_of_lsb _ lsb apart]
      rfl
    · rw [State.getF_bump_of_lsb _ (by decide) (by decide) lsb apart.1 apart.2.symm]
      rfl

theorem State.getF_auditAlarm_of_lsb : s.auditAlarm.getF g b = s.getF g b := by
  unfold State.auditAlarm
  split
  · rfl
  · exact s.getF_alarm_of_lsb lsb apart b _ _ _

/-- A record in the audit log writes fields at bits 0 and 16 alone. -/
theorem State.getF_audit1_of_lsb (die : Nat) (r : AuditRec) : (s.audit1 die r).getF g b = s.getF g b := by
  unfold State.audit1
  split
  · exact State.getF_auditAlarm_of_lsb _ lsb apart b
  · exact State.getF_auditAlarm_of_lsb _ lsb apart b

end Record

end Sys2Proof.Machine
end

section
/-!
The tile scheduler: how an operation is picked and takes its entry, how an entry is freed, the ends of a step on its
dies, the release of a step, and what an alarm leaves as it is.
-/

namespace Sys2Proof.Machine

/-! ## The pick among offers (R117) -/

/-- The least of a list of one value, however often it stands there, is that value. -/
theorem argMin_of_forall_eq {V : Type} (f : V → Nat) {x : V} {l : List V} (ne : l ≠ []) (only : ∀ y ∈ l, y = x) :
    argMin f l = some x := by
  induction l with
  | nil => exact absurd rfl ne
  | cons y l ih =>
    obtain ⟨rfl, others⟩ := List.forall_mem_cons.1 only
    rcases eq_or_ne l [] with rfl | more
    · rfl
    · simp only [argMin, ih more others, le_refl, if_true]

/-- An offer stands for the same unit as `o`, or is `o` itself. -/
def Offer.competes (o x : Offer) : Bool :=
  decide (x = o) || x.die == o.die && (unitOf o.work).isSome && unitOf x.work == unitOf o.work

theorem State.pickOffer_eq (s : State) (o : Offer) : s.pickOffer o =
    (argMin (·.2) ((s.sch.offers.filter o.competes).filterMap (fun x => (s.offerRank x).map (fun n => (x, n))))).map
      (·.1) := rfl

/-- Nothing competes with `o` where every other offer is on another die or for another unit. -/
theorem Offer.eq_of_competes {o x : Offer} (apart : x = o ∨ x.die ≠ o.die ∨ unitOf x.work ≠ unitOf o.work)
    (h : o.competes x = true) : x = o := by
  simp only [Offer.competes, Bool.or_eq_true, decide_eq_true_eq, Bool.and_eq_true, beq_iff_eq] at h
  rcases h with same | ⟨⟨die, -⟩, unit⟩
  · exact same
  · exact apart.resolve_right (not_or.2 ⟨not_not.2 die, not_not.2 unit⟩)

/-- Of offers for whose unit nothing else is offered, the ready one is picked. -/
theorem State.pickOffer_of_only {s : State} {o : Offer} {n : Nat} (offered : o ∈ s.sch.offers)
    (only : ∀ x ∈ s.sch.offers, x = o ∨ x.die ≠ o.die ∨ unitOf x.work ≠ unitOf o.work)
    (rank : s.offerRank o = some n) : s.pickOffer o = some o := by
  rw [State.pickOffer_eq, argMin_of_forall_eq (x := (o, n))]
  · rfl
  · have itself : o.competes o = true := by simp only [Offer.competes, decide_true, Bool.true_or]
    refine List.ne_nil_of_mem (a := (o, n)) (List.mem_filterMap.2 ⟨o, List.mem_filter.2 ⟨offered, itself⟩, ?_⟩)
    rw [rank, Option.map_some]
  · intro y hy
    obtain ⟨x, hx, ranked⟩ := List.mem_filterMap.1 hy
    obtain ⟨there, competes⟩ := List.mem_filter.1 hx
    rw [Offer.eq_of_competes (only x there) competes, rank] at ranked
    exact (Option.some.inj ranked).symm

/-! ## What is offered (R114) -/

/-- The state with other offers: nothing that the conditions of an issue read. -/
def State.withOffers (s : State) (l : List Offer) : State := { s with sch := { s.sch with offers := l } }

/-- An operation that is presented is offered from then on. -/
theorem State.offer_spec (s : State) (o : Offer) : ∃ l,
    (if s.sch.offers.contains o then s else { s with sch := { s.sch with offers := s.sch.offers ++ [o] } }) =
      s.withOffers l ∧ o ∈ l ∧ ∀ x ∈ l, x ∈ s.sch.offers ∨ x = o := by
  split
  next there => exact ⟨s.sch.offers, rfl, List.contains_iff_mem.1 there, fun x => .inl⟩
  next =>
    exact ⟨_, rfl, List.mem_append_right _ (List.mem_singleton_self o), fun x hx =>
      (List.mem_append.1 hx).imp id List.mem_singleton.1⟩

/-! ## Entries of a scoreboard (R113) -/

@[simp] theorem State.peak_board (s : State) (f : Fld) (a : Loc) (v : Nat) : (s.peak f a v).board = s.board := by
  unfold State.peak
  split <;> rfl

@[simp] theorem State.modPan_board (s : State) (p : Nat) (f : Pan → Pan) : (s.modPan p f).board = s.board := rfl

/-- The lowest free entry takes the operation, under the generation that it has. -/
theorem State.takeEntry_of_lowest {s : State} {die i : Nat} (e : ScoreEntry)
    (free : lowest 4096 (fun i => !(s.board die i).busy) = some i) :
    ∃ tag t, s.takeEntry die e = some (tag, t) ∧
      t.board die i = { e with gen := (s.board die i).gen, busy := true } := by
  simp only [State.takeEntry, free, Option.map_some]
  refine ⟨_, _, rfl, ?_⟩
  rw [State.peak_board]
  exact mgetD_mput_self ..

/-- An entry that is freed is not busy, has its next generation, and its operation counts as retired. -/
theorem State.freeEntry_spec (s : State) (die i : Nat) :
    ((s.freeEntry die i).board die i).busy = false ∧
    ((s.freeEntry die i).board die i).gen = ((s.board die i).gen + 1) % 65536 ∧
    ((s.freeEntry die i).pan (s.board die i).pan).retired =
      ((s.board die i).station, (s.board die i).mb, (s.board die i).slice, (s.board die i).layer) ::
        (s.pan (s.board die i).pan).retired := by
  have freed : (s.freeEntry die i).board die i = (s.board die i).drop := mgetD_mput_self ..
  rw [freed]
  refine ⟨rfl, rfl, ?_⟩
  rw [State.freeEntry, State.pan_modPan_self]
  rfl

/-! ## Issue (R114) -/

/-- An invocation of grains that takes the lowest free entry is that entry; memory and grains stay. -/
theorem State.issueOp_sliver {s : State} {die e : Nat} (pan : Nat) (d : StationDecl) (mb slice b : Nat) (gs : List Nat)
    (free : lowest 4096 (fun e => !(s.board die e).busy) = some e) :
    (s.issueOp die pan d mb slice (.sliver b gs)).mem = s.mem ∧
    (s.issueOp die pan d mb slice (.sliver b gs)).grains = s.grains ∧
    (s.issueOp die pan d mb slice (.sliver b gs)).board die e =
      { newEntry pan (s.pan pan).step d mb slice (.sliver b gs) with gen := (s.board die e).gen, busy := true } := by
  obtain ⟨tag, u, taken, entry⟩ :=
    s.takeEntry_of_lowest (newEntry pan (s.pan pan).step d mb slice (.sliver b gs)) free
  obtain ⟨mem, grains⟩ := State.mem_grains_of_outside (State.takeEntry_outside rfl rfl taken)
  have begins (t : State) (tag : Nat) : t.startWork die pan d mb slice tag (.sliver b gs) = t := rfl
  unfold State.issueOp
  rw [taken]
  dsimp only
  rw [begins]
  simp only [reduceCtorEq, or_self, if_false]
  split
  · rw [State.modPan_mem, State.modPan_grains, State.modPan_board]
    exact ⟨mem, grains, entry⟩
  · exact ⟨mem, grains, entry⟩

/-- A ready operation with which nothing competes issues (R114, R117). -/
theorem State.tryIssue_of_only {s : State} {o : Offer} {d : StationDecl}
    (decl : (s.pan o.pan).station o.station = some d)
    (ready : ∀ l, (s.withOffers l).opReady o.die o.pan d o.mb o.slice o.work = true)
    (quota : s.quotaFree o.pan o.die = true) (prefetched : (s.pan o.pan).ladleLate d = false)
    (only : ∀ x ∈ s.sch.offers, x = o ∨ x.die ≠ o.die ∨ unitOf x.work ≠ unitOf o.work) (waited : Nat) :
    ∃ l, s.tryIssue o d waited = (s.withOffers l).issueOp o.die o.pan d o.mb o.slice o.work := by
  obtain ⟨l, offers, offered, others⟩ := s.offer_spec o
  have decl' : ((s.withOffers l).pan o.pan).station o.station = some d := decl
  have quota' : (s.withOffers l).quotaFree o.pan o.die = true := quota
  have prefetched' : ((s.withOffers l).pan o.pan).ladleLate d = false := prefetched
  have rank : (s.withOffers l).offerRank o = some (opRank d o.mb o.slice) := by
    simp only [State.offerRank, decl', ready, quota', prefetched', Bool.not_false, Bool.and_self, if_true]
  have pick := State.pickOffer_of_only (s := s.withOffers l) offered (fun x hx => (others x hx).elim (only x) .inl) rank
  refine ⟨l.filter (fun x => x ≠ o), ?_⟩
  simp only [State.tryIssue, offers, ready, quota', prefetched, pick, State.issueOffer, decl', Bool.not_true,
    Bool.false_eq_true, if_false]
  rfl

/-! ## The ends of a step on its dies (R119) -/

/-- Of exchanges that are all of other pans, none goes on. -/
theorem State.stepExchs_of_none {s : State} {pan : Nat} (none : ∀ x ∈ s.col.exchs, x.2.pan ≠ pan) :
    s.stepExchs pan = s := by
  have empty : s.col.exchs.filter (fun x => x.2.pan = pan ∧ x.2.status = 0) = [] :=
    List.filter_eq_nil_iff.2 fun x hx => by simp only [none x hx, false_and, decide_false, Bool.false_eq_true,
      not_false_eq_true]
  rw [State.stepExchs, empty]
  rfl

/-! ## Release (R45, R49) -/

section Release

variable {P : Parts} (free : P.free) (grains : P.grains)

include free grains

theorem State.wakeBrick_outside (s : State) (die b step : Nat) :
    (s.wakeBrick die b step).outside P = s.outside P := by
  simp only [State.wakeBrick, State.grains_outside grains, State.draw_outside free]

omit free in
theorem State.freshWorlds_outside (s : State) (die b : Nat) : (s.freshWorlds die b).outside P = s.outside P := by
  simp only [State.freshWorlds, State.grains_outside grains]

theorem State.enterStep_outside (s : State) (step : Nat) (d : DevWorld) :
    (s.enterStep step d).outside P = s.outside P := by
  simp only [State.enterStep, State.modGrain_outside grains, State.draw_outside free, forEach_outside, implies_true]

/-- A release on a die notes it in the pan, and starts grains. -/
theorem State.wakeDie_outside (s : State) (die p step : Nat) :
    (s.wakeDie die p step).outside P =
      (s.modPan p (fun b => { b with woken := die :: b.woken })).outside P := by
  simp only [State.wakeDie, State.freshWorlds_outside grains, State.wakeBrick_outside free grains,
    State.enterStep_outside free grains, forEach_outside, implies_true]

end Release

/-- What a release starts on a die. -/
def Part.wake : Parts := { free := true, grains := true }

theorem State.wakeDie_spec (s : State) (die p step : Nat) :
    (s.wakeDie die p step).mem = s.mem ∧ (s.wakeDie die p step).csr = s.csr ∧
    ((s.wakeDie die p step).pan p).woken = die :: (s.pan p).woken ∧
    ((s.wakeDie die p step).pan p).step = (s.pan p).step := by
  obtain ⟨-, -, -, csr, -, mem, -, -, -, -, sch, -⟩ :=
    State.outside_eq_iff.1 (State.wakeDie_outside (P := Part.wake) rfl rfl s die p step)
  have pan : (s.wakeDie die p step).pan p = { s.pan p with woken := die :: (s.pan p).woken } := by
    rw [State.pan, sch rfl]
    exact s.pan_modPan_self p _
  exact ⟨mem rfl, csr rfl, by rw [pan], by rw [pan]⟩

end Sys2Proof.Machine
end

section
/-! The rows of the tile scheduler and of the step boundary. -/

namespace Sys2Proof.Machine

section Rows

variable {s : State} {die pan : Nat}

theorem exec_tileOpIssue (compute : die < 16) (there : die ∈ (s.pan pan).dies) {station : Nat} {d : StationDecl}
    (decl : (s.pan pan).station station = some d) (mb slice waited : Nat) (work : OpWork) :
    exec (.tileOpIssue die pan station mb slice waited work) s =
      .next (s.tryIssue { die, pan, station, mb, slice, work } d waited) := by
  change need (isCompute die) "compute die" (whenThere _ s (match (s.pan pan).station station with
    | none => .next s
    | some d => .next (s.tryIssue { die, pan, station, mb, slice, work } d waited))) = _
  rw [isCompute, decide_eq_true compute, need_true, decide_eq_true there, whenThere_true, decl]

/-- A completion of another generation, or of an entry that is free, is dropped and counted (R116). -/
theorem exec_tileOpRetire_stale {optag : Nat} (cause : Nat)
    (stale : (s.board (bits optag 15 12) (optag % 4096)).busy = false ∨
      (s.board (bits optag 15 12) (optag % 4096)).gen ≠ bits optag 31 16) :
    exec (.tileOpRetire optag cause) s = .next (s.bump R.SCH_FULL_STALE (lDie (bits optag 15 12))) := by
  refine congrArg Host.Outcome.next (if_pos ?_)
  simpa only [Bool.not_eq_true'] using stale

/-- A completion of grains' work that has ended, and poisons nothing, frees its entry; exchanges go on (R113, R116). -/
theorem exec_tileOpRetire_ended {optag : Nat}
    (busy : (s.board (bits optag 15 12) (optag % 4096)).busy = true)
    (gen : (s.board (bits optag 15 12) (optag % 4096)).gen = bits optag 31 16)
    (grains : (s.board (bits optag 15 12) (optag % 4096)).isArray = false)
    (ended : s.opEnded (bits optag 15 12) (optag % 2 ^ 32) (s.board (bits optag 15 12) (optag % 4096)) = true) :
    exec (.tileOpRetire optag 0) s =
      .next ((s.freeEntry (bits optag 15 12) (optag % 4096)).stepExchs
        (s.board (bits optag 15 12) (optag % 4096)).pan) := by
  refine congrArg Host.Outcome.next ?_
  simp only [busy, gen, grains, ended, Bool.not_true, Bool.false_eq_true, ne_eq, not_true_eq_false, or_self, if_false,
    if_true, State.retireOp]

variable (there : die ∈ (s.pan pan).dies)

include there

theorem exec_localBoundary (released : (s.pan pan).released = true) (woken : (s.pan pan).woken.contains die = true)
    (new : (s.pan pan).sent.contains die = false) (ended : s.localDone pan die = true) :
    exec (.localBoundary die pan) s = .next (s.modPan pan (fun p => { p with sent := die :: p.sent })) := by
  change whenThere _ s (.next (if _ then _ else s)) = _
  rw [decide_eq_true there, whenThere_true, released, woken, new, ended]
  rfl

theorem exec_done (released : (s.pan pan).released = true) (sent : (s.pan pan).sent.contains die = true)
    (new : (s.pan pan).dones.contains die = false) (ns : Nat) :
    exec (.done pan die (s.pan pan).step ns) s = .next (
      if (s.pan pan).dies.all (fun d => decide (d = die) || (s.pan pan).dones.contains d) then
        s.whenRoom [16] (2, pan) (fun s => (s.modPan pan (fun p => { p with dones := die :: p.dones })).boundary pan ns)
      else s.modPan pan (fun p => { p with dones := die :: p.dones })) := by
  change whenThere _ s (.next (if _ then _ else s)) = _
  rw [decide_eq_true there, whenThere_true, if_pos]
  simp only [released, sent, new, Bool.not_false, and_self]

theorem exec_stepRelease (released : (s.pan pan).released = true) (asleep : (s.pan pan).woken.contains die = false) :
    exec (.stepRelease die pan (s.pan pan).step) s = .next (s.wakeDie die pan (s.pan pan).step) := by
  change whenThere _ s (.next (if _ then _ else s)) = _
  rw [decide_eq_true there, whenThere_true, if_pos]
  simp only [released, asleep, Bool.not_false, and_self]

omit there in
/-- A boundary that is late at the limit marks the pan, and raises its alarm (R123). -/
theorem exec_boundaryLate (live : (s.pan pan).st ≠ .free) (released : (s.pan pan).released = true)
    (limit : s.getF R.SCH_BNDLIM_US (lDie (s.pan pan).master) ≠ 0)
    (new : s.getB R.SCH_PBND_LATE (s.panLoc pan) = false) : ∃ key, exec (.boundaryLate pan) s = .next
      (((s.until ((s.pan pan).relTime + s.getF R.SCH_BNDLIM_US (lDie (s.pan pan).master) * 1000 + 1)).setF
        R.SCH_PBND_LATE (s.panLoc pan) 1).alarm Kind.boundaryLate (s.pan pan).job key) := by
  refine ⟨_, (congrArg (whenThere · s _) (decide_eq_true live)).trans (congrArg Host.Outcome.next (if_neg ?_))⟩
  simp only [released, limit, new, Bool.not_true, Bool.false_eq_true, or_self, not_false_eq_true]

end Rows

/-- Settles O15: each part is what the lemmas above say of its row. That offered operations compete for a
brick's grains, and the first of them in R117's order issues, is the model's choice (log 118). -/
theorem schedulerRows : Obligations.SchedulerRows := by
  unfold Obligations.SchedulerRows
  refine ⟨?issue, ?retire, ?stale, ?localEnd, ?held, ?boundary, ?release, ?late⟩
  case issue =>
    intro s die pan station mb slice waited b e gs d compute there decl ready quota prefetched only free
    obtain ⟨l, issues⟩ := State.tryIssue_of_only (s := s) (o := { die, pan, station, mb, slice, work := .sliver b gs })
      decl (fun _ => ready) quota prefetched only waited
    refine ⟨_, exec_tileOpIssue compute there decl mb slice waited (.sliver b gs), ?_⟩
    rw [issues]
    exact State.issueOp_sliver (s := s.withOffers l) pan d mb slice b gs free
  case retire =>
    intro s optag die e busy gen grains ended
    have retires := exec_tileOpRetire_ended busy gen grains ended
    refine ⟨retires, fun none => ⟨_, retires, ?_⟩⟩
    rw [State.stepExchs_of_none (s := s.freeEntry die (optag % 4096)) none]
    exact ⟨rfl, rfl, s.freeEntry_spec die (optag % 4096)⟩
  case stale =>
    intro s optag cause die stale
    exact exec_tileOpRetire_stale cause stale
  case localEnd =>
    intro s die pan there released woken new ended
    exact exec_localBoundary there released woken new ended
  case held =>
    intro s die pan d' ns there released sent new other ne missing
    rw [exec_done there released sent new, if_neg]
    intro every
    have one := List.all_eq_true.1 every d' other
    simp only [ne, missing, decide_false, Bool.or_self, Bool.false_eq_true] at one
  case boundary =>
    intro s die pan ns there released sent new every room
    rw [exec_done there released sent new, if_pos, s.whenRoom_now _ _ _ room]
    simpa only [List.all_eq_true, Bool.or_eq_true, decide_eq_true_eq] using every
  case release =>
    intro s die pan there released asleep
    exact ⟨_, exec_stepRelease there released asleep, s.wakeDie_spec die pan _⟩
  case late =>
    intro s pan live released limit new
    obtain ⟨key, marks⟩ := exec_boundaryLate live released limit new
    refine ⟨_, marks, ?_, ?_, ?_, ?_⟩
    · rw [State.alarm_mem, State.setF_mem, State.until_mem]
    · rw [State.alarm_sch, State.setF_sch, State.until_sch]
    · rw [State.getF_alarm_of_lsb _ (by decide) (by decide), State.getF_setF_self]
      rfl
    · rw [State.alarm_time, State.setF_time]
      exact Nat.lt_of_succ_le (Nat.le_max_right _ _)

end Sys2Proof.Machine
end

section
/-!
Die-to-die links: both ends of a link after its state is set, and after counts and poisoned tiles.
-/

namespace Sys2Proof.Machine

/-- Both ends of a link are ports of compute dies. -/
theorem State.mem_linkEnds {s : State} {die port : Nat} (compute : die < 16) (unit : port < 4) {l : Loc}
    (h : l ∈ s.linkEnds die port) : ∃ d p, d < 16 ∧ p < 4 ∧ l = d2dLoc d p := by
  rcases List.mem_cons.1 h with rfl | far
  · exact ⟨die, port, compute, unit, rfl⟩
  · simp only [Option.mem_toList, Option.map_eq_some_iff] at far
    obtain ⟨p, faces, rfl⟩ := far
    have peer := List.find?_some faces
    simp only [Bool.and_eq_true, decide_eq_true_eq] at peer
    exact ⟨_, p, peer.1, List.mem_range.1 (List.mem_of_find?_eq_some faces), rfl⟩

/-- The far end of a link is read from what the ports face. -/
theorem State.linkEnds_congr {s t : State} (peers : ∀ l, t.getF R.D2D_LSTAT_PEER l = s.getF R.D2D_LSTAT_PEER l) :
    t.linkEnds = s.linkEnds := by
  funext die port
  simp only [State.linkEnds, peers]

/-- A field that is set at each of several places reads so at each of them. -/
theorem State.getF_forEach_setF {f : Fld} {a : Loc} {ls : List Loc} (v : Nat) {s : State}
    (h : a ∈ ls ∨ s.getF f a = v % 2 ^ f.w) : (forEach ls s (fun s l => s.setF f l v)).getF f a = v % 2 ^ f.w := by
  induction ls generalizing s with
  | nil => exact h.resolve_left List.not_mem_nil
  | cons l ls ih =>
    refine ih (s := s.setF f l v) ?_
    by_cases same : f.key l = f.key a
    · exact .inr (by rw [State.getF, ← same]; exact s.getF_setF_self f l v)
    · rcases h with there | already
      · rcases List.mem_cons.1 there with rfl | later
        · exact absurd rfl same
        · exact .inl later
      · exact .inr (by rw [s.getF_setF_ne _ _ _ _ _ same, already])

/-- Both ends enter the state. -/
theorem State.getF_linkTo (s : State) (die port : Nat) {st : Nat} (small : st < 8) {l : Loc}
    (h : l ∈ s.linkEnds die port) : (s.linkTo die port st).getF R.D2D_LSTAT_STATE l = st :=
  (State.getF_forEach_setF st (.inl h)).trans (Nat.mod_eq_of_lt small)

/-! ## A link that goes to RETRAIN (R132) -/

/-- The counts of a lost flit: of retries, of packets on other ways, and of retrainings at both ends. -/
def State.lossCounted (s : State) (die port rerouted retries : Nat) : State :=
  let s := (s.bump R.D2D_LERR_RETRY (d2dLoc die port) retries).bump R.D2D_REROUTE_PACKETS (d2dLoc die port) rerouted
  forEach (s.linkEnds die port) s (fun s l => s.bump R.D2D_LERR_RETRAINS l)

theorem State.lossCounted_outside {P : Parts} (csr : P.csr) (s : State) (die port rerouted retries : Nat) :
    (s.lossCounted die port rerouted retries).outside P = s.outside P := by
  simp only [State.lossCounted, State.bump_outside csr, forEach_outside, implies_true]

/-- Counting leaves both ends of every link where they are. -/
theorem State.linkEnds_lossCounted (s : State) (die port rerouted retries : Nat) :
    (s.lossCounted die port rerouted retries).linkEnds = s.linkEnds := by
  refine State.linkEnds_congr fun l => ?_
  simp only [State.lossCounted]
  rw [State.getF_forEach fun t x _ =>
      t.getF_bump_of_lsb (by decide) (by decide) (by decide) (by decide) (by decide) x l 1,
    State.getF_bump_of_lsb _ (by decide) (by decide) (by decide) (by decide) (by decide),
    State.getF_bump_of_lsb _ (by decide) (by decide) (by decide) (by decide) (by decide)]

/-- The state of a port lies in block D2D of its die (R4). -/
theorem csrBlock_linkState {d p : Nat} (port : p < 4) : csrBlock (R.D2D_LSTAT_STATE.key (d2dLoc d p)) = 0x60 := by
  rw [Fld.csrBlock_key _ _ rfl (by simp only [R.D2D_LSTAT_STATE, d2dLoc, lIdx]; omega) (by decide)]
  rfl

/-- A poisoned tile leaves the states of the ports as they are. -/
theorem State.getF_linkPoison (s : State) (die port : Nat) (t : Nat × Nat × Nat) {d p : Nat} (unit : p < 4) :
    (s.linkPoison die port t).getF R.D2D_LSTAT_STATE (d2dLoc d p) = s.getF R.D2D_LSTAT_STATE (d2dLoc d p) := by
  have block := csrBlock_linkState (d := d) unit
  have outside : outsidePerf (R.D2D_LSTAT_STATE.key (d2dLoc d p)) := by
    rw [outsidePerf, block]
    decide
  have sch : csrBlock (R.SCH_POISON_COUNT.key (lDie die)) = 0x08 := by
    rw [Fld.csrBlock_key _ _ rfl (by simp only [R.SCH_POISON_COUNT, lDie]; omega) (by decide)]
    rfl
  have count (u : State) : (u.bump R.SCH_POISON_COUNT (lDie die)).getF R.D2D_LSTAT_STATE (d2dLoc d p) =
      u.getF R.D2D_LSTAT_STATE (d2dLoc d p) :=
    u.getF_bump_ne (by decide) outside (fun same => by rw [same, block] at sch; exact absurd sch (by decide)) 1
  rw [State.linkPoison, State.getF_bump_ne _ (by decide) outside
    (Fld.key_ne_of_lsb (by decide) (by decide) (by decide) _ _), State.poisonOut, State.poisonOuts]
  split
  · rw [State.getF_setF_of_lsb _ (by decide) (by decide) (by decide), count]
    rfl
  · rw [State.getF_setF_of_lsb _ (by decide) (by decide) (by decide),
      State.getF_setF_of_lsb _ (by decide) (by decide) (by decide), count]
    rfl

@[simp] theorem State.rows_setRows_self (s : State) (pan i : Nat) (l : List StreamRow) :
    (s.setRows pan i l).rows pan i = l := mgetD_mput_self ..

/-- Poisoned outputs are counted in registers. -/
theorem State.linkPoison_outside {P : Parts} (csr : P.csr) (s : State) (die port : Nat) (t : Nat × Nat × Nat) :
    (s.linkPoison die port t).outside P =
      (s.setRows t.1 t.2.1 (poisonTileAt (s.rows t.1 t.2.1) t.2.2)).outside P := by
  simp only [State.linkPoison, State.bump_outside csr, State.poisonOut_outside csr]

/-- What counts change. -/
def Part.counts : Parts := { csr := true }

theorem State.mem_sch_of_counts {s t : State} (h : t.outside Part.counts = s.outside Part.counts) :
    t.mem = s.mem ∧ t.sch = s.sch := by
  obtain ⟨-, -, -, -, -, mem, -, -, -, -, sch, -⟩ := State.outside_eq_iff.1 h
  exact ⟨mem rfl, sch rfl⟩

/-- The loss of a flit, counted, takes both ends to RETRAIN. -/
def State.linkCounted (s : State) (die port rerouted retries : Nat) : State :=
  (s.lossCounted die port rerouted retries).linkTo die port 3

theorem State.linkCounted_outside {P : Parts} (csr : P.csr) (s : State) (die port rerouted retries : Nat) :
    (s.linkCounted die port rerouted retries).outside P = s.outside P :=
  (State.linkTo_outside csr ..).trans (s.lossCounted_outside csr die port rerouted retries)

/-- The link after the loss: the tiles in flight are poisoned too. -/
def State.linkLost (s : State) (die port : Nat) (inFlight : List (Nat × Nat × Nat)) (rerouted retries : Nat) : State :=
  forEach inFlight (s.linkCounted die port rerouted retries) (fun s t => s.linkPoison die port t)

theorem State.linkLost_nil (s : State) (die port rerouted retries : Nat) :
    s.linkLost die port [] rerouted retries = s.linkCounted die port rerouted retries := by
  rw [State.linkLost, forEach, List.foldl_nil]

theorem State.linkLost_single (s : State) (die port : Nat) (t : Nat × Nat × Nat) (rerouted retries : Nat) :
    s.linkLost die port [t] rerouted retries = (s.linkCounted die port rerouted retries).linkPoison die port t := by
  rw [State.linkLost, forEach, List.foldl_cons, List.foldl_nil]

theorem State.mem_linkPoison (s : State) (die port : Nat) (t : Nat × Nat × Nat) :
    (s.linkPoison die port t).mem = s.mem := by
  obtain ⟨mem, -⟩ := State.mem_sch_of_counts (State.linkPoison_outside rfl s die port t)
  rw [mem]
  rfl

/-- The tile that is poisoned is that of the row at its position. -/
theorem State.rows_linkPoison (s : State) (die port pan stream i : Nat) :
    (s.linkPoison die port (pan, stream, i)).rows pan stream = poisonTileAt (s.rows pan stream) i := by
  obtain ⟨-, sch⟩ := State.mem_sch_of_counts (State.linkPoison_outside rfl s die port (pan, stream, i))
  rw [State.rows, sch]
  exact s.rows_setRows_self pan stream _

/-- Both ends are in RETRAIN, whatever was in flight. -/
theorem State.getF_linkLost (s : State) {die port : Nat} (compute : die < 16) (unit : port < 4)
    (inFlight : List (Nat × Nat × Nat)) (rerouted retries : Nat) {l : Loc} (h : l ∈ s.linkEnds die port) :
    (s.linkLost die port inFlight rerouted retries).getF R.D2D_LSTAT_STATE l = 3 := by
  obtain ⟨d, p, -, hp, rfl⟩ := State.mem_linkEnds compute unit h
  rw [State.linkLost, State.getF_forEach fun t x _ => t.getF_linkPoison die port x hp]
  refine State.getF_linkTo _ die port (by decide) ?_
  rw [State.linkEnds_lossCounted]
  exact h

/-! ## A training that is given up (R132) -/

/-- The time at which the training of a link is given up, with its count of packets on other ways. -/
def State.linkDue (s : State) (die port rerouted : Nat) : State :=
  (s.until (mgetD s.sch.d2dSince (die * 4 + port) s.time + 100000)).bump R.D2D_REROUTE_PACKETS (d2dLoc die port)
    rerouted

theorem State.linkDue_spec (s : State) (die port rerouted : Nat) :
    (s.linkDue die port rerouted).mem = s.mem ∧ (s.linkDue die port rerouted).sch = s.sch ∧
    (s.linkDue die port rerouted).time = max s.time (mgetD s.sch.d2dSince (die * 4 + port) s.time + 100000) := by
  obtain ⟨m, counts⟩ := State.bump_spec (s.until (mgetD s.sch.d2dSince (die * 4 + port) s.time + 100000))
    R.D2D_REROUTE_PACKETS (d2dLoc die port) rerouted
  rw [State.linkDue, counts]
  exact ⟨rfl, rfl, rfl⟩

theorem State.linkEnds_linkDue (s : State) (die port rerouted : Nat) :
    (s.linkDue die port rerouted).linkEnds die port = s.linkEnds die port :=
  congrFun (congrFun (State.linkEnds_congr fun l =>
    State.getF_bump_of_lsb _ (by decide) (by decide) (by decide) (by decide) (by decide) _ l rerouted) die) port

/-- Both ends are DISABLED, and DEGRADED is set. -/
def State.linkOut (s : State) (die port : Nat) : State :=
  forEach (s.linkEnds die port) (s.linkTo die port 4) (fun s l => s.setF R.D2D_LSTAT_DEGRADED l 1)

theorem State.linkOut_outside {P : Parts} (csr : P.csr) (s : State) (die port : Nat) :
    (s.linkOut die port).outside P = s.outside P := by
  simp only [State.linkOut, State.setF_outside csr, State.linkTo_outside csr, forEach_outside, implies_true]

theorem State.getF_linkOut {s : State} {die port : Nat} {l : Loc} (h : l ∈ s.linkEnds die port) :
    (s.linkOut die port).getF R.D2D_LSTAT_STATE l = 4 ∧ (s.linkOut die port).getF R.D2D_LSTAT_DEGRADED l = 1 := by
  refine ⟨?_, State.getF_forEach_setF 1 (.inl h)⟩
  rw [State.linkOut, State.getF_forEach fun t x _ =>
    t.getF_setF_of_lsb (by decide) (by decide) (by decide) x l 1]
  exact s.getF_linkTo die port (by decide) h

/-! ## The rows -/

/-- The time at which a link left ACTIVE. -/
def State.sinceNow (s : State) (die port : Nat) : State :=
  { s with sch := { s.sch with d2dSince := mput s.sch.d2dSince (die * 4 + port) s.time } }

section Since

variable (s : State) (die port : Nat)

@[simp] theorem State.sinceNow_mem : (s.sinceNow die port).mem = s.mem := rfl
@[simp] theorem State.sinceNow_streams : (s.sinceNow die port).sch.streams = s.sch.streams := rfl
@[simp] theorem State.sinceNow_pans : (s.sinceNow die port).sch.pans = s.sch.pans := rfl
@[simp] theorem State.sinceNow_rows : (s.sinceNow die port).rows = s.rows := rfl
@[simp] theorem State.getF_sinceNow (f : Fld) (a : Loc) : (s.sinceNow die port).getF f a = s.getF f a := rfl

end Since

section Rows

variable {s : State} {die port : Nat} (compute : die < 16) (unit : port < 4)

include compute unit

theorem isLinkPort : (isCompute die && decide (port < 4)) = true := by
  simp only [isCompute, compute, unit, decide_true, Bool.and_self]

/-- A flit that is lost on an ACTIVE link takes it to RETRAIN, and the time is noted. -/
theorem exec_d2dRetrain_active (inFlight : List (Nat × Nat × Nat)) (rerouted retries : Nat)
    (active : s.getF R.D2D_LSTAT_STATE (d2dLoc die port) = 2) :
    exec (.d2dRetrain die port inFlight rerouted retries) s =
      .next ((s.linkLost die port inFlight rerouted retries).sinceNow die port) := by
  have does : execD2dRetrain die port inFlight rerouted retries s =
      need (isCompute die && decide (port < 4)) "die-to-die port" (.next (
        if s.getF R.D2D_LSTAT_STATE (d2dLoc die port) < 2 then s
        else if s.getF R.D2D_LSTAT_STATE (d2dLoc die port) ≠ 2 then
          (s.bump R.D2D_LERR_RETRY (d2dLoc die port) retries).bump R.D2D_REROUTE_PACKETS (d2dLoc die port) rerouted
        else (s.linkLost die port inFlight rerouted retries).sinceNow die port)) := rfl
  refine does.trans ?_
  rw [isLinkPort compute unit, need_true, active]
  rfl

theorem exec_d2dRetrain_down (inFlight : List (Nat × Nat × Nat)) (rerouted retries : Nat)
    (down : s.getF R.D2D_LSTAT_STATE (d2dLoc die port) < 2) :
    exec (.d2dRetrain die port inFlight rerouted retries) s = .next s := by
  change need _ _ (.next (if _ then s else _)) = _
  rw [isLinkPort compute unit, need_true, if_pos down]

theorem exec_d2dRetrainDone (rerouted : Nat) : exec (.d2dRetrainDone die port rerouted) s =
    .next (if s.getF R.D2D_LSTAT_STATE (d2dLoc die port) = 3 then
      (s.linkTo die port 2).bump R.D2D_REROUTE_PACKETS (d2dLoc die port) rerouted else s) :=
  if_pos (isLinkPort compute unit)

/-- A training that has not succeeded when it is due disables both ends, and marks them. -/
theorem exec_d2dRetrainTimeout_due (rerouted : Nat) (trains : s.getF R.D2D_LSTAT_STATE (d2dLoc die port) = 3) :
    exec (.d2dRetrainTimeout die port rerouted) s = .next ((s.linkDue die port rerouted).linkOut die port) :=
  (if_pos (isLinkPort compute unit)).trans (congrArg Host.Outcome.next (if_pos trains))

end Rows

/-- Settles O16: each part is what the lemmas above say of its row. That a command leaves alone what is not in the state
it needs (log 12), and that a timeout moves TIME to the time it was due (log 13), are the model's choices. -/
theorem dieLinkRows : Obligations.DieLinkRows := by
  unfold Obligations.DieLinkRows
  refine ⟨?empty, ?tile, ?down, ?done, ?timeout⟩
  case empty =>
    intro s die port rerouted retries compute unit active
    obtain ⟨mem, sch⟩ := State.mem_sch_of_counts (s.linkCounted_outside rfl die port rerouted retries)
    refine ⟨_, exec_d2dRetrain_active compute unit [] rerouted retries active, ?_, ?_, ?_, fun l hl => ?_⟩
    · rw [State.sinceNow_mem, State.linkLost_nil, mem]
    · rw [State.sinceNow_streams, State.linkLost_nil, sch]
    · rw [State.sinceNow_pans, State.linkLost_nil, sch]
    · rw [State.getF_sinceNow, s.getF_linkLost compute unit [] rerouted retries hl]
  case tile =>
    intro s die port pan stream i rerouted retries compute unit _ active
    obtain ⟨mem, sch⟩ := State.mem_sch_of_counts (s.linkCounted_outside rfl die port rerouted retries)
    refine ⟨_, exec_d2dRetrain_active compute unit [(pan, stream, i)] rerouted retries active, ?_, fun l hl => ?_, ?_⟩
    · rw [State.sinceNow_mem, State.linkLost_single, State.mem_linkPoison, mem]
    · rw [State.getF_sinceNow, s.getF_linkLost compute unit _ rerouted retries hl]
    · rw [State.sinceNow_rows, State.linkLost_single, State.rows_linkPoison, State.rows, sch]
      rfl
  case down =>
    intro s die port l rerouted retries compute unit down
    exact exec_d2dRetrain_down compute unit l rerouted retries down
  case done =>
    intro s die port rerouted compute unit
    exact exec_d2dRetrainDone compute unit rerouted
  case timeout =>
    intro s die port rerouted compute unit trains
    obtain ⟨mem, sch, time⟩ := s.linkDue_spec die port rerouted
    obtain ⟨-, timeOut, -, -, -, memOut, -, -, -, -, schOut, -⟩ := State.outside_eq_iff.1
      (State.linkOut_outside (P := Part.counts) rfl (s.linkDue die port rerouted) die port)
    refine ⟨_, exec_d2dRetrainTimeout_due compute unit rerouted trains, (memOut rfl).trans mem, (schOut rfl).trans sch,
      ?_, fun l hl => ?_⟩
    · rw [timeOut rfl, time]
      exact Nat.le_max_right _ _
    · exact State.getF_linkOut (s.linkEnds_linkDue die port rerouted ▸ hl)

end Sys2Proof.Machine
end

section
/-!
Per-pan registers: the fields of a register, where it is live, the plan of its write, and what an accepted write does.
-/

namespace Sys2Proof.Machine

/-! ## Fields of a per-pan register (R3, R381) -/

/-- The fields of the register of a field. -/
def Fld.register (f : Fld) : List Fld := f.blk.fields.filter (fun g => g.off = f.off)

/-- The field at the foot of a per-pan register of block SCH or ATT, with what its table says of the fields beside it:
those of the device stand below the per-pan registers, those of a pan in steps of one size. -/
structure PanField (f : Fld) : Prop where
  blk : f.blk = .sch ∨ f.blk = .att
  perPan : 0x1000 ≤ f.off
  step : 0 < f.stride
  off : f.off + 256 * f.stride ≤ 65536
  aligned : 8 ∣ f.off ∧ 8 ∣ f.stride
  lsb : f.lsb < 64
  writes : f.acc = .rw
  table : ∀ g ∈ f.blk.fields, (g.count = 1 ∧ g.off < 0x1000) ∨
    (g.count = 256 ∧ g.stride = f.stride ∧ g.off < f.off + f.stride ∧ f.off < g.off + g.stride)
  first : f.register = f :: f.register.tail
  beside : ∀ g ∈ f.register.tail, g.blk = f.blk ∧ g.off = f.off ∧ g.lsb < 64 ∧ g.lsb ≠ f.lsb ∧ g.acc ≠ .wo1 ∧
    g ≠ R.SCH_SPLIT_ROWS ∧ g ≠ R.ATT_PMODE_DROP

theorem panField_SCH_SPLIT_ROWS : PanField R.SCH_SPLIT_ROWS :=
  ⟨.inl rfl, by decide, by decide, by decide, by decide, by decide, rfl, by decide, rfl, by decide⟩

theorem panField_ATT_PMODE_DROP : PanField R.ATT_PMODE_DROP :=
  ⟨.inr rfl, by decide, by decide, by decide, by decide, by decide, rfl, by decide, rfl, by decide⟩

/-- Of places less than a step apart, steps lead from one to the other only where they are the same. -/
theorem eq_of_steps {a b d n i : Nat} (ab : a < b + d) (ba : b < a + d) (h : a + n * d = b + i * d) : a = b := by
  rcases Nat.lt_trichotomy n i with lt | rfl | gt
  · have := Nat.mul_le_mul_right d (Nat.succ_le_of_lt lt)
    rw [Nat.succ_mul] at this
    omega
  · omega
  · have := Nat.mul_le_mul_right d (Nat.succ_le_of_lt gt)
    rw [Nat.succ_mul] at this
    omega

/-- Of the fields of the table, those of the register are at its offset, at the pan's place. -/
theorem Fld.at?_pan {f g : Fld} {pan : Nat} (small : pan < 256) (perPan : 0x1000 ≤ f.off) (step : 0 < f.stride)
    (row : (g.count = 1 ∧ g.off < 0x1000) ∨
      (g.count = 256 ∧ g.stride = f.stride ∧ g.off < f.off + f.stride ∧ f.off < g.off + g.stride)) :
    g.at? (f.off + pan * f.stride) = if g.off = f.off then some pan else none := by
  rcases row with ⟨one, below⟩ | ⟨count, stride, above, under⟩
  · rw [Fld.at?, if_neg (by omega), if_neg (by omega), if_neg (by omega)]
  · rw [stride] at under
    rw [Fld.at?, count, stride]
    by_cases same : g.off = f.off
    · rw [same, if_pos rfl]
      split
      next foot => rw [(Nat.mul_eq_zero.1 (Nat.add_eq_left.1 foot)).resolve_right step.ne']
      next =>
        rw [Nat.add_sub_cancel_left, Nat.mul_mod_left, Nat.mul_div_cancel _ step, if_pos]
        exact ⟨by decide, Nat.le_add_right _ _, rfl, small⟩
    · have apart (i : Nat) : f.off + pan * f.stride ≠ g.off + i * f.stride := fun h =>
        same (eq_of_steps under above h).symm
      rw [if_neg same, if_neg (by simpa only [Nat.zero_mul, Nat.add_zero] using apart 0), if_neg]
      rintro ⟨-, le, multiple, -⟩
      refine apart ((f.off + pan * f.stride - g.off) / f.stride) ?_
      rw [Nat.div_mul_cancel (Nat.dvd_of_mod_eq_zero multiple), Nat.add_sub_cancel' le]

theorem blkOf_pan {b : Blk} (h : b = .sch ∨ b = .att) {die : Nat} (compute : die < 16) :
    blkOf die (b.code die) = some b := by
  simp only [blkOf, isCompute, compute, decide_true, if_true]
  rcases h with rfl | rfl
  · rfl
  · rfl

/-- The register of a per-pan field has its fields, at the pan's place (R3, R4). -/
theorem regFields_pan {f : Fld} (pf : PanField f) {die pan : Nat} (compute : die < 16) (small : pan < 256) :
    regFields (csrOf f (lIdx die pan)) = f.register.map (fun g => (g, lIdx die pan)) := by
  obtain ⟨blk, perPan, step, off, ⟨offAligned, strideAligned⟩, lsb, -, table, -, -⟩ := pf
  have code : f.blk.code die < 256 ∧ f.blk ≠ .brick := by
    rcases blk with h | h <;> rw [h]
    · exact ⟨(by decide : 0x08 < 256), by decide⟩
    · exact ⟨(by decide : 0x18 < 256), by decide⟩
  have inside : pan * f.stride < 256 * f.stride := Nat.mul_lt_mul_of_pos_right small step
  have whole : (f.off + pan * f.stride) % 8 = 0 :=
    Nat.mod_eq_zero_of_dvd (dvd_add offAligned (Dvd.dvd.mul_left strideAligned pan))
  have csr : csrOf f (lIdx die pan) = (die * 256 + f.blk.code die) * 65536 + (f.off + pan * f.stride) := by
    simp only [csrOf, Fld.key, lIdx]
    omega
  have at_ : bits (csrOf f (lIdx die pan)) 28 24 = die ∧ bits (csrOf f (lIdx die pan)) 23 16 = f.blk.code die ∧
      bits (csrOf f (lIdx die pan)) 15 0 = f.off + pan * f.stride ∧ csrOf f (lIdx die pan) < 2 ^ 29 := by
    rw [csr]
    simp only [bits]
    omega
  obtain ⟨hdie, hcode, hoff, hsize⟩ := at_
  simp only [regFields, hdie, hcode, hoff, blkOf_pan blk compute, whole, Nat.not_le.2 hsize, ne_eq, not_true_eq_false,
    or_self, if_false, code.2, Fld.register]
  rw [← List.filterMap_eq_filter, List.map_filterMap]
  refine List.filterMap_congr fun g hg => ?_
  rw [Fld.at?_pan small perPan step (table g hg)]
  by_cases same : g.off = f.off
  · simp only [same, if_true, Option.map_some, Option.guard, decide_true]
    rfl
  · simp only [same, if_false, Option.map_none, Option.guard, decide_false, Bool.false_eq_true]

/-! ## Where a per-pan register is live (R133, R381) -/

/-- A field of a per-pan register takes writes where the register is live, unless it is read-only. -/
theorem State.writable_pan (s : State) {f : Fld} (blk : f.blk = .sch ∨ f.blk = .att) (perPan : 0x1000 ≤ f.off)
    (a : Loc) : s.writable f a = if f.acc = .ro ∨ f.acc = .rc then none else s.panLive a := by
  rcases blk with h | h <;>
    simp only [State.writable, State.regHome, h, reduceCtorEq, false_and, or_false, perPan, if_true]

/-- A register that is not live has no field that takes writes. -/
theorem State.plan_of_dead (s : State) {fs : List (Fld × Loc)} (dead : ∀ g ∈ fs, s.writable g.1 g.2 = none) (v : Nat) :
    s.plan fs v = [] :=
  congrArg Prod.snd (List.foldlRecOn (motive := fun x : State × List FldWrite => x = (s, [])) _ _ rfl
    fun x hx g hg => by simp only [hx, dead g hg])

/-- The plan of a register whose first field takes writes begins with it; what follows is planned for fields that take
writes. -/
theorem State.plan_cons (s : State) {f : Fld} {a h : Loc} (first : s.writable f a = some h) (fs : List (Fld × Loc))
    (v : Nat) : ∃ ps, s.plan ((f, a) :: fs) v = s.planFld f a h v :: ps ∧
      ∀ p ∈ ps, ∃ g ∈ fs, ∃ t : State, ∃ k, t.writable g.1 g.2 = some k ∧ p = t.planFld g.1 g.2 k v := by
  simp only [State.plan, List.foldl_cons, first, List.nil_append]
  refine List.foldlRecOn (motive := fun x : State × List FldWrite => ∃ ps, x.2 = s.planFld f a h v :: ps ∧
    ∀ p ∈ ps, ∃ g ∈ fs, ∃ t : State, ∃ k, t.writable g.1 g.2 = some k ∧ p = t.planFld g.1 g.2 k v) _ _
    ⟨[], rfl, fun p hp => absurd hp List.not_mem_nil⟩ fun x hx g hg => ?_
  obtain ⟨ps, planned, each⟩ := hx
  split
  next k writes =>
    refine ⟨ps ++ [x.1.planFld g.1 g.2 k v], congrArg (· ++ _) planned, fun p hp => ?_⟩
    rcases List.mem_append.1 hp with old | new
    · exact each p old
    · exact ⟨g, hg, x.1, k, writes, List.mem_singleton.1 new⟩
  next => exact ⟨ps, planned, each⟩

theorem State.panLive_of_master {s : State} {die pan : Nat} (live : (s.pan pan).st ≠ .free)
    (master : (s.pan pan).master = die) : s.panLive (lIdx die pan) = some (lIdx die pan) :=
  if_pos ⟨live, master⟩

theorem State.panLive_none {s : State} {die pan : Nat} (dead : (s.pan pan).st = .free ∨ (s.pan pan).master ≠ die) :
    s.panLive (lIdx die pan) = none :=
  if_neg (fun h => dead.elim h.1 (fun ne => ne h.2))

/-! ## The write of a per-pan register (R382 to R388) -/

section Write

variable {s : State} {f : Fld} (pf : PanField f) {die pan : Nat}

include pf

/-- The fields of the register are per-pan fields of its block. -/
theorem PanField.of_register {g : Fld} (hg : g ∈ f.register) : (g.blk = .sch ∨ g.blk = .att) ∧ 0x1000 ≤ g.off := by
  rw [pf.first] at hg
  rcases List.mem_cons.1 hg with rfl | later
  · exact ⟨pf.blk, pf.perPan⟩
  · obtain ⟨blk, off, -⟩ := pf.beside g later
    exact ⟨blk ▸ pf.blk, off ▸ pf.perPan⟩

/-- What the fields beside the first do beside taking their values: nothing (R126, R155). -/
theorem PanField.afterFld_beside {p : FldWrite} (hp : p.fld ∈ f.register.tail) (s : State) : s.afterFld p = s := by
  obtain ⟨blk, -, -, -, -, rows, drop⟩ := pf.beside p.fld hp
  have field := pf.blk
  rw [← blk] at field
  rcases field with h | h
  · simp only [State.afterFld, h, rows, if_false]
  · simp only [State.afterFld, h, drop, if_false]

theorem PanField.applyFld_beside {p : FldWrite} (hp : p.fld ∈ f.register.tail) (s : State) :
    s.applyFld p = s.setF p.fld p.loc p.new := by
  obtain ⟨-, -, -, -, often, -⟩ := pf.beside p.fld hp
  exact s.applyFld_setF p often

variable (compute : die < 16) (small : pan < 256)

include compute small

/-- A write to a register that is not live changes nothing. -/
theorem State.csrWrite_of_dead (dead : s.panLive (lIdx die pan) = none) (o : Origin) (v : U64) :
    s.csrWrite o (csrOf f (lIdx die pan)) v = s := by
  have fields : ∀ g ∈ f.register.map (fun g => (g, lIdx die pan)), s.writable g.1 g.2 = none := fun x hx => by
    obtain ⟨g, hg, rfl⟩ := List.mem_map.1 hx
    obtain ⟨blk, perPan⟩ := pf.of_register hg
    rw [s.writable_pan blk perPan, dead, ite_self]
  simp only [State.csrWrite, regFields_pan pf compute small, s.plan_of_dead fields, List.isEmpty_nil, or_true, if_true]

/-- The plan of a live register: its first field, then fields beside it that take writes. -/
theorem State.plan_pan (live : s.panLive (lIdx die pan) = some (lIdx die pan)) (v : Nat) :
    ∃ ps, s.plan (regFields (csrOf f (lIdx die pan))) v = s.planFld f (lIdx die pan) (lIdx die pan) v :: ps ∧
      ∀ p ∈ ps, p.fld ∈ f.register.tail ∧ p.fld.acc ≠ .ro ∧ p.loc = lIdx die pan := by
  have writes : s.writable f (lIdx die pan) = some (lIdx die pan) := by
    rw [s.writable_pan pf.blk pf.perPan, live, pf.writes]
    rfl
  obtain ⟨ps, planned, each⟩ := s.plan_cons writes (f.register.tail.map (fun g => (g, lIdx die pan))) v
  refine ⟨ps, ?_, fun p hp => ?_⟩
  · rw [regFields_pan pf compute small, pf.first]
    exact planned
  · obtain ⟨x, hx, t, k, takes, rfl⟩ := each p hp
    obtain ⟨g, hg, rfl⟩ := List.mem_map.1 hx
    obtain ⟨blk, perPan⟩ := pf.of_register (List.mem_of_mem_tail hg)
    rw [t.writable_pan blk perPan] at takes
    rw [State.planFld_fld, State.planFld_loc]
    split at takes
    · exact absurd takes (Option.some_ne_none k).symm
    next takesWrites =>
      refine ⟨hg, fun ro => takesWrites (.inl ro), ?_⟩
      simp only [State.panLive] at takes
      split at takes
      · exact (Option.some.inj takes).symm
      · exact absurd takes (Option.some_ne_none k).symm

/-- An accepted write to a live register sets its first field, which then has its effect. Its read-only fields stay:
beside the register's fields, the write touches what its record may, at bits 0 and 16. -/
theorem State.csrWrite_pan {o : Origin} (live : s.panLive (lIdx die pan) = some (lIdx die pan)) (v : U64)
    (room : s.writeOpen o (csrOf f (lIdx die pan)) = true) :
    ∃ u : State, s.csrWrite o (csrOf f (lIdx die pan)) v =
        u.afterFld (s.planFld f (lIdx die pan) (lIdx die pan) v.toNat) ∧
      u.getF f (lIdx die pan) = (s.planFld f (lIdx die pan) (lIdx die pan) v.toNat).new % 2 ^ f.w ∧
      ∀ g : Fld, g.lsb < 64 → (g.lsb ≠ 0 ∧ g.lsb ≠ 16) → (∀ k ∈ f.register, k.acc = .ro ∨ k.lsb ≠ g.lsb) →
        u.getF g (lIdx die pan) = s.getF g (lIdx die pan) := by
  obtain ⟨ps, plan, each⟩ := State.plan_pan pf compute small live v.toNat
  obtain ⟨d, r, write⟩ := State.csrWrite_open room plan
  have often : f.acc ≠ .wo1 := by rw [pf.writes]; decide
  have apply (t : State) : t.applyFld (s.planFld f (lIdx die pan) (lIdx die pan) v.toNat) =
      t.setF f (lIdx die pan) (s.planFld f (lIdx die pan) (lIdx die pan) v.toNat).new := by
    rw [State.applyFld_setF _ _ (by rw [State.planFld_fld]; exact often), State.planFld_fld, State.planFld_loc]
  -- The fields beside the first, one after the other, leave a field of another lowest bit as it is.
  have keeps {g : Fld} (lsb : g.lsb < 64) (ne : ∀ p ∈ ps, p.fld.lsb ≠ g.lsb) (t : State) :
      (forEach ps t State.applyFld).getF g (lIdx die pan) = t.getF g (lIdx die pan) :=
    State.getF_forEach (fun t p hp => by
      obtain ⟨hg, -, -⟩ := each p hp
      obtain ⟨-, -, lsb', -⟩ := pf.beside p.fld hg
      rw [pf.applyFld_beside hg, t.getF_setF_of_lsb lsb' lsb (ne p hp)]) t
  refine ⟨forEach (s.planFld f (lIdx die pan) (lIdx die pan) v.toNat :: ps) (s.audit1 d r) State.applyFld, ?_, ?_, ?_⟩
  · have route : f.blk ≠ .route := by rcases pf.blk with h | h <;> rw [h] <;> decide
    rw [write]
    simp only [State.applyPlan, State.planFld_fld, route, false_and, if_false]
    rw [forEach, List.foldl_cons]
    exact List.foldlRecOn (motive := fun t => t = State.afterFld _ _) _ _ rfl
      fun t same p hp => (pf.afterFld_beside (each p hp).1 t).trans same
  · rw [forEach, List.foldl_cons, apply, ← forEach, keeps pf.lsb, State.getF_setF_self]
    intro p hp
    obtain ⟨hg, -⟩ := each p hp
    obtain ⟨-, -, -, ne, -⟩ := pf.beside p.fld hg
    exact ne
  · intro g lsb apart readOnly
    have first : f.lsb ≠ g.lsb := (readOnly f (pf.first ▸ List.mem_cons_self)).resolve_left (by rw [pf.writes]; decide)
    rw [forEach, List.foldl_cons, apply, ← forEach, keeps lsb, State.getF_setF_of_lsb _ pf.lsb lsb first,
      s.getF_audit1_of_lsb lsb apart]
    intro p hp
    obtain ⟨hg, takes, -⟩ := each p hp
    exact (readOnly p.fld (List.mem_of_mem_tail hg)).resolve_left takes

end Write

end Sys2Proof.Machine
end

section
/-! The rows of SCH_SPLIT and ATT_PMODE. -/

namespace Sys2Proof.Machine

/-- A field without a rule of its own is planned at its written value, clamped to its range (R383). -/
theorem State.planFld_clamp (s : State) {f : Fld} (a h : Loc) (v : Nat) (writes : f.acc = .rw)
    (plain : ownEffect f = false ∧ f.blk ≠ .hcx) (clamps : s.clampFld f h (bits v (f.lsb + f.w - 1) f.lsb) =
      f.clamp (bits v (f.lsb + f.w - 1) f.lsb)) :
    (s.planFld f a h v).new = f.clamp (bits v (f.lsb + f.w - 1) f.lsb) := by
  have base : s.fixedBase f h = false := by
    have other {g : Fld} (hg : g.blk = .hcx) : (f == g) = false := by
      rw [beq_eq_false_iff_ne]
      rintro rfl
      exact plain.2 hg
    rw [State.fixedBase, other rfl, other rfl]
    rfl
  simp only [State.planFld, writes, plain.1, base, Bool.or_self, Bool.false_eq_true, if_false, clamps]

/-- SCH_SPLIT.ROWS is held between 128 and 65,536 (R126). -/
theorem State.planFld_rows (s : State) (a h : Loc) (v : Nat) :
    (s.planFld R.SCH_SPLIT_ROWS a h v).new = min (max (v % 2 ^ 17) 128) 65536 := by
  rw [s.planFld_clamp a h v rfl (by decide) rfl]
  simp only [Fld.clamp, R.SCH_SPLIT_ROWS, bits, pow_zero, Nat.div_one]
  rfl

theorem State.planFld_drop (s : State) (a h : Loc) (v : Nat) :
    (s.planFld R.ATT_PMODE_DROP a h v).new = v % 2 := by
  rw [s.planFld_clamp a h v rfl (by decide) rfl]
  simp only [Fld.clamp, R.ATT_PMODE_DROP, bits, pow_zero, Nat.div_one]
  rfl

/-- A change of the rows is pending until the boundary (R126). -/
theorem State.afterFld_rows (s : State) {p : FldWrite} (rows : p.fld = R.SCH_SPLIT_ROWS) :
    s.afterFld p = s.setF R.SCH_SPLIT_PENDING p.loc 1 := by
  simp only [State.afterFld, rows]
  rfl

/-- A drop mode that differs from the one in force is pending until the boundary (R155). -/
theorem State.afterFld_drop (s : State) {p : FldWrite} (drop : p.fld = R.ATT_PMODE_DROP) :
    s.afterFld p = s.setB R.ATT_PMODE_PENDING p.loc (decide (p.new ≠ s.getF R.ATT_PMODE_EFFECTIVE p.loc)) := by
  simp only [State.afterFld, drop]
  rfl

theorem State.getB_setB_self (s : State) {f : Fld} (bit : f.w = 1) (a : Loc) (b : Bool) :
    (s.setB f a b).getB f a = b := by
  rw [State.getB, State.setB, State.getF_setF_self, bit]
  cases b <;> rfl

/-- What a write of a register may change. -/
def Part.write : Parts :=
  { free := true, csr := true, wo1 := true, grains := true, fab := true, col := true, hcx := true, audit := true
    clk := true, obsv := true }

/-- A write of a register leaves memory, schedulers and sequences as they are. -/
theorem State.csrWrite_frame (s : State) (o : Origin) (csr : Nat) (v : U64) :
    (s.csrWrite o csr v).mem = s.mem ∧ (s.csrWrite o csr v).sch = s.sch ∧ (s.csrWrite o csr v).att = s.att := by
  obtain ⟨-, -, -, -, -, mem, -, -, -, -, sch, att, -⟩ := State.outside_eq_iff.1
    (State.csrWrite_outside (P := Part.write) rfl rfl rfl rfl rfl rfl rfl rfl rfl rfl s o csr v)
  exact ⟨mem rfl, sch rfl, att rfl⟩

section Rows

variable {die pan : Nat} (compute : die < 16) (small : pan < 256) (s : State) (o : Origin) (v : U64)

include compute small

theorem exec_schSplitWrite :
    exec (.schSplitWrite o die pan v) s = .next (s.csrWrite o (csrOf R.SCH_SPLIT_ROWS (lIdx die pan)) v) :=
  if_pos (by simp only [isCompute, compute, small, decide_true, Bool.and_self])

theorem exec_attPmodeWrite :
    exec (.attPmodeWrite o die pan v) s = .next (s.csrWrite o (csrOf R.ATT_PMODE_DROP (lIdx die pan)) v) :=
  if_pos (by simp only [isCompute, compute, small, decide_true, Bool.and_self])

end Rows

/-- Settles O10: an accepted write sets the first field of its register, and its effect is PENDING; a register that is
not live takes nothing. That ROWS reads the written value while PENDING is the model's reading (log 54). -/
theorem panRegisterRows : Obligations.PanRegisterRows := by
  unfold Obligations.PanRegisterRows
  refine ⟨?rows, ?drop, ?dead⟩
  case rows =>
    intro s o die pan v compute small live master room
    obtain ⟨mem, sch, -⟩ := s.csrWrite_frame o (csrOf R.SCH_SPLIT_ROWS (lIdx die pan)) v
    obtain ⟨u, write, rows, -⟩ := State.csrWrite_pan panField_SCH_SPLIT_ROWS compute small
      (State.panLive_of_master live master) v room
    refine ⟨_, exec_schSplitWrite compute small s o v, mem, sch, ?_⟩
    rw [write, u.afterFld_rows (State.planFld_fld ..), State.planFld_loc]
    refine ⟨?_, u.getF_setF_self ..⟩
    rw [u.getF_setF_of_lsb (by decide) (by decide) (by decide), rows, State.planFld_rows]
    exact Nat.mod_eq_of_lt (lt_of_le_of_lt (min_le_right _ _) (by decide))
  case drop =>
    intro s o die pan v compute small live master room
    obtain ⟨mem, -, att⟩ := s.csrWrite_frame o (csrOf R.ATT_PMODE_DROP (lIdx die pan)) v
    obtain ⟨u, write, drop, stays⟩ := State.csrWrite_pan panField_ATT_PMODE_DROP compute small
      (State.panLive_of_master live master) v room
    refine ⟨_, exec_attPmodeWrite compute small s o v, mem, att, ?_⟩
    rw [write, u.afterFld_drop (State.planFld_fld ..), State.planFld_loc, State.planFld_drop]
    constructor
    · rw [State.setB, u.getF_setF_of_lsb (by decide) (by decide) (by decide), drop, State.planFld_drop]
      exact Nat.mod_mod v.toNat 2
    · rw [State.getB_setB_self _ rfl, stays R.ATT_PMODE_EFFECTIVE (by decide) (by decide) (by decide)]
  case dead =>
    intro s o die pan v compute small dead
    rw [exec_schSplitWrite compute small, exec_attPmodeWrite compute small,
      State.csrWrite_of_dead panField_SCH_SPLIT_ROWS compute small (State.panLive_none dead),
      State.csrWrite_of_dead panField_ATT_PMODE_DROP compute small (State.panLive_none dead)]
    exact ⟨rfl, rfl⟩

end Sys2Proof.Machine
end

section
/-! The rows of JOB_CREATE, JOB_START, JOB_STOP, JOB_DESTROY, INDEX_QUARANTINE_EXPIRY and SEQ_CANCEL. -/

namespace Sys2Proof.Machine

section Commands

variable {s : State} {r : CmdRef} {c : Cmd} (taken : s.cmdOf r = some c) (may : s.mayBegin c = true)

include taken may

/-- The row of a taken command that may begin ends in what the command does. -/
theorem State.next_onCmd {op : Nat} {f : Cmd → State → State} {t : State} (code : c.op = op) (does : f c s = t) :
    (.next (s.onCmd r op f) : Out) = .next t := by
  rw [s.onCmd_now r op f c taken code may, does]

/-! ## JOB_CREATE (R349) -/

theorem exec_jobCreate_of_none (code : c.op = 0x04) (full : s.freeJob = none) :
    exec (.jobCreate r) s = .next (s.finish c 0x02 0 0) :=
  State.next_onCmd taken may code (by rw [full]; rfl)

theorem exec_jobCreate_of_limit (code : c.op = 0x04) {i : Nat} (free : s.freeJob = some i)
    (limit : s.getF R.HCX_CLIENT_MAXJOBS (lKeepI c.client) ≤ s.clientJobs c.client) :
    exec (.jobCreate r) s = .next (s.finish c 0x02 0 0) :=
  State.next_onCmd taken may code (by rw [free]; exact if_pos limit)

theorem exec_jobCreate_of_room (code : c.op = 0x04) {i : Nat} (free : s.freeJob = some i)
    (room : s.clientJobs c.client < s.getF R.HCX_CLIENT_MAXJOBS (lKeepI c.client)) :
    exec (.jobCreate r) s = .next
      (((s.setJob i { st := (s.job i).st, gen := max (s.job i).gen 1, client := c.client
                      seed := BitVec.ofNat 64 (fieldAt c.params 0 8), share := bit (fieldAt c.params 8 1) 0 }).jobTo i
        .created).finish c 0x00 i (max (s.job i).gen 1)) :=
  State.next_onCmd taken may code (by rw [free]; exact if_neg (Nat.not_le_of_lt room))

/-! ## JOB_START and JOB_STOP (R347, R348) -/

theorem exec_jobStart_of_fenced (code : c.op = 0x05) (hold : (s.job c.job).st = .stepHold)
    (fenced : ∀ p ∈ s.jobPans c.job, (s.pan p).st = .fenced) :
    exec (.jobStart r) s = .next ((forEach ((s.jobTo c.job .running).jobPans c.job) (s.jobTo c.job .running)
      State.startPan).finish c 0x00 0 0) := by
  have all : (s.jobPans c.job).all (fun p => decide ((s.pan p).st = .fenced)) = true := by
    simpa only [List.all_eq_true, decide_eq_true_eq] using fenced
  refine State.next_onCmd taken may code (if_neg ?_)
  simp only [hold, all, ne_eq, not_true_eq_false, Bool.not_true, Bool.false_eq_true, or_self, not_false_eq_true]

theorem exec_jobStart_refused (code : c.op = 0x05) (other : (s.job c.job).st ≠ .stepHold) :
    exec (.jobStart r) s = .next (s.finish c 0x06 0 0) :=
  State.next_onCmd taken may code (if_pos (.inl other))

theorem exec_jobStop_of_running (code : c.op = 0x06) (runs : (s.job c.job).st = .running) :
    exec (.jobStop r) s = .next
      (((((s.jobTo c.job .stepHold).quiesceJob c.job).modJob c.job
        (fun b => { b with stopCmd := some r })).beginCmd c).stopIfReady c.job) :=
  State.next_onCmd taken may code (if_pos runs)

/-- A job that does not run, and whose pans do not quiesce, has stopped already (log 62). -/
theorem exec_jobStop_of_stopped (code : c.op = 0x06) (rests : (s.job c.job).st ≠ .running)
    (still : ∀ p ∈ s.jobPans c.job, (s.pan p).st ≠ .quiescing) :
    exec (.jobStop r) s = .next (s.finish c 0x00 0 0) := by
  have settled : (s.jobPans c.job).any (fun p => decide ((s.pan p).st = .quiescing)) = false := by
    simpa only [List.any_eq_false, decide_eq_true_eq] using still
  refine State.next_onCmd taken may code ((if_neg rests).trans (if_neg ?_))
  rw [settled]
  exact Bool.false_ne_true

/-! ## JOB_DESTROY (R348, R350) -/

theorem exec_jobDestroy_of_counts (code : c.op = 0x07) (first : (s.job c.job).destroyCmd = none)
    (counts : (s.job c.job).counts = true) :
    exec (.jobDestroy r) s = .next
      (((((s.modJob c.job (fun b => { b with destroyCmd := some r })).beginCmd c).spinWorlds c.job).quiesceJob
        c.job).destroyIfReady c.job) :=
  State.next_onCmd taken may code (by dsimp only; rw [first, counts]; rfl)

theorem exec_jobDestroy_stale (code : c.op = 0x07) (first : (s.job c.job).destroyCmd = none)
    (gone : (s.job c.job).counts = false) : exec (.jobDestroy r) s = .next (s.finish c 0x03 0 0) :=
  State.next_onCmd taken may code (by dsimp only; rw [first, gone]; rfl)

/-! ## SEQ_CANCEL (R138) -/

theorem exec_seqCancel_of_named (code : c.op = 0x11) (live : (s.seq (fieldAt c.params 0 2)).live = true)
    (gen : (s.seq (fieldAt c.params 0 2)).gen = fieldAt c.params 2 4)
    (own : (s.pan (s.seq (fieldAt c.params 0 2)).pan).job = c.job) :
    exec (.seqCancel r) s = .next ((s.cancelSeq (fieldAt c.params 0 2)).finish c 0x00 0 0) := by
  refine State.next_onCmd taken may code (if_neg ?_)
  simp only [live, gen, own, ne_eq, not_true_eq_false, Bool.not_true, Bool.false_eq_true, or_self, not_false_eq_true]

theorem exec_seqCancel_stale (code : c.op = 0x11)
    (stale : (s.seq (fieldAt c.params 0 2)).gen ≠ fieldAt c.params 2 4) :
    exec (.seqCancel r) s = .next
      ((s.bump R.ATT_WALK_STALE (lDie (s.pan (s.seq (fieldAt c.params 0 2)).pan).master)).finish c 0x03 0 0) :=
  State.next_onCmd taken may code (if_pos (.inr (.inl stale)))

end Commands

/-! ## INDEX_QUARANTINE_EXPIRY (R347, R348) -/

section Quarantine

variable {s : State} {i : Nat} (small : i < 256)

include small

theorem exec_indexQuarantineExpiry_job (gone : (s.job i).counts = false) (quarantined : (s.job i).quarAt ≠ 0) :
    exec (.indexQuarantineExpiry true i) s =
      .next ((s.until (s.job i).quarAt).setJob i { s.job i with quarAt := 0 }) := by
  refine (if_pos (decide_eq_true small)).trans (congrArg Host.Outcome.next ((if_pos rfl).trans (if_neg ?_)))
  simp only [gone, quarantined, Bool.false_eq_true, or_self, not_false_eq_true]

theorem exec_indexQuarantineExpiry_pan (free : (s.pan i).st = .free) (quarantined : (s.pan i).quarAt ≠ 0) :
    exec (.indexQuarantineExpiry false i) s =
      .next ((s.until (s.pan i).quarAt).setPan i { s.pan i with quarAt := 0 }) := by
  refine (if_pos (decide_eq_true small)).trans (congrArg Host.Outcome.next
    ((if_neg Bool.false_ne_true).trans (if_neg ?_)))
  simp only [free, quarantined, ne_eq, not_true_eq_false, or_self, not_false_eq_true]

end Quarantine

/-- Settles O37: each part is what the lemmas above say of its row. That JOB_STOP of a job which does not run, and
whose pans do not quiesce, completes with OK, and that JOB_START needs each pan FENCED, are the model's choices
(log 62). -/
theorem jobRows : Obligations.JobRows := by
  unfold Obligations.JobRows
  refine ⟨fun s r c taken may => ⟨?full, ?create, ?start, ?stop, ?destroy⟩,
    fun s i small => ⟨exec_indexQuarantineExpiry_job small, exec_indexQuarantineExpiry_pan small⟩,
    fun s r c taken code may => ⟨exec_seqCancel_of_named taken may code, exec_seqCancel_stale taken may code⟩⟩
  case full => exact exec_jobCreate_of_none taken may
  case create =>
    intro i code free
    exact ⟨exec_jobCreate_of_limit taken may code free, exec_jobCreate_of_room taken may code free⟩
  case start =>
    intro code
    exact ⟨exec_jobStart_of_fenced taken may code, exec_jobStart_refused taken may code⟩
  case stop =>
    intro code
    exact ⟨exec_jobStop_of_running taken may code, exec_jobStop_of_stopped taken may code⟩
  case destroy =>
    intro code first
    exact ⟨exec_jobDestroy_of_counts taken may code first, exec_jobDestroy_stale taken may code first⟩

end Sys2Proof.Machine
end

section
/-! The rows of DISCRETE_DRAW and CONTINUOUS_DRAW. -/

namespace Sys2Proof.Machine

theorem State.kind_of_hasStation {s : State} {pan station kind : Nat} {st : StationDecl}
    (has : s.hasStation pan station kind = true) (decl : (s.pan pan).station station = some st) : st.kind = kind := by
  simpa only [State.hasStation, decl, beq_iff_eq] using has

/-- An operation that may issue runs with the entry it takes, and the entry is freed. -/
theorem State.withEntry_takes {s u : State} {die pan mb slice tag : Nat} {d : StationDecl}
    (f : Nat → State → State) (may : s.mayIssue die pan d mb slice = true)
    (entry : s.takeEntry die { pan := pan, step := (s.pan pan).step, station := d.idx, mb := mb, slice := slice }
      = some (tag, u)) : s.withEntry die pan d mb slice f = (f tag u).freeEntry die (tag % 4096) :=
  State.issueEntry_takes _ may entry

section Draw

variable {s : State} {pan station : Nat} {st : StationDecl}

theorem exec_discreteDraw_of_station (has : s.hasStation pan station 6 = true) :
    exec (.discreteDraw pan station) s = .next (s.sampleNext pan station true) :=
  if_pos has

theorem exec_continuousDraw_of_station (has : s.hasStation pan station 6 = true) :
    exec (.continuousDraw pan station) s = .next (s.sampleNext pan station false) :=
  if_pos has

variable (decl : (s.pan pan).station station = some st)

include decl

/-- A station whose descriptor is of the other kind draws nothing, whatever waits in its stream. -/
theorem State.sampleNext_of_other_kind {disc : Bool} (other : ((s.sampleDesc st).kind == 0) ≠ disc) :
    s.sampleNext pan station disc = s := by
  simp only [State.sampleNext, decl, other, false_and, and_false, if_false]
  split
  · rfl
  · split <;> rfl

/-- A station whose descriptor is of the kind drawn takes the next row off its stream and draws it, with an entry that
it frees, when outputs, sieve and scoreboard let it (R113, R114, R169). -/
theorem State.sampleNext_draws {u : State} {i tag mb n : Nat} {sd : StreamDecl} {r : Row} {disc : Bool}
    (kind : st.kind = 6) (input : st.inputs.head? = some i) (stream : (s.pan pan).stream i = some sd)
    (next : (s.pan pan).nextDraw st = (mb, n)) (waits : rowNumbered (s.rows pan sd.idx) station mb n = some r)
    (outs : s.outsReady pan st = true) (serves : s.unitOut (sieveOf st r).1 0x20 (sieveOf st r).2.1 = false)
    (may : s.mayIssue (sieveOf st r).1 pan st mb r.hdr.slice = true)
    (entry : s.takeEntry (sieveOf st r).1
      { pan := pan, step := (s.pan pan).step, station := st.idx, mb := mb, slice := r.hdr.slice } = some (tag, u))
    (same : ((s.sampleDesc st).kind == 0) = disc) :
    s.sampleNext pan station disc =
      ((u.takeThe pan sd.idx station sd (fun x => x.hdr.mb == mb && rowNum x == n)).drawRow pan st
        (s.sampleDesc st) tag r).freeEntry (sieveOf st r).1 (tag % 4096) := by
  simp only [State.sampleNext, decl, input, Option.bind_some, stream, next, waits, kind, same, outs, serves,
    Bool.not_false, and_self, if_true, State.withEntry_takes _ may entry]

end Draw

/-- Settles O18: the command of the descriptor's kind draws the row. That a command of the other kind leaves the state
as it is, is the model's choice (log 12). -/
theorem sampleRows : Obligations.SampleRows := by
  unfold Obligations.SampleRows
  intro s u pan station i tag st sd r has decl input stream at_ waits outs die serves may entry drawn
  have draws {disc : Bool} (same : ((s.sampleDesc st).kind == 0) = disc) : s.sampleNext pan station disc = drawn :=
    State.sampleNext_draws decl (State.kind_of_hasStation has decl) input stream rfl waits outs serves may entry same
  rw [exec_discreteDraw_of_station has, exec_continuousDraw_of_station has]
  refine ⟨fun discrete => ?_, fun continuous => ?_⟩
  · have isDiscrete : ((s.sampleDesc st).kind == 0) = true := beq_iff_eq.2 discrete
    rw [draws isDiscrete, State.sampleNext_of_other_kind decl (by rw [isDiscrete]; decide)]
    exact ⟨rfl, rfl⟩
  · have isContinuous : ((s.sampleDesc st).kind == 0) = false := beq_eq_false_iff_ne.2 continuous
    rw [draws isContinuous, State.sampleNext_of_other_kind decl (by rw [isContinuous]; decide)]
    exact ⟨rfl, rfl⟩

end Sys2Proof.Machine
end

section
/-! The rows of WHOLE_LOAD, PER_PAN_LOAD, RESIZE, IMAGE_LOAD, KEY_LOAD and LOCK. -/

namespace Sys2Proof.Machine

/-- A value that is already what it would be clamped to leaves the command and the state as they are (R344). -/
theorem State.clampCmd_self (s : State) (c : Cmd) (off v : Nat) : s.clampCmd c off v v = (c, s) :=
  if_pos rfl

section Commands

variable {s : State} {r : CmdRef} {c : Cmd} (taken : s.cmdOf r = some c) (may : s.mayBegin c = true)

include taken may

/-! ## BITSTREAM_LOAD (R352, R378 to R380) -/

section Load

variable (code : c.op = 0x01) {i : Image}

include code

theorem exec_wholeLoad_refused (whole : c.loadPan = 0xFF) {f : LoadFail} (fails : s.wholeFail i c.loadLen = some f) :
    exec (.wholeLoad r i) s = .next (s.loadRefused c i 0xFF f) :=
  State.next_onCmd taken may code ((if_neg (not_not_intro whole)).trans (by rw [fails]))

theorem exec_wholeLoad_passed (whole : c.loadPan = 0xFF) (passes : s.wholeFail i c.loadLen = none)
    (untested : s.underTest (imageContent i).1.pans = false) :
    exec (.wholeLoad r i) s = .next
      ((((s.loadPassed c i 0xFF (imageContent i).2).applyWhole (cmdOrigin r) (imageContent i).1).keepDigest i).finish
        (c.withClamps (imageContent i)) 0x00 0 0) :=
  State.next_onCmd taken may code ((if_neg (not_not_intro whole)).trans (by
    rw [passes]; exact if_neg (ne_true_of_eq_false untested)))

variable (one : c.loadPan ≠ 0xFF)

include one

theorem exec_perPanLoad_refused (load : c.resizes = false) {f : LoadFail}
    (fails : s.perPanFail i c.loadLen c.loadPan c.job = some f) :
    exec (.perPanLoad r i) s = .next (s.loadRefused c i c.job f) :=
  State.next_onCmd taken may code ((if_neg (by simp [one, load])).trans (by rw [fails]))

theorem exec_perPanLoad_passed (load : c.resizes = false)
    (passes : s.perPanFail i c.loadLen c.loadPan c.job = none)
    (untested : s.underTest (imageContent i).1.pans = false) :
    exec (.perPanLoad r i) s = .next
      ((forEach (imageContent i).1.pans (s.loadPassed c i c.job (imageContent i).2) (fun s (d : PanDecl) =>
        s.applyPerPan (cmdOrigin r) (imageContent i).1 d)).finish (c.withClamps (imageContent i)) 0x00 0 0) :=
  State.next_onCmd taken may code ((if_neg (by simp [one, load])).trans (by
    rw [passes]; exact if_neg (ne_true_of_eq_false untested)))

theorem exec_resize_refused (resizes : c.resizes = true) (first : (s.pan c.loadPan).resize = none) {f : LoadFail}
    (fails : s.resizeFail i c.loadLen c.loadPan c.job = some f) :
    exec (.resize r i) s = .next (s.loadRefused c i c.job f) :=
  State.next_onCmd taken may code ((if_neg (by simp [one, resizes, first])).trans (by rw [fails]))

theorem exec_resize_passed (resizes : c.resizes = true) (first : (s.pan c.loadPan).resize = none)
    (passes : s.resizeFail i c.loadLen c.loadPan c.job = none)
    (untested : s.underTest (imageContent i).1.pans = false) :
    exec (.resize r i) s = .next
      ((s.loadPassed c i c.job (imageContent i).2).beginResize (c.withClamps (imageContent i)) (imageContent i).1) :=
  State.next_onCmd taken may code ((if_neg (by simp [one, resizes, first])).trans (by
    rw [passes]; exact if_neg (ne_true_of_eq_false untested)))

end Load

/-! ## IMAGE_LOAD (R195, R200) -/

section ImageLoad

variable (code : c.op = 0x02) (idle : s.epc.img = none) {w : WSet} (set : s.wset (fieldAt c.params 16 1) = some w)
  {h : List Byte}

include code idle set

theorem exec_imageLoad_stale (foreign : w.job ≠ c.job) : exec (.imageLoad r h) s = .next (s.finish c 0x03 0 0) := by
  refine State.next_onCmd taken may code ((if_neg (by simp [idle])).trans ?_)
  dsimp only
  rw [set]
  exact if_pos foreign

variable (own : w.job = c.job)

include own

theorem exec_imageLoad_copies (copy : fieldAt c.params 17 1 ≠ 0xFF) :
    exec (.imageLoad r h) s =
      .next (s.copyBase c (fieldAt c.params 16 1) (fieldAt c.params 17 1) w) := by
  refine State.next_onCmd taken may code ((if_neg (by simp [idle])).trans ?_)
  dsimp only
  rw [set]
  exact (if_neg (not_not_intro own)).trans (if_pos copy)

variable (load : fieldAt c.params 17 1 = 0xFF)

include load

theorem exec_imageLoad_refused {e : Nat}
    (fails : s.headerFail (fitTo 512 h) (fieldAt c.params 8 8) (fieldAt c.params 16 1) (hdrPart c.params 18 8) w
      = some e) :
    exec (.imageLoad r h) s = .next (s.imageRefused c (fieldAt c.params 16 1) e w) := by
  refine State.next_onCmd taken may code ((if_neg (by simp [idle])).trans ?_)
  dsimp only
  rw [set]
  exact (if_neg (not_not_intro own)).trans ((if_neg (not_not_intro load)).trans (by rw [fails]))

theorem exec_imageLoad_begins
    (passes : s.headerFail (fitTo 512 h) (fieldAt c.params 8 8) (fieldAt c.params 16 1) (hdrPart c.params 18 8) w
      = none) :
    exec (.imageLoad r h) s = .next
      (s.imageBegin c (fieldAt c.params 16 1) (fitTo 512 h) ((contentKey (fitTo 512 h)).getD []) w) := by
  refine State.next_onCmd taken may code ((if_neg (by simp [idle])).trans ?_)
  dsimp only
  rw [set]
  exact (if_neg (not_not_intro own)).trans ((if_neg (not_not_intro load)).trans (by rw [passes]))

end ImageLoad

/-! ## KEY_LOAD (R389) and LOCK (R384) -/

section KeyLoad

variable (code : c.op = 0x03) (lo : 1 ≤ fieldAt c.params 12 1) (hi : fieldAt c.params 12 1 ≤ 4) {b : List Byte}

include code lo hi

theorem exec_keyLoad_refused
    (keyless : s.blobKey (fieldAt c.params 12 1) (b.take (fieldAt c.params 8 4)) = none) :
    exec (.keyLoad r b) s = .next ((s.bump R.SEC_KEYS_FAILS (lDie 16)).finish c 0x06 0 0) := by
  refine State.next_onCmd taken may code ?_
  dsimp only
  rw [if_pos ⟨lo, hi⟩, s.clampCmd_self, keyless]
  rfl

theorem exec_keyLoad_adds {k : KeySlot}
    (key : s.blobKey (fieldAt c.params 12 1) (b.take (fieldAt c.params 8 4)) = some k)
    (free : s.freeKey.isSome = true) :
    exec (.keyLoad r b) s = .next ((s.addKey (cmdOrigin r) k).finish c 0x00 0 0) := by
  refine State.next_onCmd taken may code ?_
  dsimp only
  rw [if_pos ⟨lo, hi⟩, s.clampCmd_self, key]
  exact if_neg (by rw [Option.isNone_eq_false_iff.2 free]; exact Bool.false_ne_true)

end KeyLoad

theorem exec_lock_answers (code : c.op = 0x15) :
    exec (.lock r) s = .next ((s.lockBlocks (cmdOrigin r) (fieldAt c.params 0 4)).finish c 0x00
      (s.newLocks (fieldAt c.params 0 4)).length 0) :=
  State.next_onCmd taken may code rfl

end Commands

/-- Settles O36: each part is what the lemmas above say of its row. -/
theorem loadRows : Obligations.LoadRows := by
  unfold Obligations.LoadRows
  refine ⟨fun s r i c taken code may => ⟨?whole, ?perPan, ?resize⟩,
    fun s r h c w taken code may idle set => ⟨?stale, ?copy, ?image⟩,
    fun s r b c taken code may lo hi => ⟨?noKey, ?key⟩, fun s r c taken code may => ?lock⟩
  case whole =>
    intro whole
    exact ⟨fun _ => exec_wholeLoad_refused taken may code whole, exec_wholeLoad_passed taken may code whole⟩
  case perPan =>
    intro one load
    exact ⟨fun _ => exec_perPanLoad_refused taken may code one load, exec_perPanLoad_passed taken may code one load⟩
  case resize =>
    intro one resizes first
    exact ⟨fun _ => exec_resize_refused taken may code one resizes first,
      exec_resize_passed taken may code one resizes first⟩
  case stale => exact exec_imageLoad_stale taken may code idle set
  case copy => exact exec_imageLoad_copies taken may code idle set
  case image =>
    intro own load
    split
    · next e fails => exact exec_imageLoad_refused taken may code idle set own load fails
    · next passes => exact exec_imageLoad_begins taken may code idle set own load passes
  case noKey => exact exec_keyLoad_refused taken may code lo hi
  case key => exact fun _ => exec_keyLoad_adds taken may code lo hi
  case lock => exact exec_lock_answers taken may code

end Sys2Proof.Machine
end

section
/-! The rows of WORLD_ATTACH, WORLD_STOP, WORLD_DETACH, PUBLISH, RETRACT and SNAPSHOT. -/

namespace Sys2Proof.Machine

/-- An epoch in a state other than FREE has an entry in the table, which bears that state. -/
theorem WSet.entry_of_stateOf {w : WSet} {e : Nat} {st : EpochRun} (is : w.stateOf e = st) (held : st ≠ .free) :
    ∃ t, w.entry e = some t ∧ t.st = st := by
  unfold WSet.stateOf at is
  split at is
  · next t entry => exact ⟨t, entry, is⟩
  · exact absurd is.symm held

/-- A job's weight set and an epoch it has issued make a name that is not stale (R344). -/
theorem WSet.names_issued {w : WSet} {job e : Nat} (own : w.job = job) (numbered : e ≠ 0) (issued : e < w.next) :
    ¬ (w.job ≠ job ∨ e = 0 ∨ w.next ≤ e) := by
  simp only [own, numbered, Nat.not_le_of_lt issued, ne_eq, not_true_eq_false, or_self, not_false_eq_true]

section Commands

variable {s : State} {r : CmdRef} {c : Cmd} (taken : s.cmdOf r = some c) (may : s.mayBegin c = true)

include taken may

/-! ## WORLD_ATTACH (R328) -/

theorem exec_worldAttach_of_sched {d : WorldSched} (code : c.op = 0x08)
    (sched : mget s.wpt.scheds (c.job * 65536 + fieldAt c.params 0 2) = some d)
    (used : (s.pan (fieldAt c.params 2 1)).st ≠ .free) (own : (s.pan (fieldAt c.params 2 1)).job = c.job)
    (port : d.live = false) : exec (.worldAttach r) s = .next (s.attachWorld c d (fieldAt c.params 2 1)) := by
  refine State.next_onCmd taken may code ?_
  dsimp only
  rw [sched]
  exact if_neg (by simp [used, own, port])

theorem exec_worldAttach_of_none (code : c.op = 0x08)
    (sched : mget s.wpt.scheds (c.job * 65536 + fieldAt c.params 0 2) = none) :
    exec (.worldAttach r) s = .next (s.finish c 0x06 0 0) :=
  State.next_onCmd taken may code (by dsimp only; rw [sched]; rfl)

/-! ## WORLD_STOP and WORLD_DETACH (R328) -/

section Named

variable {w : World} (named : s.namedWorld c = some w)

include named

theorem exec_worldStop_of_served (code : c.op = 0x09) (served : w.st = .running ∨ w.st = .holding) :
    exec (.worldStop r) s = .next
      (((s.beginCmd c).modWorld (fieldAt c.params 0 2)
        (fun w => { w with stopCmds := w.stopCmds ++ [c.ref] })).spinWorld (fieldAt c.params 0 2)) := by
  refine State.next_onCmd taken may code ?_
  dsimp only
  rw [named]
  obtain running | holding := served
  · simp only [running]
  · simp only [holding]

theorem exec_worldStop_of_stopped (code : c.op = 0x09) (stopped : w.st = .stopped) :
    exec (.worldStop r) s = .next (s.finish c 0x00 0 0) := by
  refine State.next_onCmd taken may code ?_
  dsimp only
  rw [named]
  simp only [stopped]
  rfl

theorem exec_worldDetach_of_named (code : c.op = 0x0A) :
    exec (.worldDetach r) s = .next
      (if w.st = .stopped then (s.detachWorld (fieldAt c.params 0 2)).finish c 0x00 0 0
       else s.finish c 0x06 0 0) :=
  State.next_onCmd taken may code (by rw [named]; rfl)

end Named

theorem exec_worldStop_of_unnamed (unnamed : s.namedWorld c = none) (code : c.op = 0x09) :
    exec (.worldStop r) s = .next (s.finish c 0x03 0 0) :=
  State.next_onCmd taken may code (by dsimp only; rw [unnamed]; rfl)

theorem exec_worldDetach_of_unnamed (unnamed : s.namedWorld c = none) (code : c.op = 0x0A) :
    exec (.worldDetach r) s = .next (s.finish c 0x03 0 0) :=
  State.next_onCmd taken may code (by rw [unnamed]; rfl)

/-! ## PUBLISH, RETRACT and SNAPSHOT (R182, R202, R346) -/

variable {w : WSet} (set : s.wset (fieldAt c.params 0 1) = some w)

include set

theorem exec_publish_of_pan (own : w.job = c.job) {p : Nat} (code : c.op = 0x0B)
    (pan : s.commandedPan c.job (fieldAt c.params 0 1) = some p) :
    exec (.publish r) s = .next ((s.modPan p (fun b => { b with pubReleased := true })).beginCmd c) := by
  refine State.next_onCmd taken may code ?_
  dsimp only
  rw [set, pan]
  exact if_neg (not_not_intro own)

theorem exec_retract_stale (untaken : w.next ≤ fieldAt c.params 1 4) (code : c.op = 0x0C) :
    exec (.retract r) s = .next (s.finish c 0x03 0 0) := by
  refine State.next_onCmd taken may code ?_
  dsimp only
  rw [set]
  exact if_pos (.inr (.inr untaken))

theorem exec_snapshot_stale (untaken : w.next ≤ fieldAt c.params 1 4) (code : c.op = 0x0D) :
    exec (.snapshot r) s = .next (s.finish c 0x03 0 0) := by
  refine State.next_onCmd taken may code ?_
  dsimp only
  rw [set]
  exact if_pos (.inr (.inr untaken))

section Epoch

variable (own : w.job = c.job) (numbered : fieldAt c.params 1 4 ≠ 0) (issued : fieldAt c.params 1 4 < w.next)

include own numbered issued

/-- A RETRACT by a device that is not the epoch's publisher tells the others (log 47), with the bytes of log 64. -/
theorem exec_retract_of_open (code : c.op = 0x0C)
    (isOpen : w.stateOf (fieldAt c.params 1 4) = .draft ∨ w.stateOf (fieldAt c.params 1 4) = .provisional) :
    exec (.retract r) s = .next
      (((if (w.entry (fieldAt c.params 1 4)).any (fun t => !t.own) = true then
          s.epochSend w 0 (EpochChange.bytes
            { epoch := fieldAt c.params 1 4, st := EpochRun.retracted.code, cause := 5 } (fieldAt c.params 0 1))
         else s).retractEpoch (fieldAt c.params 0 1) (fieldAt c.params 1 4) 5).finish c 0x00 0 0) := by
  refine State.next_onCmd taken may code ?_
  dsimp only
  rw [set]
  refine (if_neg (WSet.names_issued own numbered issued)).trans ((if_pos isOpen).trans ?_)
  cases w.entry (fieldAt c.params 1 4) with
  | none => rfl
  | some t => cases publisher : t.own <;> simp [publisher, Status.ok]

theorem exec_retract_refused (code : c.op = 0x0C)
    (closed : ¬ (w.stateOf (fieldAt c.params 1 4) = .draft ∨ w.stateOf (fieldAt c.params 1 4) = .provisional)) :
    exec (.retract r) s = .next (s.finish c 0x06 0 0) := by
  refine State.next_onCmd taken may code ?_
  dsimp only
  rw [set]
  exact (if_neg (WSet.names_issued own numbered issued)).trans (if_neg closed)

variable (plain : leNat (hdrPart c.params 15 8) = 0)

include plain

theorem exec_snapshot_refused (code : c.op = 0x0D) (other : w.stateOf (fieldAt c.params 1 4) ≠ .confirmed) :
    exec (.snapshot r) s = .next (s.finish c 0x06 0 0) := by
  refine State.next_onCmd taken may code ?_
  dsimp only
  rw [set]
  exact (if_neg (WSet.names_issued own numbered issued)).trans ((if_neg (by simp [plain])).trans (if_pos (.inl other)))

/-- A plain snapshot writes out the sealed header and the payload of the epoch's slot (R202; log 52). -/
theorem exec_snapshot_of_confirmed (code : c.op = 0x0D) {t : EpochEntry}
    (entry : w.entry (fieldAt c.params 1 4) = some t) (confirmed : t.st = .confirmed)
    (slot : (w.slotOf (fieldAt c.params 1 4)).isSome = true) (allowed : s.getB R.EPC_POLICY_ENCRYPT lKeep = false) :
    exec (.snapshot r) s = .next
      (((s.setF R.EPC_IMG_CHUNKS lKeep (chunksOf w.decl.payload)).snapOut c.job (fieldAt c.params 5 8)
        (fieldAt c.params 13 2) (s.snapImage w (fieldAt c.params 1 4) t.step
          (s.rdTier 1 (w.baseOf (fieldAt c.params 1 4)) w.decl.payload) none).1).finish c 0x00 0 0) := by
  have isConfirmed : w.stateOf (fieldAt c.params 1 4) = .confirmed := by simp only [WSet.stateOf, entry, confirmed]
  refine State.next_onCmd taken may code ?_
  dsimp only
  rw [set]
  refine (if_neg (WSet.names_issued own numbered issued)).trans ((if_neg (by simp [plain])).trans
    ((if_neg ?_).trans ?_))
  · simp [isConfirmed, Option.isSome_iff_ne_none.1 slot, allowed]
  · simp only [entry, plain, if_true]
    rfl

end Epoch

end Commands

/-- Settles O38: each part is what the lemmas above say of its row. That a RETRACT by a device which is not the
publisher is sent as a change of the publisher is, and its bytes, are the model's choices (log 47, log 64); so are the
bytes of a snapshot (log 52), which `exec_snapshot_of_confirmed` says. -/
theorem worldAndEpochCommands : Obligations.WorldAndEpochCommands := by
  unfold Obligations.WorldAndEpochCommands
  refine ⟨fun s r c taken may => ⟨?attach, ?noSched, ?stop, ?stopped, ?detach, ?unnamed⟩,
    fun s r c w taken may set own => ⟨?publish, ?retract, ?snapshot, ?stale⟩⟩
  case attach => exact fun _ => exec_worldAttach_of_sched taken may
  case noSched => exact exec_worldAttach_of_none taken may
  case stop => exact fun _ code named => exec_worldStop_of_served taken may named code
  case stopped => exact fun _ code named => exec_worldStop_of_stopped taken may named code
  case detach => exact fun _ code named => exec_worldDetach_of_named taken may named code
  case unnamed =>
    intro unnamed
    exact ⟨exec_worldStop_of_unnamed taken may unnamed, exec_worldDetach_of_unnamed taken may unnamed⟩
  case publish => exact fun _ => exec_publish_of_pan taken may set own
  case retract =>
    intro code numbered issued
    split
    · next isOpen => exact exec_retract_of_open taken may set own numbered issued code isOpen
    · next closed => exact exec_retract_refused taken may set own numbered issued code closed
  case snapshot =>
    intro code numbered issued plain
    refine ⟨exec_snapshot_refused taken may set own numbered issued plain code, fun confirmed slot allowed => ?_⟩
    obtain ⟨t, entry, isConfirmed⟩ := WSet.entry_of_stateOf confirmed (by decide)
    exact ⟨_, _,
      exec_snapshot_of_confirmed taken may set own numbered issued plain code entry isConfirmed slot allowed,
      s.setF_mem .., s.setF_epc .., s.getF_setF_self ..⟩
  case stale =>
    intro untaken
    exact ⟨exec_retract_stale taken may set untaken, exec_snapshot_stale taken may set untaken⟩

end Sys2Proof.Machine
end

section
/-! The rows of RECORD_WRITE, STAGING_EVICTION, DRAW_ISSUE and PRIORITY_UPDATE. -/

namespace Sys2Proof.Machine

/-! ## A ring after it is set, and a pan after a count -/

/-- What the words of a ring change where they are kept: memory on this device, requests to another (R210, R211). -/
def Part.ringWords : Parts := { mem := true, tier := true, fab := true }

section Set

variable (s : State) (n : Nat) (v : RingSt)

theorem State.setRing_outside_words :
    (s.setRing n v).outside Part.ringWords = { s with rings := mput s.rings n v }.outside Part.ringWords := by
  simp only [State.setRing, State.wrTier_outside (P := Part.ringWords) rfl,
    State.ringWrite_outside (P := Part.ringWords) rfl rfl rfl, forEach_outside, implies_true]

@[simp] theorem State.setRing_rings : (s.setRing n v).rings = mput s.rings n v := by
  obtain ⟨-, -, -, -, -, -, -, -, -, -, -, -, -, -, rings, -⟩ :=
    State.outside_eq_iff.1 (s.setRing_outside_words n v)
  exact rings rfl

@[simp] theorem State.setRing_epc : (s.setRing n v).epc = s.epc := by
  obtain ⟨-, -, -, -, -, -, -, -, -, -, -, -, -, epc, -⟩ := State.outside_eq_iff.1 (s.setRing_outside_words n v)
  exact epc rfl

@[simp] theorem State.ring_setRing_self : (s.setRing n v).ring n = some v := by
  simp only [State.ring, State.setRing_rings, mget_mput_self]

end Set

@[simp] theorem State.ring_bump (s : State) (f : Fld) (a : Loc) (n ring : Nat) :
    (s.bump f a n).ring ring = s.ring ring := by
  simp only [State.ring, State.bump_rings]

@[simp] theorem State.pan_bump (s : State) (f : Fld) (a : Loc) (n pan : Nat) : (s.bump f a n).pan pan = s.pan pan := by
  simp only [State.pan, State.bump_sch]

/-! ## RECORD_WRITE (R211, R214, R215) -/

section Record

variable {s : State} {pan station mb n w : Nat} {st : StationDecl} {d : RecordDecl} {r : RecordIn}
  (has : s.hasStation pan station 7 = true) (decl : (s.pan pan).station station = some st)
  (record : st.record = some d) (next : (s.pan pan).nextDraw st = (mb, n))
  (world : ((s.pan pan).rowsOf st)[n]? = some w) (inputs : s.recordIn pan st d mb n w = some r)
  (verdict : s.verdictIn pan w = true)

include has decl record next world inputs verdict

theorem exec_recordWrite_of_claimDue {g : RingSt} {k : Nat} (due : s.claimDue pan d r = some (g, k)) :
    exec (.recordWrite pan station) s = .next (s.sendClaim pan d g k) := by
  refine (if_pos has).trans ?_
  simp only [decl, record, next, world, inputs, verdict, if_true, due]

theorem exec_recordWrite_of_entry {u : State} {tag : Nat} (unclaimed : s.claimDue pan d r = none)
    (may : s.mayIssue ((s.pan pan).writerDie w) pan st mb (n / (s.pan pan).split) = true)
    (entry : s.takeEntry ((s.pan pan).writerDie w)
      { pan := pan, step := (s.pan pan).step, station := st.idx, mb := mb, slice := n / (s.pan pan).split }
        = some (tag, u)) :
    exec (.recordWrite pan station) s = .next
      (((u.takeRecord pan st mb n).recordStep pan d ((s.pan pan).payLens st d) r).freeEntry
        ((s.pan pan).writerDie w) (tag % 4096)) := by
  refine (if_pos has).trans ?_
  simp only [decl, record, next, world, inputs, verdict, if_true, unclaimed, State.withEntry_takes _ may entry]

end Record

/-- A step that the stride divides writes the world's record into the stripe's open block, which it opens first where
the step has none; a dropped block takes no record. -/
theorem State.recordStep_of_stride {s : State} {pan : Nat} {d : RecordDecl} {lens : List Nat} {r : RecordIn}
    {g g' : RingSt} {x : WorldRow} (ring : s.ring d.ring = some g)
    (row : s.worldRow pan r (nth lens d.action 0) = some x)
    (strides : (s.pan pan).step % max 1 (g.stripe d.stripe).stride = 0)
    (opened : (s.stepBlock pan d).ring d.ring = some g') :
    s.recordStep pan d lens r =
      if (g'.block d.stripe ((mgetD g'.openK d.stripe (0, 0)).1 % max 1 (stripeBlocks (g'.stripe d.stripe)))).dropped
      then s.stepBlock pan d
      else (s.stepBlock pan d).writeRecord pan d lens (mgetD g'.openK d.stripe (0, 0)).1 r x := by
  simp only [State.recordStep, ring, row, strides, if_true, opened]

/-! ## The claim of a staging position (R214) -/

@[simp] theorem RingSt.claimOf_mput_self (g : RingSt) (i k v : Nat) :
    { g with claims := mput g.claims i (k, v) }.claimOf i k = some v := by
  simp [RingSt.claimOf]

theorem State.ring_claimAnswer {s : State} {ring i k : Nat} {g : RingSt} (held : s.ring ring = some g)
    (asked : g.claimOf i k = some 0) (old : Option Nat) :
    (s.claimAnswer ring i k old).ring ring = some
      { g with claims := mput g.claims i (k, if old = some 0 ∨ old = some (k + 1) then 1 else 2) } := by
  simp only [State.claimAnswer, held, asked, if_true, State.ring_setRing_self]

/-! ## STAGING_EVICTION (R214) -/

theorem exec_stagingEviction_of_ring {s : State} {ring : Nat} {g : RingSt} (held : s.ring ring = some g)
    (extent : Nat) : exec (.stagingEviction ring extent) s = .next (s.evict ring extent) :=
  if_pos (by rw [held]; rfl)

/-! ## DRAW_ISSUE (R218) -/

section Draw

variable {s : State} {pan station us : Nat} {st : StationDecl} {d : DrawDecl} {g : RingSt}
  (has : s.hasStation pan station 8 = true) (decl : (s.pan pan).station station = some st) (draw : st.draw = some d)
  (held : s.ring d.ring = some g)

include has decl draw held

theorem exec_drawIssue_waits (unready : (s.bump R.EXP_RWAIT_US g.loc us).drawReady g d = false) :
    exec (.drawIssue pan station us) s = .next (s.bump R.EXP_RWAIT_US g.loc us) := by
  refine (if_pos has).trans ?_
  simp only [decl, draw, Option.bind_some, held, Option.map_some, unready, Bool.false_and, Bool.false_eq_true, if_false]

/-- A draw that is ready, whose outputs take rows and which the step has not issued runs on an entry of the boundary
master (log 127). -/
theorem exec_drawIssue_runs {u : State} {tag : Nat} (ready : (s.bump R.EXP_RWAIT_US g.loc us).drawReady g d = true)
    (outs : (s.bump R.EXP_RWAIT_US g.loc us).outsReady pan st = true)
    (first : (s.bump R.EXP_RWAIT_US g.loc us).drawing pan station = false) (own : g.job = (s.pan pan).job)
    (may : (s.bump R.EXP_RWAIT_US g.loc us).mayIssue (s.pan pan).master pan st 0 0 = true)
    (entry : (s.bump R.EXP_RWAIT_US g.loc us).takeEntry (s.pan pan).master
      { pan := pan, step := (s.pan pan).step, station := st.idx, mb := 0, slice := 0 } = some (tag, u)) :
    exec (.drawIssue pan station us) s = .next (u.drawRun pan tag st d g) := by
  have issued := State.issueEntry_takes (fun tag s => s.drawRun pan tag st d g) may
    (by rw [State.pan_bump]; exact entry)
  refine (if_pos has).trans ?_
  simp only [decl, draw, Option.bind_some, held, Option.map_some, ready, outs, first, own, State.pan_bump,
    Bool.not_false, beq_self_eq_true, Bool.and_self, if_true, issued]

end Draw

/-! ## PRIORITY_UPDATE (R222) -/

theorem exec_priorityUpdate_of_ring {s : State} {ring : Nat} {g : RingSt} (held : s.ring ring = some g) (pos : U64)
    (prio : Word) :
    exec (.priorityUpdate ring pos prio) s = .next (s.prioUpdate ring g pos.toNat prio.toNat) := by
  dsimp only [exec, execPriorityUpdate]
  rw [held]

section Priority

variable (s : State) (ring : Nat) (g : RingSt) (pos prio : Nat) {i k w : Nat} {b : BlockEntry}
  (stripe : bits pos 63 60 = i) (block : bits pos 59 16 = k) (world : bits pos 15 0 = w)
  (entry : g.block i (k % max 1 (stripeBlocks (g.stripe i))) = b)

include stripe block world entry

/-- A position whose record no block holds any more is counted, and the update is lost. -/
theorem State.prioUpdate_stale
    (stale : g.decl.stripes.length ≤ i ∨ b.st = .empty ∨ b.block ≠ k ∨ (g.stripe i).worlds ≤ w) :
    s.prioUpdate ring g pos prio = s.bump R.EXP_RMISS_STALEPRIO g.loc := by
  subst stripe block world entry
  exact if_pos stale

/-- An update of a record that its block holds gives its index entry the priority and the leaf the difference. -/
theorem State.prioUpdate_held {e : IdxEntry} {u : Nat} (inRing : i < g.decl.stripes.length) (used : b.st ≠ .empty)
    (same : b.block = k) (inBlock : w < (g.stripe i).worlds) (index : mgetD g.index (g.place i k w) {} = e)
    (units : (prioUnits prio).1 = u) :
    (s.prioUpdate ring g pos prio).epc = s.epc ∧
      (s.prioUpdate ring g pos prio).ring ring = some { g with
        index := mput g.index (g.place i k w) { e with prio := u, leaf := e.leaf + ((u : Int) - e.prio) } } := by
  have current : ¬ (g.decl.stripes.length ≤ i ∨ b.st = .empty ∨ b.block ≠ k ∨ (g.stripe i).worlds ≤ w) := by
    simp [inRing, used, same, inBlock]
  subst stripe block world entry index units
  rw [State.prioUpdate, if_neg current]
  dsimp only
  split
  · simp only [State.bump_epc, State.ring_bump, State.setRing_epc, State.ring_setRing_self, and_self]
  · simp only [State.setRing_epc, State.ring_setRing_self, and_self]

end Priority

/-- Settles O20: each part is what the lemmas above say of its row. That a claim is a compare-and-swap of the position's
state word, sent once and waited for, is the model's choice (log 138); so are the shares and homes of the staging
positions that an eviction empties (log 92), and the boundary master's entry that a DRAW takes (log 127). -/
theorem ringRows : Obligations.RingRows := by
  unfold Obligations.RingRows
  refine ⟨?record, ?claim, ?step, ?evict, ?draw, ?prio⟩
  case record =>
    intro s u pan station w tag st d r has decl record p at_ die world inputs verdict
    exact ⟨fun _ _ => exec_recordWrite_of_claimDue has decl record rfl world inputs verdict,
      exec_recordWrite_of_entry has decl record rfl world inputs verdict⟩
  case claim =>
    intro s ring i k old g held asked
    simp only [State.ring_claimAnswer held asked, Option.bind_some, RingSt.claimOf_mput_self, Option.some.injEq]
  case step => exact fun s pan d lens r g g' x => State.recordStep_of_stride
  case evict => exact fun s ring extent g held => exec_stagingEviction_of_ring held extent
  case draw =>
    intro s pan station us st d g has decl draw held
    exact ⟨exec_drawIssue_waits has decl draw held, fun u tag => exec_drawIssue_runs has decl draw held⟩
  case prio =>
    intro s ring pos prio g held
    rw [exec_priorityUpdate_of_ring held]
    refine ⟨fun stripe entered same world => ?_, fun stale => ?_⟩
    · exact ⟨_, rfl, State.prioUpdate_held s ring g _ _ rfl rfl rfl rfl stripe entered same world rfl rfl⟩
    · rw [State.prioUpdate_stale s ring g _ _ rfl rfl rfl rfl stale]

end Sys2Proof.Machine
end

section
/-!
The canonical form of the byte map (O50, O51): what each operation of the model, then each command, does to it.
-/

namespace Sys2Proof.Machine

/-! ## The memory's canonical form

Every lemma `MemSound.f` says that the operation `f` keeps the form, and its proof follows the text of `f`: the operations
that `f` applies, inmost last. An operation that writes no byte is a `frame`; one that the frames above describe is an
`outside`. The byte map itself is written by `wrMem`, `clrMem`, `wrTier` and the filters of a reset, a lost die and
ZEROISE alone.
-/

/-- Every part of the state but the bytes of the tiers and their marks of descent. -/
def Parts.butMem : Parts :=
  { pending := true, time := true, free := true, csr := true, wo1 := true, grains := true, bricks := true
    arrays := true, sch := true, att := true, lanes := true, epc := true, rings := true, tier := true, fab := true
    col := true, wpt := true, hcx := true, ckp := true, audit := true, keys := true, clk := true, obsv := true }

/-- Every next state that an outcome answers has a sound memory. -/
def SoundOut (o : Out) : Prop := ∀ t, o = .next t → MemSound t

/-- An instruction that is done leaves a sound memory. -/
def SoundEnd (r : GOut) : Prop := ∀ t g, r = .done t g → MemSound t

section Kept

variable {s t u : State}

theorem MemSound.frame (e : t.mem = s.mem) (h : MemSound s) : MemSound t := by
  rwa [MemSound, e]

theorem MemSound.withCsr {x} (h : MemSound s) : MemSound { s with csr := x } := h

theorem MemSound.withBricks {x} (h : MemSound s) : MemSound { s with bricks := x } := h

theorem MemSound.withAtt {x} (h : MemSound s) : MemSound { s with att := x } := h

theorem MemSound.withEpc {x} (h : MemSound s) : MemSound { s with epc := x } := h

theorem MemSound.withTier {x} (h : MemSound s) : MemSound { s with tier := x } := h

theorem MemSound.withCol {x} (h : MemSound s) : MemSound { s with col := x } := h

theorem MemSound.withObsv {x} (h : MemSound s) : MemSound { s with obsv := x } := h

/-- A frame over the other parts holds the bytes fast. -/
theorem MemSound.outside (e : t.outside Parts.butMem = s.outside Parts.butMem) (h : MemSound s) : MemSound t :=
  .frame (congrArg State.mem e :) h

theorem MemSound.ite {c : Prop} [Decidable c] (ht : MemSound t) (hu : MemSound u) : MemSound (if c then t else u) := by
  split
  · exact ht
  · exact hu

/-- The state that a `let` names may stand in what follows more than once. -/
theorem MemSound.named (k : MemSound s → MemSound t) (h : MemSound s) : MemSound t := k h

/-- An operation under a condition. -/
theorem MemSound.when {c : Prop} [Decidable c] (ht : MemSound s → MemSound t) (h : MemSound s) :
    MemSound (if c then t else s) := .ite (ht h) h

theorem MemSound.forEach {α : Type} {f : State → α → State} {l : List α} (hf : ∀ t x, MemSound t → MemSound (f t x))
    (h : MemSound s) : MemSound (forEach l s f) := by
  unfold Machine.forEach
  induction l generalizing s with
  | nil => exact h
  | cons x l ih => exact ih (hf s x h)

theorem MemSound.iteSnd {β : Type} {c : Prop} [Decidable c] {p q : β × State} (hp : MemSound p.2) (hq : MemSound q.2) :
    MemSound (if c then p else q).2 := by
  split
  · exact hp
  · exact hq

theorem MemSound.iteFst {β : Type} {c : Prop} [Decidable c] {p q : State × β} (hp : MemSound p.1) (hq : MemSound q.1) :
    MemSound (if c then p else q).1 := by
  split
  · exact hp
  · exact hq

theorem MemSound.foldlSnd {α β : Type} {f : β × State → α → β × State} {l : List α} {a : β × State}
    (hf : ∀ a x, MemSound a.2 → MemSound (f a x).2) (h : MemSound a.2) : MemSound (l.foldl f a).2 := by
  induction l generalizing a with
  | nil => exact h
  | cons x l ih => exact ih (hf a x h)

/-- The state of a pair is sound when the pair's second is. -/
theorem MemSound.ofSnd {β : Type} {p : β × State} {b : β} (e : p = (b, t)) (h : MemSound p.2) : MemSound t := by
  rwa [e] at h

theorem MemSound.getD {o : Option State} (ho : ∀ t, o = some t → MemSound t) (h : MemSound s) :
    MemSound (o.getD s) := by
  cases o with
  | none => exact h
  | some t => exact ho t rfl

/-- Bytes that are dropped leave the others in their order. -/
theorem MemSound.filter {f : Nat × Byte → Bool} (h : MemSound s) (e : t.mem = s.mem.filter f) : MemSound t := by
  simp only [MemSound, Memory.wf, mwfD, Bool.and_eq_true, List.all_eq_true, decide_eq_true_eq, e] at h ⊢
  exact ⟨mrising_filter f h.1, fun p hp => h.2 p (List.mem_of_mem_filter hp)⟩

theorem SoundEnd.done {g} (h : MemSound t) : SoundEnd (.done t g) := by
  rintro _ _ ⟨⟩
  exact h

theorem SoundEnd.fault {k a} : SoundEnd (.fault k a) := fun _ _ h => GOut.noConfusion h

theorem SoundEnd.wait : SoundEnd .wait := fun _ _ h => GOut.noConfusion h

theorem SoundEnd.halt : SoundEnd .halt := fun _ _ h => GOut.noConfusion h

theorem SoundEnd.ite {c : Prop} [Decidable c] {p q : GOut} (hp : SoundEnd p) (hq : SoundEnd q) :
    SoundEnd (if c then p else q) := by
  split
  · exact hp
  · exact hq

theorem SoundOut.next (h : MemSound t) : SoundOut (.next t) := by
  rintro u ⟨⟩
  exact h

theorem SoundOut.refused {r} : SoundOut (.refused r) := by
  rintro u ⟨⟩

theorem SoundOut.ite {c : Prop} [Decidable c] {o p : Out} (ho : SoundOut o) (hp : SoundOut p) :
    SoundOut (if c then o else p) := by
  split
  · exact ho
  · exact hp

theorem SoundOut.need {o : Out} {ok unit} (h : SoundOut o) : SoundOut (need ok unit o) := .ite h .refused

theorem SoundOut.whenThere {o : Out} {ok} (h : MemSound s) (ho : SoundOut o) : SoundOut (whenThere ok s o) :=
  .ite ho (.next h)

/-! ## What each operation does

The operations stand in the order of the model, under the names of its files.
-/

/-! ### Ops -/

theorem MemSound.setF {f a v} (h : MemSound s) : MemSound (s.setF f a v) := .frame rfl h

theorem MemSound.setB {f a v} (h : MemSound s) : MemSound (s.setB f a v) := .frame rfl h

theorem MemSound.bump {f a n} (h : MemSound s) : MemSound (s.bump f a n) := .frame (State.bump_mem ..) h

theorem MemSound.peak {f a v} (h : MemSound s) : MemSound (s.peak f a v) := .frame (State.peak_mem ..) h

theorem MemSound.wrMem {space off bs} (h : MemSound s) : MemSound (s.wrMem space off bs) :=
  s.wf_wrMem space off bs h

theorem MemSound.clrMem {space off n} (h : MemSound s) : MemSound (s.clrMem space off n) :=
  s.wf_clrMem space off n h

theorem MemSound.wrBrick {die brick off bs} (h : MemSound s) : MemSound (s.wrBrick die brick off bs) := .wrMem h

theorem MemSound.taint {die brick off n b} (h : MemSound s) : MemSound (s.taint die brick off n b) :=
  .ite (.frame (by rfl) h) h

theorem MemSound.draw {w} (h : MemSound s) : MemSound (s.draw w).2 := .frame (State.draw_mem ..) h

theorem MemSound.drawBytes {n} (h : MemSound s) : MemSound (s.drawBytes n).2 := by
  induction n generalizing s with
  | zero => exact h
  | succ n ih => exact ih (.draw (w := 8) h)

theorem MemSound.until {t} (h : MemSound s) : MemSound (s.until t) := .frame rfl h

theorem MemSound.alarm {kind job key} (h : MemSound s) : MemSound (s.alarm kind job key) :=
  .frame (State.alarm_mem ..) h

theorem MemSound.audit1 {die r} (h : MemSound s) : MemSound (s.audit1 die r) := .frame (State.audit1_mem ..) h

theorem MemSound.whenRoom {dies key} {f : State → State} (hf : ∀ t, MemSound t → MemSound (f t)) (h : MemSound s) :
    MemSound (s.whenRoom dies key f) := by
  simp only [State.whenRoom]
  split
  · split
    · exact hf _ h
    · exact hf _ (.bump h)
  · exact .ite h (.bump h)

theorem MemSound.setPan {p v} (h : MemSound s) : MemSound (s.setPan p v) := .frame rfl h

theorem MemSound.modPan {p f} (h : MemSound s) : MemSound (s.modPan p f) := .frame rfl h

theorem MemSound.setJob {j v} (h : MemSound s) : MemSound (s.setJob j v) := .frame rfl h

theorem MemSound.modJob {j f} (h : MemSound s) : MemSound (s.modJob j f) := .frame rfl h

theorem MemSound.holdWorlds {p} (h : MemSound s) : MemSound (s.holdWorlds p) := .frame rfl h

theorem MemSound.jobTo {j t} (h : MemSound s) : MemSound (s.jobTo j t) :=
  .named (fun h => .ite h (.modJob (.audit1 h))) (.ite (.holdWorlds h) h)

theorem MemSound.settlePoint {die} (h : MemSound s) : MemSound (s.settlePoint die) :=
  .outside (State.settlePoint_outside rfl ..) h

theorem MemSound.panTo {p t} (h : MemSound s) : MemSound (s.panTo p t) :=
  .named (fun h => .ite h (.forEach (fun _ _ h => .settlePoint h) (.modPan (.audit1 h)))) (.ite h (.holdWorlds h))

theorem MemSound.setGrain {die brick g v} (h : MemSound s) : MemSound (s.setGrain die brick g v) := .frame rfl h

theorem MemSound.modGrain {die brick g f} (h : MemSound s) : MemSound (s.modGrain die brick g f) := .frame rfl h

theorem MemSound.setArray {die brick v} (h : MemSound s) : MemSound (s.setArray die brick v) := .frame rfl h

theorem MemSound.bumpPan {f p n} (h : MemSound s) : MemSound (s.bumpPan f p n) := .frame (State.bumpPan_mem ..) h

theorem MemSound.wipeCounters {die b} (h : MemSound s) : MemSound (s.wipeCounters die b) :=
  .forEach (fun _ _ h => .setF (.setF h)) h

theorem MemSound.bistBegin {die b} (h : MemSound s) : MemSound (s.bistBegin die b) := by
  simp only [State.bistBegin]
  exact .ite (.frame (by rfl) h) (.frame (by rfl) h)

theorem MemSound.bistMover {die} (h : MemSound s) : MemSound (s.bistMover die) := by
  unfold State.bistMover
  split
  · exact .ite (.bistBegin h) h
  · exact h

theorem MemSound.bistReleased {die brick} (h : MemSound s) : MemSound (s.bistReleased die brick) := by
  unfold State.bistReleased
  split
  · exact .ite (.bistBegin h) h
  · exact h

theorem MemSound.bistBoundary {p} (h : MemSound s) : MemSound (s.bistBoundary p) :=
  .forEach (fun _ _ h => .ite (.bistBegin h) h) h

/-! ### Cmds -/

theorem MemSound.setQueue {pair q} (h : MemSound s) : MemSound (s.setQueue pair q) := .frame rfl h

theorem MemSound.badDoorbell {pair offset value cur} (h : MemSound s) :
    MemSound (s.badDoorbell pair offset value cur) :=
  .bump (.audit1 h)

theorem MemSound.hostWrite {addr b} (h : MemSound s) : MemSound (s.hostWrite addr b) := .frame rfl h

theorem MemSound.post {c} (h : MemSound s) : MemSound (s.post c) := .outside (State.post_outside rfl rfl ..) h

theorem MemSound.flushComps (h : MemSound s) : MemSound s.flushComps :=
  .forEach (fun _ _ h => .post h) (.frame (by rfl) h)

theorem MemSound.execSubmissionDoorbell {pair value} (h : MemSound s) :
    SoundOut (execSubmissionDoorbell pair value s) :=
  .need (.next (.ite (.setQueue h) (.whenRoom (fun _ h => .badDoorbell h) h)))

theorem MemSound.execCompletionDoorbell {pair value} (h : MemSound s) :
    SoundOut (execCompletionDoorbell pair value s) :=
  .need (.next (.ite (.flushComps (.setQueue h)) (.whenRoom (fun _ h => .badDoorbell h) h)))

theorem MemSound.finish {c status r0 r1} (h : MemSound s) : MemSound (s.finish c status r0 r1) :=
  .outside (State.finish_outside rfl rfl rfl ..) h

theorem MemSound.finishRef {r status r0 r1} (h : MemSound s) : MemSound (s.finishRef r status r0 r1) :=
  .outside (State.finishRef_outside rfl rfl rfl ..) h

theorem MemSound.setCmd {c} (h : MemSound s) : MemSound (s.setCmd c) := .frame rfl h

theorem MemSound.beginCmd {c} (h : MemSound s) : MemSound (s.beginCmd c) := .frame rfl h

theorem MemSound.onCmd {r op} {f : Cmd → State → State} (hf : ∀ c t, MemSound t → MemSound (f c t))
    (h : MemSound s) : MemSound (s.onCmd r op f) := by
  unfold State.onCmd
  split
  · exact .ite (.whenRoom (hf _) h) h
  · exact h

theorem MemSound.clampCmd {c off written eff} (h : MemSound s) : MemSound (s.clampCmd c off written eff).2 := by
  simp only [State.clampCmd]
  exact .iteSnd h (.setCmd (.audit1 h))

theorem MemSound.clampBits {c} (h : MemSound s) : MemSound (s.clampBits c) := by
  simp only [State.clampBits]
  split
  · exact h
  · exact .clampCmd h

theorem MemSound.take {pair e forwarded} (h : MemSound s) : MemSound (s.take pair e forwarded) := by
  simp only [State.take]
  split
  · exact .finish (.frame (by rfl) (.bump (.setF (.setF (.audit1 h)))))
  · exact .clampBits (.frame (by rfl) (.bump (.setF (.setF (.audit1 h)))))

theorem MemSound.execCommandTake {pair entry forwardable} (h : MemSound s) :
    SoundOut (execCommandTake pair entry forwardable s) :=
  .need (.next (.ite h (.ite (.frame (by rfl) h) (.take h))))

theorem MemSound.execCommandTimeout {cmd} (h : MemSound s) : SoundOut (execCommandTimeout cmd s) := by
  unfold Machine.execCommandTimeout
  refine .next ?_
  split
  · exact .ite h (.finish (.until h))
  · exact h

/-! ### Operands -/

/-- A write to a tier puts the bytes of mapped addresses one after the other, each at its key. -/
theorem wf_wrTierFrom {space off : Nat} {bs : List Byte} {m : AMap Byte} (hm : Memory.wf m = true) :
    Memory.wf (wrTierFrom s space off bs m) = true := by
  induction bs generalizing off m with
  | nil => exact hm
  | cons b rest ih =>
    unfold wrTierFrom
    split
    · exact ih (mwfD_mset _ b hm)
    · exact ih hm

theorem MemSound.wrTier {space off bs} (h : MemSound s) : MemSound (s.wrTier space off bs) := wf_wrTierFrom h

theorem MemSound.zeroTier {space off n} (h : MemSound s) : MemSound (s.zeroTier space off n) := .wrTier h

theorem MemSound.narrow {off n} (h : MemSound s) : MemSound (s.narrow off n) :=
  .outside (State.narrow_outside rfl ..) h

theorem MemSound.setReqs {m} (h : MemSound s) : MemSound (s.setReqs m) := .frame rfl h

theorem MemSound.request {r} (h : MemSound s) : MemSound (s.request r) := .frame rfl h

theorem MemSound.wrote {die pan space off len dest} (h : MemSound s) : MemSound (s.wrote die pan space off len dest) :=
  .frame rfl h

/-! ### Fabric -/

theorem MemSound.setPort {p v} (h : MemSound s) : MemSound (s.setPort p v) := .frame rfl h

theorem MemSound.portTo {p st} (h : MemSound s) : MemSound (s.portTo p st) := .frame rfl h

theorem MemSound.out {port p} (h : MemSound s) : MemSound (s.out port p) := .frame rfl h

theorem MemSound.control {port type reason seq tagIdx tagGen} (h : MemSound s) :
    MemSound (s.control port type reason seq tagIdx tagGen) :=
  .frame rfl h

theorem MemSound.sendAck {port} (h : MemSound s) : MemSound (s.sendAck port) := .frame rfl h

theorem MemSound.offer {port p} (h : MemSound s) : MemSound (s.offer port p) :=
  .outside (State.offer_outside rfl ..) h

theorem MemSound.transmit {fd p} (h : MemSound s) : MemSound (s.transmit fd p) :=
  .outside (State.transmit_outside rfl ..) h

theorem MemSound.flushCredit (h : MemSound s) : MemSound s.flushCredit :=
  .forEach (fun _ _ h => .ite (.offer h) (.transmit h)) (.frame (by rfl) h)

theorem MemSound.trainPort {port} (h : MemSound s) : MemSound (s.trainPort port) := .frame rfl h

theorem MemSound.disablePort {port} (h : MemSound s) : MemSound (s.disablePort port) :=
  .flushCredit (.forEach (fun _ _ h => .transmit h) (.setF (.portTo (.setPort h))))

theorem MemSound.retrainPort {port} (h : MemSound s) : MemSound (s.retrainPort port) :=
  .ite h (.bump (.portTo (.setPort h)))

theorem MemSound.leaveQuarantine {port} (h : MemSound s) : MemSound (s.leaveQuarantine port) := .ite (.trainPort h) h

theorem MemSound.quarantinePort {port} (h : MemSound s) : MemSound (s.quarantinePort port) :=
  .named (fun h => .ite (.disablePort h) (.leaveQuarantine h)) (.alarm (.bump (.portTo (.setPort h))))

theorem MemSound.violation {port reason} (h : MemSound s) : MemSound (s.violation port reason) :=
  .named (fun h => .ite (.quarantinePort h) h) (.setF (.bump (.setF (.setPort h))))

theorem MemSound.replayFrom {port i} (h : MemSound s) : MemSound (s.replayFrom port i) :=
  .named (fun h => .ite h (.named (fun h => .ite h (.ite
      (.leaveQuarantine (.forEach (fun _ _ h => .transmit h) (.setPort h))) (.retrainPort h))) (.setPort h)))
    (.setPort (.bump (.forEach (fun _ _ h => .out h) h)))

theorem MemSound.portTrained {port t} (h : MemSound s) : MemSound (s.portTrained port t) := by
  simp only [State.portTrained]
  exact .ite h (.ite (.disablePort h) (.named (fun h => .ite (.flushCredit (.bump (.forEach (fun _ _ h => .out h) h)))
    (.flushCredit h)) (.portTo (.setF (.setF (.setF (.setF (.setB (.setF h)))))))))

theorem MemSound.execPortTrained {port training} (h : MemSound s) : SoundOut (execPortTrained port training s) :=
  .need (.next (.portTrained h))

theorem MemSound.execPortRetrain {port} (h : MemSound s) : SoundOut (execPortRetrain port s) :=
  .need (.next (.retrainPort h))

theorem MemSound.execRetrainTimeout {port} (h : MemSound s) : SoundOut (execRetrainTimeout port s) :=
  .need (.next (.ite (.disablePort (.until h)) h))

theorem MemSound.ackTo {port seq} (h : MemSound s) : MemSound (s.ackTo port seq) :=
  .ite h (.leaveQuarantine (.flushCredit (.setPort h)))

theorem MemSound.execAck {port seq preempted} (h : MemSound s) : SoundOut (execAck port seq preempted s) :=
  .need (.next (.ackTo (.bump h)))

theorem MemSound.execReplayTimeout {port} (h : MemSound s) : SoundOut (execReplayTimeout port s) :=
  .need (.next (.ite h (.replayFrom (.until h))))

theorem MemSound.execAckDelayExpiry {port} (h : MemSound s) : SoundOut (execAckDelayExpiry port s) :=
  .need (.next (.ite h (.sendAck h)))

theorem MemSound.setFab {f} (h : MemSound s) : MemSound (s.setFab f) := .frame rfl h

theorem MemSound.sendReq {p} (h : MemSound s) : MemSound (s.sendReq p) := .outside (State.sendReq_outside rfl ..) h

theorem MemSound.issue {p u} (h : MemSound s) : MemSound (s.issue p u) := .outside (State.issue_outside rfl rfl ..) h

theorem MemSound.unblock (h : MemSound s) : MemSound s.unblock := by
  simp only [State.unblock]
  split
  · exact h
  · exact .issue (.setFab h)

theorem MemSound.unblockAll (h : MemSound s) : MemSound s.unblockAll := .forEach (fun _ _ h => .unblock h) h

theorem MemSound.endReq {idx} (h : MemSound s) : MemSound (s.endReq idx) := .unblock (.setFab (.setReqs h))

theorem MemSound.resend {idx} (h : MemSound s) : MemSound (s.resend idx) := by
  simp only [State.resend]
  split
  · exact h
  · exact .ite h (.sendReq (.setFab h))

theorem MemSound.execRequestResend {tagIdx} (h : MemSound s) : SoundOut (execRequestResend tagIdx s) := by
  unfold Machine.execRequestResend
  refine .next ?_
  split
  · exact h
  · exact .resend (.until h)

theorem MemSound.nakIn {port seq reason tagIdx tagGen} (h : MemSound s) :
    MemSound (s.nakIn port seq reason tagIdx tagGen) := by
  simp only [State.nakIn]
  split
  · exact .replayFrom h
  · split
    · split
      · exact .ite (.resend h) h
      · exact h
    · exact h

theorem MemSound.execNak {port seq reason tagIdx tagGen} (h : MemSound s) :
    SoundOut (execNak port seq reason tagIdx tagGen s) :=
  .need (.next (.nakIn h))

theorem MemSound.relay {port p} (h : MemSound s) : MemSound (s.relay port p) := .ite (.bump h) (.transmit h)

theorem MemSound.accept {port p} (h : MemSound s) : MemSound (s.accept port p) :=
  .ite (.setFab h) (.ite (.out h) (.relay h))

theorem MemSound.acceptFrame {port p} (h : MemSound s) : MemSound (s.acceptFrame port p) :=
  .named (fun h => .accept (.ite (.sendAck h) h)) (.setPort h)

theorem MemSound.goodFrame {port p credit} (h : MemSound s) : MemSound (s.goodFrame port p credit) := by
  simp only [State.goodFrame]
  split
  · exact .ackTo h
  · split
    · exact .nakIn h
    · split
      · exact .accept h
      · split
        · split
          · exact .violation (.control h)
          · exact .acceptFrame h
        · exact .ite (.sendAck h) (.control h)

theorem MemSound.execFrameReceive {port bytes credit} (h : MemSound s) :
    SoundOut (execFrameReceive port bytes credit s) :=
  .need (.next (.ite h (.ite (.goodFrame h) (.control (.bump h)))))

/-! ### Stream -/

theorem MemSound.poisonOuts {pan die cause n} (h : MemSound s) : MemSound (s.poisonOuts pan die cause n) :=
  .outside (State.poisonOuts_outside rfl ..) h

theorem MemSound.poisonOut {pan die cause} (h : MemSound s) : MemSound (s.poisonOut pan die cause) :=
  .outside (State.poisonOut_outside rfl ..) h

theorem MemSound.emit {pan i r} (h : MemSound s) : MemSound (s.emit pan i r) := .outside (State.emit_outside rfl ..) h

theorem MemSound.give {pan i r} (h : MemSound s) : MemSound (s.give pan i r) := .outside (State.give_outside rfl ..) h

theorem MemSound.takeThe {pan i c d f} (h : MemSound s) : MemSound (s.takeThe pan i c d f) :=
  .outside (State.takeThe_outside rfl ..) h

theorem MemSound.takeRow {pan i c d} (h : MemSound s) : MemSound (s.takeRow pan i c d) := .takeThe h

theorem MemSound.takeSlice {pan i c mb slice n} (h : MemSound s) : MemSound (s.takeSlice pan i c mb slice n).2 := by
  induction n generalizing s with
  | zero => exact h
  | succ n ih =>
    unfold State.takeSlice
    split
    · exact ih (.takeThe h)
    · exact h

theorem MemSound.discardOrphans {pan} (h : MemSound s) : MemSound (s.discardOrphans pan) := .frame (by rfl) (.bump h)

theorem MemSound.takeEntry {die tag : Nat} {e : ScoreEntry} (h : MemSound s) (ht : s.takeEntry die e = some (tag, t)) :
    MemSound t :=
  .outside (State.takeEntry_outside rfl rfl ht) h

theorem MemSound.freeEntry {die i} (h : MemSound s) : MemSound (s.freeEntry die i) :=
  .outside (State.freeEntry_outside rfl ..) h

theorem MemSound.issueEntry {die pan d mb slice} {f : Nat → State → State}
    (hf : ∀ tag t, MemSound t → MemSound (f tag t)) (h : MemSound s) :
    MemSound (s.issueEntry die pan d mb slice f) := by
  unfold State.issueEntry
  split
  · split
    · exact h
    · next entry => exact hf _ _ (h.takeEntry entry)
  · exact h

theorem MemSound.withEntry {die pan d mb slice} {f : Nat → State → State}
    (hf : ∀ tag t, MemSound t → MemSound (f tag t)) (h : MemSound s) :
    MemSound (s.withEntry die pan d mb slice f) :=
  .issueEntry (fun tag t h => .freeEntry (hf tag t h)) h

theorem MemSound.codeEntry {die tag code} (h : MemSound s) : MemSound (s.codeEntry die tag code) :=
  .outside (State.codeEntry_outside rfl ..) h

theorem MemSound.withAct {die pan d mb slice} {f : State → State} (hf : ∀ t, MemSound t → MemSound (f t))
    (h : MemSound s) : MemSound (s.withAct die pan d mb slice f) :=
  .issueEntry (fun _ _ h => .freeEntry (hf _ (.codeEntry h))) h

theorem MemSound.chunkEntry {die pan d} {f : Nat → State → State} (hf : ∀ tag t, MemSound t → MemSound (f tag t))
    (h : MemSound s) : MemSound (s.chunkEntry die pan d f) :=
  .issueEntry (fun tag _ h => hf tag _ (.codeEntry h)) h

/-! ### Ledger -/

theorem MemSound.setWset {ws w} (h : MemSound s) : MemSound (s.setWset ws w) :=
  .forEach (fun _ _ h => .wrTier h) (.frame (by rfl) h)

theorem MemSound.modWset {ws f} (h : MemSound s) : MemSound (s.modWset ws f) := by
  unfold State.modWset
  split
  · exact h
  · exact .setWset h

theorem MemSound.epochSend {w op b} (h : MemSound s) : MemSound (s.epochSend w op b) :=
  .outside (State.epochSend_outside rfl rfl ..) h

theorem MemSound.reportEpoch {ws e} (h : MemSound s) : MemSound (s.reportEpoch ws e) :=
  .outside (State.reportEpoch_outside rfl rfl ..) h

theorem MemSound.putEpoch {ws e st cause} (h : MemSound s) : MemSound (s.putEpoch ws e st cause) := by
  simp only [State.putEpoch]
  split
  · exact h
  · split
    · exact .setWset (.audit1 h)
    · exact .when (fun h => .epochSend h) (.setWset (.audit1 h))

theorem MemSound.retireIfDone {ws e} (h : MemSound s) : MemSound (s.retireIfDone ws e) := by
  simp only [State.retireIfDone]
  split
  · exact h
  · split
    · exact h
    · exact .ite (.putEpoch h) h

theorem MemSound.countEpoch {ws e f} (h : MemSound s) : MemSound (s.countEpoch ws e f) := .reportEpoch (.modWset h)

theorem MemSound.subRecords {ws e n} (h : MemSound s) : MemSound (s.subRecords ws e n) :=
  .retireIfDone (.countEpoch h)

theorem MemSound.addRecords {ws e n} (h : MemSound s) : MemSound (s.addRecords ws e n) := .countEpoch h

theorem MemSound.addHolder {ws e} (h : MemSound s) : MemSound (s.addHolder ws e) := .countEpoch h

theorem MemSound.dropHolder {ws e} (h : MemSound s) : MemSound (s.dropHolder ws e) := .retireIfDone (.countEpoch h)

theorem MemSound.reported {ws e device holders records} (h : MemSound s) :
    MemSound (s.reported ws e device holders records) :=
  .retireIfDone (.modWset h)

theorem MemSound.countBases (h : MemSound s) : MemSound s.countBases := by
  simp only [State.countBases]
  refine .forEach (fun _ _ h => ?_) h
  split
  · exact h
  · exact .ite h (.countEpoch h)

theorem MemSound.ringWrite {r stripe space off b} (h : MemSound s) : MemSound (s.ringWrite r stripe space off b) := by
  unfold State.ringWrite
  split
  · exact .wrTier h
  · exact .forEach (fun _ _ h => .issue h) h

theorem MemSound.setRing {n v} (h : MemSound s) : MemSound (s.setRing n v) :=
  .forEach (fun _ _ h => .ringWrite h) (.forEach (fun _ _ h => .ringWrite h) (.forEach (fun _ _ h => .wrTier h)
    (.frame (by rfl) h)))

theorem MemSound.blocksDeadIn {ws e ring count} (h : MemSound s) : MemSound (s.blocksDeadIn ws e ring count) := by
  simp only [State.blocksDeadIn]
  split
  · exact h
  · exact .named (fun h => .ite (.subRecords h) h) (.setRing h)

theorem MemSound.blocksDead {ws e count} (h : MemSound s) : MemSound (s.blocksDead ws e count) :=
  .forEach (fun _ _ h => .blocksDeadIn h) h

theorem MemSound.clearPub (h : MemSound s) : MemSound s.clearPub := .outside (State.clearPub_outside rfl ..) h

theorem MemSound.endStage6 {p} (h : MemSound s) : MemSound (s.endStage6 p) :=
  .outside (State.endStage6_outside rfl rfl ..) h

theorem MemSound.publishDone {ws e st} (h : MemSound s) : MemSound (s.publishDone ws e st) :=
  .outside (State.publishDone_outside rfl rfl rfl ..) h

theorem MemSound.failImage {w i reason} (h : MemSound s) : MemSound (s.failImage w i reason) :=
  .finishRef (.setF (.setF (.frame (by rfl) (.zeroTier h))))

theorem MemSound.zeroStream {w e} (h : MemSound s) : MemSound (s.zeroStream w e) := by
  unfold State.zeroStream
  split
  · exact .ite (.zeroTier h) h
  · exact h

theorem MemSound.stopWriting {w e} (h : MemSound s) : MemSound (s.stopWriting w e) := by
  simp only [State.stopWriting]
  split
  · exact .zeroStream h
  · split
    · exact .zeroStream h
    · split
      · exact .endStage6 (.zeroStream h)
      · split
        · exact .when (fun h => .failImage h) (.zeroStream h)
        · exact .zeroStream h

theorem MemSound.confirmEpoch {ws e} (h : MemSound s) : MemSound (s.confirmEpoch ws e) := by
  simp only [State.confirmEpoch]
  split
  · exact h
  · exact .publishDone (.retireIfDone (.bump (.modWset (.putEpoch h))))

theorem MemSound.dueCommit {pan b} (h : MemSound s) : MemSound (s.dueCommit pan b) :=
  .outside (State.dueCommit_outside rfl ..) h

theorem MemSound.prefixGone {ws e job} (h : MemSound s) : MemSound (s.prefixGone ws e job) :=
  .outside (State.prefixGone_outside rfl rfl ..) h

theorem MemSound.retractEpoch {ws e cause} (h : MemSound s) : MemSound (s.retractEpoch ws e cause) := by
  simp only [State.retractEpoch]
  split
  · exact h
  · exact .retireIfDone (.blocksDead (.prefixGone (.publishDone (.stopWriting (.alarm (.bump
      (.modWset (.putEpoch h))))))))

theorem MemSound.retractJob {job cause} (h : MemSound s) : MemSound (s.retractJob job cause) :=
  .forEach (fun _ _ h => .forEach (fun _ _ h => .retractEpoch h) h) h

theorem MemSound.forceRetire {ws e} (h : MemSound s) : MemSound (s.forceRetire ws e) :=
  .blocksDead (.bump (.putEpoch h))

theorem MemSound.enterEpoch {ws slot step own image} (h : MemSound s) :
    MemSound (s.enterEpoch ws slot step own image) := by
  simp only [State.enterEpoch]
  split
  · exact h
  · exact .putEpoch (.modWset h)

theorem MemSound.issueEpoch {ws slot step p} (h : MemSound s) : MemSound (s.issueEpoch ws slot step p) := by
  simp only [State.issueEpoch]
  split
  · exact h
  · refine .modWset (.enterEpoch ?_)
    split
    · exact .forceRetire h
    · exact h

theorem MemSound.adopt {p e} (h : MemSound s) : MemSound (s.adopt p e) := by
  simp only [State.adopt]
  split
  · exact h
  · split
    · exact h
    · exact .modPan (.dropHolder (.addHolder h))

theorem MemSound.loseFetch {pan} (h : MemSound s) : MemSound (s.loseFetch pan) := .frame (by rfl) h

theorem MemSound.adoptAtBoundary {p} (h : MemSound s) : MemSound (s.adoptAtBoundary p) := by
  simp only [State.adoptAtBoundary]
  split
  · exact .modPan h
  · exact .ite (.modPan h) (.ite (.loseFetch (.bumpPan (.modPan h))) (.adopt (.ite (.bumpPan (.modPan h)) (.bumpPan
      (.modPan h)))))

/-! ### Whisk -/

theorem MemSound.takeWords {lane n} (h : MemSound s) : MemSound (s.takeWords lane n).2 :=
  .outside (State.takeWords_outside rfl ..) h

theorem MemSound.zeroBrickLanes {die brick} (h : MemSound s) : MemSound (s.zeroBrickLanes die brick) :=
  .frame (by rfl) h

theorem MemSound.zeroSieveLanes {l} (h : MemSound s) : MemSound (s.zeroSieveLanes l) := .frame (by rfl) h

/-! ### Sieve -/

theorem MemSound.sampleNext {pan station disc} (h : MemSound s) : MemSound (s.sampleNext pan station disc) :=
  .outside (State.sampleNext_outside rfl rfl rfl ..) h

theorem MemSound.execDiscreteDraw {pan station} (h : MemSound s) : SoundOut (execDiscreteDraw pan station s) :=
  .whenThere h (.next (.sampleNext h))

theorem MemSound.execContinuousDraw {pan station} (h : MemSound s) : SoundOut (execContinuousDraw pan station s) :=
  .whenThere h (.next (.sampleNext h))

/-! ### Epochs -/

theorem MemSound.adoptionPoint {pan} (h : MemSound s) : MemSound (s.adoptionPoint pan) :=
  .outside (State.adoptionPoint_outside rfl ..) h

theorem MemSound.execAdoptionPoint {pan} (h : MemSound s) : SoundOut (execAdoptionPoint pan s) :=
  .whenThere h (.next (.adoptionPoint h))

theorem MemSound.sendWeights {w target e i b} (h : MemSound s) : MemSound (s.sendWeights w target e i b) :=
  .outside (State.sendWeights_outside rfl rfl ..) h

theorem MemSound.countSealed {off good} (h : MemSound s) : MemSound (s.countSealed off good) :=
  .outside (State.countSealed_outside rfl ..) h

theorem MemSound.streamChunk {w e i b} (h : MemSound s) : MemSound (s.streamChunk w e i b).1 := by
  simp only [State.streamChunk]
  split
  · exact .ite (.countSealed h) h
  · exact .modWset (.wrTier (.ite (.countSealed h) h))

theorem MemSound.streamPiece {b} (h : MemSound s) : MemSound (s.streamPiece b).1 := by
  simp only [State.streamPiece]
  split
  · exact h
  · exact .iteFst h (.iteFst (.frame (by rfl) h) (.streamChunk (.frame (by rfl) h)))

theorem MemSound.provisional {ws w p} (h : MemSound s) : MemSound (s.provisional ws w p) :=
  .ite (.endStage6 (.modWset (.putEpoch h))) h

theorem MemSound.publishExhausted {ws pan station w} (h : MemSound s) :
    MemSound (s.publishExhausted ws pan station w) :=
  .outside (State.publishExhausted_outside rfl rfl rfl rfl rfl ..) h

theorem MemSound.sendEpoch {ws e} (h : MemSound s) : MemSound (s.sendEpoch ws e) :=
  .outside (State.sendEpoch_outside rfl rfl ..) h

theorem MemSound.publishWrite {ws pan station tag w} (h : MemSound s) :
    MemSound (s.publishWrite ws pan station tag w) := by
  simp only [State.publishWrite]
  split
  · exact .setF (.setF (.setF (.clearPub (.modPan (.forEach (fun _ _ h => .setCmd h) (.sendEpoch (.issueEpoch h)))))))
  · split
    · exact .provisional (.setF (.setF (.setF (.clearPub (.modPan (.forEach (fun _ _ h => .setCmd h) (.sendEpoch
        (.issueEpoch h))))))))
    · exact .setF (.setF (.setF (.clearPub (.modPan (.forEach (fun _ _ h => .setCmd h) (.sendEpoch (.issueEpoch h)))))))

theorem MemSound.publishWait {ws waitedUs w} (h : MemSound s) : MemSound (s.publishWait ws waitedUs w) :=
  .outside (State.publishWait_outside rfl rfl rfl ..) h

theorem MemSound.publishBegin {pan station waitedUs d} (h : MemSound s) :
    MemSound (s.publishBegin pan station waitedUs d) := by
  simp only [State.publishBegin]
  split
  · exact h
  · exact .ite h (.ite (.publishExhausted h) (.ite (.publishWait h) (.issueEntry (fun _ _ h => .publishWrite h) h)))

theorem MemSound.execPublishBegin {pan station waitedUs} (h : MemSound s) :
    SoundOut (execPublishBegin pan station waitedUs s) := by
  unfold Machine.execPublishBegin
  refine .whenThere ?_ ?_
  · exact h
  · refine .next ?_
    split
    · exact .whenRoom (fun _ h => .publishBegin h) h
    · exact h

theorem MemSound.chunkGood {ws target chunk w p} (h : MemSound s) : MemSound (s.chunkGood ws target chunk w p) :=
  .provisional (.modWset (.ite (.wrTier h) h))

theorem MemSound.chunkFailed {ws target chunk w p} (h : MemSound s) : MemSound (s.chunkFailed ws target chunk w p) :=
  .ite (.retractEpoch h) (.named (fun h => .ite h (.sendWeights h)) (.modWset h))

theorem MemSound.targetDead {ws dev} (h : MemSound s) : MemSound (s.targetDead ws dev) := by
  unfold State.targetDead
  split
  · exact h
  · split
    · exact .ite (.retractEpoch h) h
    · exact h

theorem MemSound.execPublishChunkAck {ws target chunk answer} (h : MemSound s) :
    SoundOut (execPublishChunkAck ws target chunk answer s) := by
  unfold Machine.execPublishChunkAck
  split
  · exact .next h
  · refine .next ?_
    split
    · exact h
    · split
      · exact h
      · refine .whenRoom (fun _ h => ?_) h
        split
        · exact .chunkGood h
        · exact .chunkFailed h
        · exact .retractEpoch h

theorem MemSound.execPublishChecks {ws others} (h : MemSound s) : SoundOut (execPublishChecks ws others s) := by
  simp only [Machine.execPublishChecks]
  split
  · exact .next h
  · refine .next ?_
    split
    · exact h
    · split
      · exact h
      · refine .whenRoom (fun _ h => ?_) h
        split
        · exact .retractEpoch h
        · exact .confirmEpoch h

theorem MemSound.checkBoundary {pan poisoned} (h : MemSound s) : MemSound (s.checkBoundary pan poisoned) :=
  .frame (by rfl) h

theorem MemSound.remoteDraft {ws c w} (h : MemSound s) : MemSound (s.remoteDraft ws c w) :=
  .ite h (.enterEpoch (.modWset h))

theorem MemSound.applyNow {ws c w} (h : MemSound s) : MemSound (s.applyNow ws c w) := by
  simp only [State.applyNow]
  split
  · exact .remoteDraft h
  · exact .ite (.putEpoch h) h
  · exact .ite (.confirmEpoch h) h
  · exact .ite (.retractEpoch h) h
  · exact .ite (.blocksDead (.putEpoch h)) h
  · exact h

theorem MemSound.tryChange {ws c} (h : MemSound s) : MemSound (s.tryChange ws c) := by
  unfold State.tryChange
  split
  · exact h
  · exact .ite h (.ite (.modWset h) (.applyNow h))

theorem MemSound.applyChange {ws c} (h : MemSound s) : MemSound (s.applyChange ws c) :=
  .named (fun h => .ite h (.forEach (fun _ _ h => .tryChange h) (.modWset h))) (.tryChange h)

theorem MemSound.execEpochChangeMessage {ws epoch state cause step} (h : MemSound s) :
    SoundOut (execEpochChangeMessage ws epoch state cause step s) :=
  .whenThere h (.next (.whenRoom (fun _ h => .applyChange h) h))

/-! ### Array -/

theorem MemSound.mxaErr {die brick kind optag} (h : MemSound s) : MemSound (s.mxaErr die brick kind optag) :=
  .outside (State.mxaErr_outside rfl ..) h

theorem MemSound.swapSets {die brick} (h : MemSound s) : MemSound (s.swapSets die brick) :=
  .outside (State.swapSets_outside rfl rfl ..) h

theorem MemSound.mxaRetire {die brick c} (h : MemSound s) : MemSound (s.mxaRetire die brick c) :=
  .bump (.ite (.wrBrick h) h)

theorem MemSound.beginNext {die brick q} (h : MemSound s) : MemSound (beginNext die brick q s) := by
  induction q generalizing s with
  | nil => exact .setArray h
  | cons c rest ih => exact .ite (ih (.mxaRetire (.setArray h))) (.setArray h)

theorem MemSound.endCommand {die brick c} (h : MemSound s) : MemSound (s.endCommand die brick c) :=
  .beginNext (.mxaRetire h)

theorem MemSound.readCmd {die brick w0 w1 w2 w3} (h : MemSound s) : MemSound (s.readCmd die brick w0 w1 w2 w3).2 :=
  .outside (State.readCmd_outside rfl ..) h

theorem MemSound.mxaIssue {die brick w0 w1 w2 w3} (h : MemSound s) : MemSound (s.mxaIssue die brick w0 w1 w2 w3) := by
  simp only [State.mxaIssue]
  split
  · exact h
  · split
    · exact .setArray (.readCmd h)
    · exact .beginNext (.readCmd h)

theorem MemSound.drainArray {die brick ready} (h : MemSound s) : MemSound (s.drainArray die brick ready) :=
  .outside (State.drainArray_outside rfl rfl ..) h

theorem MemSound.toDrain {die brick port r} (h : MemSound s) : MemSound (s.toDrain die brick port r) := .setArray h

theorem MemSound.bankSet {die brick bank fl} (h : MemSound s) : MemSound (s.bankSet die brick bank fl) :=
  .outside (State.bankSet_outside rfl ..) h

theorem MemSound.takeFeed {die brick c} (h : MemSound s) : MemSound (s.takeFeed die brick c) :=
  .outside (State.takeFeed_outside rfl ..) h

theorem MemSound.drawWords {n} (h : MemSound s) : MemSound (s.drawWords n).2 := by
  simp only [State.drawWords]
  exact .frame (by rfl) h

theorem MemSound.takeModes {die brick c vn} (h : MemSound s) : MemSound (s.takeModes die brick c vn).2 := by
  simp only [State.takeModes]
  exact .iteSnd (.takeWords h) h

theorem MemSound.acceptClean {die brick c f} (h : MemSound s) : MemSound (s.acceptClean die brick c f) := by
  simp only [State.acceptClean]
  exact .named (fun h => .ite (.setArray (.toDrain (.bankSet (.takeModes h)))) h) (.setArray (.bankSet h))

theorem MemSound.acceptPoison {die brick c cause} (h : MemSound s) : MemSound (s.acceptPoison die brick c cause) := by
  simp only [State.acceptPoison]
  split
  · split
    · exact .poisonOut (.toDrain (.drawBytes (.takeModes (.setArray (.drawWords h)))))
    · exact .toDrain (.drawBytes (.takeModes (.setArray (.drawWords h))))
  · exact .setArray (.drawWords h)

theorem MemSound.acceptRow {die brick accError c f} (h : MemSound s) : MemSound (s.acceptRow die brick accError c f) :=
  .drainArray (.when .endCommand (.setArray (.named (fun h => .ite (.acceptClean h) (.acceptPoison h))
    (.when .mxaErr (.when .mxaErr (.when .bump (.bump (.takeFeed h))))))))

theorem MemSound.loadDone {die brick parity} (h : MemSound s) : MemSound (s.loadDone die brick parity) :=
  .outside (State.loadDone_outside rfl rfl ..) h

theorem MemSound.applyMode {die brick} (h : MemSound s) : MemSound (s.applyMode die brick) :=
  .outside (State.applyMode_outside rfl ..) h

theorem MemSound.requestMode {die brick v} (h : MemSound s) : MemSound (s.requestMode die brick v) :=
  .outside (State.requestMode_outside rfl ..) h

theorem MemSound.mxaCommand {die brick w0 w1 w2 w3} (h : MemSound s) :
    MemSound (s.mxaCommand die brick w0 w1 w2 w3) := by
  simp only [State.mxaCommand]
  split
  · exact .mxaIssue h
  · split
    · split
      · next entry => exact .mxaIssue (h.takeEntry entry)
      · exact h
    · exact h

theorem MemSound.execMxaCommand {die brick w0 w1 w2 w3} (h : MemSound s) :
    SoundOut (execMxaCommand die brick w0 w1 w2 w3 s) :=
  .need (.next (.ite h (.mxaCommand h)))

theorem MemSound.swapTry {die brick cycles} (h : MemSound s) : MemSound (s.swapTry die brick cycles) := by
  simp only [State.swapTry]
  split
  · exact h
  · split
    · exact .bump h
    · split
      · exact .when (fun h => .endCommand h) (.swapSets (.bump h))
      · exact .swapSets (.bump h)

theorem MemSound.execSwap {die brick cycles} (h : MemSound s) : SoundOut (execSwap die brick cycles s) :=
  .need (.next (.swapTry h))

theorem MemSound.execBackgroundLoadDone {die brick parity} (h : MemSound s) :
    SoundOut (execBackgroundLoadDone die brick parity s) :=
  .need (.next (.loadDone h))

theorem MemSound.fgParity {die brick} (h : MemSound s) : MemSound (s.fgParity die brick) :=
  .bump (.mxaErr (.setArray h))

theorem MemSound.rowElastic {die brick accError segs c} (h : MemSound s) :
    MemSound (s.rowElastic die brick accError segs c) := by
  simp only [State.rowElastic]
  split
  · exact .bump h
  · exact .named (fun h => .ite (.acceptRow h) (.bump h)) (.setArray h)

theorem MemSound.rowService {die brick accError c} (h : MemSound s) : MemSound (s.rowService die brick accError c) := by
  unfold State.rowService
  split
  · exact .bump h
  · exact .ite (.acceptRow h) (.bump h)

theorem MemSound.rowTry {die brick accError parity segs groups} (h : MemSound s) :
    MemSound (s.rowTry die brick accError parity segs groups) := by
  simp only [State.rowTry]
  split
  · exact .when (fun h => .fgParity h) (.drainArray h)
  · exact .ite (.when (fun h => .fgParity h) (.drainArray h)) (.ite (.rowElastic (.when (fun h => .fgParity h)
      (.drainArray h))) (.rowService (.when (fun h => .fgParity h) (.drainArray h))))

theorem MemSound.execRowAccept {die brick accError parity segs groups} (h : MemSound s) :
    SoundOut (execRowAccept die brick accError parity segs groups s) :=
  .need (.next (.rowTry h))

/-! ### Flash -/

theorem MemSound.setFlash {fd f} (h : MemSound s) : MemSound (s.setFlash fd f) := .frame (State.setFlash_mem ..) h

theorem MemSound.flashTouch {ring off n} (h : MemSound s) : MemSound (s.flashTouch ring off n) :=
  .outside (State.flashTouch_outside rfl ..) h

theorem MemSound.flashRead {off n} (h : MemSound s) : MemSound (s.flashRead off n) := by
  simp only [State.flashRead]
  split
  · exact h
  · refine .forEach (fun _ _ h => ?_) h
    split
    · exact .setFlash h
    · exact h

theorem MemSound.flashSpare {fd} (h : MemSound s) : MemSound (s.flashSpare fd) :=
  .outside (State.flashSpare_outside rfl rfl rfl ..) h

theorem MemSound.flashWear {fd} (h : MemSound s) : MemSound (s.flashWear fd) :=
  .outside (State.flashWear_outside rfl ..) h

theorem MemSound.execFlashRelocate {fd block} (h : MemSound s) : SoundOut (execFlashRelocate fd block s) :=
  .need (.whenThere h (.next (.ite (.flashWear (.setFlash h)) h)))

theorem MemSound.execFlashProgramFail {fd block} (h : MemSound s) : SoundOut (execFlashProgramFail fd block s) :=
  .need (.whenThere h (.next (.flashSpare (.bump (.setFlash h)))))

/-! ### Replay -/

theorem MemSound.openBlock {ring i step ws epoch} (h : MemSound s) : MemSound (s.openBlock ring i step ws epoch) := by
  simp only [State.openBlock]
  split
  · exact h
  · exact .named (fun h => .ite (.addRecords h) (.ite h (.bump h))) (.when .subRecords (.setRing h))

theorem MemSound.ringTouched {n off len} (h : MemSound s) : MemSound (s.ringTouched n off len) := by
  simp only [State.ringTouched]
  split
  · exact h
  · exact .ite h (.bump (.setRing h))

theorem MemSound.hbmTouched {off len} (h : MemSound s) : MemSound (s.hbmTouched off len) :=
  .forEach (fun _ _ h => .ringTouched h) h

theorem MemSound.setIndex {ring place wgen flags prio} (h : MemSound s) :
    MemSound (s.setIndex ring place wgen flags prio) := by
  simp only [State.setIndex]
  split
  · exact h
  · exact .named (fun h => .ite (.bump h) h) (.setRing h)

theorem MemSound.writeRecord {pan d lens k r x} (h : MemSound s) : MemSound (s.writeRecord pan d lens k r x) := by
  simp only [State.writeRecord]
  split
  · exact h
  · exact .named (fun h => .ite (.setIndex h) (.setRing h)) (.when .bump (.bump
      (.named (fun h => .ite h (.narrow (.when .narrow (.wrote h)))) (.ringWrite (.ringWrite h)))))

theorem MemSound.completeRecord {ring stripe k w reward done trunc cause} (h : MemSound s) :
    MemSound (s.completeRecord ring stripe k w reward done trunc cause) := by
  simp only [State.completeRecord]
  split
  · exact h
  · exact .named (fun h => .setIndex (.ringWrite (.ite h (.bump h)))) (.setRing h)

theorem MemSound.stepBlock {pan d} (h : MemSound s) : MemSound (s.stepBlock pan d) := by
  simp only [State.stepBlock]
  split
  · exact h
  · split
    · exact .ite h (.openBlock h)
    · exact .openBlock h

theorem MemSound.recordStep {pan d lens r} (h : MemSound s) : MemSound (s.recordStep pan d lens r) := by
  simp only [State.recordStep]
  split
  · exact h
  · split
    · exact h
    · split
      · split
        · exact .stepBlock h
        · exact .ite (.stepBlock h) (.writeRecord (.stepBlock h))
      · exact .ite (.completeRecord h) h

theorem MemSound.takeRecord {pan st mb n} (h : MemSound s) : MemSound (s.takeRecord pan st mb n) :=
  .outside (State.takeRecord_outside rfl ..) h

theorem MemSound.sendClaim {pan d g k} (h : MemSound s) : MemSound (s.sendClaim pan d g k) :=
  .ite h (.issue (.setRing h))

theorem MemSound.claimAnswer {ring i k old} (h : MemSound s) : MemSound (s.claimAnswer ring i k old) := by
  unfold State.claimAnswer
  split
  · exact h
  · exact .ite (.setRing h) h

theorem MemSound.execRecordWrite {pan station} (h : MemSound s) : SoundOut (execRecordWrite pan station s) := by
  simp only [Machine.execRecordWrite]
  refine .whenThere ?_ ?_
  · exact h
  · refine .next ?_
    split
    · exact h
    · split
      · split
        · split
          · split
            · exact .sendClaim h
            · exact .withEntry (fun _ _ h => .recordStep (.takeRecord h)) h
          · exact h
        · exact h
      · exact h

theorem MemSound.commitBlock {ring i k} (h : MemSound s) : MemSound (s.commitBlock ring i k) := by
  simp only [State.commitBlock]
  split
  · exact h
  · split
    · exact .setRing h
    · split
      · exact .setRing h
      · split
        · exact .subRecords (.setRing (.setRing h))
        · exact .subRecords (.setRing (.setRing h))
        · exact .subRecords (.setRing (.setRing h))
        · exact .setRing (.setRing h)

theorem MemSound.closePartials {ring i k} (h : MemSound s) : MemSound (s.closePartials ring i k) := by
  unfold State.closePartials
  split
  · exact h
  · exact .forEach (fun _ _ h => .completeRecord h) h

theorem MemSound.commitBlocks {pan step} (h : MemSound s) : MemSound (s.commitBlocks pan step) := by
  unfold State.commitBlocks
  refine .forEach (fun _ _ h => ?_) h
  split
  · exact h
  · refine .forEach (fun _ _ h => ?_) h
    split
    · exact h
    · exact .ite h (.ite (.commitBlock h) (.ite (.commitBlock (.closePartials h)) h))

theorem MemSound.evictPart {ring extent key k} (h : MemSound s) : MemSound (s.evictPart ring extent key k) := by
  simp only [State.evictPart]
  split
  · exact h
  · exact .named (fun h => .ite (.setRing h) (.setRing h)) (.ite (.flashTouch (.wrTier h)) h)

theorem MemSound.evict {ring extent} (h : MemSound s) : MemSound (s.evict ring extent) := by
  simp only [State.evict]
  split
  · exact h
  · exact .ite h (.ite (.bump h) (.forEach (fun _ _ h => .evictPart h) h))

theorem MemSound.execStagingEviction {ring extent} (h : MemSound s) : SoundOut (execStagingEviction ring extent s) :=
  .whenThere h (.next (.evict h))

theorem MemSound.drawSegment {g st d paylen j} (h : MemSound s) : MemSound (s.drawSegment g st d paylen j).2 :=
  .outside (State.drawSegment_outside rfl rfl rfl ..) h

theorem MemSound.emitDraw {pan st tag i n b} (h : MemSound s) : MemSound (s.emitDraw pan st tag i n b) :=
  .outside (State.emitDraw_outside rfl ..) h

theorem MemSound.drawRun {pan tag st d g} (h : MemSound s) : MemSound (s.drawRun pan tag st d g) := by
  simp only [State.drawRun]
  exact .forEach (fun _ _ h => .emitDraw (.emitDraw (.emitDraw h)))
    (.setRing (.bump (.bump (.foldlSnd (fun _ _ h => .drawSegment h) h))))

theorem MemSound.execDrawIssue {pan station waitedUs} (h : MemSound s) :
    SoundOut (execDrawIssue pan station waitedUs s) := by
  simp only [Machine.execDrawIssue]
  refine .whenThere ?_ ?_
  · exact h
  · refine .next ?_
    split
    · exact h
    · split
      · exact h
      · exact .named (fun h => .ite (.issueEntry (fun _ _ h => .drawRun h) h) h) (.bump h)

theorem MemSound.prioUpdate {ring g pos prio} (h : MemSound s) : MemSound (s.prioUpdate ring g pos prio) := by
  simp only [State.prioUpdate]
  exact .ite (.bump h) (.named (fun h => .ite (.bump h) h) (.setRing h))

theorem MemSound.execPriorityUpdate {ring pos prio} (h : MemSound s) :
    SoundOut (execPriorityUpdate ring pos prio s) := by
  unfold Machine.execPriorityUpdate
  split
  · exact .next h
  · exact .next (.prioUpdate h)

/-! ### Pages -/

theorem MemSound.takeFrame {pan tier n} (h : MemSound s) : MemSound (s.takeFrame pan tier n) :=
  .outside (State.takeFrame_outside rfl ..) h

theorem MemSound.giveFrame {pan tier n} (h : MemSound s) : MemSound (s.giveFrame pan tier n) :=
  .outside (State.giveFrame_outside rfl ..) h

theorem MemSound.setSeq {i q} (h : MemSound s) : MemSound (s.setSeq i q) := .wrTier (.frame (by rfl) h)

theorem MemSound.modSeq {i f} (h : MemSound s) : MemSound (s.modSeq i f) := .setSeq h

theorem MemSound.setPte {k e} (h : MemSound s) : MemSound (s.setPte k e) := .wrTier (.frame (by rfl) h)

theorem MemSound.delPte {k} (h : MemSound s) : MemSound (s.delPte k) := .wrTier (.frame (by rfl) h)

theorem MemSound.setIdent {tier addr i} (h : MemSound s) : MemSound (s.setIdent tier addr i) :=
  .wrTier (.frame (by rfl) h)

theorem MemSound.modIdent {tier addr f} (h : MemSound s) : MemSound (s.modIdent tier addr f) := by
  unfold State.modIdent
  split
  · exact .setIdent h
  · exact h

theorem MemSound.labDrop {pan seq layer page} (h : MemSound s) : MemSound (s.labDrop pan seq layer page) :=
  .outside (State.labDrop_outside rfl rfl ..) h

theorem MemSound.labCommit {pan} (h : MemSound s) : MemSound (s.labCommit pan) := .frame (by rfl) h

theorem MemSound.queuedAt {tier addr} (h : MemSound s) : MemSound (s.queuedAt tier addr) := by
  unfold State.queuedAt
  split
  · exact .bump h
  · exact h

theorem MemSound.freePage {tier addr} (h : MemSound s) : MemSound (s.freePage tier addr) := by
  simp only [State.freePage]
  split
  · exact h
  · exact .giveFrame (.wrTier (.frame (by rfl) h))

theorem MemSound.releaseRef {tier addr} (h : MemSound s) : MemSound (s.releaseRef tier addr) := by
  simp only [State.releaseRef]
  split
  · exact h
  · split
    · exact .modIdent h
    · split
      · exact .freePage (.modIdent h)
      · exact .frame (by rfl) (.modIdent h)

theorem MemSound.dropEntry {k} (h : MemSound s) : MemSound (s.dropEntry k) :=
  .named (fun h => .ite (.releaseRef (.labDrop h)) h) (.delPte h)

theorem MemSound.releaseSeq {seq} (h : MemSound s) : MemSound (s.releaseSeq seq) :=
  .forEach (fun _ _ h => .dropEntry h) h

theorem MemSound.endSeq {seq} (h : MemSound s) : MemSound (s.endSeq seq) := .modSeq (.releaseSeq h)

theorem MemSound.dropPage {k} (h : MemSound s) : MemSound (s.dropPage k) :=
  .named (fun h => .ite (.wrTier (.frame (by rfl) h)) (.bumpPan h)) (.bumpPan (.releaseRef (.labDrop (.setPte h))))

theorem MemSound.dropUntil {pan l} (h : MemSound s) : MemSound (dropUntil pan l s) := by
  induction l generalizing s with
  | nil => exact h
  | cons p rest ih => exact .ite h (ih (.dropPage h))

theorem MemSound.allocPage {pan seq} (h : MemSound s) : MemSound (s.allocPage pan seq).2 := by
  simp only [State.allocPage]
  split
  · exact .takeFrame (.ite h (.dropUntil (.alarm (.bumpPan h))))
  · exact .ite h (.dropUntil (.alarm (.bumpPan h)))

theorem MemSound.writeK {q tier addr j hd row} (h : MemSound s) : MemSound (s.writeK q tier addr j hd row) :=
  .named (fun h => .ite (.forEach (fun _ _ h => .wrTier h) h) h) (.forEach (fun _ _ h => .wrTier h) h)

theorem MemSound.writeV {q tier addr j hd row} (h : MemSound s) : MemSound (s.writeV q tier addr j hd row) := by
  simp only [State.writeV]
  exact .named (fun h => .ite (.forEach (fun _ _ h => .wrTier (.drawBytes h)) h) h) (.forEach
    (fun _ _ h => .wrTier h) h)

theorem MemSound.writeKV {q tier addr j k v} (h : MemSound s) : MemSound (s.writeKV q tier addr j k v) :=
  .forEach (fun _ _ h => .writeV (.writeK h)) h

theorem MemSound.zeroPos {q tier addr j} (h : MemSound s) : MemSound (s.zeroPos q tier addr j) :=
  .forEach (fun _ _ h => .forEach (fun _ _ h => .wrTier h) (.forEach (fun _ _ h => .wrTier h) h)) h

theorem MemSound.intoPage {k j row spec recompute} (h : MemSound s) : MemSound (s.intoPage k j row spec recompute) :=
  .setPte (.modIdent (.wrote (.writeKV (.ite h (.bump h)))))

theorem MemSound.newPage {k page recomp} (h : MemSound s) : MemSound (s.newPage k page recomp).2 := by
  have alloc := h.allocPage (pan := (s.seq (pteSeq k)).pan) (seq := pteSeq k)
  simp only [State.newPage]
  split
  · next none => exact .ofSnd none alloc
  · next some => exact .setPte (.setIdent (.zeroTier (.ofSnd some alloc)))

theorem MemSound.writePos {seq layer p row spec recompute} (h : MemSound s) :
    MemSound (s.writePos seq layer p row spec recompute) := by
  simp only [State.writePos]
  split
  · exact .alarm (.bumpPan h)
  · split
    · exact .bumpPan h
    · split
      · exact .ite (.intoPage h) (.ite (.intoPage (.setPte (.labDrop (.modIdent (.zeroTier h))))) h)
      · split
        · next new => exact .intoPage (.ofSnd new h.newPage)
        · next new => exact .ofSnd new h.newPage

theorem MemSound.insertPrefix {seq k} (h : MemSound s) : MemSound (s.insertPrefix seq k) := by
  simp only [State.insertPrefix]
  exact .ite h (.dueCommit (.frame (by rfl) (.forEach (fun _ _ h => .modIdent h) h)))

theorem MemSound.reuseBlock {seq k x} (h : MemSound s) : MemSound (s.reuseBlock seq k x) :=
  .bumpPan (.forEach (fun _ _ h => .setPte (.modIdent (.queuedAt h))) h)

theorem MemSound.reuseFrom {seq n k prev hash} (h : MemSound s) : MemSound (reuseFrom seq n k prev hash s).2 := by
  induction n generalizing s k prev hash with
  | zero => exact h
  | succ n ih =>
    simp only [Machine.reuseFrom]
    split
    · exact h
    · exact .iteSnd (ih (.reuseBlock h)) (.bumpPan h)

theorem MemSound.prefixReuse {seq tokens slot} (h : MemSound s) : MemSound (s.prefixReuse seq tokens slot) := by
  have reused {c : Prop} [Decidable c] {n k prev hash} {u : State} (h : MemSound u) :
      MemSound (if c then (0, u) else Machine.reuseFrom seq n k prev hash u).2 := .iteSnd h h.reuseFrom
  simp only [State.prefixReuse]
  exact .wrBrick (.ite (reused h.modSeq) (.modSeq (reused h.modSeq)))

theorem MemSound.prefixCommit {job} (h : MemSound s) : MemSound (s.prefixCommit job) := by
  simp only [State.prefixCommit]
  split
  · exact h
  · exact .forEach (fun _ _ h => .releaseRef h) (.frame (by rfl) h)

theorem MemSound.appendRow {layer row} (h : MemSound s) : MemSound (s.appendRow layer row).2 := by
  simp only [State.appendRow]
  exact .when (fun h => .insertPrefix h) (.ite (.writePos h) (.modSeq (.writePos h)))

theorem MemSound.zeroAccept {q} (h : MemSound s) : MemSound (s.zeroAccept q) := .wrMem h

theorem MemSound.settlePos {seq p keep} (h : MemSound s) : MemSound (s.settlePos seq p keep) :=
  .forEach (fun _ _ h => .ite (.named (fun h => .ite h (.zeroPos h)) (.modIdent h)) h) h

theorem MemSound.settleTree {seq} (h : MemSound s) : MemSound (s.settleTree seq) :=
  .ite h (.forEach (fun _ _ h => .dropEntry h) (.modSeq (.bumpPan (.bumpPan (.forEach (fun _ _ h => .settlePos h)
    (.zeroAccept h))))))

theorem MemSound.appendTree {layer seq acceptAt parents rows} (h : MemSound s) :
    MemSound (s.appendTree layer seq acceptAt parents rows) := by
  simp only [State.appendTree]
  exact .modSeq (.forEach (fun _ _ h => .writePos h) (.ite (.bumpPan (.zeroAccept (.setSeq h))) h))

theorem MemSound.seqBoundary {pan} (h : MemSound s) : MemSound (s.seqBoundary pan) :=
  .forEach (fun _ _ h => .endSeq h) (.forEach (fun _ _ h => .settleTree h) h)

theorem MemSound.endSeqs {pan} (h : MemSound s) : MemSound (s.endSeqs pan) := .forEach (fun _ _ h => .endSeq h) h

theorem MemSound.cancelSeq {seq} (h : MemSound s) : MemSound (s.cancelSeq seq) := .ite (.modSeq h) h

theorem MemSound.openOn {pan i world q} (h : MemSound s) : MemSound (s.openOn pan i world q) := by
  simp only [State.openOn]
  split
  · exact .modPan (.setSeq (.releaseSeq h))
  · exact .setSeq (.releaseSeq h)

theorem MemSound.tryOpen {w} (h : MemSound s) (ht : s.tryOpen w = some t) : MemSound t := by
  simp only [State.tryOpen, Option.map_eq_some_iff] at ht
  obtain ⟨i, -, rfl⟩ := ht
  exact .openOn h

theorem MemSound.openWaiting {l} (h : MemSound s) : MemSound (openWaiting l s) := by
  induction l with
  | nil => exact h
  | cons w rest ih =>
    simp only [Machine.openWaiting]
    split
    · next opened => exact .frame (by rfl) (h.tryOpen opened)
    · exact ih

theorem MemSound.execSeqOpen {pan world layers kvheads headdim fmt mode entries table} (h : MemSound s) :
    SoundOut (execSeqOpen pan world layers kvheads headdim fmt mode entries table s) := by
  refine .whenThere h (.next ?_)
  split
  · next opened => exact h.tryOpen opened
  · exact .alarm (.bumpPan (.frame rfl h))

theorem MemSound.execSeqQuarantineExpiry {seq} (h : MemSound s) : SoundOut (execSeqQuarantineExpiry seq s) :=
  .next (.ite (.openWaiting (.modSeq (.until h))) h)

theorem MemSound.walk {die walker seq gen layer page} (h : MemSound s) :
    MemSound (s.walk die walker seq gen layer page).2 :=
  .outside (State.walk_outside rfl rfl ..) h

theorem MemSound.execWalk {die walker seq gen layer page} (h : MemSound s) :
    SoundOut (execWalk die walker seq gen layer page s) :=
  .need (.next (.ite h (.walk h)))

/-! ### Attend -/

theorem MemSound.takeRows {pan c mb slice n is} (h : MemSound s) : MemSound (s.takeRows pan c mb slice n is).2 := by
  simp only [State.takeRows]
  refine .foldlSnd (fun a i h => ?_) h
  split
  · exact .takeSlice h
  · exact h

theorem MemSound.attInputs {pan st d mb slice n} (h : MemSound s) : MemSound (s.attInputs pan st d mb slice n).2 := by
  simp only [State.attInputs]
  exact .takeRows (.takeRows (.takeRows (.takeRows h)))

theorem MemSound.seqInputs {pan st d seq gen mb slice n} (h : MemSound s) :
    MemSound (s.seqInputs pan st d seq gen mb slice n).2 := by
  simp only [State.seqInputs]
  exact .takeRows (.takeRows (.takeRows h))

theorem MemSound.walkPages {die l} (h : MemSound s) : MemSound (s.walkPages die l).2 :=
  .foldlSnd (fun _ _ h => .walk h) h

theorem MemSound.poisonRow {d dim cause} (h : MemSound s) : MemSound (s.poisonRow d dim cause).2 := by
  simp only [State.poisonRow]
  exact .drawBytes h

theorem MemSound.attRow {die pan layer d slow bad r e} (h : MemSound s) :
    MemSound (s.attRow die pan layer d slow bad r e).2 := by
  simp only [State.attRow]
  exact .iteSnd (.poisonRow (.when .bump h)) (.iteSnd (.when .bump h) (.iteSnd (.bumpPan (.when .bump h))
    (.when .bump h)))

theorem MemSound.attRows {die pan layer d l} (h : MemSound s) : MemSound (s.attRows die pan layer d l).2 :=
  .foldlSnd (fun _ _ h => .attRow h) (.walkPages (.bump h))

theorem MemSound.emitAtt {die pan st optag mb slice fmt outs} (h : MemSound s) :
    MemSound (s.emitAtt die pan st optag mb slice fmt outs) := by
  simp only [State.emitAtt]
  refine .foldlSnd (fun a o h => ?_) h
  split
  · exact h
  · exact .forEach (fun _ _ h => .give (.ite h (.poisonOut h))) h

theorem MemSound.attend {die pan layer optag mb slice st d rows} (h : MemSound s) :
    MemSound (s.attend die pan layer optag mb slice st d rows) := by
  simp only [State.attend]
  exact .emitAtt (.attRows (.foldlSnd (fun _ _ h => .iteSnd (.appendRow h) h) h))

theorem MemSound.attendTree {die pan layer seq optag mb slice st d parents rows} (h : MemSound s) :
    MemSound (s.attendTree die pan layer seq optag mb slice st d parents rows) := by
  simp only [State.attendTree]
  exact .ite h (.emitAtt (.attRows (.appendTree h)))

theorem MemSound.recomputePage {layer seq page rows} (h : MemSound s) :
    MemSound (s.recomputePage layer seq page rows) :=
  .ite (.forEach (fun _ _ h => .writePos h) h) h

theorem MemSound.onSeq {die seq gen} {f : State → State} (hf : ∀ t, MemSound t → MemSound (f t)) (h : MemSound s) :
    MemSound (s.onSeq die seq gen f) :=
  .ite (.bump h) (hf s h)

/-! ### Tiers -/

theorem MemSound.setBuf {i b} (h : MemSound s) : MemSound (s.setBuf i b) := .frame (State.setBuf_mem ..) h

theorem MemSound.setMoves {m} (h : MemSound s) : MemSound (s.setMoves m) := .frame (State.setMoves_mem ..) h

theorem MemSound.tryAlloc {w} (h : MemSound s) (ht : s.tryAlloc w = some t) : MemSound t :=
  .outside (State.tryAlloc_outside rfl ht) h

theorem MemSound.poolFreed (h : MemSound s) : MemSound s.poolFreed := .outside (State.poolFreed_outside rfl ..) h

theorem MemSound.endBuf {i} (h : MemSound s) : MemSound (s.endBuf i) := .outside (State.endBuf_outside rfl ..) h

theorem MemSound.execBufferAllocate {pan tier bytes movable} (h : MemSound s) :
    SoundOut (execBufferAllocate pan tier bytes movable s) := by
  refine .need (.whenThere h (.next ?_))
  split
  · next got => exact h.tryAlloc got
  · exact .alarm (.bumpPan (.frame rfl h))

theorem MemSound.moveResult {pan station status} (h : MemSound s) : MemSound (s.moveResult pan station status) :=
  .outside (State.moveResult_outside rfl ..) h

theorem MemSound.execBufferFree {pan handle station} (h : MemSound s) :
    SoundOut (execBufferFree pan handle station s) :=
  .next (.ite (.moveResult (.endBuf h)) (.moveResult (.alarm (.bumpPan h))))

theorem MemSound.execBufferQuarantineExpiry {buffer} (h : MemSound s) :
    SoundOut (execBufferQuarantineExpiry buffer s) :=
  .next (.ite (.poolFreed (.setBuf (.until h))) h)

theorem MemSound.endBufs {pan} (h : MemSound s) : MemSound (s.endBufs pan) := .forEach (fun _ _ h => .endBuf h) h

theorem MemSound.setMoving {tier addr v} (h : MemSound s) : MemSound (s.setMoving tier addr v) :=
  .forEach (fun _ _ h => .setPte h) h

theorem MemSound.dropSeqFetch {pan} (h : MemSound s) : MemSound (s.dropSeqFetch pan) := .modPan (.frame (by rfl) h)

theorem MemSound.beginMove {die engine o x dst n} (h : MemSound s) : MemSound (s.beginMove die engine o x dst n) := by
  simp only [State.beginMove]
  refine .peak ?_
  split
  · exact .frame rfl h
  · exact .setMoving (.frame rfl h)

theorem MemSound.tryMove {w} (h : MemSound s) (ht : s.tryMove w = some t) : MemSound t := by
  unfold State.tryMove at ht
  split at ht
  · cases ht
    exact h
  · split at ht
    · cases ht
    · simp only [Option.bind_eq_some_iff, Option.map_eq_some_iff] at ht
      obtain ⟨x, -, n, -, rfl⟩ := ht
      exact .beginMove h

theorem MemSound.moveStart {die engine o dst} (h : MemSound s) : MemSound (s.moveStart die engine o dst) := by
  simp only [State.moveStart]
  split
  · exact h
  · split
    · next begun => exact h.tryMove begun
    · exact .frame (by rfl) (.when .bump h)

theorem MemSound.startWaits {l} (h : MemSound s) : MemSound (startWaits l s) := by
  induction l generalizing s with
  | nil => exact h
  | cons w rest ih =>
    simp only [Machine.startWaits]
    split
    · next begun => exact ih (.frame (by rfl) (h.tryMove begun))
    · exact ih h

theorem MemSound.moverFreed (h : MemSound s) : MemSound s.moverFreed := .poolFreed (.startWaits h)

theorem MemSound.execMoveStart {die engine obj dstTier} (h : MemSound s) :
    SoundOut (execMoveStart die engine obj dstTier s) :=
  .need (.next (.moveStart h))

theorem MemSound.applyAccess {tier base a} (h : MemSound s) : MemSound (s.applyAccess tier base a) := by
  simp only [State.applyAccess]
  split
  · exact .frame (by rfl) h
  · exact .wrTier h
  · split
    · exact .frame (by rfl) (.wrTier h)
    · exact .frame (by rfl) (.wrTier h)
    · exact .wrTier h

theorem MemSound.applyQueue {tier base l} (h : MemSound s) : MemSound (s.applyQueue tier base l) :=
  .forEach (fun _ _ h => .applyAccess h) h

theorem MemSound.modMove {k f} (h : MemSound s) : MemSound (s.modMove k f) :=
  .outside (State.modMove_outside rfl ..) h

theorem MemSound.stubAccess {k a} (h : MemSound s) : MemSound (s.stubAccess k a) := by
  simp only [State.stubAccess]
  split
  · exact h
  · split
    · exact .bump (.modMove h)
    · exact .when (fun h => .bump h) (.bump (.modMove h))
    · exact .when (fun h => .bump h) (.bump (.applyAccess h))

theorem MemSound.execStubAccess {move access} (h : MemSound s) : SoundOut (execStubAccess move access s) :=
  .next (.stubAccess h)

theorem MemSound.access {space off a} (h : MemSound s) : MemSound (s.access space off a) := by
  simp only [State.access]
  split
  · exact .stubAccess h
  · split
    · exact .modMove h
    · exact .applyAccess h

theorem MemSound.endReleased {m flipped} (h : MemSound s) : MemSound (s.endReleased m flipped) := by
  simp only [State.endReleased]
  split
  · exact h
  · split
    · exact .giveFrame h
    · exact .freePage h

theorem MemSound.releaseQueue {m} (h : MemSound s) : MemSound (s.releaseQueue m) := by
  simp only [State.releaseQueue]
  split
  · exact .applyQueue h
  · refine .forEach (fun _ _ h => ?_) h
    split
    · exact .frame (by rfl) h
    · exact .applyAccess h

theorem MemSound.failMove {k m} (h : MemSound s) : MemSound (s.failMove k m) :=
  .named (fun h => .moverFreed (.bistMover (.endReleased (.setMoves (.bump (.giveFrame (.ite (.setMoving h) h)))))))
    (.releaseQueue h)

theorem MemSound.poisonPage {tier addr cause tiles} (h : MemSound s) : MemSound (s.poisonPage tier addr cause tiles) :=
  .forEach (fun _ _ h => .setPte h) (.modIdent h)

theorem MemSound.poisonBuf {i cause tiles} (h : MemSound s) : MemSound (s.poisonBuf i cause tiles) := .setBuf h

theorem MemSound.poisonObj {m cause tiles} (h : MemSound s) : MemSound (s.poisonObj m cause tiles) := by
  unfold State.poisonObj
  split
  · exact .poisonBuf h
  · exact .poisonPage h

theorem MemSound.copyTier {st sa dt da n} (h : MemSound s) : MemSound (s.copyTier st sa dt da n) := .wrTier h

theorem MemSound.flip {m} (h : MemSound s) : MemSound (s.flip m) := by
  simp only [State.flip]
  split
  · exact .setBuf h
  · split
    · refine .bumpPan (.frame (by rfl) (.forEach (fun _ _ h => .labDrop (.setPte h)) ?_))
      split
      · exact .frame (by rfl) h
      · exact h
    · refine .bumpPan (.frame (by rfl) (.forEach (fun _ _ h => .labDrop (.setPte h)) ?_))
      split
      · exact .frame (by rfl) h
      · exact h

theorem MemSound.goodCopy {k m} (h : MemSound s) : MemSound (s.goodCopy k m) :=
  .named (fun h => .named (fun h => .bump (.modMove (.flip (.ite (.flashTouch h) h)))) (.ite (.flashRead h) h))
    (.copyTier h)

theorem MemSound.moveFailed {k m} (h : MemSound s) : MemSound (s.moveFailed k m) := .failMove (.frame (by rfl) h)

theorem MemSound.copyDone {k r} (h : MemSound s) : MemSound (s.copyDone k r) := by
  unfold State.copyDone
  split
  · exact h
  · split
    · exact h
    · split
      · exact .ite (.moveFailed h) (.goodCopy h)
      · exact .failMove (.bump (.poisonObj h))
      · exact .moveFailed h
      · exact .moveFailed (.bump h)

theorem MemSound.execMoveCopyDone {move result} (h : MemSound s) : SoundOut (execMoveCopyDone move result s) :=
  .next (.copyDone h)

theorem MemSound.dropStub {k m} (h : MemSound s) : MemSound (s.dropStub k m) :=
  .moverFreed (.bistMover (.endReleased (.setMoves (.giveFrame h))))

theorem MemSound.drained {k} (h : MemSound s) : MemSound (s.drained k) := by
  simp only [State.drained]
  split
  · exact h
  · exact .ite h (.named (fun h => .ite (.dropStub h) (.moverFreed h)) (.modMove (.applyQueue (.applyQueue h))))

theorem MemSound.execMoveDrained {move} (h : MemSound s) : SoundOut (execMoveDrained move s) := .next (.drained h)

theorem MemSound.liftAll (h : MemSound s) : MemSound s.liftAll := by
  simp only [State.liftAll]
  refine .forEach (fun _ _ h => ?_) h
  split
  · exact .moveStart h
  · exact .frame (by rfl) h

theorem MemSound.moveBoundary {pan} (h : MemSound s) : MemSound (s.moveBoundary pan) :=
  .forEach (fun _ _ h => .ite h (.ite (.dropStub h) (.modMove h))) (.liftAll (.frame (by rfl) h))

theorem MemSound.spillMoves {pan tier low l} (h : MemSound s) : MemSound (spillMoves pan tier low l s) := by
  induction l generalizing s with
  | nil => exact h
  | cons p rest ih => exact .ite (ih (.moveStart h)) h

theorem MemSound.spillDrops {pan tier low l} (h : MemSound s) : MemSound (spillDrops pan tier low l s) := by
  induction l generalizing s with
  | nil => exact h
  | cons p rest ih => exact .ite (ih (.forEach (fun _ _ h => .dropPage h) h)) h

theorem MemSound.spill {pan tier} (h : MemSound s) : MemSound (s.spill pan tier) :=
  .ite h (.ite (.ite (.moverFreed (.spillDrops h)) h) (.spillMoves h))

theorem MemSound.execSpill {pan tier} (h : MemSound s) : SoundOut (execSpill pan tier s) :=
  .need (.whenThere h (.next (.spill h)))

theorem MemSound.mediumCount {space off corr retry bad} (h : MemSound s) :
    MemSound (s.mediumCount space off corr retry bad) := by
  simp only [State.mediumCount]
  split
  · exact .bump (.bump (.bump h))
  · exact .bump (.bump (.bump h))
  · exact .bump (.bump (.bump h))
  · exact h

theorem MemSound.poisonTile {die brick off cause} (h : MemSound s) : MemSound (s.poisonTile die brick off cause) :=
  .wrBrick h

theorem MemSound.flashRetries {off n} (h : MemSound s) : MemSound (s.flashRetries off n) := by
  simp only [State.flashRetries]
  split
  · exact .setFlash h
  · exact h

theorem MemSound.entryPresent {pan step k} (h : MemSound s) : MemSound (s.entryPresent pan step k) :=
  .outside (State.entryPresent_outside rfl ..) h

theorem MemSound.loadBg {pan entry bk off} (h : MemSound s) : MemSound (s.loadBg pan entry bk off) := by
  simp only [State.loadBg]
  split
  · exact .ite (.setArray h) h
  · exact h

theorem MemSound.poisonFetch {pan bk off cause} (h : MemSound s) : MemSound (s.poisonFetch pan bk off cause) :=
  .poisonOut (.poisonTile h)

theorem MemSound.reqDone {r} (h : MemSound s) : MemSound (s.reqDone r) := by
  simp only [State.reqDone]
  split
  · exact .named (fun h => .entryPresent (.loadBg (.ite (.poisonFetch (.bump h)) (.ite (.poisonFetch h) h))))
      (.wrBrick (.ite (.wrTier h) h))
  · exact .ite (.wrTier h) h

theorem MemSound.poisonRecord {ring stripe k w cause} (h : MemSound s) :
    MemSound (s.poisonRecord ring stripe k w cause) := by
  simp only [State.poisonRecord]
  split
  · exact h
  · exact .setRing (.wrTier h)

theorem MemSound.reqFail {r cause} (h : MemSound s) : MemSound (s.reqFail r cause) := by
  unfold State.reqFail
  split
  · exact .entryPresent (.loadBg (.poisonFetch h))
  · exact .poisonBuf h
  · exact .poisonPage h
  · exact .poisonRecord h
  · exact h

theorem MemSound.tierTimeout {req} (h : MemSound s) : MemSound (s.tierTimeout req) := by
  simp only [State.tierTimeout]
  split
  · exact h
  · exact .ite h (.reqFail (.bump (.setReqs (.until h))))

theorem MemSound.perturb {r x} (h : MemSound s) : MemSound (s.perturb r x).2.2 := by
  simp only [State.perturb, apply_ite Prod.snd]
  exact .ite h (.frame rfl h)

theorem MemSound.respondTier {r x} (h : MemSound s) : MemSound (s.respondTier r x) := by
  simp only [State.respondTier]
  split
  · exact .named (fun h => .reqDone (.ite (.flashRetries h) h)) (.mediumCount h)
  · exact .reqFail (.bump (.mediumCount h))

theorem MemSound.response {k x} (h : MemSound s) : MemSound (s.response k x) := by
  simp only [State.response]
  split
  · exact h
  · exact .ite (.bump (.setReqs h)) (.ite (.bump (.setReqs (.tierTimeout (.perturb h)))) (.respondTier (.setReqs
      (.perturb h))))

theorem MemSound.execTierResponse {req result} (h : MemSound s) : SoundOut (execTierResponse req result s) :=
  .next (.response h)

theorem MemSound.msCount {space off n} (h : MemSound s) : MemSound (s.msCount space off n) :=
  .outside (State.msCount_outside rfl ..) h

theorem MemSound.msApply {space off op e data cmp} (h : MemSound s) :
    MemSound (s.msApply space off op e data cmp).2 := by
  simp only [State.msApply]
  exact .msCount (.wrTier h)

theorem MemSound.execMemorySideOp {space offset op elem data cmp} (h : MemSound s) :
    SoundOut (execMemorySideOp space offset op elem data cmp s) := by
  simp only [Machine.execMemorySideOp]
  refine .next ?_
  split
  · exact h
  · split
    · exact .access (.msCount h)
    · split
      · exact .ite (.access h) (.liftAll (.frame (by rfl) h))
      · exact .bump h

theorem MemSound.execPatrolScrub {die corrected} (h : MemSound s) : SoundOut (execPatrolScrub die corrected s) :=
  .need (.next (.setF (.bump h)))

theorem MemSound.ladleIssue {pan step k d} (h : MemSound s) : MemSound (s.ladleIssue pan step k d) := by
  have issued : MemSound ((s.modPan pan (fun p => p.modLadle step (fun l => l.went k))).bumpPan
      R.MOV_PLADLE_ISSUED pan |>.entryPresent pan step k) := .entryPresent (.bumpPan (.modPan h))
  simp only [State.ladleIssue]
  split
  · exact .bumpPan (.modPan (.request h))
  · split
    · exact issued
    · exact .ite issued (.ite (.ite h (.bumpPan (.modPan (.request h))))
        (.ite issued (.ite h (.entryPresent (.bumpPan (.modPan (.moveStart h)))))))
  · split
    · split
      · exact issued
      · exact .ite issued (.ite (.ite h (.bumpPan (.modPan (.request h))))
          (.ite issued (.ite h (.entryPresent (.bumpPan (.modPan (.moveStart h)))))))
    · exact .ite (.bumpPan (.modPan (.request h))) issued

theorem MemSound.execLadlePrefetch {pan} (h : MemSound s) : SoundOut (execLadlePrefetch pan s) := by
  simp only [Machine.execLadlePrefetch]
  refine .whenThere ?_ ?_
  · exact h
  · refine .next ?_
    split
    · exact .ladleIssue h
    · exact h

/-! ### World -/

theorem MemSound.setWorld {w v} (h : MemSound s) : MemSound (s.setWorld w v) := .frame (State.setWorld_mem ..) h

theorem MemSound.modWorld {w f} (h : MemSound s) : MemSound (s.modWorld w f) := .frame (State.modWorld_mem ..) h

theorem MemSound.worldEvent {port f} (h : MemSound s) : MemSound (s.worldEvent port f) := .frame (by rfl) h

theorem MemSound.putFrame {port f} (h : MemSound s) : MemSound (s.putFrame port f) :=
  .ite (.named (fun h => .ite (.bump h) h) (.frame (by rfl) h)) h

theorem MemSound.sendFrame {i type tick aux ref body} (h : MemSound s) :
    MemSound (s.sendFrame i type tick aux ref body) :=
  .putFrame (.modWorld h)

theorem MemSound.sendHello {i} (h : MemSound s) : MemSound (s.sendHello i) := .sendFrame h

theorem MemSound.sendSync {i tick} (h : MemSound s) : MemSound (s.sendSync i tick) := .sendFrame h

theorem MemSound.countReason {i port reason} (h : MemSound s) : MemSound (s.countReason i port reason) :=
  .ite h (.ite (.worldEvent (.modWorld h)) (.ite (.worldEvent (.modWorld h)) (.worldEvent (.modWorld h))))

theorem MemSound.refuseFrame {port f reason} (h : MemSound s) : MemSound (s.refuseFrame port f reason) := by
  simp only [State.refuseFrame]
  exact .alarm (.countReason (.ite (.sendFrame h) (.putFrame h)))

theorem MemSound.endAttach {i status} (h : MemSound s) : MemSound (s.endAttach i status) := by
  simp only [State.endAttach]
  split
  · exact .finishRef (.modWorld h)
  · exact .modWorld h

theorem MemSound.detachWorld {i} (h : MemSound s) : MemSound (s.detachWorld i) := .modWorld h

theorem MemSound.dropAttach {i} (h : MemSound s) : MemSound (s.dropAttach i) := .modWorld h

theorem MemSound.stopWorld {i} (h : MemSound s) : MemSound (s.stopWorld i) :=
  .named (fun h => .ite (.detachWorld h) h) (.forEach (fun _ _ h => .finishRef h) (.modWorld h))

theorem MemSound.spinWorld {i} (h : MemSound s) : MemSound (s.spinWorld i) := .modWorld h

theorem MemSound.holdWorld {i} (h : MemSound s) : MemSound (s.holdWorld i) := .modWorld h

theorem MemSound.spinWorlds {job} (h : MemSound s) : MemSound (s.spinWorlds job) :=
  .forEach (fun _ _ h => .spinWorld h) h

theorem MemSound.dropWorlds {job status} (h : MemSound s) : MemSound (s.dropWorlds job status) := by
  unfold State.dropWorlds
  refine .forEach (fun _ _ h => ?_) h
  split
  · exact .dropAttach (.endAttach h)
  · exact .detachWorld h
  · exact h
  · exact .modWorld (.spinWorld h)

theorem MemSound.latchFrame {i k} (h : MemSound s) : MemSound (s.latchFrame i k) := .modWorld h

theorem MemSound.execFrameLatch {world tick} (h : MemSound s) : SoundOut (execFrameLatch world tick s) :=
  .need (.next (.ite (.latchFrame (.until h)) h))

theorem MemSound.miss {i} (h : MemSound s) : MemSound (s.miss i) := by
  simp only [State.miss]
  exact .alarm (.worldEvent (.modWorld h))

theorem MemSound.sendLatched {i k} (h : MemSound s) : MemSound (s.sendLatched i k) := by
  simp only [State.sendLatched]
  split
  · exact h
  · exact .ite h (.named (fun h => .ite (.stopWorld h) (.when .sendSync h))
      (.when .miss (.sendFrame (.modWorld h))))

theorem MemSound.sendRepeats {port t} (h : MemSound s) : MemSound (s.sendRepeats port t) := by
  unfold State.sendRepeats
  refine .forEach (fun _ _ h => ?_) h
  split
  · exact .ite (.putFrame (.modWorld h)) h
  · exact h

theorem MemSound.execSendTime {port time} (h : MemSound s) : SoundOut (execSendTime port time s) :=
  .need (.next (.named (fun h => .ite (.sendRepeats h) h) (.forEach (fun _ _ h => .sendLatched h) (.forEach
    (fun _ _ h => .latchFrame h) (.until h)))))

theorem MemSound.acceptAct {i g action} (h : MemSound s) : MemSound (s.acceptAct i g action) := .modWorld h

theorem MemSound.giveVerdict {world time g r} (h : MemSound s) : MemSound (s.giveVerdict world time g r) :=
  .ite (.acceptAct h) (.named (fun h => .ite (.alarm h) h) (.worldEvent (.modWorld h)))

theorem MemSound.execActionVerdict {pan world time} (h : MemSound s) :
    SoundOut (execActionVerdict pan world time s) := by
  simp only [Machine.execActionVerdict]
  refine .need (.next ?_)
  split
  · exact h
  · split
    · exact h
    · refine .withAct (fun _ h => ?_) (.until h)
      split
      · exact .giveVerdict (.takeThe h)
      · exact .takeThe h

theorem MemSound.giveRows {pan} (h : MemSound s) : MemSound (s.giveRows pan) := .frame (by rfl) h

theorem MemSound.listRows {pan} (h : MemSound s) : MemSound (s.listRows pan) := .modPan h

theorem MemSound.fillPiece {n b} (h : MemSound s) : MemSound (s.fillPiece n b).2 := by
  simp only [State.fillPiece]
  exact .iteSnd h (.drawBytes h)

theorem MemSound.fillObs {max n l} (h : MemSound s) : MemSound (s.fillObs max n l).2 := by
  induction l generalizing s n with
  | nil => exact h
  | cons b rest ih =>
    cases rest with
    | nil => exact .fillPiece h
    | cons c rest => exact ih (.fillPiece h)

theorem MemSound.endObs {port time f p b} (h : MemSound s) : MemSound (s.endObs port time f p b) := 
  .ite (.refuseFrame h) (.ite (.refuseFrame h) (.withCsr (.modWorld h)))

theorem MemSound.rxObs {port time f} (h : MemSound s) : MemSound (s.rxObs port time f) := by
  simp only [State.rxObs]
  split
  · exact .refuseFrame h
  · split
    · exact .refuseFrame h
    · split
      · exact .modWorld (.refuseFrame h)
      · split
        · exact .modWorld h
        · exact .endObs (.fillObs (.modWorld h))

theorem MemSound.rxHello {port time f} (h : MemSound s) : MemSound (s.rxHello port time f) :=
  .ite (.ite (.named (fun h => .ite h (.holdWorld h)) (.endAttach (.sendSync (.modWorld h)))) (.dropAttach (.endAttach
    (.refuseFrame h)))) (.ite h (.refuseFrame h))

theorem MemSound.rxFrame {port time f} (h : MemSound s) : MemSound (s.rxFrame port time f) := by
  simp only [State.rxFrame]
  refine .ite h (.ite (.refuseFrame (.when .bump (.until h))) (.ite (.refuseFrame (.when .bump (.until h))) ?_))
  split
  · exact .rxHello (.when .bump (.until h))
  · exact .rxObs (.when .bump (.until h))
  · exact .spinWorld (.when .bump (.until h))
  · exact .when .sendSync (.when .bump (.until h))

theorem MemSound.execObs {port time frame} (h : MemSound s) : SoundOut (execObs port time frame s) :=
  .need (.next (.rxFrame h))

theorem MemSound.execHello {port time frame} (h : MemSound s) : SoundOut (execHello port time frame s) :=
  .need (.next (.rxFrame h))

theorem MemSound.execPartnerStop {port time frame} (h : MemSound s) : SoundOut (execPartnerStop port time frame s) :=
  .need (.next (.rxFrame h))

theorem MemSound.execPartnerSync {port time frame} (h : MemSound s) : SoundOut (execPartnerSync port time frame s) :=
  .need (.next (.rxFrame h))

theorem MemSound.execObsWindowClose {world tick} (h : MemSound s) : SoundOut (execObsWindowClose world tick s) :=
  .need (.next (.forEach (fun _ _ h => .refuseFrame h) (.modWorld (.until h))))

theorem MemSound.execHelloTimer {world} (h : MemSound s) : SoundOut (execHelloTimer world s) :=
  .need (.next (.ite (.sendHello h) h))

theorem MemSound.execAttachTimeout {world} (h : MemSound s) : SoundOut (execAttachTimeout world s) :=
  .need (.next (.ite (.dropAttach (.endAttach (.until h))) h))

theorem MemSound.execMissLimit {world} (h : MemSound s) : SoundOut (execMissLimit world s) :=
  .need (.next (.ite (.holdWorld h) h))

theorem MemSound.execHoldLimit {world} (h : MemSound s) : SoundOut (execHoldLimit world s) :=
  .need (.next (.ite (.spinWorld h) h))

theorem MemSound.execSilenceLimit {world} (h : MemSound s) : SoundOut (execSilenceLimit world s) :=
  .need (.next (.ite (.spinWorld h) h))

theorem MemSound.execRampEnd {world} (h : MemSound s) : SoundOut (execRampEnd world s) :=
  .need (.next (.ite (.sendLatched (.latchFrame (.until h))) h))

theorem MemSound.execWorldQuarantineExpiry {world} (h : MemSound s) : SoundOut (execWorldQuarantineExpiry world s) :=
  .need (.next (.ite (.modWorld (.until h)) h))

theorem MemSound.execWorldPortLink {port up preempt} (h : MemSound s) :
    SoundOut (execWorldPortLink port up preempt s) :=
  .need (.next (.ite h (.setB (.setF h))))

theorem MemSound.execWorldPortForeignFrame {port kind} (h : MemSound s) :
    SoundOut (execWorldPortForeignFrame port kind s) :=
  .need (.next (.ite h (.bump h)))

theorem MemSound.attachWorld {c d pan} (h : MemSound s) : MemSound (s.attachWorld c d pan) := by
  simp only [State.attachWorld]
  split
  · exact .finish h
  · exact .sendHello (.setWorld (.beginCmd h))

theorem MemSound.execWorldAttach {cmd} (h : MemSound s) : SoundOut (execWorldAttach cmd s) := by
  simp only [Machine.execWorldAttach]
  refine .next (.onCmd (fun _ _ h => ?_) h)
  split
  · exact .finish h
  · exact .ite (.finish h) (.attachWorld h)

theorem MemSound.execWorldStop {cmd} (h : MemSound s) : SoundOut (execWorldStop cmd s) := by
  simp only [Machine.execWorldStop]
  refine .next (.onCmd (fun _ _ h => ?_) h)
  split
  · exact .finish h
  · split
    · exact .dropAttach (.endAttach (.finish h))
    · exact .finish h
    · exact .spinWorld (.modWorld (.beginCmd h))

theorem MemSound.execWorldDetach {cmd} (h : MemSound s) : SoundOut (execWorldDetach cmd s) := by
  unfold Machine.execWorldDetach
  refine .next (.onCmd (fun _ _ h => ?_) h)
  split
  · exact .finish h
  · exact .ite (.finish (.detachWorld h)) (.finish h)

/-! ### Teardown -/

theorem MemSound.killOpen {ring i} (h : MemSound s) : MemSound (s.killOpen ring i) := by
  simp only [State.killOpen]
  split
  · exact h
  · refine .forEach (fun _ _ h => ?_) (.setRing h)
    split
    · exact h
    · exact .named (fun h => .ite (.subRecords h) h) (.setRing h)

theorem MemSound.killBlocks {pan} (h : MemSound s) : MemSound (s.killBlocks pan) := by
  unfold State.killBlocks
  refine .forEach (fun _ _ h => ?_) h
  split
  · exact h
  · exact .forEach (fun _ _ h => .killOpen h) h

theorem MemSound.quietPan {p} (h : MemSound s) : MemSound (s.quietPan p) :=
  .modPan (.killBlocks (.unblockAll (.frame (by rfl) h)))

theorem MemSound.endMoves {p} (h : MemSound s) : MemSound (s.endMoves p) := by
  unfold State.endMoves
  refine .forEach (fun _ _ h => ?_) h
  split
  · exact h
  · exact .ite (.failMove h) (.dropStub (.applyQueue h))

theorem MemSound.unwait {p} (h : MemSound s) : MemSound (s.unwait p) :=
  .forEach (fun _ _ h => .ite (.dropStub h) (.modMove h)) h

theorem MemSound.idleGrains {die b} (h : MemSound s) : MemSound (s.idleGrains die b) := .frame (by rfl) h

theorem MemSound.releaseBrick {die b} (h : MemSound s) : MemSound (s.releaseBrick die b) :=
  .bistReleased (.setF (.setF (.setF (.setF (.setF (.zeroBrickLanes (.withBricks (.wipeCounters (.applyMode
    (.idleGrains h))))))))))

theorem MemSound.freePan {p} (h : MemSound s) : MemSound (s.freePan p) :=
  have quiet : MemSound ((((((s.quietPan p).endSeqs p).endBufs p).endMoves p).unwait p).dropHolder
      (s.pan p).cfg.ws (s.pan p).epoch) := .dropHolder (.unwait (.endMoves (.endBufs (.endSeqs (.quietPan h)))))
  .countBases (.setPan (.panTo (.forEach (fun _ _ h => .releaseBrick h) (.zeroSieveLanes (.withAtt quiet)))))

theorem MemSound.nextJobGen {j} (h : MemSound s) : MemSound (s.nextJobGen j) := .modJob h

theorem MemSound.endJobCmds {j status} (h : MemSound s) : MemSound (s.endJobCmds j status) :=
  .forEach (fun _ _ h => .finish h) h

theorem MemSound.clearKeys {j} (h : MemSound s) : MemSound (s.clearKeys j) := .frame (by rfl) h

theorem MemSound.dropPrefix {j} (h : MemSound s) : MemSound (s.dropPrefix j) := by
  simp only [State.dropPrefix]
  split
  · exact h
  · exact .forEach (fun _ _ h => .releaseRef h) (.frame (by rfl) h)

theorem MemSound.teardown {j status} (h : MemSound s) : MemSound (s.teardown j status) :=
  .nextJobGen (.endJobCmds (.clearKeys (.dropWorlds (.retractJob (.dropPrefix (.forEach
    (fun _ _ h => .freePan h) h))))))

theorem MemSound.faultJob {j kind unit} (h : MemSound s) : MemSound (s.faultJob j kind unit) :=
  .ite h (.teardown (.forEach (fun _ _ h => .panTo h) (.jobTo (.modJob h))))

theorem MemSound.forgetJob {j} (h : MemSound s) : MemSound (s.forgetJob j) := .frame (by rfl) h

theorem MemSound.destroyJob {j} (h : MemSound s) : MemSound (s.destroyJob j) := by
  simp only [State.destroyJob]
  split
  · exact .finishRef (.modJob (.jobTo (.forgetJob (.teardown (.modJob h)))))
  · exact .modJob (.jobTo (.forgetJob (.teardown (.modJob h))))

theorem MemSound.destroyIfReady {j} (h : MemSound s) : MemSound (s.destroyIfReady j) :=
  .ite h (.ite (.destroyJob h) h)

theorem MemSound.captureFault {die b g kind addr pc insn} (h : MemSound s) :
    MemSound (s.captureFault die b g kind addr pc insn) :=
  .ite (.bump h) (.bump (.setF (.setF (.setF (.setF (.setF (.setF (.setF h))))))))

theorem MemSound.grainFault {die b g kind addr pc insn} (h : MemSound s) :
    MemSound (s.grainFault die b g kind addr pc insn) := by
  simp only [State.grainFault]
  split
  · exact .faultJob (.alarm (.captureFault (.modGrain h)))
  · exact .alarm (.captureFault (.modGrain h))

/-! ### Grain -/

theorem MemSound.step {a g} (h : MemSound s) : SoundEnd (GAt.step a s g) := .done h

theorem MemSound.csrInsn {a x w} (h : MemSound s) : SoundEnd (s.csrInsn a x w) := by
  simp only [State.csrInsn]
  split
  · exact .fault
  · split
    · exact .step (.iteSnd (.draw h) h)
    · split
      · exact .fault
      · exact .step (.iteSnd (.draw h) h)

theorem MemSound.loadInsn {a x w} (h : MemSound s) : SoundEnd (s.loadInsn a x w) := by
  simp only [State.loadInsn]
  split
  · exact .fault
  · split
    · exact .fault
    · exact .step h

theorem MemSound.storeInsn {a x w n v d} (h : MemSound s) : SoundEnd (s.storeInsn a x w n v d) := by
  simp only [State.storeInsn]
  split
  · exact .fault
  · exact .step (.taint (.wrBrick h))

theorem MemSound.flwInsn {a x w} (h : MemSound s) : SoundEnd (s.flwInsn a x w) := by
  simp only [State.flwInsn]
  split
  · exact .fault
  · exact .step h

theorem MemSound.fres {a x rd r d} (h : MemSound s) : SoundEnd (GAt.fres a s x rd r d) := .step h

theorem MemSound.ires {a x rd r d} (h : MemSound s) : SoundEnd (GAt.ires a s x rd r d) := .step h

theorem MemSound.fmaInsn {a x w} (h : MemSound s) : SoundEnd (s.fmaInsn a x w) := by
  simp only [State.fmaInsn]
  split
  · exact .fault
  · exact .ite .fault (.fres h)

theorem MemSound.fpInsn {a x w} (h : MemSound s) : SoundEnd (s.fpInsn a x w) := by
  simp only [State.fpInsn]
  split
  · exact .fres h
  · exact .ires h
  · split
    · exact .fres h
    · split
      · exact .fault
      · split
        · exact .fres h
        · exact .ite (.ires h) (.ite (.fres h) .fault)

theorem MemSound.spread {a src p dst q n} (h : MemSound s) : MemSound (s.spread t a src p dst q n) :=
  .ite h (.forEach (fun _ _ h => .taint h) h)

theorem MemSound.slRld {a x rd rs1 rs2} (h : MemSound s) : SoundEnd (s.slRld a x rd rs1 rs2) := by
  simp only [State.slRld]
  split
  · exact .fault
  · exact .fault
  · exact .step (.spread (.wrBrick h))

theorem MemSound.slRst {a x rd rs1 rs2} (h : MemSound s) : SoundEnd (s.slRst a x rd rs1 rs2) := by
  simp only [State.slRst]
  split
  · exact .fault
  · exact .fault
  · exact .step (.spread (.wrBrick h))

theorem MemSound.slRred {a x rd rs1 rs2 fn} (h : MemSound s) : SoundEnd (s.slRred a x rd rs1 rs2 fn) := by
  simp only [State.slRred]
  split
  · exact .fault
  · split
    · exact .fault
    · exact .step h

theorem MemSound.slPush {a x rd rs1 rs2} (h : MemSound s) : SoundEnd (s.slPush a x rd rs1 rs2) := by
  simp only [State.slPush]
  split
  · exact .fault
  · split
    · exact .fault
    · split
      · exact .fault
      · exact .ite .wait (.step (.ite (.emit h) (.poisonOut (.emit h))))

theorem MemSound.slPop {a x rd rs1 rs2} (h : MemSound s) : SoundEnd (s.slPop a x rd rs1 rs2) := by
  simp only [State.slPop]
  split
  · exact .fault
  · split
    · exact .fault
    · split
      · exact .fault
      · split
        · exact .wait
        · exact .step (.taint (.wrBrick (.takeRow h)))

theorem MemSound.slCred {a x rd rs1 rs2} (h : MemSound s) : SoundEnd (s.slCred a x rd rs1 rs2) := by
  simp only [State.slCred]
  split
  · exact .fault
  · split
    · exact .fault
    · exact .step h

theorem MemSound.slDraw {a x rd rs1 rs2} (h : MemSound s) : SoundEnd (s.slDraw a x rd rs1 rs2) := by
  simp only [State.slDraw]
  exact .ite .fault (.step (.takeWords h))

theorem MemSound.slDrawf {a x rd rs1 rs2} (h : MemSound s) : SoundEnd (s.slDrawf a x rd rs1 rs2) := by
  simp only [State.slDrawf]
  exact .ite .fault (.step (.takeWords h))

theorem MemSound.slWaitb {a x rd rs1 rs2} (h : MemSound s) : SoundEnd (s.slWaitb a x rd rs1 rs2) :=
  .ite .fault (.step h)

theorem MemSound.slFma2 {a x rd rs1 rs2 rs3 rm} (h : MemSound s) : SoundEnd (s.slFma2 a x rd rs1 rs2 rs3 rm) := by
  simp only [State.slFma2]
  split
  · exact .fault
  · split
    · exact .fault
    · exact .step h

theorem MemSound.slBfma4 {a x rd rs1 rs2 rs3 rm} (h : MemSound s) : SoundEnd (s.slBfma4 a x rd rs1 rs2 rs3 rm) :=
  .ite .fault (.step h)

theorem MemSound.custom0 {a x w} (h : MemSound s) : SoundEnd (s.custom0 a x w) := by
  simp only [State.custom0]
  split
  · exact .slRld h
  · exact .slRst h
  · exact .slRred h
  · exact .slPush h
  · exact .slPop h
  · exact .slCred h
  · exact .slDraw h
  · exact .slDrawf h
  · exact .slWaitb h
  · exact .fault

theorem MemSound.custom1 {a x w} (h : MemSound s) : SoundEnd (s.custom1 a x w) := by
  unfold State.custom1
  split
  · exact .slFma2 h
  · exact .slBfma4 h
  · exact .fault

theorem SoundEnd.ebreakOp {a} : SoundEnd (s.ebreakOp a) := .ite .halt .fault

theorem MemSound.jump {a x rd target} (h : MemSound s) : SoundEnd (GAt.jump a s x rd target) := .done h

theorem MemSound.aluInsn {a x w imm} (h : MemSound s) : SoundEnd (s.aluInsn a x w imm) :=
  .ite (.step h) (.ite (.step h) (.ite (.step h) .fault))

theorem MemSound.execWord {a x w} (h : MemSound s) : SoundEnd (s.execWord a x w) := by
  unfold State.execWord
  split
  · exact .step h
  · exact .step h
  · exact .jump h
  · exact .ite (.jump h) .fault
  · split
    · exact .fault
    · exact .done h
    · exact .step h
  · exact .loadInsn h
  · exact .ite (.storeInsn h) .fault
  · exact .aluInsn h
  · exact .aluInsn h
  · exact .ite (.step h) .fault
  · exact .ite .fault (.ite .ebreakOp (.ite (.csrInsn h) .fault))
  · exact .ite (.flwInsn h) .fault
  · exact .ite (.storeInsn h) .fault
  · exact .fmaInsn h
  · exact .fmaInsn h
  · exact .fmaInsn h
  · exact .fmaInsn h
  · exact .fpInsn h
  · exact .custom0 h
  · exact .custom1 h
  · exact .fault

theorem MemSound.endInsn {a x insn cyc r} (h : MemSound s) (hr : SoundEnd r) : MemSound (s.endInsn a x insn cyc r) := by
  unfold State.endInsn
  cases r with
  | done t y => exact .setGrain (hr t y rfl)
  | wait => exact .setGrain h
  | halt =>
    dsimp only
    split
    · exact .destroyIfReady (.setGrain h)
    · exact .setGrain h
  | fault k addr => exact .grainFault h

theorem MemSound.eccFix {die b ecc} (h : MemSound s) : MemSound (s.eccFix die b ecc) := .frame (State.eccFix_mem ..) h

theorem MemSound.withEcc {a x insn cyc push} {f : State → GOut} (hf : ∀ t, MemSound t → SoundEnd (f t))
    (h : MemSound s) : MemSound (s.withEcc a x insn cyc push f) :=
  .endInsn (.eccFix h) (.ite .fault (hf _ (.eccFix h)))

theorem MemSound.runRow {die brick g cyc ecc insn} {f : State → GAt → Grain → GOut}
    (hf : ∀ t a x, MemSound t → SoundEnd (f t a x)) (h : MemSound s) :
    SoundOut (s.runRow die brick g cyc ecc insn f) :=
  .need (.next (.ite (.withEcc (fun t => hf t _ _) h) h))

theorem MemSound.execGrainInstruction {die brick grain cyc ecc} (h : MemSound s) :
    SoundOut (execGrainInstruction die brick grain cyc ecc s) := by
  simp only [Machine.execGrainInstruction]
  refine .need (.next ?_)
  split
  · exact h
  · split
    · exact .endInsn h .fault
    · split
      · exact .withEcc (fun _ h => .execWord h) h
      · exact .endInsn h .fault

theorem MemSound.execEcall {die brick grain} (h : MemSound s) : SoundOut (execEcall die brick grain s) :=
  .runRow (fun _ _ _ _ => .fault) h

theorem MemSound.execEbreak {die brick grain} (h : MemSound s) : SoundOut (execEbreak die brick grain s) :=
  .need (.next (.ite (.endInsn h .ebreakOp) h))

theorem MemSound.execSlRld {die brick grain rd rs1 rs2 cyc ecc} (h : MemSound s) :
    SoundOut (execSlRld die brick grain rd rs1 rs2 cyc ecc s) :=
  .runRow (fun _ _ _ h => .slRld h) h

theorem MemSound.execSlRst {die brick grain rd rs1 rs2 cyc ecc} (h : MemSound s) :
    SoundOut (execSlRst die brick grain rd rs1 rs2 cyc ecc s) :=
  .runRow (fun _ _ _ h => .slRst h) h

theorem MemSound.execSlRred {die brick grain rd rs1 rs2 fn cyc ecc} (h : MemSound s) :
    SoundOut (execSlRred die brick grain rd rs1 rs2 fn cyc ecc s) :=
  .runRow (fun _ _ _ h => .slRred h) h

theorem MemSound.execSlPush {die brick grain rd rs1 rs2 cyc ecc} (h : MemSound s) :
    SoundOut (execSlPush die brick grain rd rs1 rs2 cyc ecc s) :=
  .runRow (fun _ _ _ h => .slPush h) h

theorem MemSound.execSlPop {die brick grain rd rs1 rs2 cyc ecc} (h : MemSound s) :
    SoundOut (execSlPop die brick grain rd rs1 rs2 cyc ecc s) :=
  .runRow (fun _ _ _ h => .slPop h) h

theorem MemSound.execSlCred {die brick grain rd rs1 rs2 cyc ecc} (h : MemSound s) :
    SoundOut (execSlCred die brick grain rd rs1 rs2 cyc ecc s) :=
  .runRow (fun _ _ _ h => .slCred h) h

theorem MemSound.execSlDraw {die brick grain rd rs1 rs2 cyc ecc} (h : MemSound s) :
    SoundOut (execSlDraw die brick grain rd rs1 rs2 cyc ecc s) :=
  .runRow (fun _ _ _ h => .slDraw h) h

theorem MemSound.execSlDrawf {die brick grain rd rs1 rs2 cyc ecc} (h : MemSound s) :
    SoundOut (execSlDrawf die brick grain rd rs1 rs2 cyc ecc s) :=
  .runRow (fun _ _ _ h => .slDrawf h) h

theorem MemSound.execSlWaitb {die brick grain rd rs1 rs2 cyc ecc} (h : MemSound s) :
    SoundOut (execSlWaitb die brick grain rd rs1 rs2 cyc ecc s) :=
  .runRow (fun _ _ _ h => .slWaitb h) h

theorem MemSound.execSlFma2 {die brick grain rd rs1 rs2 rs3 rm cyc ecc} (h : MemSound s) :
    SoundOut (execSlFma2 die brick grain rd rs1 rs2 rs3 rm cyc ecc s) :=
  .runRow (fun _ _ _ h => .slFma2 h) h

theorem MemSound.execSlBfma4 {die brick grain rd rs1 rs2 rs3 rm cyc ecc} (h : MemSound s) :
    SoundOut (execSlBfma4 die brick grain rd rs1 rs2 rs3 rm cyc ecc s) :=
  .runRow (fun _ _ _ h => .slBfma4 h) h

theorem MemSound.execWatchdog {die brick grain} (h : MemSound s) : SoundOut (execWatchdog die brick grain s) :=
  .need (.next (.ite (.endInsn h .fault) h))

theorem MemSound.enterReset {d} (h : MemSound s) : MemSound (s.enterReset d) := by
  simp only [State.enterReset]
  exact .forEach (fun _ _ h => .modGrain (.draw h)) h

theorem MemSound.modDev {pan w f} (h : MemSound s) : MemSound (s.modDev pan w f) := .modPan h

theorem MemSound.resetWorld {pan d} (h : MemSound s) : MemSound (s.resetWorld pan d) := by
  simp only [State.resetWorld]
  refine .enterReset (.modDev ?_)
  split
  · exact .cancelSeq h
  · exact h

theorem MemSound.worldReturned {pan w} (h : MemSound s) : MemSound (s.worldReturned pan w) := by
  simp only [State.worldReturned]
  split
  · exact h
  · exact .ite (.resetWorld h) h

theorem MemSound.execSentinelReturn {die brick grain} (h : MemSound s) :
    SoundOut (execSentinelReturn die brick grain s) := by
  simp only [Machine.execSentinelReturn]
  refine .need (.next ?_)
  split
  · exact h
  · exact .ite h (.named (fun h => .worldReturned (.ite (.modDev h) h)) (.setGrain h))

/-! ### Place -/

theorem MemSound.resetPanRegs {p} (h : MemSound s) : MemSound (s.resetPanRegs p) := .frame (by rfl) h

theorem MemSound.resetRingRegs {r} (h : MemSound s) : MemSound (s.resetRingRegs r) := .frame (by rfl) h

theorem MemSound.auditLoadClamp {o job pan kind off written eff} (h : MemSound s) :
    MemSound (s.auditLoadClamp o job pan kind off written eff) :=
  .ite h (.audit1 h)

theorem MemSound.loadWin {o job pan kbase size w} (h : MemSound s) : MemSound (s.loadWin o job pan kbase size w).2 := by
  simp only [State.loadWin]
  exact .iteSnd h (.auditLoadClamp (.draw h))

theorem MemSound.placeGrain {o job pan d g} (h : MemSound s) : MemSound (s.placeGrain o job pan d g) := by
  simp only [State.placeGrain]
  exact .ite (.frame (by rfl) (.loadWin (.loadWin h))) (.ite (.setGrain (.loadWin (.loadWin h))) (.setGrain (.when
    (fun h => .clrMem h) (.loadWin (.loadWin h)))))

theorem MemSound.ownBrick {p die b} (h : MemSound s) : MemSound (s.ownBrick p die b) :=
  .setF (.setF (.setF (.wipeCounters h)))

theorem MemSound.loadBrick {o job p perf d} (h : MemSound s) : MemSound (s.loadBrick o job p perf d) :=
  .forEach (fun _ _ h => .placeGrain h) (.frame (by rfl) (.wrBrick h))

theorem MemSound.addBricks {p l} (h : MemSound s) : MemSound (s.addBricks p l) :=
  .forEach (fun _ _ h => .zeroBrickLanes (.ownBrick h)) h

theorem MemSound.loadBricks {o job p perf ds l} (h : MemSound s) : MemSound (s.loadBricks o job p perf ds l) :=
  .forEach (fun _ _ h => .loadBrick h) h

theorem MemSound.bindSieves {old new} (h : MemSound s) : MemSound (s.bindSieves old new) := .zeroSieveLanes h

theorem MemSound.placeDev {ds w} (h : MemSound s) : MemSound (s.placeDev ds w).2 := by
  simp only [State.placeDev]
  exact .clrMem (.draw h)

theorem MemSound.placeDevs {ds old l} (h : MemSound s) : MemSound (placeDevs ds old l s).2 := by
  induction l generalizing s with
  | nil => exact h
  | cons w rest ih =>
    simp only [Machine.placeDevs]
    split
    · exact ih h
    · exact ih (.placeDev h)

theorem MemSound.openPan {d} (h : MemSound s) : MemSound (s.openPan d) :=
  .addBricks (.panTo (.withTier (.resetPanRegs (.setPan h))))

theorem MemSound.fillPan {o d ds} (h : MemSound s) : MemSound (s.fillPan o d ds) := by
  simp only [State.fillPan]
  exact .modPan (.placeDevs (.bindSieves (.loadBricks h)))

theorem MemSound.placeAdded {o p d ds} (h : MemSound s) : MemSound (s.placeAdded o p d ds) :=
  .loadBricks (.addBricks h)

theorem MemSound.dropBrick {die b} (h : MemSound s) : MemSound (s.dropBrick die b) := .releaseBrick (.clrMem h)

theorem MemSound.applyResize {o p d ds} (h : MemSound s) : MemSound (s.applyResize o p d ds) := by
  simp only [State.applyResize]
  refine .modPan (.placeDevs (.frame (by rfl) (.forEach (fun _ _ h => .dropBrick h) (.zeroSieveLanes
    (.bindSieves (.loadBricks (.forEach (fun _ _ h => ?_) h)))))))
  split
  · exact .cancelSeq h
  · exact h

/-! ### Cut -/

theorem MemSound.releasePan {p} (h : MemSound s) : MemSound (s.releasePan p) :=
  .setF (.setF (.listRows (.giveRows (.modPan h))))

theorem MemSound.stewardMode {j p die brick v} (h : MemSound s) : MemSound (s.stewardMode j p die brick v) :=
  .requestMode (.audit1 h)

theorem MemSound.panMode {p v} (h : MemSound s) : MemSound (s.panMode p v) := .forEach (fun _ _ h => .stewardMode h) h

theorem MemSound.startPan {p} (h : MemSound s) : MemSound (s.startPan p) :=
  .named (fun h => .releasePan (.panTo (.ite (.adopt h) h))) (.panMode h)

theorem MemSound.setCkp {j c} (h : MemSound s) : MemSound (s.setCkp j c) := .frame (State.setCkp_mem ..) h

theorem MemSound.modCkp {j f} (h : MemSound s) : MemSound (s.modCkp j f) := .frame (State.modCkp_mem ..) h

theorem MemSound.toBuddy {j off b} (h : MemSound s) : MemSound (s.toBuddy j off b) := by
  unfold State.toBuddy
  split
  · exact h
  · exact .ite h (.forEach (fun _ _ h => .issue h) h)

theorem MemSound.toRegions {j off b} (h : MemSound s) : MemSound (s.toRegions j off b) := .toBuddy (.wrTier h)

theorem MemSound.writeCopy {j i d e data} (h : MemSound s) : MemSound (s.writeCopy j i d e data) := by
  unfold State.writeCopy
  split
  · exact h
  · exact .toRegions h

theorem MemSound.drawForm (h : MemSound s) : MemSound s.drawForm.2 := by
  simp only [State.drawForm]
  exact .drawBytes (.draw h)

theorem MemSound.captureShard {j i d} (h : MemSound s) : MemSound (s.captureShard j i d) := by
  simp only [State.captureShard]
  split
  · exact h
  · exact .ite (.writeCopy (.setCkp (.iteSnd h (.drawForm h)))) (.setCkp h)

theorem MemSound.writeManifest {j} (h : MemSound s) : MemSound (s.writeManifest j) := by
  simp only [State.writeManifest]
  split
  · exact h
  · exact .toRegions (.setCkp h)

theorem MemSound.durableDue {j c} (h : MemSound s) : MemSound (s.durableDue j c) :=
  .ite h (.ite (.bump h) (.setCkp h))

theorem MemSound.makeWhole {j} (h : MemSound s) : MemSound (s.makeWhole j) := by
  simp only [State.makeWhole]
  split
  · exact h
  · exact .durableDue (.setF (.setCkp h))

theorem MemSound.settleCut {j} (h : MemSound s) : MemSound (s.settleCut j) :=
  .ite h (.named (fun h => .ite (.makeWhole (.modCkp h)) h) (.writeManifest h))

theorem MemSound.takePart {j p next anchor} (h : MemSound s) : MemSound (s.takePart j p next anchor) := by
  simp only [State.takePart]
  split
  · exact h
  · exact .settleCut (.forEach (fun _ _ h => .ite (.captureShard h) h) (.setCkp h))

theorem MemSound.takeCut {j p n} (h : MemSound s) : MemSound (s.takeCut j p n) :=
  .forEach (fun _ _ h => .takePart h) (.modCkp (.takePart (.setF (.setCkp h))))

theorem MemSound.cutAtBoundary {p n} (h : MemSound s) : MemSound (s.cutAtBoundary p n) := by
  simp only [State.cutAtBoundary]
  split
  · exact h
  · split
    · split
      · exact h
      · exact .ite (.takeCut (.makeWhole h)) (.ite (.takeCut h) (.bump h))
    · exact .ite (.takePart h) h

theorem MemSound.drawRegs {i n} (h : MemSound s) : MemSound (drawRegs i n s).2 := by
  induction n generalizing s i with
  | zero => exact h
  | succ n ih => exact ih (.draw (w := 32) h)

/-- The draws are kept from being unfolded: the definition is opened with a name in their place. -/
theorem MemSound.blurGrain {die b g} (h : MemSound s) : MemSound (s.blurGrain die b g) := by
  obtain ⟨draw, drawn⟩ : ∃ draw, State.drawBytes = draw := ⟨_, rfl⟩
  have sound {t n} (h : MemSound t) : MemSound (draw t n).2 := drawn ▸ h.drawBytes
  generalize e : State.blurGrain = f
  delta State.blurGrain at e
  rw [drawn] at e
  subst e
  rcases ints : Machine.drawRegs 1 31 s with ⟨x, s₁⟩
  beta_reduce
  rw [ints]
  dsimp only
  rcases floats : Machine.drawRegs 0 32 s₁ with ⟨f, s₂⟩
  exact .modGrain (.wrBrick (.draw (w := 48) (sound (.ofSnd floats (.drawRegs (.ofSnd ints h.drawRegs))))))

/-- The draws are kept from being unfolded: the definition is opened with a name in their place. -/
theorem MemSound.blurBrick {die b} (h : MemSound s) : MemSound (s.blurBrick die b) := by
  obtain ⟨draw, drawn⟩ : ∃ draw, State.drawBytes = draw := ⟨_, rfl⟩
  have sound {t n} (h : MemSound t) : MemSound (draw t n).2 := drawn ▸ h.drawBytes
  generalize e : State.blurBrick = f
  delta State.blurBrick at e
  rw [drawn] at e
  subst e
  exact .forEach (fun _ _ h => .ite (.blurGrain h) h) (.wrBrick (.wrBrick (sound h)))

theorem MemSound.forgetSeqs {p} (h : MemSound s) : MemSound (s.forgetSeqs p) :=
  .forEach (fun _ _ h => .modSeq h) (.forEach (fun _ _ h => .modSeq h) (.endSeqs h))

theorem MemSound.haltPan {p} (h : MemSound s) : MemSound (s.haltPan p) := by
  simp only [State.haltPan]
  exact .modPan (.panMode (.panTo (.unwait (.endMoves (.forgetSeqs (.quietPan h))))))

theorem MemSound.restoreSet {newest ws w} (h : MemSound s) : MemSound (s.restoreSet newest ws w) := by
  simp only [State.restoreSet]
  refine .setWset ?_
  split
  · exact .ite (.failImage h) h
  · exact h

theorem MemSound.retractDrafts {ws} (h : MemSound s) : MemSound (s.retractDrafts ws) := by
  unfold State.retractDrafts
  split
  · exact h
  · exact .forEach (fun _ _ h => .retractEpoch h) h

theorem MemSound.restoreRing {r g} (h : MemSound s) : MemSound (s.restoreRing r g) :=
  .forEach (fun _ _ h => .killOpen h) (.setRing h)

theorem MemSound.restorePart {sets c} (h : MemSound s) : MemSound (s.restorePart sets c) := .frame (by rfl) h

theorem MemSound.recount {ws} (h : MemSound s) : MemSound (s.recount ws) := by
  simp only [State.recount]
  split
  · exact .modWset h
  · exact .forEach (fun _ _ h => .retireIfDone (.reportEpoch h)) (.modWset h)

theorem MemSound.restoreCut {j c newest} (h : MemSound s) : MemSound (s.restoreCut j c newest) :=
  .forEach (fun _ _ h => .recount h) (.forEach (fun _ _ h => .restorePart h) (.forEach (fun _ _ h => .retractDrafts h)
    (.forEach (fun _ _ h => .restoreRing h) (.forEach (fun _ _ h => .restoreSet h) (.forEach (fun _ _ h => .wrTier h)
    (.forEach (fun _ _ h => .forEach (fun _ _ h => .blurBrick h) h) (.holdWorlds (.forEach
    (fun _ _ h => .haltPan h) h))))))))

theorem MemSound.enterRestore {j} (h : MemSound s) : MemSound (s.enterRestore j) := .nextJobGen (.jobTo h)

theorem MemSound.endAdoption {j status} (h : MemSound s) : MemSound (s.endAdoption j status) := by
  simp only [State.endAdoption]
  split
  · exact h
  · exact .ite h (.finishRef (.setF (.frame (by rfl) h)))

theorem MemSound.resumeJob {j} (h : MemSound s) : MemSound (s.resumeJob j) :=
  .forEach (fun _ _ h => .startPan h) (.jobTo h)

/-! ### Sections -/

theorem MemSound.auditClamps {o job pan l} (h : MemSound s) : MemSound (s.auditClamps o job pan l) := by
  simp only [State.auditClamps]
  exact .forEach (fun _ _ h => .auditLoadClamp (.draw h)) h

theorem MemSound.loadSets {j l} (h : MemSound s) : MemSound (s.loadSets j l) := by
  unfold State.loadSets
  refine .forEach (fun _ _ h => ?_) h
  split
  · exact .setWset h
  · exact .setWset (.zeroTier h)

theorem MemSound.loadRings {j l} (h : MemSound s) : MemSound (s.loadRings j l) := by
  simp only [State.loadRings]
  refine .forEach (fun _ _ h => ?_) h
  split
  · exact .ite (.setRing h) h
  · exact .setRing (.resetRingRegs (.ite h (.zeroTier (.zeroTier (.zeroTier h)))))

theorem MemSound.loadGroups {j l} (h : MemSound s) : MemSound (s.loadGroups j l) :=
  .forEach (fun _ _ h => .named (fun h => .ite (.alarm h) h) (.frame (by rfl) h)) h

theorem MemSound.loadJob {d} (h : MemSound s) : MemSound (s.loadJob d) :=
  .loadGroups (.loadRings (.loadSets (.modJob h)))

theorem MemSound.loadScheds {l} (h : MemSound s) : MemSound (s.loadScheds l) := .frame (by rfl) h

theorem MemSound.loadGates {l} (h : MemSound s) : MemSound (s.loadGates l) :=
  .forEach (fun _ _ h => .setF (.setB (.frame (by rfl) h))) h

theorem MemSound.loadWeights {l} (h : MemSound s) : MemSound (s.loadWeights l) :=
  .forEach (fun _ _ h => .setF (.setF h)) h

theorem MemSound.loadTiers {d} (h : MemSound s) : MemSound (s.loadTiers d) :=
  .setF (.forEach (fun _ _ h => .setF h) (.frame (by rfl) h))

theorem MemSound.wo1Load {o f l v} (h : MemSound s) : MemSound (s.wo1Load o f l v) :=
  .ite h (.frame (by rfl) (.audit1 h))

theorem MemSound.addKey {o k} (h : MemSound s) : MemSound (s.addKey o k) := by
  simp only [State.addKey]
  split
  · exact h
  · exact .frame (by rfl) (.audit1 h)

theorem MemSound.loadSecurity {o d} (h : MemSound s) : MemSound (s.loadSecurity o d) :=
  .forEach (fun _ _ h => .addKey h) (.frame (by rfl) (.forEach (fun _ _ h => .wo1Load h) h))

theorem MemSound.lockOne {o d b} (h : MemSound s) : MemSound (s.lockOne o d b) := .setF (.audit1 h)

theorem MemSound.lockBlocks {o v} (h : MemSound s) : MemSound (s.lockBlocks o v) :=
  .forEach (fun _ _ h => .lockOne h) h

theorem MemSound.loadPanSections {c} (h : MemSound s) : MemSound (s.loadPanSections c) :=
  .loadGates (.loadScheds (.forEach (fun _ _ h => .loadJob h) h))

theorem MemSound.keepContent {j c} (h : MemSound s) : MemSound (s.keepContent j c) := .modJob h

theorem MemSound.resizeNow {p} (h : MemSound s) : MemSound (s.resizeNow p) := by
  simp only [State.resizeNow]
  split
  · exact h
  · split
    · exact h
    · exact .finishRef (.modCkp (.keepContent (.loadPanSections (.applyResize h))))

/-! ### Rings -/

theorem MemSound.ringTo {level st} (h : MemSound s) : MemSound (s.ringTo level st) :=
  .outside (State.ringTo_outside rfl ..) h

theorem MemSound.setWring {level w} (h : MemSound s) : MemSound (s.setWring level w) :=
  .frame (State.setWring_mem ..) h

theorem MemSound.modWring {level f} (h : MemSound s) : MemSound (s.modWring level f) :=
  .frame (State.modWring_mem ..) h

theorem MemSound.sendFb {dev job c} (h : MemSound s) : MemSound (s.sendFb dev job c) := .transmit (.bump h)

theorem MemSound.fbToMaster {level job c} (h : MemSound s) : MemSound (s.fbToMaster level job c) := by
  unfold State.fbToMaster
  split
  · exact .sendFb h
  · exact h

theorem MemSound.modOp {level wgroup opnum f} (h : MemSound s) : MemSound (s.modOp level wgroup opnum f) :=
  .frame (by rfl) h

theorem MemSound.startOp {o} (h : MemSound s) : MemSound (s.startOp o) :=
  .named (fun h => .ite (.modWring h) (.ite h (.fbToMaster h))) (.frame (by rfl) (.ite h (.modWring h)))

theorem MemSound.issueOp0 {g o} (h : MemSound s) : MemSound (s.issueOp0 g o).1 := by
  simp only [State.issueOp0]
  exact .startOp (.frame (by rfl) h)

/-! ### Collective -/

theorem MemSound.setExch {k x} (h : MemSound s) : MemSound (s.setExch k x) :=
  .outside (State.setExch_outside rfl ..) h

theorem MemSound.wrAt {a b} (h : MemSound s) : MemSound (s.wrAt a b) := .wrTier h

theorem MemSound.reduceAt {a op e b} (h : MemSound s) : MemSound (s.reduceAt a op e b) :=
  .forEach (fun _ _ h => .msApply h) h

theorem MemSound.setLanding {k l} (h : MemSound s) : MemSound (s.setLanding k l) :=
  .outside (State.setLanding_outside rfl ..) h

theorem MemSound.foldPiece {k x rank off b} (h : MemSound s) : MemSound (s.foldPiece k x rank off b) :=
  .named (fun h => .ite (.bump h) h) (.setExch (.ite (.wrAt h) (.reduceAt h)))

theorem MemSound.foldLanded {k n} (h : MemSound s) : MemSound (foldLanded k n s) := by
  induction n generalizing s with
  | zero => exact h
  | succ n ih =>
    simp only [Machine.foldLanded]
    split
    · exact h
    · split
      · exact h
      · exact ih (.foldPiece (.setLanding h))

theorem MemSound.fold {k} (h : MemSound s) : MemSound (s.fold k) := .foldLanded h

theorem MemSound.land {k rank off b} (h : MemSound s) : MemSound (s.land k rank off b) := .fold (.setLanding h)

theorem MemSound.landWrite {p d c a b} (h : MemSound s) : MemSound (s.landWrite p d c a b) := by
  simp only [State.landWrite]
  split
  · exact h
  · exact .land (.setLanding h)

theorem MemSound.sendChunk {k x c tag} (h : MemSound s) : MemSound (s.sendChunk k x c tag) := by
  simp only [State.sendChunk]
  exact .named (fun h => .setExch (.bump (.forEach (fun _ _ h => .issue h) (.ite (.wrAt h) h)))) (.wrBrick h)

theorem MemSound.ownChunk {k x c} (h : MemSound s) : MemSound (s.ownChunk k x c) :=
  .ite (.bump (.reduceAt h)) (.ite (.forEach (fun _ _ h => .land h) h) (.wrAt h))

theorem MemSound.nextChunk {k x} (h : MemSound s) : MemSound (s.nextChunk k x) := by
  unfold State.nextChunk
  split
  · exact .ite (.chunkEntry (fun _ _ h => .freeEntry (.ownChunk (.setExch h))) h) (.ite h (.chunkEntry
      (fun _ _ h => .sendChunk h) h))
  · exact h

theorem MemSound.sendChunks {k n} (h : MemSound s) : MemSound (sendChunks k n s) := by
  induction n generalizing s with
  | zero => exact h
  | succ n ih =>
    unfold Machine.sendChunks
    split
    · exact ih (.nextChunk h)
    · exact h

theorem MemSound.sendColl {x r kind b} (h : MemSound s) : MemSound (s.sendColl x r kind b) :=
  .outside (State.sendColl_outside rfl rfl ..) h

theorem MemSound.sendDones {k} (h : MemSound s) : MemSound (s.sendDones k) :=
  .outside (State.sendDones_outside rfl rfl rfl ..) h

theorem MemSound.stationResult {pan station b} (h : MemSound s) : MemSound (s.stationResult pan station b) :=
  .outside (State.stationResult_outside rfl ..) h

theorem MemSound.endExch {k x status} (h : MemSound s) : MemSound (s.endExch k x status) :=
  .outside (State.endExch_outside rfl rfl rfl ..) h

theorem MemSound.chunkGone {x c} (h : MemSound s) : MemSound (s.chunkGone x c) := .freeEntry h

theorem MemSound.stepExch {k} (h : MemSound s) : MemSound (s.stepExch k) := by
  have sent {n : Nat} {u : State} (h : MemSound u) : MemSound ((Machine.sendChunks k n u).sendDones k) :=
    .sendDones (.sendChunks h)
  simp only [State.stepExch]
  split
  · exact h
  · split
    · exact h
    · split
      · exact sent h
      · split
        · exact sent h
        · split
          · split
            · exact .ite (.endExch (sent (.setExch (sent h)))) (sent (.setExch (sent h)))
            · exact sent (.setExch (sent h))
          · exact .endExch (sent h)

theorem MemSound.chunkAck {k chunk} (h : MemSound s) : MemSound (s.chunkAck k chunk) := by
  simp only [State.chunkAck]
  split
  · exact h
  · split
    · exact h
    · exact .ite (.setExch h) (.stepExch (.setExch (.chunkGone (.ite (.bump h) h))))

theorem MemSound.countsHeld {k} (h : MemSound s) : MemSound (s.countsHeld k) := by
  simp only [State.countsHeld]
  split
  · exact h
  · exact .ite h (.stepExch (.setExch (.modJob (.bump h))))

theorem MemSound.countRow {k rank row} (h : MemSound s) : MemSound (s.countRow k rank row) := by
  unfold State.countRow
  split
  · exact h
  · exact .countsHeld (.setExch h)

theorem MemSound.poisonAt {a} (h : MemSound s) : MemSound (s.poisonAt a) := .forEach (fun _ _ h => .poisonBuf h) h

theorem MemSound.exchDead {k rank} (h : MemSound s) : MemSound (s.exchDead k rank) := by
  simp only [State.exchDead]
  split
  · exact h
  · exact .ite h (.named (fun h => .stepExch (.countsHeld (.fold (.setExch (.forEach (fun _ _ h => .chunkGone h) (.ite
      (.poisonAt h) h)))))) (.ite (.poisonOuts (.bump h)) h))

theorem MemSound.collIn {p} (h : MemSound s) : MemSound (s.collIn p) := by
  simp only [State.collIn]
  split
  · exact h
  · split
    · split
      · exact h
      · exact .ite (.countRow h) (.stepExch (.setExch (.bump h)))
    · exact .ite (.frame (by rfl) h) (.frame (by rfl) h)

theorem MemSound.deadMembers {k} (h : MemSound s) : MemSound (s.deadMembers k) := by
  unfold State.deadMembers
  split
  · exact h
  · exact .forEach (fun _ _ h => .exchDead h) h

theorem MemSound.beginExch {pan station c g counts} (h : MemSound s) :
    MemSound (s.beginExch pan station c g counts) := by
  simp only [State.beginExch]
  split
  · exact .deadMembers (.stepExch (.fold (.setExch (.frame (by rfl) (.bump h)))))
  · exact .setExch (.frame (by rfl) (.bump h))

theorem MemSound.countsOverFabric {k} (h : MemSound s) : MemSound (s.countsOverFabric k) := by
  simp only [State.countsOverFabric]
  split
  · exact h
  · exact .countsHeld (.bump (.forEach (fun _ _ h => .sendColl h) h))

theorem MemSound.stepExchs {pan} (h : MemSound s) : MemSound (s.stepExchs pan) :=
  .forEach (fun _ _ h => .stepExch h) h

/-! ### Sched -/

theorem MemSound.setPlace {job table t} (h : MemSound s) : MemSound (s.setPlace job table t) := by
  simp only [State.setPlace]
  split
  · exact .wrTier (.wrTier (.frame (by rfl) h))
  · exact .frame (by rfl) h

theorem MemSound.routeRow {job table srcRank e} (h : MemSound s) : MemSound (s.routeRow job table srcRank e) := by
  simp only [State.routeRow]
  exact .frame (by rfl) (.ite h (.modJob h))

theorem MemSound.placeCommit {job table result} (h : MemSound s) : MemSound (s.placeCommit job table result) :=
  .ite h (.ite (.modJob (.setPlace h)) (.modJob (.alarm h)))

theorem MemSound.devAct {pan w data cause} (h : MemSound s) : MemSound (s.devAct pan w data cause) := by
  simp only [State.devAct]
  split
  · exact h
  · exact .ite (.modDev h) (.modDev (.wrBrick h))

theorem MemSound.actNext {pan d mb slice} (h : MemSound s) : MemSound (s.actNext pan d mb slice) := by
  unfold State.actNext
  split
  · exact h
  · split
    · next taken =>
      split
      · exact .devAct (.ofSnd taken h.takeSlice)
      · exact .ofSnd taken h.takeSlice
    · next taken => exact .ofSnd taken h.takeSlice

theorem MemSound.observeNext {die pan d mb optag} (h : MemSound s) : MemSound (s.observeNext die pan d mb optag) := by
  simp only [State.observeNext]
  split
  · split
    · exact .give (.ite h (.poisonOut h))
    · exact .give h
  · exact h

theorem MemSound.issueArray {die pan d mb slice optag b} (h : MemSound s) :
    MemSound (s.issueArray die pan d mb slice optag b) := by
  simp only [State.issueArray]
  split
  · exact h
  · exact .mxaIssue (.modPan h)

theorem MemSound.startWork {die pan d mb slice optag w} (h : MemSound s) :
    MemSound (s.startWork die pan d mb slice optag w) := by
  simp only [State.startWork]
  split
  · exact .issueArray h
  · exact .attend (.attInputs h)
  · exact .onSeq (fun _ h => .attendTree h) (.seqInputs h)
  · exact .onSeq (fun _ h => .recomputePage h) (.seqInputs h)
  · exact .onSeq (fun _ h => .prefixReuse h) h
  · exact .routeRow h
  · exact .observeNext h
  · exact .actNext h
  · exact .named (fun h => .ite (.dueCommit h) h) (.setPlace h)
  · exact .moveStart h
  · exact h

theorem MemSound.issueOp {die pan d mb slice w} (h : MemSound s) : MemSound (s.issueOp die pan d mb slice w) := by
  unfold State.issueOp
  split
  · exact h
  · next entry => exact .when .freeEntry (.startWork (.when .modPan (h.takeEntry entry)))

theorem MemSound.missed {pan} (h : MemSound s) : MemSound (s.missed pan) := .ite h (.bumpPan (.modPan h))

theorem MemSound.issueOffer {o} (h : MemSound s) : MemSound (s.issueOffer o) := by
  simp only [State.issueOffer]
  split
  · exact h
  · exact .issueOp (.frame (by rfl) h)

theorem MemSound.tryIssue {o d waited} (h : MemSound s) : MemSound (s.tryIssue o d waited) := by
  have offered : MemSound (if s.sch.offers.contains o then s
      else { s with sch := { s.sch with offers := s.sch.offers ++ [o] } }) := .ite h (.frame rfl h)
  simp only [State.tryIssue]
  refine .ite offered (.ite (.bump offered) (.ite (.missed offered) ?_))
  split
  · exact .issueOffer offered
  · exact offered

theorem MemSound.execTileOpIssue {die pan station mb slice waited work} (h : MemSound s) :
    SoundOut (execTileOpIssue die pan station mb slice waited work s) := by
  unfold Machine.execTileOpIssue
  refine .need ?_
  refine .whenThere ?_ ?_
  · exact h
  · split
    · exact .next h
    · exact .next (.tryIssue h)

theorem MemSound.retireOp {die entry cause e} (h : MemSound s) : MemSound (s.retireOp die entry cause e) :=
  .outside (State.retireOp_outside rfl rfl ..) h

theorem MemSound.execTileOpRetire {optag cause} (h : MemSound s) : SoundOut (execTileOpRetire optag cause s) :=
  .next (.ite (.bump h) (.named (fun h => .ite (.stepExchs (.retireOp h)) h) (.ite (.drainArray h) h)))

theorem MemSound.execLocalBoundary {die pan} (h : MemSound s) : SoundOut (execLocalBoundary die pan s) :=
  .whenThere h (.next (.ite (.modPan h) h))

theorem MemSound.applyPending {p} (h : MemSound s) : MemSound (s.applyPending p) :=
  .setF (.setF (.setF (.modPan (.forEach (fun _ _ h => .ite (.applyMode h) h) h))))

theorem MemSound.commitTables {p} (h : MemSound s) : MemSound (s.commitTables p) :=
  .setF (.applyPending (.moveBoundary (.labCommit (.prefixCommit (.forEach (fun _ _ h => .placeCommit h) h)))))

theorem MemSound.releaseOrFence {p} (h : MemSound s) : MemSound (s.releaseOrFence p) :=
  .ite (.releasePan h) (.ite (.panTo h) h)

theorem MemSound.stopIfReady {j} (h : MemSound s) : MemSound (s.stopIfReady j) := by
  unfold State.stopIfReady
  split
  · exact .ite (.finishRef (.modJob h)) h
  · exact h

theorem MemSound.boundary {p ns} (h : MemSound s) : MemSound (s.boundary p ns) :=
  .destroyIfReady (.stopIfReady (.releaseOrFence (.setF (.until (.bistBoundary (.resizeNow (.modPan
    (.checkBoundary (.discardOrphans (.cutAtBoundary (.adoptAtBoundary (.moverFreed (.seqBoundary (.dropSeqFetch
    (.commitTables (.commitBlocks h))))))))))))))))

theorem MemSound.execDone {pan die step ns} (h : MemSound s) : SoundOut (execDone pan die step ns s) :=
  .whenThere h (.next (.ite (.ite (.whenRoom (fun _ h => .boundary (.modPan h)) h) (.modPan h)) h))

theorem MemSound.wakeDie {die p step} (h : MemSound s) : MemSound (s.wakeDie die p step) :=
  .outside (State.wakeDie_outside rfl rfl ..) h

theorem MemSound.execStepRelease {die pan step} (h : MemSound s) : SoundOut (execStepRelease die pan step s) :=
  .whenThere h (.next (.ite (.wakeDie h) h))

theorem MemSound.execBoundaryLate {pan} (h : MemSound s) : SoundOut (execBoundaryLate pan s) :=
  .whenThere h (.next (.ite h (.alarm (.setF (.until h)))))

theorem MemSound.linkPoison {die port t} (h : MemSound s) : MemSound (s.linkPoison die port t) :=
  .outside (State.linkPoison_outside rfl ..) h

theorem MemSound.linkTo {die port st} (h : MemSound s) : MemSound (s.linkTo die port st) :=
  .outside (State.linkTo_outside rfl ..) h

theorem MemSound.execD2dRetrain {die port inFlight rerouted retries} (h : MemSound s) :
    SoundOut (execD2dRetrain die port inFlight rerouted retries s) :=
  .need (.next (.ite h (.named (fun h => .ite h (.frame (by rfl) (.forEach (fun _ _ h => .linkPoison h) (.linkTo
    (.forEach (fun _ _ h => .bump h) h))))) (.bump (.bump h)))))

theorem MemSound.execD2dRetrainDone {die port rerouted} (h : MemSound s) :
    SoundOut (execD2dRetrainDone die port rerouted s) :=
  .need (.next (.ite (.bump (.linkTo h)) h))

theorem MemSound.execD2dRetrainTimeout {die port rerouted} (h : MemSound s) :
    SoundOut (execD2dRetrainTimeout die port rerouted s) :=
  .need (.next (.ite (.forEach (fun _ _ h => .setF h) (.linkTo (.bump (.until h)))) h))

/-! ### Whistle -/

theorem MemSound.gatherRows {g o} (h : MemSound s) : MemSound (s.gatherRows g o) := by
  simp only [State.gatherRows]
  split
  · exact h
  · exact .countsHeld (.setExch h)

theorem MemSound.opResult {g o dead res} (h : MemSound s) : MemSound (s.opResult g o dead res) := by
  unfold State.opResult
  extract_lets b st col recorded tagged counted
  have recordedSound : MemSound recorded := .withCol h
  have taggedSound : MemSound tagged := by
    simp only [tagged]
    split
    · exact .stationResult (.freeEntry recordedSound)
    · exact recordedSound
  have countedSound : MemSound counted := .when .bump taggedSound
  split
  · exact .modPan countedSound
  · exact .modPan countedSound
  · exact .ite countedSound (.endAdoption (.resumeJob (.modCkp countedSound)))
  · exact .gatherRows countedSound
  · exact .wrAt countedSound
  · exact .wrAt countedSound
  · exact countedSound

theorem MemSound.closeOp {o res} (h : MemSound s) : MemSound (s.closeOp o res) := by
  refine .ite (.when .bump (.bump (.withCol h))) (.forEach (fun _ _ h => ?_) (.when .bump (.bump (.withCol h))))
  split
  · exact .sendFb h
  · exact h

theorem MemSound.opFinal {wgroup opnum res l} (h : MemSound s) : MemSound (s.opFinal wgroup opnum res l) := by
  induction l generalizing s with
  | zero =>
    unfold State.opFinal
    split
    · exact h
    · split
      · exact h
      · exact .opResult (.setF (.closeOp h))
  | succ l ih =>
    unfold State.opFinal
    extract_lets closed below
    have closedSound : MemSound closed := by
      simp only [closed]
      split
      · exact .closeOp h
      · exact h
    refine ih ?_
    simp only [below]
    split
    · exact .ite closedSound (.modWring closedSound)
    · exact closedSound

theorem MemSound.settleOp {wgroup opnum n level} (h : MemSound s) : MemSound (s.settleOp wgroup opnum n level) := by
  induction n generalizing s level with
  | zero => exact h
  | succ n ih =>
    unfold State.settleOp
    split
    · exact h
    · split
      · exact h
      · exact .ite h (.ite (.opFinal h) (.ite (ih (.startOp h)) h))

theorem MemSound.settle {level wgroup opnum} (h : MemSound s) : MemSound (s.settle level wgroup opnum) := .settleOp h

theorem MemSound.settleAll {level} (h : MemSound s) : MemSound (s.settleAll level) :=
  .forEach (fun _ _ h => .settle h) h

theorem MemSound.opCell {level c} (h : MemSound s) : MemSound (s.opCell level c) := by
  simp only [State.opCell]
  split
  · exact .ite (.opFinal h) (.settle (.modOp h))
  · exact .ite (.frame (by rfl) h) h

theorem MemSound.deviceDead {dev} (h : MemSound s) : MemSound (s.deviceDead dev) :=
  .forEach (fun _ _ h => .ite (.alarm (.modCkp h)) h) (.forEach (fun _ _ h => .targetDead h) (.forEach
    (fun _ _ h => .ite (.exchDead h) h) h))

theorem MemSound.ringHealth {level} (h : MemSound s) : MemSound (s.ringHealth level) := .ite (.ringTo h) h

theorem MemSound.setMaps {level dead bypass} (h : MemSound s) : MemSound (s.setMaps level dead bypass) := by
  simp only [State.setMaps]
  refine .settleAll (.forEach (fun _ _ h => ?_) (.ringHealth (.setF (.setF h))))
  split
  · exact .deviceDead h
  · exact h

theorem MemSound.fallBack {level} (h : MemSound s) : MemSound (s.fallBack level) :=
  .settleAll (.forEach (fun _ _ h => .named (fun h => .ite h (.fbToMaster h)) (.modWring (.modOp h))) (.ringTo h))

theorem MemSound.nackLost {level lost} (h : MemSound s) : MemSound (s.nackLost level lost) :=
  .ite h (.forEach (fun _ _ h => .ite (.fbToMaster (.modOp h)) (.modWring (.bump (.modOp h)))) h)

theorem MemSound.edgeReports {level} (h : MemSound s) : MemSound (s.edgeReports level) :=
  .ite h (.named (fun h => .ite h (.setMaps h)) (.setWring h))

theorem MemSound.discover {level heard} (h : MemSound s) : MemSound (s.discover level heard) :=
  .setF (.setF (.setF h))

theorem MemSound.cleanFrame {level} (h : MemSound s) : MemSound (s.cleanFrame level) :=
  .named (fun h => .ite (.ite (.ringTo (.discover h)) h) (.ite (.setMaps (.modWring h)) h)) (.setWring h)

theorem MemSound.putCell {level c} (h : MemSound s) : MemSound (s.putCell level c) := .frame (by rfl) h

theorem MemSound.writeSlot {level} (h : MemSound s) : MemSound (s.writeSlot level) := by
  simp only [State.writeSlot]
  split
  · exact .setWring (.forEach (fun _ _ h => .putCell h) h)
  · exact .setWring (.putCell (.forEach (fun _ _ h => .putCell h) h))

theorem MemSound.frameStart {level} (h : MemSound s) : MemSound (s.frameStart level) :=
  .ite h (.named (fun h => .ite (.modWring h) (.writeSlot h)) (.cleanFrame (.nackLost (.edgeReports (.modWring h)))))

theorem MemSound.execFrameStart {level} (h : MemSound s) : SoundOut (execFrameStart level s) :=
  .need (.next (.ite (.frameStart h) h))

theorem MemSound.ctrlIn {level c} (h : MemSound s) : MemSound (s.ctrlIn level c) :=
  .named (fun h => .ite h (.setMaps (.ite (.modWring (.bump h)) h))) (.ite (.setF (.setF h)) h)

theorem MemSound.nackIn {level c} (h : MemSound s) : MemSound (s.nackIn level c) := by
  simp only [State.nackIn]
  split
  · exact h
  · exact .modWring h

theorem MemSound.returned {level pos} (h : MemSound s) : MemSound (s.returned level pos) :=
  .ite (.setMaps (.modWring h)) h

theorem MemSound.goodCell {level c edge} (h : MemSound s) : MemSound (s.goodCell level c edge) := by
  simp only [State.goodCell]
  split
  · exact .modWring h
  · split
    · exact .ite (.modWring h) (.returned (.modWring h))
    · exact .nackIn (.ite (.modWring h) (.returned (.modWring h)))
    · exact .ctrlIn (.ite (.modWring h) (.returned (.modWring h)))
    · exact .opCell (.ite (.modWring h) (.returned (.modWring h)))

theorem MemSound.lostCell {level slot edge} (h : MemSound s) : MemSound (s.lostCell level slot edge) :=
  .modWring (.bump h)

theorem MemSound.cellIn {level slot b off} (h : MemSound s) : MemSound (s.cellIn level slot b off) :=
  .named (fun h => .ite (.lostCell h) (.ite (.lostCell h) (.ite h (.goodCell (.ite (.bump h) h))))) (.peak (.setF h))

theorem MemSound.execCellReceive {level slot bytes offsetPs} (h : MemSound s) :
    SoundOut (execCellReceive level slot bytes offsetPs s) :=
  .need (.next (.ite h (.cellIn h)))

theorem MemSound.execWhistleDeadTimeout {level pos} (h : MemSound s) : SoundOut (execWhistleDeadTimeout level pos s) :=
  .need (.next (.ite h (.setMaps (.modWring (.alarm (.until h))))))

theorem MemSound.execMasterElection {level} (h : MemSound s) : SoundOut (execMasterElection level s) := by
  simp only [Machine.execMasterElection]
  refine .need (.next ?_)
  split
  · exact h
  · split
    · exact .setF (.setF (.until h))
    · exact .until h

theorem MemSound.execRingTrainingTimeout {level} (h : MemSound s) : SoundOut (execRingTrainingTimeout level s) :=
  .need (.next (.ite (.fallBack h) h))

theorem MemSound.execRingFallback {level} (h : MemSound s) : SoundOut (execRingFallback level s) :=
  .need (.next (.ite (.fallBack h) h))

theorem MemSound.execRingRetrainTimer {level success} (h : MemSound s) :
    SoundOut (execRingRetrainTimer level success s) :=
  .need (.next (.ite (.ringTo h) h))

theorem MemSound.fbIn {level src job c} (h : MemSound s) : MemSound (s.fbIn level src job c) := by
  simp only [State.fbIn]
  split
  · split
    · exact .opFinal (.ite (.bump h) (.modOp (.bump h)))
    · exact .bump h
  · split
    · exact .bump h
    · split
      · exact .ite (.sendFb (.bump h)) (.opCell (.bump h))
      · exact .opCell (.bump h)
      · exact .settle (.modOp (.ite (.bump h) (.modWring (.bump h))))

theorem MemSound.execWhistleFb {level p} (h : MemSound s) : SoundOut (execWhistleFb level p s) :=
  .need (.next (.fbIn h))

theorem MemSound.issueWop {g o} (h : MemSound s) : MemSound (s.issueWop g o) := by
  simp only [State.issueWop]
  exact .settle (.issueOp0 h)

theorem MemSound.stationWop {pan d c g o} (h : MemSound s) : MemSound (s.stationWop pan d c g o) :=
  .issueEntry (fun _ _ h => .issueWop h) h

theorem MemSound.whistleExch {pan station d c g} (h : MemSound s) : MemSound (s.whistleExch pan station d c g) :=
  .ite (.stationWop h) (.stationWop h)

theorem MemSound.startExch {pan station op} (h : MemSound s) : MemSound (s.startExch pan station op) := by
  unfold State.startExch
  split
  · exact h
  · exact .ite (.whistleExch h) (.ite (.stepExchs h) (.beginExch h))

theorem MemSound.execAllToAll {pan station} (h : MemSound s) : SoundOut (execAllToAll pan station s) :=
  .next (.startExch h)

theorem MemSound.execAllToAllV {pan station counts} (h : MemSound s) :
    SoundOut (execAllToAllV pan station counts s) := by
  simp only [Machine.execAllToAllV]
  refine .next ?_
  split
  · exact h
  · exact .ite (.stepExchs h) (.named (fun h => .ite (.issueWop (.bump h)) (.countsOverFabric h)) (.deadMembers
      (.beginExch h)))

theorem MemSound.execAllReduce {pan station} (h : MemSound s) : SoundOut (execAllReduce pan station s) :=
  .next (.startExch h)

theorem MemSound.execReduceScatter {pan station} (h : MemSound s) : SoundOut (execReduceScatter pan station s) :=
  .next (.startExch h)

theorem MemSound.execAllGather {pan station} (h : MemSound s) : SoundOut (execAllGather pan station s) :=
  .next (.startExch h)

theorem MemSound.execBroadcast {pan station} (h : MemSound s) : SoundOut (execBroadcast pan station s) :=
  .next (.startExch h)

theorem MemSound.execBarrier {pan station bit} (h : MemSound s) : SoundOut (execBarrier pan station bit s) := by
  unfold Machine.execBarrier
  refine .next ?_
  split
  · exact .issueWop (.modCkp h)
  · split
    · exact h
    · exact .stationWop h

/-! ### Packets -/

theorem MemSound.respond {port p type b status poison} (h : MemSound s) :
    MemSound (s.respond port p type b status poison) :=
  .transmit h

theorem MemSound.refuse {port p reason} (h : MemSound s) : MemSound (s.refuse port p reason) := .out h

theorem MemSound.ackParent {port p} (h : MemSound s) : MemSound (s.ackParent port p) := .offer h

theorem MemSound.guarded {port p a} {f : State → State} (hf : ∀ t, MemSound t → MemSound (f t)) (h : MemSound s) :
    MemSound (s.guarded port p a f) := by
  unfold State.guarded
  split
  · exact hf s h
  · exact .bump h
  · exact .violation (.refuse h)

theorem MemSound.orUnmapped {p n} {f : State → State} (hf : ∀ t, MemSound t → MemSound (f t)) (h : MemSound s) :
    MemSound (s.orUnmapped p n f) :=
  .ite (hf s h) (.bump h)

theorem MemSound.landPacket {p} (h : MemSound s) : MemSound (s.landPacket p) := by
  simp only [State.landPacket]
  split
  · refine .bump (.frame (by rfl) ?_)
    split
    · exact .landWrite (.when (fun h => .hbmTouched h) (.wrTier h))
    · exact .when (fun h => .hbmTouched h) (.wrTier h)
  · split
    · exact .landWrite (.when (fun h => .hbmTouched h) (.wrTier h))
    · exact .when (fun h => .hbmTouched h) (.wrTier h)

theorem MemSound.msopPacket {p} (h : MemSound s) : MemSound (s.msopPacket p) :=
  .ite h (.forEach (fun _ _ h => .msApply h) h)

theorem MemSound.purgeCache (h : MemSound s) : MemSound s.purgeCache := .setFab h

theorem MemSound.atomicPacket {port p} (h : MemSound s) : MemSound (s.atomicPacket port p) := by
  have mapped {n : Nat} : MemSound (s.orUnmapped p n id) := .orUnmapped (fun _ h => h) h
  simp only [State.atomicPacket]
  exact .respond (.setFab (.when .hbmTouched (.iteSnd (.msApply (.ite mapped h)) (.ite mapped h))))

theorem MemSound.setOrd {src vc o} (h : MemSound s) : MemSound (s.setOrd src vc o) := .setFab h

theorem MemSound.answerFences {port} (h : MemSound s) : MemSound (s.answerFences port) :=
  .forEach (fun _ _ h => .respond h) (.setFab h)

theorem MemSound.epochPacket {p} (h : MemSound s) : MemSound (s.epochPacket p).1 := by
  simp only [State.epochPacket]
  split
  · exact .applyChange h
  · exact .streamPiece h
  · exact .reported h

theorem MemSound.applyReq {port p} (h : MemSound s) : MemSound (s.applyReq port p).1 := by
  unfold State.applyReq
  split
  · exact .guarded (fun _ h => .respond (.orUnmapped (fun _ h => h) h)) h
  · exact .guarded (fun _ h => .respond (.orUnmapped (fun _ h => .landPacket h) h)) h
  · exact .guarded (fun _ h => .respond (.orUnmapped (fun _ h => .msopPacket h) h)) h
  · dsimp only
    split
    · exact .respond (.purgeCache h)
    · exact .iteFst (.refuse (.bump (.purgeCache h))) (.guarded (fun _ h => .atomicPacket h) (.purgeCache h))
  · exact .setFab h
  · exact .guarded (fun _ h => .respond (.collIn h)) h
  · exact .guarded (fun _ h => .respond (.epochPacket h)) h
  · exact .setFab h

theorem MemSound.drainHeld {src vc n} (h : MemSound s) : MemSound (drainHeld src vc n s) := by
  induction n generalizing s with
  | zero => exact h
  | succ n ih =>
    simp only [Machine.drainHeld]
    split
    · exact h
    · exact .ite (ih (.setOrd (.applyReq (.setOrd h)))) (.applyReq (.setOrd h))

theorem MemSound.duplicate {port p} (h : MemSound s) : MemSound (s.duplicate port p) := by
  simp only [State.duplicate]
  split
  · exact .applyReq (.bump h)
  · split
    · exact .respond (.purgeCache (.bump h))
    · exact .purgeCache (.bump h)
  · exact .respond (.bump h)
  · exact .bump h
  · exact .respond (.bump h)

theorem MemSound.ordered {port p} (h : MemSound s) : MemSound (s.ordered port p) := by
  simp only [State.ordered]
  exact .ite (.when (fun h => .answerFences (.drainHeld (.setOrd h))) (.applyReq h)) (.ite (.ite h (.ite
    (.refuse (.bump h)) (.setOrd h))) (.ite (.duplicate h) (.refuse h)))

theorem MemSound.relayDown {port p answer} (h : MemSound s) : MemSound (s.relayDown port p answer) :=
  .named (fun h => .ite h (.ite (.ackParent h) (.setFab h))) (.forEach (fun _ _ h => .offer h) (.ite (.bump h) h))

theorem MemSound.bcastWrite {port p} (h : MemSound s) : MemSound (s.bcastWrite port p) :=
  .relayDown (.guarded (fun _ h => .orUnmapped (fun _ h => .landPacket h) h) h)

theorem MemSound.bootCheck {port p} (h : MemSound s) : MemSound (s.bootCheck port p).1 :=
  .iteFst (.bump h) (.setFab h)

theorem MemSound.takeIn {p} (h : MemSound s) : MemSound (s.takeIn p).2 := by
  simp only [State.takeIn]
  split
  · exact .setFab h
  · exact h

theorem MemSound.arrive {p} {f : State → Nat → State} (hf : ∀ t port, MemSound t → MemSound (f t port))
    (h : MemSound s) : MemSound (s.arrive p f) := by
  simp only [State.arrive]
  split
  · exact .violation (.refuse (.takeIn h))
  · split
    · exact hf _ _ (.bootCheck (.takeIn h))
    · exact .bootCheck (.takeIn h)

theorem MemSound.request1 {p type} (h : MemSound s) : MemSound (s.request1 p type) := by
  simp only [State.request1]
  exact .arrive (fun _ _ h => .ite (.bcastWrite h) (.ordered h)) (.frame (by rfl) (.takeIn h))

theorem MemSound.execRead {p} (h : MemSound s) : SoundOut (execRead p s) := .next (.request1 h)

theorem MemSound.execWrite {p} (h : MemSound s) : SoundOut (execWrite p s) := .next (.request1 h)

theorem MemSound.execMsop {p} (h : MemSound s) : SoundOut (execMsop p s) := .next (.request1 h)

theorem MemSound.execAtomic {p} (h : MemSound s) : SoundOut (execAtomic p s) := .next (.request1 h)

theorem MemSound.execFence {p} (h : MemSound s) : SoundOut (execFence p s) := .next (.request1 h)

theorem MemSound.execEpoch {p} (h : MemSound s) : SoundOut (execEpoch p s) := .next (.request1 h)

theorem MemSound.execTelem {p} (h : MemSound s) : SoundOut (execTelem p s) := .next (.request1 h)

theorem MemSound.execCollDone {p} (h : MemSound s) : SoundOut (execCollDone p s) := .next (.request1 h)

theorem MemSound.complete {idx r answer} (h : MemSound s) : MemSound (s.complete idx r answer) := by
  simp only [State.complete]
  split
  · exact .chunkAck (.endReq h)
  · exact .claimAnswer (.endReq h)
  · exact .endReq h
  · exact .endReq h

theorem MemSound.treeAck {p} (h : MemSound s) : MemSound (s.treeAck p) := by
  simp only [State.treeAck]
  split
  · exact h
  · split
    · exact .setFab h
    · split
      · exact .ackParent (.setFab h)
      · split
        · exact .when (fun h => .complete h) (.setFab h)
        · exact .setFab h

theorem MemSound.response1 {p type keep} (h : MemSound s) : MemSound (s.response1 p type keep) := by
  simp only [State.response1]
  split
  · exact .bootCheck (.takeIn h)
  · split
    · exact .treeAck (.bootCheck (.takeIn h))
    · split
      · exact .ite (.complete (.when (fun h => .frame (by rfl) h) (.bootCheck (.takeIn h)))) (.bump (.bootCheck
          (.takeIn h)))
      · exact .bump (.bootCheck (.takeIn h))

theorem MemSound.execReadRsp {p} (h : MemSound s) : SoundOut (execReadRsp p s) := .next (.response1 h)

theorem MemSound.execWriteAck {p} (h : MemSound s) : SoundOut (execWriteAck p s) := .next (.response1 h)

theorem MemSound.execAtomicRsp {p} (h : MemSound s) : SoundOut (execAtomicRsp p s) := .next (.response1 h)

theorem MemSound.execFenceAck {p} (h : MemSound s) : SoundOut (execFenceAck p s) := .next (.response1 h)

theorem MemSound.remoteEnd {idx} (h : MemSound s) : MemSound (s.remoteEnd idx) := by
  simp only [State.remoteEnd]
  split
  · exact h
  · split
    · exact .endReq h
    · exact .endReq h
    · exact .claimAnswer (.endReq h)
    · split
      · exact .exchDead (.endReq h)
      · exact .endReq h

theorem MemSound.execTierTimeout {req} (h : MemSound s) : SoundOut (execTierTimeout req s) := by
  unfold Machine.execTierTimeout
  refine .next ?_
  split
  · exact h
  · split
    · exact h
    · split
      · exact .remoteEnd (.tierTimeout h)
      · exact .tierTimeout h

/-! ### Clock -/

theorem MemSound.setClk {c} (h : MemSound s) : MemSound (s.setClk c) := .frame (State.setClk_mem ..) h

theorem MemSound.tick (h : MemSound s) : MemSound s.tick :=
  .ite (.frame (by rfl) h) (.ite (.frame (by rfl) h) (.ite (.frame (by rfl) h) (.frame (by rfl) h)))

theorem MemSound.correct {off} (h : MemSound s) : MemSound (s.correct off) :=
  .ite (.frame (by rfl) h) (.named (fun h => .ite (.alarm h) h) (.setClk h))

theorem MemSound.execGptpSync {hd offsetNs} (h : MemSound s) : SoundOut (execGptpSync hd offsetNs s) :=
  .need (.next (.ite h (.named (fun h => .ite (.correct (.setF h)) h) (.setF (.setF (.setF h))))))

theorem MemSound.execTimeHoldover {hd} (h : MemSound s) : SoundOut (execTimeHoldover hd s) :=
  .need (.next (.ite (.named (fun h => .alarm (.ite (.setF h) h)) (.setF (.setF h))) h))

theorem MemSound.sendTimeOut (h : MemSound s) : MemSound s.sendTimeOut := .sendReq h

theorem MemSound.execFabricTime {src time halfRtt} (h : MemSound s) : SoundOut (execFabricTime src time halfRtt s) :=
  .next (.ite h (.ite (.sendTimeOut h) (.correct (.setF h))))

theorem MemSound.execPpsPulse (h : MemSound s) : SoundOut (execPpsPulse s) := .next (.ite (.setClk (.until h)) h)

theorem MemSound.setRole {hd r} (h : MemSound s) : MemSound (s.setRole hd r) :=
  .outside (State.setRole_outside rfl ..) h

theorem MemSound.renewed {hd} (h : MemSound s) : MemSound (s.renewed hd) := .setClk h

theorem MemSound.saw {hd} (h : MemSound s) : MemSound (s.saw hd) := .setClk h

theorem MemSound.heard {hd} (h : MemSound s) : MemSound (s.heard hd) := .saw (.renewed h)

theorem MemSound.view {hd term} (h : MemSound s) : MemSound (s.view hd term) := .setF h

theorem MemSound.unkeep {hd} (h : MemSound s) : MemSound (s.unkeep hd) := .outside (State.unkeep_outside rfl rfl ..) h

theorem MemSound.fence {hd term} (h : MemSound s) : MemSound (s.fence hd term) := .bump (.view (.setF (.unkeep h)))

theorem MemSound.sendRenew {hd} (h : MemSound s) : MemSound (s.sendRenew hd) := .renewed (.setClk h)

theorem MemSound.win {hd} (h : MemSound s) : MemSound (s.win hd) := .setF (.setF (.view (.setRole (.setClk h))))

theorem MemSound.execRenew {hd} (h : MemSound s) : SoundOut (execRenew hd s) :=
  .need (.next (.ite h (.ite (.fence h) (.sendRenew h))))

theorem MemSound.execRenewReceive {hd term} (h : MemSound s) : SoundOut (execRenewReceive hd term s) := by
  unfold Machine.execRenewReceive
  refine .need (.next ?_)
  split
  · exact h
  · split
    · exact .ite (.heard (.fence h)) h
    · exact .heard (.view h)
    · exact .ite (.heard (.view (.setRole h))) h

theorem MemSound.execLeaseTimeout {hd healthy} (h : MemSound s) : SoundOut (execLeaseTimeout hd healthy s) :=
  .need (.next (.ite h (.named (fun h => .ite (.setRole h) h) (.until h))))

theorem MemSound.applyClaim {hd} (h : MemSound s) : MemSound (s.applyClaim hd) :=
  .ite h (.named (fun h => .ite (.bump (.sendRenew (.win h))) (.bump (.view (.setRole h)))) (.saw h))

theorem MemSound.execWitnessCas {claims} (h : MemSound s) : SoundOut (execWitnessCas claims s) :=
  .next (.forEach (fun _ _ h => .applyClaim h) h)

theorem MemSound.yieldLease {hd} (h : MemSound s) : MemSound (s.yieldLease hd) :=
  .outside (State.yieldLease_outside rfl rfl ..) h

theorem MemSound.execStewardWatchdog {hd} (h : MemSound s) : SoundOut (execStewardWatchdog hd s) :=
  .need (.next (.yieldLease h))

theorem MemSound.execHostDieLost (h : MemSound s) : SoundOut (execHostDieLost s) :=
  .next (.ite h (.alarm (.setClk (.unkeep h))))

theorem MemSound.aonKept {cold advance cause} (h : MemSound t) : MemSound (s.aonKept cold advance cause t) :=
  .ite (.setF (.setF h)) (.setF (.setF (.setF (.setF (.setF h)))))

theorem MemSound.afterReset {cause advance} (h : MemSound s) : MemSound (s.afterReset cause advance) :=
  .aonKept (h.filter rfl)

theorem MemSound.atStep {n} (h : MemSound s) : MemSound (s.atStep n) := .outside (State.atStep_outside rfl ..) h

theorem MemSound.bootFails {code} (h : MemSound s) : MemSound (s.bootFails code) := .setClk h

theorem MemSound.unitFails {block} (h : MemSound s) : MemSound (s.unitFails block) :=
  .outside (State.unitFails_outside rfl rfl rfl ..) h

theorem MemSound.boot6 {b} (h : MemSound s) : MemSound (s.boot6 b) :=
  .outside (State.boot6_outside rfl rfl rfl rfl rfl rfl rfl ..) h

theorem MemSound.trainHbm {t} (h : MemSound s) : MemSound (s.trainHbm t).2 := by
  simp only [State.trainHbm]
  exact .forEach (fun _ _ h => .setF (.setF h)) h

theorem MemSound.trainLpd {t} (h : MemSound s) : MemSound (s.trainLpd t) :=
  .setB (.setB (.forEach (fun _ _ h => .ite (.setF (.setF (.setB (.setF (.setF h))))) (.setF h)) h))

theorem MemSound.formatFlash {t fd gib} (h : MemSound s) : MemSound (s.formatFlash t fd gib) :=
  .flashWear (.flashSpare (.setF (.setF (.ite (.setFlash h) (.setFlash h)))))

theorem MemSound.trainOnfi {t} (h : MemSound s) : MemSound (s.trainOnfi t) :=
  .formatFlash (.formatFlash (.forEach (fun _ _ h => .ite (.setF (.setF (.setB (.setF h)))) (.setF h)) h))

theorem MemSound.boot5 {b} (h : MemSound s) : MemSound (s.boot5 b) := by
  simp only [State.boot5]
  exact .named (fun h => .ite (.bootFails (.draw h)) (.ite (.boot6 h) (.setClk (.atStep h)))) (.trainOnfi (.trainLpd
    (.trainHbm (.atStep h))))

theorem MemSound.firstLease (h : MemSound s) : MemSound s.firstLease := .win (.view (.view h))

theorem MemSound.boot4 {b} (h : MemSound s) : MemSound (s.boot4 b) := by
  simp only [State.boot4]
  exact .named (fun h => .ite (.boot5 (.firstLease (.setClk h))) (.bootFails (.draw h))) (.atStep h)

theorem MemSound.boot3 {b} (h : MemSound s) : MemSound (s.boot3 b) :=
  .named (fun h => .ite (.boot4 h) (.setClk h)) (.setClk (.atStep h))

theorem MemSound.execColdReset {boot} (h : MemSound s) : SoundOut (execColdReset boot s) :=
  .next (.boot3 (.setClk (.afterReset h)))

theorem MemSound.execWarmReset {byPin boot} (h : MemSound s) : SoundOut (execWarmReset byPin boot s) :=
  .next (.boot3 (.afterReset h))

theorem MemSound.execBootStepTimeout (h : MemSound s) : SoundOut (execBootStepTimeout s) := by
  simp only [Machine.execBootStepTimeout]
  exact .next (.ite h (.bootFails (.draw h)))

theorem MemSound.execVin48Arrival {boot} (h : MemSound s) : SoundOut (execVin48Arrival boot s) :=
  .next (.ite (.boot3 h) (.setClk h))

theorem MemSound.numberArrives {boot} (h : MemSound s) : MemSound (s.numberArrives boot) :=
  .outside (State.numberArrives_outside rfl rfl rfl rfl rfl rfl rfl ..) h

theorem MemSound.execPerstRelease {hd} (h : MemSound s) : SoundOut (execPerstRelease hd s) :=
  .need (.next (.setClk h))

theorem MemSound.execVin48Fault {milliVolts us} (h : MemSound s) : SoundOut (execVin48Fault milliVolts us s) :=
  .next (.ite (.boot3 (.afterReset h)) h)

theorem MemSound.execVsb33Fault {us} (h : MemSound s) : SoundOut (execVsb33Fault us s) :=
  .next (.ite (.setClk (.afterReset h)) h)

theorem MemSound.setDuty {p v} (h : MemSound s) : MemSound (s.setDuty p v) := .bump (.setF h)

theorem MemSound.yieldPower {p} (h : MemSound s) : MemSound (s.yieldPower p) := by
  simp only [State.yieldPower]
  split
  · exact h
  · exact .alarm (.setF (.bump h))

theorem MemSound.lowerDuty {f} (h : MemSound s) (ht : s.lowerDuty f = some t) : MemSound t := by
  unfold State.lowerDuty at ht
  split at ht
  · cases ht
  · cases ht
    exact .yieldPower (.setDuty h)

theorem MemSound.raiseDuty (h : MemSound s) : MemSound s.raiseDuty := by
  unfold State.raiseDuty
  split
  · exact h
  · exact .setDuty h

theorem MemSound.execPowerCompare {watts} (h : MemSound s) : SoundOut (execPowerCompare watts s) := by
  refine .next (.ite ?_ (.ite (.when .raiseDuty (.setClk (.setF h))) (.setClk (.setF h))))
  dsimp only
  split
  · next lowered => exact (MemSound.setClk (.setF h)).lowerDuty lowered
  · exact .alarm (.bump (.setClk (.setF h)))

theorem MemSound.dieOff {die} (h : MemSound s) : MemSound (s.dieOff die) := h.filter rfl

theorem MemSound.tripDie {die} (h : MemSound s) : MemSound (s.tripDie die) :=
  .frame (by rfl) (.aonKept (.dieOff (.forEach (fun _ _ h => .faultJob h) h)))

theorem MemSound.tripHost (h : MemSound s) : MemSound s.tripHost := .setClk (.afterReset h)

theorem MemSound.execThermalSample {die temp watts} (h : MemSound s) :
    SoundOut (execThermalSample die temp watts s) :=
  .need (.next (.ite (.ite (.tripHost (.setF (.setF (.setF h)))) (.tripDie (.setF (.setF (.setF h)))))
    (.ite (.getD (fun _ lowered => MemSound.lowerDuty (.setClk (.setF (.setF (.setF h)))) lowered)
      (.setClk (.setF (.setF (.setF h))))) (.setClk (.setF (.setF (.setF h)))))))

/-! ### Images -/

theorem MemSound.tableFull {ws w} (h : MemSound s) : MemSound (s.tableFull ws w) := .ite (.alarm h) h

theorem MemSound.imageRefused {c ws reason w} (h : MemSound s) : MemSound (s.imageRefused c ws reason w) :=
  .finish (.setF (.ite (.tableFull h) h))

theorem MemSound.imageBegin {c ws hd key w} (h : MemSound s) : MemSound (s.imageBegin c ws hd key w) :=
  .beginCmd (.withEpc (.setF (.setF (.issueEpoch h))))

theorem MemSound.sendPayload {ws e b} (h : MemSound s) : MemSound (s.sendPayload ws e b) := by
  unfold State.sendPayload
  split
  · exact h
  · exact .forEach (fun _ _ h => .forEach (fun _ _ h => .sendWeights h) h) h

theorem MemSound.copyBase {c ws src w} (h : MemSound s) : MemSound (s.copyBase c ws src w) := by
  simp only [State.copyBase]
  split
  · exact .finish h
  · exact .ite (.finish h) (.ite (.imageRefused h) (.ite (.imageRefused h) (.finish (.confirmEpoch (.sendPayload
      (.wrTier (.issueEpoch h)))))))

theorem MemSound.execImageLoad {cmd header} (h : MemSound s) : SoundOut (execImageLoad cmd header s) := by
  simp only [Machine.execImageLoad]
  refine .next (.onCmd (fun _ _ h => ?_) h)
  split
  · exact h
  · split
    · exact .finish h
    · split
      · exact .finish h
      · split
        · exact .copyBase h
        · split
          · exact .imageRefused h
          · exact .imageBegin h

theorem MemSound.payloadFail {w i reason} (h : MemSound s) : MemSound (s.payloadFail w i reason) :=
  .retractEpoch (.failImage h)

theorem MemSound.imageChunk {w i data tag} (h : MemSound s) : MemSound (s.imageChunk w i data tag) := by
  simp only [State.imageChunk]
  split
  · exact .payloadFail (.countSealed h)
  · exact .named (fun h => .ite h (.ite (.payloadFail h) (.finishRef (.confirmEpoch (.setF (.frame (by rfl) h))))))
      (.setF (.frame (by rfl) (.forEach (fun _ _ h => .sendWeights h) (.wrTier (.ite (.countSealed h) h)))))

theorem MemSound.execImageChunk {ws data tag} (h : MemSound s) : SoundOut (execImageChunk ws data tag s) := by
  unfold Machine.execImageChunk
  split
  · exact .next h
  · refine .next ?_
    split
    · exact .ite (.whenRoom (fun _ h => .imageChunk h) h) h
    · exact h

theorem MemSound.fresh (h : MemSound s) : MemSound s.fresh.2 := by
  simp only [State.fresh]
  exact .frame (by rfl) h

theorem MemSound.snapImage {w epoch step payload rcpt} (h : MemSound s) :
    MemSound (s.snapImage w epoch step payload rcpt).2 := by
  unfold State.snapImage
  split
  · exact h
  · rcases e1 : s.fresh with ⟨b, s1⟩
    rcases e2 : s1.fresh with ⟨x, s2⟩
    dsimp only
    rw [e2]
    exact .ofSnd e2 (.fresh (.ofSnd e1 h.fresh))

theorem MemSound.snapOut {job dest device b} (h : MemSound s) : MemSound (s.snapOut job dest device b) :=
  .ite (.hostWrite h) (.forEach (fun _ _ h => .issue h) h)

theorem MemSound.execSnapshot {cmd} (h : MemSound s) : SoundOut (execSnapshot cmd s) := by
  simp only [Machine.execSnapshot]
  refine .next (.onCmd (fun _ _ h => ?_) h)
  split
  · exact .finish h
  · exact .ite (.finish h) (.ite (.finish h) (.ite (.finish h) (.finish (.snapOut (.setF (.snapImage h))))))

theorem MemSound.execPublish {cmd} (h : MemSound s) : SoundOut (execPublish cmd s) := by
  simp only [Machine.execPublish]
  refine .next (.onCmd (fun _ _ h => ?_) h)
  split
  · exact .finish h
  · split
    · exact .finish h
    · split
      · exact .finish h
      · exact .beginCmd (.modPan h)

theorem MemSound.execRetract {cmd} (h : MemSound s) : SoundOut (execRetract cmd s) := by
  simp only [Machine.execRetract]
  refine .next (.onCmd (fun _ _ h => ?_) h)
  split
  · exact .finish h
  · split
    · exact .finish h
    · split
      · refine .finish (.retractEpoch ?_)
        split
        · exact .ite h (.epochSend h)
        · exact h
      · exact .finish h

/-! ### Load -/

theorem MemSound.loadShared {c} (h : MemSound s) : MemSound (s.loadShared c) := by
  simp only [State.loadShared]
  refine .setB (.setB (.loadGates (.loadScheds ?_)))
  split
  · refine .loadTiers ?_
    split
    · exact .loadWeights h
    · exact h
  · split
    · exact .loadWeights h
    · exact h

theorem MemSound.applyWhole {o c} (h : MemSound s) : MemSound (s.applyWhole o c) := by
  simp only [State.applyWhole]
  refine .forEach (fun _ _ h => .jobTo (.keepContent h)) (.countBases (.forEach (fun _ _ h => .panTo h) (.forEach
    (fun _ _ h => .lockBlocks h) ?_)))
  split
  · exact .loadSecurity (.loadShared (.forEach (fun _ _ h => .fillPan h) (.forEach (fun _ _ h => .loadJob h) (.forEach
      (fun _ _ h => .openPan h) (.forEach (fun _ _ h => .jobTo h) h)))))
  · exact .loadShared (.forEach (fun _ _ h => .fillPan h) (.forEach (fun _ _ h => .loadJob h) (.forEach
      (fun _ _ h => .openPan h) (.forEach (fun _ _ h => .jobTo h) h))))

theorem MemSound.applyPerPan {o c d} (h : MemSound s) : MemSound (s.applyPerPan o c d) :=
  .named (fun h => .jobTo (.modCkp (.keepContent (.countBases (.panTo (.loadPanSections (.fillPan
    (.forEach (fun _ _ h => .loadJob h) (.openPan (.ite h (.freePan h))))))))))) (.jobTo h)

theorem MemSound.loadRefused {c i job f} (h : MemSound s) : MemSound (s.loadRefused c i job f) :=
  .finish (.bump (.setF (.setF (.setF (.audit1 h)))))

theorem MemSound.loadPassed {c i job cl} (h : MemSound s) : MemSound (s.loadPassed c i job cl) :=
  .bump (.auditClamps (.audit1 h))

theorem MemSound.keepDigest {i} (h : MemSound s) : MemSound (s.keepDigest i) := .frame (by rfl) h

theorem MemSound.execWholeLoad {cmd image} (h : MemSound s) : SoundOut (execWholeLoad cmd image s) := by
  simp only [Machine.execWholeLoad]
  refine .next (.onCmd (fun _ _ h => ?_) h)
  split
  · exact h
  · split
    · exact .loadRefused h
    · exact .ite h (.finish (.keepDigest (.applyWhole (.loadPassed h))))

theorem MemSound.execPerPanLoad {cmd image} (h : MemSound s) : SoundOut (execPerPanLoad cmd image s) := by
  simp only [Machine.execPerPanLoad]
  refine .next (.onCmd (fun _ _ h => ?_) h)
  split
  · exact h
  · split
    · exact .loadRefused h
    · exact .ite h (.finish (.forEach (fun _ _ h => .applyPerPan h) (.loadPassed h)))

theorem MemSound.beginResize {c x} (h : MemSound s) : MemSound (s.beginResize c x) :=
  .forEach (fun _ _ h => .named (fun h => .ite (.resizeNow h) h) (.modPan (.placeAdded h))) (.setCmd h)

theorem MemSound.execResize {cmd image} (h : MemSound s) : SoundOut (execResize cmd image s) := by
  simp only [Machine.execResize]
  refine .next (.onCmd (fun _ _ h => ?_) h)
  split
  · exact h
  · split
    · exact .loadRefused h
    · exact .ite h (.beginResize (.loadPassed h))

theorem MemSound.execKeyLoad {cmd blob} (h : MemSound s) : SoundOut (execKeyLoad cmd blob s) := by
  simp only [Machine.execKeyLoad]
  refine .next (.onCmd (fun _ _ h => ?_) h)
  split
  · exact .finish (.bump (.clampCmd h))
  · exact .ite (.finish (.bump (.clampCmd h))) (.finish (.addKey (.clampCmd h)))

theorem MemSound.execLock {cmd} (h : MemSound s) : SoundOut (execLock cmd s) :=
  .next (.onCmd (fun _ _ h => .finish (.lockBlocks h)) h)

/-! ### Jobs -/

theorem MemSound.execJobCreate {cmd} (h : MemSound s) : SoundOut (execJobCreate cmd s) := by
  simp only [Machine.execJobCreate]
  refine .next (.onCmd (fun _ _ h => ?_) h)
  split
  · exact .finish h
  · exact .ite (.finish h) (.finish (.jobTo (.setJob h)))

theorem MemSound.execJobStart {cmd} (h : MemSound s) : SoundOut (execJobStart cmd s) :=
  .next (.onCmd (fun _ _ h => .ite (.finish h) (.finish (.forEach (fun _ _ h => .startPan h) (.jobTo h)))) h)

theorem MemSound.quiesceJob {j} (h : MemSound s) : MemSound (s.quiesceJob j) := .forEach (fun _ _ h => .panTo h) h

theorem MemSound.execJobStop {cmd} (h : MemSound s) : SoundOut (execJobStop cmd s) :=
  .next (.onCmd (fun _ _ h => .ite (.stopIfReady (.beginCmd (.modJob (.quiesceJob (.jobTo h))))) (.ite h
    (.finish h))) h)

theorem MemSound.execJobDestroy {cmd} (h : MemSound s) : SoundOut (execJobDestroy cmd s) :=
  .next (.onCmd (fun _ _ h => .ite h (.ite (.finish h) (.destroyIfReady (.quiesceJob (.spinWorlds (.beginCmd
    (.modJob h))))))) h)

theorem MemSound.execIndexQuarantineExpiry {isJob idx} (h : MemSound s) :
    SoundOut (execIndexQuarantineExpiry isJob idx s) :=
  .need (.next (.ite (.ite h (.setJob (.until h))) (.ite h (.setPan (.until h)))))

theorem MemSound.execSeqCancel {cmd} (h : MemSound s) : SoundOut (execSeqCancel cmd s) :=
  .next (.onCmd (fun _ _ h => .ite (.finish (.bump h)) (.finish (.cancelSeq h))) h)

theorem MemSound.execSummary {cmd} (h : MemSound s) : SoundOut (execSummary cmd s) :=
  .next (.onCmd (fun _ _ h => .finish (.hostWrite h)) h)

theorem MemSound.execLogRead {cmd} (h : MemSound s) : SoundOut (execLogRead cmd s) := by
  simp only [Machine.execLogRead]
  exact .next (.onCmd (fun _ _ h => .finish (.hostWrite (.clampCmd h))) h)

/-! ### Checkpoint -/

theorem MemSound.execCheckpointEnable {cmd} (h : MemSound s) : SoundOut (execCheckpointEnable cmd s) :=
  .next (.onCmd (fun _ _ h => .ite h (.ite (.finish h) (.ite (.finish h) (.finish (.modCkp (.setF h)))))) h)

theorem MemSound.execCheckpointDisable {cmd} (h : MemSound s) : SoundOut (execCheckpointDisable cmd s) := by
  simp only [Machine.execCheckpointDisable]
  exact .next (.onCmd (fun _ _ h => .ite h (.finish (.modCkp (.setF (.clampCmd h))))) h)

theorem MemSound.execCheckpointDurable {cmd} (h : MemSound s) : SoundOut (execCheckpointDurable cmd s) :=
  .next (.onCmd (fun _ _ h => .ite h (.beginCmd (.modCkp h))) h)

theorem MemSound.execProtectedWrite {job shard extent} (h : MemSound s) :
    SoundOut (execProtectedWrite job shard extent s) := by
  simp only [Machine.execProtectedWrite]
  refine .next ?_
  split
  · exact h
  · exact .ite h (.ite (.setCkp h) (.bump h))

theorem MemSound.resendShard {j i d c} (h : MemSound s) : MemSound (s.resendShard j i d c) := by
  unfold State.resendShard
  split
  · exact h
  · split
    · exact h
    · exact .toBuddy h

theorem MemSound.execShardAck {job shard digest} (h : MemSound s) : SoundOut (execShardAck job shard digest s) := by
  simp only [Machine.execShardAck]
  refine .next ?_
  split
  · exact .ite h (.ite (.setCkp h) (.named (fun h => .ite (.resendShard h) (.alarm (.modCkp h))) (.bump (.setCkp h))))
  · exact h

theorem MemSound.toFlash {off b} (h : MemSound s) : MemSound (s.toFlash off b) := .flashTouch (.wrTier h)

theorem MemSound.flashShards {j c} (h : MemSound s) : MemSound (s.flashShards j c) := by
  simp only [State.flashShards]
  refine .forEach (fun _ _ h => ?_) h
  split
  · exact h
  · split
    · exact h
    · exact .toFlash h

theorem MemSound.execDurableWrite {job} (h : MemSound s) : SoundOut (execDurableWrite job s) := by
  simp only [Machine.execDurableWrite]
  refine .next ?_
  split
  · exact h
  · exact .ite h (.forEach (fun _ _ h => .finishRef h) (.setF (.setCkp (.toFlash (.flashShards h)))))

theorem MemSound.placeAgain {o c} (h : MemSound s) : MemSound (s.placeAgain o c) :=
  .countBases (.forEach (fun _ _ h => .panTo h) (.loadPanSections (.forEach (fun _ _ h => .fillPan h) (.forEach
    (fun _ _ h => .openPan h) h))))

theorem MemSound.restoreJob {j d newest} (h : MemSound s) : MemSound (s.restoreJob j d newest) :=
  .resumeJob (.stopIfReady (.modCkp (.restoreCut (.enterRestore h))))

theorem MemSound.execRestore {cmd presentEverywhere newest} (h : MemSound s) :
    SoundOut (execRestore cmd presentEverywhere newest s) := by
  simp only [Machine.execRestore]
  refine .next (.onCmd (fun _ _ h => ?_) h)
  split
  · exact .finish h
  · split
    · exact .finish h
    · exact .ite (.finish (.restoreJob h)) (.ite (.finish h) (.ite h (.finish (.restoreJob (.placeAgain h)))))

theorem MemSound.sendMsg {kind dest words bytes} (h : MemSound s) : MemSound (s.sendMsg kind dest words bytes) :=
  .frame (by rfl) h

theorem MemSound.execFind {src failed job rank} (h : MemSound s) : SoundOut (execFind src failed job rank s) := by
  simp only [Machine.execFind]
  refine .next ?_
  split
  · exact h
  · split
    · exact h
    · exact .sendMsg (.drawBytes h)

theorem MemSound.replaceIn {maps key g old new} (h : MemSound s) : MemSound (s.replaceIn maps key g old new) := by
  simp only [State.replaceIn]
  refine .frame (by rfl) ?_
  split
  · exact h
  · exact .draw (w := 6) h

theorem MemSound.replaceHolder {j old new} (h : MemSound s) : MemSound (s.replaceHolder j old new) :=
  .frame (by rfl) h

theorem MemSound.replaceDevice {maps j old new} (h : MemSound s) : MemSound (s.replaceDevice maps j old new) :=
  .forEach (fun _ _ h => .replaceIn h) (.replaceHolder h)

theorem MemSound.joinAdoption {j w newest} (h : MemSound s) : MemSound (s.joinAdoption j w newest) :=
  .stopIfReady (.modCkp (.restoreCut (.enterRestore h)))

theorem MemSound.execAdopt {src job failed rank newest maps} (h : MemSound s) :
    SoundOut (execAdopt src job failed rank newest maps s) := by
  simp only [Machine.execAdopt]
  refine .next (.whenRoom (fun _ h => ?_) h)
  split
  · exact h
  · split
    · exact .faultJob h
    · split
      · exact .faultJob (.when (fun h => .modCkp h) (.replaceDevice h))
      · exact .joinAdoption (.when (fun h => .modCkp h) (.replaceDevice h))

theorem MemSound.adoptJob {o j f c rank} (h : MemSound s) : MemSound (s.adoptJob o j f c rank) :=
  .jobTo (.keepContent (.placeAgain (.forEach (fun _ _ h => .loadJob h) (.jobTo (.jobTo (.setJob h))))))

theorem MemSound.beginAdoption {c job rank failed} (h : MemSound s) : MemSound (s.beginAdoption c job rank failed) :=
  .sendMsg (.beginCmd (.frame (by rfl) h))

theorem MemSound.adoptFound {c a f} (h : MemSound s) : MemSound (s.adoptFound c a f) := by
  simp only [State.adoptFound]
  split
  · exact .finish (.frame (by rfl) h)
  · exact .ite (.finish (.frame (by rfl) h)) (.named (fun h => .ite (.endAdoption (.faultJob h)) (.joinAdoption
      (.modCkp h))) (.forEach (fun _ _ h => .sendMsg h) (.setF (.adoptJob (.frame (by rfl) h)))))

theorem MemSound.execSpareAdopt {cmd found} (h : MemSound s) : SoundOut (execSpareAdopt cmd found s) := by
  unfold Machine.execSpareAdopt
  refine .next ?_
  split
  · exact h
  · split
    · exact h
    · split
      · exact .ite (.adoptFound h) h
      · exact .ite h (.finish h)
      · exact .ite (.beginAdoption h) (.finish h)
      · exact .ite h (.finish h)

theorem MemSound.execFindTimeout (h : MemSound s) : SoundOut (execFindTimeout s) := by
  simp only [Machine.execFindTimeout]
  refine .next ?_
  split
  · exact h
  · exact .ite h (.finishRef (.frame (by rfl) h))

theorem MemSound.execAdoptionVoteTimeout {job rank} (h : MemSound s) : SoundOut (execAdoptionVoteTimeout job rank s) :=
  .next (.whenRoom (fun _ h => .ite (.endAdoption (.faultJob (.modCkp h))) h) h)

theorem MemSound.execStraggler {job rank} (h : MemSound s) : SoundOut (execStraggler job rank s) := by
  unfold Machine.execStraggler
  refine .next ?_
  split
  · exact .ite (.alarm h) h
  · exact h

/-! ### Observe -/

theorem MemSound.traceOne {die rec} (h : MemSound s) : MemSound (s.traceOne die rec) := by
  simp only [State.traceOne]
  exact .ite (.bump (.frame (by rfl) (.wrTier h))) (.bump (.frame (by rfl) h))

theorem MemSound.traceRec {die kind trig arg value} (h : MemSound s) : MemSound (s.traceRec die kind trig arg value) :=
  .traceOne (.ite (.traceOne (.frame (by rfl) h)) h)

theorem MemSound.countCycles {die} (h : MemSound s) : MemSound (s.countCycles die) := by
  simp only [State.countCycles]
  exact .forEach (fun _ _ h => .ite (.setF (.draw h)) h) h

theorem MemSound.keepSample {die} (h : MemSound s) : MemSound (s.keepSample die) := .withObsv h

theorem MemSound.sample {die} (h : MemSound s) : MemSound (s.sample die) :=
  .keepSample (.named (fun h => .ite h (.when (.forEach fun _ _ h => .bump h)
    (.when (.forEach fun _ _ h => .traceRec h) (.when (fun h => .setF (.setF h)) (.traceRec h))))) (.countCycles h))

theorem MemSound.execTraceSample {die} (h : MemSound s) : SoundOut (execTraceSample die s) :=
  .need (.next (.ite (.sample h) h))

theorem MemSound.bistStart {die b} (h : MemSound s) : MemSound (s.bistStart die b) :=
  .named (fun h => .ite (.ite h (.clrMem (.idleGrains h))) (.ite (.disablePort h) (.ite (.setF h) (.ite (.frame
    (by rfl) h) h)))) (.bistBegin h)

theorem MemSound.execBistRun {cmd} (h : MemSound s) : SoundOut (execBistRun cmd s) :=
  .next (.onCmd (fun _ _ h => .ite (.finish h) (.ite h (.named (fun h => .ite (.frame (by rfl) h) (.bistStart h))
    (.beginCmd h)))) h)

theorem MemSound.reloadSets {die b} (h : MemSound s) : MemSound (s.reloadSets die b) := by
  simp only [State.reloadSets]
  split
  · exact .setArray h
  · exact h

theorem MemSound.bistRestore {die b} (h : MemSound s) : MemSound (s.bistRestore die b) :=
  .ite (.applyMode (.reloadSets h)) (.ite (.trainPort h) (.ite (.setF h) h))

theorem MemSound.bistFails {die b} (h : MemSound s) : MemSound (s.bistFails die b) := by
  simp only [State.bistFails]
  split
  · split
    · exact .faultJob (.applyMode (.unitFails h))
    · exact .applyMode (.unitFails h)
  · exact .unitFails h

theorem MemSound.bistResult {die pass misr} (h : MemSound s) : MemSound (s.bistResult die pass misr) :=
  .setF (.setF (.setF (.setF (.setF h))))

theorem MemSound.execBistComplete {die misr} (h : MemSound s) : SoundOut (execBistComplete die misr s) := by
  simp only [Machine.execBistComplete]
  refine .need (.next ?_)
  split
  · exact .ite h (.named (fun h => .finishRef (.ite (.bistRestore h) (.bistFails h))) (.bistResult (.frame (by rfl) h)))
  · exact h

theorem MemSound.fencedReq {die requester cmd} (h : MemSound s) : MemSound (s.fencedReq die requester cmd) := by
  simp only [State.fencedReq]
  split
  · exact .bump (.frame (by rfl) h)
  · split
    · exact .finishRef (.bump h)
    · exact .frame (by rfl) (.bump h)

theorem MemSound.execFencedRequest {die requester cmd} (h : MemSound s) :
    SoundOut (execFencedRequest die requester cmd s) :=
  .need (.next (.ite (.fencedReq h) h))

theorem MemSound.execBusyTestReissue {die requester} (h : MemSound s) :
    SoundOut (execBusyTestReissue die requester s) := by
  simp only [Machine.execBusyTestReissue]
  refine .need (.next ?_)
  split
  · exact .named (fun h => .ite (.fencedReq h) h) (.until (.frame (by rfl) h))
  · exact h

theorem MemSound.zeroPlain (h : MemSound s) : MemSound s.zeroPlain := by
  have zeroed : MemSound (Machine.forEach s.epc.sets s fun s w =>
      let s := s.zeroTier 1 w.2.decl.slot0 w.2.decl.payload
      if w.2.decl.kind = 1 then s else s.zeroTier 1 w.2.decl.slot1 w.2.decl.payload) :=
    .forEach (fun _ _ h => .ite (.zeroTier h) (.zeroTier (.zeroTier h))) h
  exact zeroed.filter rfl

theorem MemSound.execScanEnable {die} (h : MemSound s) : SoundOut (execScanEnable die s) :=
  .need (.next (.ite (.setF (.zeroPlain (.frame (by rfl) (.forEach (fun _ _ h => .faultJob h) h)))) h))

theorem MemSound.sendPending {hd} (h : MemSound s) : MemSound (s.sendPending hd) := .frame (by rfl) h

theorem MemSound.execPcieLinkTraining {hd up gen width flit corr nonfatal fatal} (h : MemSound s) :
    SoundOut (execPcieLinkTraining hd up gen width flit corr nonfatal fatal s) :=
  .need (.next (.named (fun h => .ite (.setB (.setF (.setF (.setF (.sendPending h)))))
    (.setF (.setF (.setF (.setF h))))) (.when .bump (.bump (.bump (.bump h))))))

/-! ### Registers -/

theorem MemSound.csrWriteNow {o csr v} (h : MemSound s) : MemSound (s.csrWriteNow o csr v) :=
  .outside (State.csrWriteNow_outside rfl rfl rfl rfl rfl rfl rfl rfl rfl rfl ..) h

theorem MemSound.csrWrite {o csr value} (h : MemSound s) : MemSound (s.csrWrite o csr value) :=
  .outside (State.csrWrite_outside rfl rfl rfl rfl rfl rfl rfl rfl rfl rfl ..) h

theorem MemSound.writeAt {o f a value} (h : MemSound s) : MemSound (s.writeAt o f a value) :=
  .outside (State.writeAt_outside rfl rfl rfl rfl rfl rfl rfl rfl rfl rfl ..) h

theorem MemSound.execBrkDbgResume {origin die brick value} (h : MemSound s) :
    SoundOut (execBrkDbgResume origin die brick value s) :=
  .need (.next (.writeAt h))

theorem MemSound.execBrkFaultClear {origin die brick value} (h : MemSound s) :
    SoundOut (execBrkFaultClear origin die brick value s) :=
  .need (.next (.writeAt h))

theorem MemSound.execMxaModeWrite {origin die brick value} (h : MemSound s) :
    SoundOut (execMxaModeWrite origin die brick value s) :=
  .need (.next (.writeAt h))

theorem MemSound.execMxaFlagsClear {origin die brick reg value coincident} (h : MemSound s) :
    SoundOut (execMxaFlagsClear origin die brick reg value coincident s) :=
  .need (.next (.setF (.writeAt h)))

theorem MemSound.execMxaErrClear {origin die brick value} (h : MemSound s) :
    SoundOut (execMxaErrClear origin die brick value s) :=
  .need (.next (.writeAt h))

theorem MemSound.execSchSplitWrite {origin die pan value} (h : MemSound s) :
    SoundOut (execSchSplitWrite origin die pan value s) :=
  .need (.next (.writeAt h))

theorem MemSound.execAttPmodeWrite {origin die pan value} (h : MemSound s) :
    SoundOut (execAttPmodeWrite origin die pan value s) :=
  .need (.next (.writeAt h))

theorem MemSound.execFabPctlEnable {origin fd port value} (h : MemSound s) :
    SoundOut (execFabPctlEnable origin fd port value s) :=
  .need (.next (.writeAt h))

theorem MemSound.execRouteSdataWrite {origin fd value} (h : MemSound s) :
    SoundOut (execRouteSdataWrite origin fd value s) :=
  .need (.next (.writeAt h))

theorem MemSound.execRouteSdone {origin fd value} (h : MemSound s) : SoundOut (execRouteSdone origin fd value s) :=
  .need (.next (.writeAt h))

theorem MemSound.execRouteFlip {origin fd value} (h : MemSound s) : SoundOut (execRouteFlip origin fd value s) :=
  .need (.next (.writeAt h))

theorem MemSound.execLlpRejoin {origin level value} (h : MemSound s) : SoundOut (execLlpRejoin origin level value s) :=
  .need (.next (.writeAt h))

theorem MemSound.execLlpRetrain {origin level value} (h : MemSound s) :
    SoundOut (execLlpRetrain origin level value s) :=
  .need (.next (.writeAt h))

theorem MemSound.execAonYield {origin hd value} (h : MemSound s) : SoundOut (execAonYield origin hd value s) :=
  .need (.next (.writeAt h))

theorem MemSound.execAonDevnumWrite {origin value boot} (h : MemSound s) :
    SoundOut (execAonDevnumWrite origin value boot s) :=
  .next (.numberArrives (.writeAt h))

theorem MemSound.execDieOpWrite {origin die value} (h : MemSound s) : SoundOut (execDieOpWrite origin die value s) :=
  .need (.next (.writeAt h))

theorem MemSound.execAuditAckWrite {origin value} (h : MemSound s) : SoundOut (execAuditAckWrite origin value s) :=
  .next (.writeAt h)

theorem MemSound.execAuditStagingAccept {die waitedUs} (h : MemSound s) :
    SoundOut (execAuditStagingAccept die waitedUs s) := by
  simp only [Machine.execAuditStagingAccept]
  refine .need (.next ?_)
  split
  · exact .ite (.csrWriteNow (.bump (.frame (by rfl) h))) h
  · exact h

theorem MemSound.execPerfSelectWrite {origin csr value} (h : MemSound s) :
    SoundOut (execPerfSelectWrite origin csr value s) :=
  .whenThere h (.next (.csrWrite h))

theorem MemSound.execAlarmRelease {origin value} (h : MemSound s) : SoundOut (execAlarmRelease origin value s) := by
  unfold Machine.execAlarmRelease
  refine .next ?_
  split
  · exact .writeAt h
  · exact h

theorem MemSound.execRegisterWrite {origin csr value} (h : MemSound s) :
    SoundOut (execRegisterWrite origin csr value s) :=
  .next (.numberArrives (.csrWrite h))

theorem MemSound.clearRc {f a} (h : MemSound s) : MemSound (s.clearRc f a) := by
  simp only [State.clearRc]
  split
  · exact h
  · split
    · exact h
    · exact .ite (.ite (.modWorld h) h) (.setF h)

theorem MemSound.csrRead {csr} (h : MemSound s) : MemSound (s.csrRead csr).2 := by
  simp only [State.csrRead]
  exact .forEach (fun _ _ h => .clearRc h) h

theorem MemSound.execReadClear {origin csr} (h : MemSound s) : SoundOut (execReadClear origin csr s) :=
  .next (.ite (.csrRead h) h)

theorem MemSound.readMany {csr n} (h : MemSound s) : MemSound (s.readMany csr n).2 := by
  induction n generalizing s csr with
  | zero => exact h
  | succ n ih => exact ih (.csrRead h)

theorem MemSound.writeMany {o csr b} (h : MemSound s) : MemSound (s.writeMany o csr b) :=
  .forEach (fun _ _ h => .csrWrite h) h

theorem MemSound.manage {port p} (h : MemSound s) : MemSound (s.manage port p) := by
  simp only [State.manage]
  exact .ite (.violation (.refuse h)) (.ite (.relayDown (.iteSnd (.readMany h) (.writeMany h))) (.respond (.iteSnd
    (.readMany h) (.writeMany h))))

theorem MemSound.execMgmt {p} (h : MemSound s) : SoundOut (execMgmt p s) := by
  simp only [Machine.execMgmt]
  exact .next (.arrive (fun _ _ h => .manage h) (.frame (by rfl) (.takeIn h)))

/-! ### The step -/

/-- A command answers only states whose memory is sound. -/
theorem soundOut_exec (c : Instr) (h : MemSound s) : SoundOut (exec c s) := by
  cases c with
  | grainInstruction => exact h.execGrainInstruction
  | ecall => exact h.execEcall
  | ebreak => exact h.execEbreak
  | slRld => exact h.execSlRld
  | slRst => exact h.execSlRst
  | slRred => exact h.execSlRred
  | slPush => exact h.execSlPush
  | slPop => exact h.execSlPop
  | slCred => exact h.execSlCred
  | slDraw => exact h.execSlDraw
  | slDrawf => exact h.execSlDrawf
  | slWaitb => exact h.execSlWaitb
  | slFma2 => exact h.execSlFma2
  | slBfma4 => exact h.execSlBfma4
  | sentinelReturn => exact h.execSentinelReturn
  | watchdog => exact h.execWatchdog
  | brkDbgResume => exact h.execBrkDbgResume
  | brkFaultClear => exact h.execBrkFaultClear
  | mxaCommand => exact h.execMxaCommand
  | swap => exact h.execSwap
  | backgroundLoadDone => exact h.execBackgroundLoadDone
  | rowAccept => exact h.execRowAccept
  | mxaModeWrite => exact h.execMxaModeWrite
  | mxaFlagsClear => exact h.execMxaFlagsClear
  | mxaErrClear => exact h.execMxaErrClear
  | tileOpIssue => exact h.execTileOpIssue
  | tileOpRetire => exact h.execTileOpRetire
  | localBoundary => exact h.execLocalBoundary
  | done => exact h.execDone
  | stepRelease => exact h.execStepRelease
  | boundaryLate => exact h.execBoundaryLate
  | schSplitWrite => exact h.execSchSplitWrite
  | d2dRetrain => exact h.execD2dRetrain
  | d2dRetrainDone => exact h.execD2dRetrainDone
  | d2dRetrainTimeout => exact h.execD2dRetrainTimeout
  | seqOpen => exact h.execSeqOpen
  | seqQuarantineExpiry => exact h.execSeqQuarantineExpiry
  | walk => exact h.execWalk
  | spill => exact h.execSpill
  | attPmodeWrite => exact h.execAttPmodeWrite
  | discreteDraw => exact h.execDiscreteDraw
  | continuousDraw => exact h.execContinuousDraw
  | adoptionPoint => exact h.execAdoptionPoint
  | publishBegin => exact h.execPublishBegin
  | publishChunkAck => exact h.execPublishChunkAck
  | publishChecks => exact h.execPublishChecks
  | epochChangeMessage => exact h.execEpochChangeMessage
  | imageChunk => exact h.execImageChunk
  | recordWrite => exact h.execRecordWrite
  | stagingEviction => exact h.execStagingEviction
  | drawIssue => exact h.execDrawIssue
  | priorityUpdate => exact h.execPriorityUpdate
  | moveStart => exact h.execMoveStart
  | moveCopyDone => exact h.execMoveCopyDone
  | moveDrained => exact h.execMoveDrained
  | stubAccess => exact h.execStubAccess
  | tierResponse => exact h.execTierResponse
  | tierTimeout => exact h.execTierTimeout
  | memorySideOp => exact h.execMemorySideOp
  | patrolScrub => exact h.execPatrolScrub
  | ladlePrefetch => exact h.execLadlePrefetch
  | bufferAllocate => exact h.execBufferAllocate
  | bufferFree => exact h.execBufferFree
  | bufferQuarantineExpiry => exact h.execBufferQuarantineExpiry
  | flashRelocate => exact h.execFlashRelocate
  | flashProgramFail => exact h.execFlashProgramFail
  | fabPctlEnable => exact h.execFabPctlEnable
  | portTrained => exact h.execPortTrained
  | portRetrain => exact h.execPortRetrain
  | retrainTimeout => exact h.execRetrainTimeout
  | frameReceive => exact h.execFrameReceive
  | replayTimeout => exact h.execReplayTimeout
  | ack => exact h.execAck
  | nak => exact h.execNak
  | read => exact h.execRead
  | write => exact h.execWrite
  | msop => exact h.execMsop
  | atomic => exact h.execAtomic
  | fence => exact h.execFence
  | epoch => exact h.execEpoch
  | telem => exact h.execTelem
  | mgmt => exact h.execMgmt
  | readRsp => exact h.execReadRsp
  | writeAck => exact h.execWriteAck
  | atomicRsp => exact h.execAtomicRsp
  | fenceAck => exact h.execFenceAck
  | requestResend => exact h.execRequestResend
  | routeSdataWrite => exact h.execRouteSdataWrite
  | routeSdone => exact h.execRouteSdone
  | routeFlip => exact h.execRouteFlip
  | allToAll => exact h.execAllToAll
  | allToAllV => exact h.execAllToAllV
  | allReduce => exact h.execAllReduce
  | reduceScatter => exact h.execReduceScatter
  | allGather => exact h.execAllGather
  | broadcast => exact h.execBroadcast
  | barrier => exact h.execBarrier
  | collDone => exact h.execCollDone
  | frameStart => exact h.execFrameStart
  | cellReceive => exact h.execCellReceive
  | whistleDeadTimeout => exact h.execWhistleDeadTimeout
  | masterElection => exact h.execMasterElection
  | ringTrainingTimeout => exact h.execRingTrainingTimeout
  | ringFallback => exact h.execRingFallback
  | ringRetrainTimer => exact h.execRingRetrainTimer
  | whistleFb => exact h.execWhistleFb
  | llpRejoin => exact h.execLlpRejoin
  | llpRetrain => exact h.execLlpRetrain
  | obs => exact h.execObs
  | obsWindowClose => exact h.execObsWindowClose
  | hello => exact h.execHello
  | helloTimer => exact h.execHelloTimer
  | attachTimeout => exact h.execAttachTimeout
  | partnerStop => exact h.execPartnerStop
  | partnerSync => exact h.execPartnerSync
  | actionVerdict => exact h.execActionVerdict
  | frameLatch => exact h.execFrameLatch
  | sendTime => exact h.execSendTime
  | missLimit => exact h.execMissLimit
  | holdLimit => exact h.execHoldLimit
  | silenceLimit => exact h.execSilenceLimit
  | rampEnd => exact h.execRampEnd
  | worldQuarantineExpiry => exact h.execWorldQuarantineExpiry
  | gptpSync => exact h.execGptpSync
  | timeHoldover => exact h.execTimeHoldover
  | worldPortLink => exact h.execWorldPortLink
  | submissionDoorbell => exact h.execSubmissionDoorbell
  | completionDoorbell => exact h.execCompletionDoorbell
  | commandTake => exact h.execCommandTake
  | commandTimeout => exact h.execCommandTimeout
  | wholeLoad => exact h.execWholeLoad
  | perPanLoad => exact h.execPerPanLoad
  | resize => exact h.execResize
  | imageLoad => exact h.execImageLoad
  | keyLoad => exact h.execKeyLoad
  | jobCreate => exact h.execJobCreate
  | jobStart => exact h.execJobStart
  | jobStop => exact h.execJobStop
  | jobDestroy => exact h.execJobDestroy
  | indexQuarantineExpiry => exact h.execIndexQuarantineExpiry
  | worldAttach => exact h.execWorldAttach
  | worldStop => exact h.execWorldStop
  | worldDetach => exact h.execWorldDetach
  | publish => exact h.execPublish
  | retract => exact h.execRetract
  | snapshot => exact h.execSnapshot
  | checkpointDurable => exact h.execCheckpointDurable
  | checkpointEnable => exact h.execCheckpointEnable
  | checkpointDisable => exact h.execCheckpointDisable
  | restore => exact h.execRestore
  | spareAdopt => exact h.execSpareAdopt
  | seqCancel => exact h.execSeqCancel
  | summary => exact h.execSummary
  | logRead => exact h.execLogRead
  | bistRun => exact h.execBistRun
  | bistComplete => exact h.execBistComplete
  | fencedRequest => exact h.execFencedRequest
  | lock => exact h.execLock
  | protectedWrite => exact h.execProtectedWrite
  | shardAck => exact h.execShardAck
  | durableWrite => exact h.execDurableWrite
  | find => exact h.execFind
  | adopt => exact h.execAdopt
  | straggler => exact h.execStraggler
  | renew => exact h.execRenew
  | renewReceive => exact h.execRenewReceive
  | leaseTimeout => exact h.execLeaseTimeout
  | witnessCas => exact h.execWitnessCas
  | aonYield => exact h.execAonYield
  | stewardWatchdog => exact h.execStewardWatchdog
  | coldReset => exact h.execColdReset
  | warmReset => exact h.execWarmReset
  | bootStepTimeout => exact h.execBootStepTimeout
  | vin48Arrival => exact h.execVin48Arrival
  | aonDevnumWrite => exact h.execAonDevnumWrite
  | perstRelease => exact h.execPerstRelease
  | vin48Fault => exact h.execVin48Fault
  | vsb33Fault => exact h.execVsb33Fault
  | hostDieLost => exact h.execHostDieLost
  | powerCompare => exact h.execPowerCompare
  | thermalSample => exact h.execThermalSample
  | dieOpWrite => exact h.execDieOpWrite
  | fabricTime => exact h.execFabricTime
  | auditStagingAccept => exact h.execAuditStagingAccept
  | auditAckWrite => exact h.execAuditAckWrite
  | perfSelectWrite => exact h.execPerfSelectWrite
  | traceSample => exact h.execTraceSample
  | alarmRelease => exact h.execAlarmRelease
  | scanEnable => exact h.execScanEnable
  | readClear => exact h.execReadClear
  | registerWrite => exact h.execRegisterWrite
  | findTimeout => exact h.execFindTimeout
  | adoptionVoteTimeout => exact h.execAdoptionVoteTimeout
  | busyTestReissue => exact h.execBusyTestReissue
  | ackDelayExpiry => exact h.execAckDelayExpiry
  | ppsPulse => exact h.execPpsPulse
  | pcieLinkTraining => exact h.execPcieLinkTraining
  | worldPortForeignFrame => exact h.execWorldPortForeignFrame

/-- A step answers a state whose memory is sound: a period of SCLK writes no byte. -/
theorem MemSound.step_next (h : MemSound s) : SoundOut (Machine.step s) := by
  unfold Machine.step
  split
  · exact .next h.tick
  · exact soundOut_exec _ (.frame rfl h)

end Kept

/-- Settles O50: the reset state's map is empty. The form is the model's (log 10). -/
theorem memSoundAtReset : Obligations.MemSoundAtReset := State.wf_reset

/-- Settles O51: each operation of the model keeps the canonical form of the byte map, and so each command does. -/
theorem memSoundKept : Obligations.MemSoundKept :=
  fun _ t h answered => h.step_next t answered

end Sys2Proof.Machine
end

section
/-!
SRAM offsets (O57): the fields of an offset, its home, and the local memories of the grains.
-/

namespace Sys2Proof.Machine

/-! ## SRAM offsets -/

section SramAddr

variable {die b off : Nat}

theorem sramAddr_die (hb : b < 128) (ho : off < 2 ^ 23) (hd : die < 16) : bits (sramAddr die b off) 33 30 = die := by
  simp only [bits, sramAddr]
  omega

theorem sramAddr_brick (hb : b < 128) (ho : off < 2 ^ 23) : bits (sramAddr die b off) 29 23 = b := by
  simp only [bits, sramAddr]
  omega

theorem sramAddr_mod (ho : off < 2 ^ 23) : sramAddr die b off % 2 ^ 23 = off := by
  simp only [sramAddr]
  omega

theorem sramAddr_byte (ho : off < 2 ^ 23) : bits (sramAddr die b off) 22 0 = off := by
  simpa only [bits, Nat.pow_zero, Nat.div_one] using sramAddr_mod ho

theorem sramAddr_lt (hb : b < 128) (ho : off < 2 ^ 23) (hd : die < 16) : sramAddr die b off < 2 ^ 34 := by
  simp only [sramAddr]
  omega

/-- R226: of the offsets that a die and a brick have, those below 600000h are mapped, each to itself. -/
theorem sramHome_sramAddr (hb : b < 128) (ho : off < 2 ^ 23) (hd : die < 16) :
    sramHome (sramAddr die b off) = if off < 0x600000 then some (sramAddr die b off) else none := by
  simp only [sramHome, sramAddr_lt hb ho hd, sramAddr_mod ho, true_and]

end SramAddr

/-- The local memories of two grains have no byte in common. -/
theorem localBase_disjoint {die b g h i j : Nat} (hi : i < 0x2000) (hj : j < 0x2000)
    (same : sramAddr die b (localBase g + i) = sramAddr die b (localBase h + j)) : g = h ∧ i = j := by
  simp only [sramAddr, localBase] at same
  omega

/-- Settles O57: the fields of an offset do not overlap, and grain 511's local memory ends at 600000h. -/
theorem sramOffsets : Obligations.SramOffsets := by
  unfold Obligations.SramOffsets
  refine ⟨fun die b off hd hb ho => ?_, fun g hg => ⟨rfl, ?_⟩, fun die b g h i j _ _ hi hj => localBase_disjoint hi hj⟩
  · exact ⟨sramAddr_die hb ho hd, sramAddr_brick hb ho, sramAddr_byte ho, sramHome_sramAddr hb ho hd⟩
  · simp only [localBase]
    omega

end Sys2Proof.Machine
end

section
/-!
The tier mover (O21): the start of a move, the end of its copy, the DRAINED marker and the accesses at its stub.
-/

namespace Sys2Proof.Machine

/-! ## Moves and their stubs -/

theorem mget_mmod_self {V : Type} {m : AMap V} {k : Nat} {v : V} (h : mget m k = some v) (f : V → V) :
    mget (mmod m k f) k = some (f v) := by
  simp only [mmod, h, mget_mput_self]

/-- A loop that leaves the tiers alone at each turn leaves them as they were. -/
theorem State.forEach_tier {α : Type} {f : State → α → State} (keeps : ∀ t x, (f t x).tier = t.tier) (l : List α)
    (s : State) : (forEach l s f).tier = s.tier :=
  List.foldlRecOn (motive := fun t : State => t.tier = s.tier) l f rfl fun t same x _ => (keeps t x).trans same

theorem State.setPte_tier (s : State) (k : Nat) (e : Pte) : (s.setPte k e).tier = s.tier := rfl

theorem State.setMoving_tier (s : State) (tier addr : Nat) (v : Bool) : (s.setMoving tier addr v).tier = s.tier :=
  State.forEach_tier (fun t _ => t.setPte_tier _ _) _ _

/-- The stub that a move installs (R234), with the operations that wait for its object (R242). -/
def State.newMove (s : State) (die engine : Nat) (o : MovObj) (x : ObjAt) (dst n : Nat) : Move :=
  { die := die, engine := engine, obj := o, pan := x.pan, srcTier := x.tier, srcAddr := x.addr
    dstTier := dst, dstAddr := (s.pan x.pan).frameAddr dst n, srcFrame := x.frame, dstFrame := n
    bytes := x.bytes, started := s.time, queue := (s.tier.lifts.filter (fun l => l.1 = o)).map (·.2) }

theorem State.beginMove_tier (s : State) (die engine : Nat) (o : MovObj) (x : ObjAt) (dst n : Nat) :
    (s.beginMove die engine o x dst n).tier =
      { (s.takeFrame x.pan dst n).tier with
        moves := mput s.tier.moves s.tier.nextMove (s.newMove die engine o x dst n)
        nextMove := s.tier.nextMove + 1
        lifts := s.tier.lifts.filter (fun l => l.1 ≠ o) } := by
  simp only [State.beginMove, State.peak_tier]
  cases o with
  | buffer i => rfl
  | page seq layer slot => exact State.setMoving_tier ..
  | pageAt tier addr => exact State.setMoving_tier ..

section Start

variable {s : State} {die engine dst : Nat} {o : MovObj} {x : ObjAt} (at_ : s.objAt o = some x)
  (alive : s.moveDead { die, engine, obj := o, dst } = false)

include at_ alive

theorem State.tryMove_begins {n : Nat} (stub : s.stubs die engine < 512) (place : s.running die engine < 4)
    (frame : s.freeFrame x.pan dst = some n) :
    s.tryMove { die, engine, obj := o, dst } = some (s.beginMove die engine o x dst n) := by
  have room : ¬ (512 ≤ s.stubs die engine ∨ 4 ≤ s.running die engine) := by omega
  simp only [State.tryMove, alive, room, at_, frame, Bool.false_eq_true, if_false, Option.bind_some, Option.map_some]

theorem State.tryMove_waits
    (lack : 512 ≤ s.stubs die engine ∨ 4 ≤ s.running die engine ∨ s.freeFrame x.pan dst = none) :
    s.tryMove { die, engine, obj := o, dst } = none := by
  simp only [State.tryMove, alive, Bool.false_eq_true, if_false]
  split
  · rfl
  · next room =>
    have none : s.freeFrame x.pan dst = none := by tauto
    simp only [at_, none, Option.bind_some, Option.map_none]

variable (new : s.tier.waits.contains { die, engine, obj := o, dst } = false)

include new

theorem State.moveStart_begins {n : Nat} (stub : s.stubs die engine < 512) (place : s.running die engine < 4)
    (frame : s.freeFrame x.pan dst = some n) : s.moveStart die engine o dst = s.beginMove die engine o x dst n := by
  simp only [State.moveStart, new, State.tryMove_begins at_ alive stub place frame, Bool.false_eq_true, if_false]

/-- A move that has to wait is kept behind those that wait already. -/
theorem State.moveStart_waits
    (lack : 512 ≤ s.stubs die engine ∨ 4 ≤ s.running die engine ∨ s.freeFrame x.pan dst = none) :
    (s.moveStart die engine o dst).mem = s.mem ∧
      (s.moveStart die engine o dst).tier =
        { s.tier with waits := s.tier.waits ++ [{ die, engine, obj := o, dst }] } := by
  simp only [State.moveStart, new, State.tryMove_waits at_ alive lack, Bool.false_eq_true, if_false]
  split
  · simp only [State.bump_mem, State.bump_tier, and_self]
  · exact ⟨rfl, rfl⟩

end Start

/-- MOVE_START on an engine that the device has asks for the move. -/
theorem exec_moveStart {die engine : Nat} (hdie : die < 16) (hengine : engine < 2) (o : MovObj) (dst : Nat)
    (s : State) : exec (.moveStart die engine o dst) s = .next (s.moveStart die engine o dst) := by
  have there : (isCompute die && decide (engine < 2)) = true := by simp [isCompute, hdie, hengine]
  exact if_pos there

/-- A good copy of a buffer between tiers that are not flash writes its bytes, and no more. -/
theorem State.goodCopy_buffer (s : State) (k : Nat) {m : Move} {i : Nat} (buffer : m.obj = .buffer i)
    (src : m.srcTier ≠ 3) (dst : m.dstTier ≠ 3) (held : mget s.tier.moves k = some m) :
    (s.goodCopy k m).mem = (s.wrTier m.dstTier m.dstAddr (s.rdTier m.srcTier m.srcAddr m.bytes)).mem ∧
      ∃ v, mget (s.goodCopy k m).tier.moves k = some v ∧ v.st = .draining ∧ v.queue = m.queue := by
  simp only [State.goodCopy, State.flip, buffer, src, dst, if_false, State.bump_mem, State.bump_tier]
  exact ⟨rfl, _, mget_mmod_self held _, rfl, rfl⟩

section Stub

variable {s : State} {k : Nat} {m : Move} (held : mget s.tier.moves k = some m)

include held

theorem State.copyDone_good (copying : m.st = .copying) (ready : s.copyWaits m = false) (dst : m.dstTier ≠ 3) :
    s.copyDone k .good = s.goodCopy k m := by
  simp only [State.copyDone, held, copying, ready, dst, ne_eq, not_true_eq_false, Bool.false_eq_true, or_self,
    false_and, if_false]

theorem State.copyDone_sourceEcc (copying : m.st = .copying) (ready : s.copyWaits m = false) (l : List Nat) :
    s.copyDone k (.sourceEcc l) = ((s.poisonObj m 2 l).bump R.MOV_ERR_ECC (lDie m.die)).failMove k m := by
  simp only [State.copyDone, held, copying, ready, ne_eq, not_true_eq_false, Bool.false_eq_true, or_self, if_false]

theorem State.drained_draining {v : Move} {t : State} (draining : m.st = .draining)
    (flipped : v = { m with st := .redirect, queue := [], held := [] })
    (applied : t = ((s.applyQueue m.dstTier m.dstAddr m.queue).applyQueue m.dstTier m.dstAddr m.held).modMove k
      (fun _ => v)) :
    s.drained k = if m.waitPans.isEmpty then t.dropStub k v else t.moverFreed := by
  subst flipped applied
  simp only [State.drained, held, draining, ne_eq, not_true_eq_false, if_false]

theorem State.stubAccess_copying (copying : m.st = .copying) (a : Access) :
    s.stubAccess k a =
      (s.modMove k (fun m => { m with queue := m.queue ++ [a] })).bump R.MOV_FWD_QUEUED (lDie m.die) := by
  simp only [State.stubAccess, held, copying]

/-- A stub in REDIRECT passes an access on to the new home: beyond it the access is only counted. -/
theorem State.stubAccess_redirect (redirect : m.st = .redirect) (a : Access) :
    (s.stubAccess k a).mem = (s.applyAccess m.dstTier m.dstAddr a).mem ∧
      (s.stubAccess k a).tier = (s.applyAccess m.dstTier m.dstAddr a).tier := by
  simp only [State.stubAccess, held, redirect]
  split
  · simp only [State.bump_mem, State.bump_tier, and_self]
  · simp only [State.bump_mem, State.bump_tier, and_self]

end Stub

theorem State.applyAccess_moves (s : State) (tier base : Nat) (a : Access) :
    (s.applyAccess tier base a).tier.moves = s.tier.moves := by
  cases a with
  | read tag addr len => rfl
  | write tag addr data => rfl
  | msop tag addr op e data cmp => cases op <;> rfl

/-- Settles O21: each part is what the lemmas above say of its command. That a move waits for a place in the engine or
for a frame, and not for a stub alone, is the model's choice (log 89). -/
theorem moveRows : Obligations.MoveRows := by
  unfold Obligations.MoveRows
  refine ⟨?start, ?wait, ?copy, ?ecc, ?drained, ?queued, ?redirect⟩
  case start =>
    intro s die engine dst n o x hdie hengine at_ alive new stub place frame
    have begun : exec (.moveStart die engine o dst) s = .next (s.beginMove die engine o x dst n) := by
      rw [exec_moveStart hdie hengine, State.moveStart_begins at_ alive new stub place frame]
    refine ⟨begun, _, s.newMove die engine o x dst n, begun, ?_⟩
    rw [State.beginMove_tier]
    exact ⟨rfl, mget_mput_self .., rfl, rfl, rfl, rfl, rfl, rfl, rfl, rfl⟩
  case wait =>
    intro s die engine dst o x hdie hengine at_ alive new lack
    exact ⟨_, exec_moveStart hdie hengine o dst s, State.moveStart_waits at_ alive new lack⟩
  case copy =>
    intro s k m held copying ready dst
    have done : exec (.moveCopyDone k .good) s = .next (s.goodCopy k m) :=
      congrArg Host.Outcome.next (State.copyDone_good held copying ready dst)
    refine ⟨done, fun i buffer src => ?_⟩
    obtain ⟨mem, v, stub⟩ := s.goodCopy_buffer k buffer src dst held
    exact ⟨_, v, done, mem, stub⟩
  case ecc =>
    intro s k m l held copying ready
    exact congrArg Host.Outcome.next (State.copyDone_sourceEcc held copying ready l)
  case drained =>
    intro s k m held draining v t
    have done := State.drained_draining held draining (v := v) (t := t) rfl rfl
    refine ⟨fun waits => ?_, fun free => ?_⟩
    · rw [if_neg (by simpa using waits)] at done
      exact congrArg Host.Outcome.next done
    · rw [if_pos (by simpa using free)] at done
      exact congrArg Host.Outcome.next done
  case queued =>
    intro s k m a held copying
    exact congrArg Host.Outcome.next (State.stubAccess_copying held copying a)
  case redirect =>
    intro s k m a held redirect
    obtain ⟨mem, tier⟩ := State.stubAccess_redirect held redirect a
    refine ⟨_, rfl, mem, congrArg TierSt.results tier, ?_⟩
    rw [tier, State.applyAccess_moves]

end Sys2Proof.Machine
end

section
/-!
Tier requests, memory-side operations, the patrol scrub and the ladle (O22).
-/

namespace Sys2Proof.Machine

/-! ## Requests of a tier -/

theorem State.perturb_other {s : State} {r : TierReq} (other : s.getF R.TST_PERT1_PAN (lDie r.die) ≠ r.pan)
    (x : MediumResult) : s.perturb r x = (false, x, s) := if_pos other

section Request

variable {s : State} {k : Nat} {r : TierReq} (held : mget s.tier.reqs k = some r)

include held

theorem State.response_outstanding (waits : r.ended = false)
    (other : s.getF R.TST_PERT1_PAN (lDie r.die) ≠ r.pan) (x : MediumResult) :
    s.response k x = (s.setReqs (mdel s.tier.reqs k)).respondTier r x := by
  simp only [State.response, held, waits, State.perturb_other other, Bool.false_eq_true, if_false]

theorem State.response_late (ended : r.ended = true) (x : MediumResult) :
    s.response k x = (s.setReqs (mdel s.tier.reqs k)).bump R.MOV_ERR_LATE (lDie r.die) := by
  simp only [State.response, held, ended, if_true]

/-- A request that serves a buffer times out at its limit: it is ended, and the buffer is poisoned with cause 1h. -/
theorem State.tierTimeout_buffer {i : Nat} (waits : r.ended = false) (buffer : r.dest = .buffer i) :
    (s.tierTimeout k).mem = s.mem ∧ mget (s.tierTimeout k).tier.reqs k = some { r with ended := true } ∧
      (s.tierTimeout k).time = max s.time (r.issued + s.getF R.MOV_LIMIT_TIMEOUT (lDie r.die) * 1000) ∧
      ((s.tierTimeout k).buf i).poison = 1 := by
  simp only [State.tierTimeout, held, waits, State.reqFail, buffer, Bool.false_eq_true, if_false, State.poisonBuf,
    State.setBuf, State.setReqs, State.buf, State.bump_mem, State.bump_tier, State.bump_time, mget_mput_self,
    mgetD_mput_self, true_and, and_true]
  exact ⟨rfl, rfl⟩

theorem exec_tierTimeout_buffer {i : Nat} (waits : r.ended = false) (buffer : r.dest = .buffer i) :
    exec (.tierTimeout k) s = .next (s.tierTimeout k) := by
  simp only [exec, execTierTimeout, held, waits, buffer, Bool.false_eq_true, if_false]

end Request

/-! ## Memory-side operations -/

/-- Where a byte of T1 stands depends on the interleaved ranges of the map alone (R227). -/
theorem State.byteKey_of_ranges {s t : State}
    (same : t.getF R.HBM_DIMAP_RANGES (lDie 0) = s.getF R.HBM_DIMAP_RANGES (lDie 0)) (off : Nat) :
    t.byteKey 1 off = s.byteKey 1 off := by
  simp only [State.byteKey, State.moverHome, State.home, State.hbmHome, same]

/-- The counts of a stack's operations lie beside its map. -/
theorem State.ranges_bump (s : State) {f : Fld} (count : f = R.HBM_OPS_MSOP ∨ f = R.HBM_OPS_NARROW) (die : Nat) :
    (s.bump f (lDie die)).getF R.HBM_DIMAP_RANGES (lDie 0) = s.getF R.HBM_DIMAP_RANGES (lDie 0) := by
  have apart : f.key (lDie die) ≠ R.HBM_DIMAP_RANGES.key (lDie 0) := by
    rcases count with rfl | rfl
    all_goals
      simp only [Fld.key, lDie, Blk.code, R.HBM_OPS_MSOP, R.HBM_OPS_NARROW, R.HBM_DIMAP_RANGES]
      omega
  exact s.getF_bump_ne (by rcases count with rfl | rfl <;> decide) (by decide) apart 1

theorem State.ranges_narrow (s : State) (off n : Nat) :
    (s.narrow off n).getF R.HBM_DIMAP_RANGES (lDie 0) = s.getF R.HBM_DIMAP_RANGES (lDie 0) := by
  unfold State.narrow
  refine State.getF_forEach (fun t i _ => ?_) s
  split
  · exact t.ranges_bump (.inr rfl) _
  · rfl

theorem State.msCount_byteKey (s : State) (space off n o : Nat) :
    (s.msCount space off n).byteKey space o = s.byteKey space o := by
  unfold State.msCount
  split
  · next t1 =>
    subst t1
    exact State.byteKey_of_ranges ((State.ranges_narrow ..).trans (s.ranges_bump (.inl rfl) _)) o
  · rfl

/-- A count of a memory-side operation changes registers alone. -/
theorem State.msCount_mem_tier (s : State) (space off n : Nat) :
    (s.msCount space off n).mem = s.mem ∧ (s.msCount space off n).tier = s.tier := by
  have frame := State.msCount_outside (P := { csr := true }) rfl s space off n
  exact ⟨(congrArg State.mem frame :), (congrArg State.tier frame :)⟩

theorem State.msCount_rdTier (s : State) (space off n o len : Nat) :
    (s.msCount space off n).rdTier space o len = s.rdTier space o len := by
  simp only [State.rdTier, s.msCount_byteKey, (s.msCount_mem_tier space off n).1]

theorem State.msCount_wrTier_mem (s : State) (space off n o : Nat) (bs : List Byte) :
    ((s.msCount space off n).wrTier space o bs).mem = (s.wrTier space o bs).mem := by
  simp only [State.wrTier, wrTierFrom_congr (s.msCount_byteKey space off n), (s.msCount_mem_tier space off n).1]

theorem exec_memorySideOp_mapped {s : State} {space off : Nat} {op : MsOp} {e : Elem} {data : List Byte}
    (fixed : space ≠ 0) (legal : msLegal op e off data.length = true)
    (mapped : s.mapped space off data.length = true) (cmp : List Byte) :
    exec (.memorySideOp space off op e data cmp) s =
      .next ((s.msCount space off data.length).access space off (fun o => .msop 0 o op e data cmp)) := by
  simp only [exec, execMemorySideOp, fixed, legal, mapped, Bool.not_true, Bool.false_eq_true, or_self, if_false,
    if_true]

/-- An access that meets no stub and no new home is applied at its address. -/
theorem State.access_free {s : State} {space off : Nat}
    (free : ∀ m ∈ s.tier.moves,
      ¬ (m.2.srcTier = space ∧ m.2.srcAddr ≤ off ∧ off < m.2.srcAddr + m.2.bytes) ∧
      ¬ (m.2.dstTier = space ∧ m.2.dstAddr ≤ off ∧ off < m.2.dstAddr + m.2.bytes)) (a : Nat → Access) :
    s.access space off a = s.applyAccess space off (a 0) := by
  have source : s.tier.moves.find? (fun m => decide (m.2.srcTier = space) && decide (m.2.srcAddr ≤ off) &&
      decide (off < m.2.srcAddr + m.2.bytes)) = none :=
    List.find?_eq_none.2 fun m hm hit => (free m hm).1 (by simpa [and_assoc] using hit)
  have home : s.tier.moves.find? (fun m => decide (m.2.st = .draining ∧ (decide (m.2.dstTier = space) &&
      decide (m.2.dstAddr ≤ off) && decide (off < m.2.dstAddr + m.2.bytes)) = true)) = none :=
    List.find?_eq_none.2 fun m hm hit => (free m hm).2 (by
      simp only [decide_eq_true_eq, Bool.and_eq_true, and_assoc] at hit
      exact hit.2)
  simp only [State.access, source, home]

/-- A memory-side operation at a home stores its result there; FETCH_ADD and CAS answer the old bytes (R240). -/
theorem State.applyAccess_msop (s : State) (space off : Nat) (op : MsOp) (e : Elem) (data cmp : List Byte) :
    (s.applyAccess space off (.msop 0 0 op e data cmp)).mem =
        (s.wrTier space off (msRun op e (s.rdTier space off data.length) data cmp)).mem ∧
      (s.applyAccess space off (.msop 0 0 op e data cmp)).tier.results =
        if op = .fetchAdd ∨ op = .cas then s.tier.results ++ [(0, s.rdTier space off data.length)]
        else s.tier.results := by
  cases op <;> exact ⟨rfl, rfl⟩

/-! ## Scrub and ladle -/

theorem exec_patrolScrub {die : Nat} (hdie : die < 16) (n : Nat) (s : State) :
    exec (.patrolScrub die n) s = .next ((s.bump R.HBM_ECC_CORR (lDie die) n).setF R.HBM_SCRUB_PASSES (lDie die)
      (s.getF R.HBM_SCRUB_PASSES (lDie die) + 1)) :=
  if_pos (decide_eq_true hdie)

theorem exec_ladlePrefetch_issues {s : State} {pan step k : Nat} {d : PrefetchDecl} (used : (s.pan pan).st ≠ .free)
    (due : (s.pan pan).ladleNextIssue = some (step, k, d)) :
    exec (.ladlePrefetch pan) s = .next (s.ladleIssue pan step k d) := by
  simp only [exec, execLadlePrefetch, due, used, ne_eq, not_false_eq_true, decide_true, whenThere_true]

/-- Settles O22: each part is what the lemmas above say of its command. -/
theorem tierRows : Obligations.TierRows := by
  unfold Obligations.TierRows
  refine ⟨?response, ?late, ?timeout, ?memorySide, ?scrub, ?ladle⟩
  case response =>
    intro s k r x held waits other
    exact congrArg Host.Outcome.next (State.response_outstanding held waits other x)
  case late =>
    intro s k r x held ended
    exact congrArg Host.Outcome.next (State.response_late held ended x)
  case timeout =>
    intro s k i r held waits buffer
    obtain ⟨mem, reqs, time, poison⟩ := State.tierTimeout_buffer held waits buffer
    exact ⟨_, exec_tierTimeout_buffer held waits buffer, mem, reqs, time ▸ le_max_right _ _, poison⟩
  case memorySide =>
    intro s space off op e data cmp tier legal mapped
    have fixed : space ≠ 0 := by omega
    have done := exec_memorySideOp_mapped fixed legal mapped cmp
    refine ⟨done, fun free => ?_⟩
    obtain ⟨mem_count, tier_count⟩ := s.msCount_mem_tier space off data.length
    rw [State.access_free (by rwa [tier_count])] at done
    obtain ⟨mem, results⟩ := (s.msCount space off data.length).applyAccess_msop space off op e data cmp
    rw [State.msCount_rdTier] at mem results
    rw [State.msCount_wrTier_mem] at mem
    rw [tier_count] at results
    exact ⟨_, done, mem, results⟩
  case scrub =>
    intro s die n hdie
    exact ⟨_, exec_patrolScrub hdie n s, by rw [State.setF_mem, State.bump_mem],
      by rw [State.setF_tier, State.bump_tier], State.getF_setF_self ..⟩
  case ladle => exact fun s pan step k d => exec_ladlePrefetch_issues

end Sys2Proof.Machine
end

section
/-!
Ports and their links (O24): the end of training, retraining, replay and the delayed acknowledgement.
-/

namespace Sys2Proof.Machine

/-! ## The state of a port -/

/-- The fields of a port stand in block FAB of its fabric die (R4). -/
theorem csrBlock_key_fabLoc {f : Fld} (blk : f.blk = .fab) (off : f.off + 15 * f.stride < 65536) (lsb : f.lsb < 64)
    (port : Nat) : csrBlock (f.key (fabLoc port)) = 0x08 := by
  have inside : port % 16 * f.stride ≤ 15 * f.stride := Nat.mul_le_mul_right _ (by omega)
  rw [Fld.csrBlock_key f (fabLoc port) rfl (by simp only [fabLoc, lIdx]; omega) lsb, blk]
  rfl

/-- A port reads the state that it enters. -/
theorem State.portState_portTo (s : State) (port : Nat) {st : Nat} (small : st < 8) :
    (s.portTo port st).portState port = st :=
  (s.getF_setF_self _ _ _).trans (Nat.mod_eq_of_lt small)

/-- A count of a port leaves its state as it is. -/
theorem State.portState_bump (s : State) {f : Fld} (outside : f.blk ≠ .brick) (lsb : f.lsb < 64) (above : f.lsb ≠ 0)
    (a : Loc) (port n : Nat) : (s.bump f a n).portState port = s.portState port := by
  refine s.getF_bump_ne outside ?_ (Fld.key_ne_of_lsb lsb (by decide) above _ _) n
  rw [outsidePerf, csrBlock_key_fabLoc rfl (by decide) (by decide) port]
  decide

/-! ## Training (R263, R264) -/

theorem State.flushCredit_none {s : State} (none : s.fab.noCredit = []) : s.flushCredit = s := by
  have same : { s.fab with noCredit := [] } = s.fab := by rw [← none]
  simp only [State.flushCredit, none, forEach, List.foldl_nil, same]

/-- What training has found of a link: its lanes, its class and delay, and the port at its far end. -/
def State.linkFound (s : State) (a : Loc) (t : PortTraining) : State :=
  let l := selectLanes t.goodLanes t.spareGood
  let m := median t.rtts
  let s := ((s.setF R.FAB_PSTAT_LANES a l.1).setB R.FAB_PSTAT_SPAREUSED a l.2).setF R.FAB_PSTAT_LCLASS a (linkClass m)
  ((s.setF R.FAB_PSTAT_PEER a t.peer).setF R.FAB_PSTAT_RTT_NS a (min m 65535)).setF R.FAB_PSTAT_PEERPORT a t.peerPort

section Training

variable {s : State} {port : Nat} {t : PortTraining} (training : s.portState port = PortRun.training)

include training

/-- A training that finds enough lanes makes the port ACTIVE. -/
theorem State.portTrained_found (lanes : (selectLanes t.goodLanes t.spareGood).1 ≠ 0) (waits : s.fab.noCredit = []) :
    s.portTrained port t = (s.linkFound (fabLoc port) t).portTo port PortRun.active := by
  have first : ¬ PortRun.training = PortRun.retrain := by decide
  simp only [State.portTrained, training, lanes, first, ne_eq, not_true_eq_false, false_and, if_false]
  exact State.flushCredit_none waits

/-- A training that finds too few lanes disables the port. -/
theorem State.portTrained_few (lanes : (selectLanes t.goodLanes t.spareGood).1 = 0) :
    s.portTrained port t = s.disablePort port := by
  simp only [State.portTrained, training, lanes, ne_eq, not_true_eq_false, false_and, if_false, if_true]

end Training

/-- An ACTIVE port reads the lanes and the peer that training found. -/
theorem State.getF_linkFound (s : State) (port : Nat) (t : PortTraining) (st : Nat) :
    let u := (s.linkFound (fabLoc port) t).portTo port st
    u.mem = s.mem ∧ u.getF R.FAB_PSTAT_LANES (fabLoc port) = (selectLanes t.goodLanes t.spareGood).1 % 16 ∧
      u.getF R.FAB_PSTAT_PEER (fabLoc port) = t.peer % 2 ^ R.FAB_PSTAT_PEER.w := by
  have apart {f g : Fld} (h : f.lsb < 64 ∧ g.lsb < 64 ∧ f.lsb ≠ g.lsb) (s : State) (v : Nat) :
      (s.setF f (fabLoc port) v).getF g (fabLoc port) = s.getF g (fabLoc port) :=
    s.getF_setF_of_lsb h.1 h.2.1 h.2.2 _ _ v
  simp only [State.portTo, State.linkFound, State.setB, State.setF_mem, true_and]
  constructor
  · rw [apart (by decide), apart (by decide), apart (by decide), apart (by decide), apart (by decide),
      apart (by decide), State.getF_setF_self]
    rfl
  · rw [apart (by decide), apart (by decide), apart (by decide), State.getF_setF_self]

theorem exec_portTrained {port : Nat} (unit : port < 32) (t : PortTraining) (s : State) :
    exec (.portTrained port t) s = .next (s.portTrained port t) := if_pos (decide_eq_true unit)

/-- Settles O24: each row is its port's, and does what the lemmas above say. -/
theorem portRows : Obligations.PortRows := by
  unfold Obligations.PortRows
  refine ⟨?found, ?few, ?retrain, ?late, ?replay, ?ack⟩
  case found =>
    intro s port tr unit training lanes waits
    have row := exec_portTrained unit tr s
    rw [State.portTrained_found training lanes waits] at row
    obtain ⟨mem, found, peer⟩ := s.getF_linkFound port tr PortRun.active
    exact ⟨_, row, mem, State.portState_portTo _ _ (by decide), found, peer⟩
  case few =>
    intro s port tr unit training lanes
    rw [exec_portTrained unit, State.portTrained_few training lanes]
  case retrain =>
    intro s port unit up
    have row : exec (.portRetrain port) s = .next (s.retrainPort port) := if_pos (decide_eq_true unit)
    simp only [State.retrainPort, up, Bool.not_true, Bool.false_eq_true, if_false] at row
    refine ⟨_, row, by rw [State.bump_mem]; rfl, ?_, ?_⟩
    · rw [State.portState_bump _ (by decide) (by decide) (by decide)]
      exact State.portState_portTo _ _ (by decide)
    · simp only [State.port, State.bump_fab, State.portTo, State.setF_fab, State.setPort, mgetD_mput_self, and_self]
  case late =>
    intro s port unit retrain
    have row : exec (.retrainTimeout port) s = .next (if s.portState port = PortRun.retrain then
      (s.until ((s.port port).since + 1000000)).disablePort port else s) := if_pos (decide_eq_true unit)
    rw [row, if_pos retrain]
  case replay =>
    intro s port unit frames up
    have row : exec (.replayTimeout port) s = .next (if (s.port port).tx.isEmpty ∨
        (s.portState port ≠ PortRun.active ∧ s.portState port ≠ PortRun.quarantine) then s
      else (s.until ((s.port port).since + 2000)).replayFrom port 0) := if_pos (decide_eq_true unit)
    rw [row, if_neg]
    rintro (none | ⟨notActive, notQuarantine⟩)
    · exact frames (List.isEmpty_iff.1 none)
    · exact up.elim notActive notQuarantine
  case ack =>
    intro s port unit waits
    have row : exec (.ackDelayExpiry port) s = .next (if (s.port port).unacked = 0 then s else s.sendAck port) :=
      if_pos (decide_eq_true unit)
    rw [if_neg waits] at row
    exact ⟨_, row, rfl, rfl, congrArg FPort.unacked (mgetD_mput_self ..), _, rfl, rfl, rfl⟩

end Sys2Proof.Machine
end

section
/-!
Requests that arrive from other devices: how a packet leaves the inbox, what an answer changes, and a request whose
ORD is the next of its stream (O26).
-/

namespace Sys2Proof.Machine

/-! ## What sending changes -/

/-- Sending a packet changes ports, the packets that wait for credit, and what has gone out (R267, R269, R276). -/
def Sends (s t : State) : Prop :=
  ∃ ports waits gone, t = s.setFab { s.fab with ports := ports, noCredit := waits, outbox := gone }

theorem State.offer_sends (s : State) (port : Nat) (p : Packet) : Sends s (s.offer port p) := by
  unfold State.offer
  split
  · exact ⟨_, _, _, rfl⟩
  · exact ⟨_, _, _, rfl⟩

theorem State.unreachable_sends (s : State) (fd : Nat) (p : Packet) : Sends s (s.unreachable fd p) := by
  simp only [State.unreachable]
  split
  · exact ⟨_, _, _, rfl⟩
  · exact ⟨_, _, _, rfl⟩

theorem State.transmit_sends (s : State) (fd : Nat) (p : Packet) : Sends s (s.transmit fd p) := by
  unfold State.transmit
  split
  · exact s.offer_sends _ p
  · exact s.unreachable_sends fd p

/-- An answer leaves memory, the inbox, the streams and the FENCEs that wait as they are. -/
theorem State.respond_keeps (s : State) (port : Nat) (p : Packet) (ty : Nat) (b : List Byte) (status : Nat)
    (poison : Bool) :
    let t := s.respond port p ty b status poison
    t.mem = s.mem ∧ t.fab.inbox = s.fab.inbox ∧ t.fab.streams = s.fab.streams ∧ t.fab.fences = s.fab.fences := by
  obtain ⟨ports, waits, gone, sent⟩ := s.transmit_sends (portFd port) _
  intro t
  rw [show t = _ from sent]
  exact ⟨rfl, rfl, rfl, rfl⟩

/-! ## Out of the inbox (R271) -/

/-- A packet put at the head of the inbox is the one that is taken. -/
theorem State.takeIn_first (s : State) (port : Nat) (q : Packet) :
    ({ s with fab := { s.fab with inbox := (port, q) :: s.fab.inbox } } : State).takeIn q = (port, s) := by
  simp only [State.takeIn, List.find?_cons, decide_true, List.erase_cons_head]
  rfl

/-- A packet that keeps the rules and is of its source's boot generation goes on to what its row does. -/
theorem State.arrive_first {s1 s2 : State} {port : Nat} {q : Packet} (rules : packetWrong q true = none)
    (current : s1.bootCheck port q = (s2, true)) (f : State → Nat → State) :
    ({ s1 with fab := { s1.fab with inbox := (port, q) :: s1.fab.inbox } } : State).arrive q f = f s2 port := by
  simp only [State.arrive, State.takeIn_first, rules, current, if_true]

/-- A request for one device meets its stream (R274). -/
theorem State.request1_ordered {s s1 s2 : State} {p : Packet} {port ty : Nat} (taken : s.takeIn p = (port, s1))
    (single : p.bcast = false) (rules : packetWrong { p with type := ty } true = none)
    (current : s1.bootCheck port { p with type := ty } = (s2, true)) :
    s.request1 p ty = s2.ordered port { p with type := ty } := by
  simp only [State.request1, taken]
  rw [State.arrive_first rules current]
  simp only [single, Bool.false_eq_true, if_false]

/-- A management packet meets its manager check (R261). -/
theorem exec_mgmt {s s1 s2 : State} {p : Packet} {port : Nat} (taken : s.takeIn p = (port, s1))
    (rules : packetWrong { p with type := 0x70 } true = none)
    (current : s1.bootCheck port { p with type := 0x70 } = (s2, true)) :
    exec (.mgmt p) s = .next (s2.manage port { p with type := 0x70 }) := by
  simp only [exec, execMgmt, taken]
  rw [State.arrive_first rules current]

/-! ## The next request of a stream (R274) -/

theorem State.answerFences_none {s : State} (none : s.fab.fences = []) (port : Nat) : s.answerFences port = s := by
  have same : { s.fab with fences := [] } = s.fab := by rw [← none]
  simp only [State.answerFences, none, List.filter_nil, forEach, List.foldl_nil, same]
  rfl

/-- A request in its turn, on a stream that holds nothing, is applied and moves the stream to the next ORD. -/
theorem State.ordered_next {s t : State} {port : Nat} {p : Packet} (turn : (s.ordSt p.src p.vc).next = p.ord)
    (applied : s.applyReq port p = (t, true)) (streams : t.fab.streams = s.fab.streams)
    (held : (s.ordSt p.src p.vc).held = []) (fences : t.fab.fences = []) :
    s.ordered port p = t.setOrd p.src p.vc { next := (p.ord + 1) % 65536, held := [] } := by
  have now : (p.ord + 65536 - (s.ordSt p.src p.vc).next) % 65536 = 0 := by omega
  have same : t.ordSt p.src p.vc = { next := p.ord, held := [] } := by
    rw [← turn, ← held]
    simp only [State.ordSt, streams]
  simp only [State.ordered, now, applied, same, if_true, List.length_nil, drainHeld]
  exact State.answerFences_none (s := t.setOrd ..) fences port

section Granted

variable {s : State} {p : Packet} (granted : s.rangeAccess p p.len = .granted)
  (mapped : s.mapped p.space p.offset p.len = true) (port : Nat)

include granted mapped

/-- A granted READ of mapped bytes is answered with them. -/
theorem State.applyReq_read (read : p.type = 0x10) :
    s.applyReq port p = (s.respond port p 0x11 (s.rdTier p.space p.offset p.len) 0 false, true) := by
  simp only [State.applyReq, read, granted, State.guarded, State.orUnmapped, mapped, if_true, Bool.not_true, id]

/-- A granted WRITE to mapped bytes lands and is acknowledged. -/
theorem State.applyReq_write (write : p.type = 0x20) :
    s.applyReq port p = ((s.landPacket p).respond port p 0x21 [], true) := by
  simp only [State.applyReq, write, granted, State.guarded, State.orUnmapped, mapped, if_true]

end Granted

/-- Where no ring and no ordered reduction looks on, and it is no buddy's data, a WRITE writes its payload alone. -/
theorem State.landPacket_plain {s : State} {p : Packet} (vc : p.vc ≠ 5) (rings : s.rings = [])
    (landing : s.landingAt p.job (p.space * 2 ^ 44 + p.offset) = none) :
    s.landPacket p = s.wrTier p.space p.offset p.payload := by
  have quiet (t : State) (h : t.rings = []) (off n : Nat) : t.hbmTouched off n = t := by
    simp only [State.hbmTouched, h, List.map_nil, forEach, List.foldl_nil]
  have touched : (if p.space = 1 then (s.wrTier p.space p.offset p.payload).hbmTouched p.offset p.payload.length
      else s.wrTier p.space p.offset p.payload) = s.wrTier p.space p.offset p.payload := by
    rw [quiet (s.wrTier ..) rings, ite_self]
  have far : (s.wrTier p.space p.offset p.payload).landingAt p.job (p.space * 2 ^ 44 + p.offset) = none := landing
  simp only [State.landPacket, touched, far, vc, if_false]

/-- Settles O26: a request is taken from the inbox and meets its stream; one in its turn is applied, and the stream
goes on. -/
theorem requestRows : Obligations.RequestRows := by
  unfold Obligations.RequestRows
  refine ⟨?rows, ?turn⟩
  case rows =>
    intro s s1 s2 p port taken single q
    have meets {ty : Nat} (rules : packetWrong (q ty) true = none) (current : s1.bootCheck port (q ty) = (s2, true)) :
        (.next (s.request1 p ty) : Out) = .next (s2.ordered port (q ty)) :=
      congrArg _ (State.request1_ordered taken single rules current)
    exact ⟨meets, meets, meets, meets, meets, meets, meets, meets, exec_mgmt taken⟩
  case turn =>
    intro s port p turn _ held fences granted mapped
    constructor
    · intro read
      obtain ⟨mem, inbox, streams, waits⟩ :=
        s.respond_keeps port p 0x11 (s.rdTier p.space p.offset p.len) 0 false
      rw [State.ordered_next turn (State.applyReq_read granted mapped port read) streams held
        (waits.trans fences)]
      exact ⟨mem, congrArg OrdSt.next (mgetD_mput_self ..), inbox⟩
    · intro write vc rings landing
      have applied := State.applyReq_write granted mapped port write
      rw [State.landPacket_plain vc rings landing] at applied
      obtain ⟨mem, -, streams, waits⟩ :=
        (s.wrTier p.space p.offset p.payload).respond_keeps port p 0x21 [] 0 false
      rw [State.ordered_next turn applied streams held (waits.trans fences)]
      exact ⟨mem, congrArg OrdSt.next (mgetD_mput_self ..)⟩

end Sys2Proof.Machine
end

section
/-!
Responses that end this device's requests, and requests that are sent again (O27).
-/

namespace Sys2Proof.Machine

/-- The bytes that a response brings are handed over under its TAG index (R270). -/
def State.handOver (s : State) (p : Packet) : State :=
  { s with tier := { s.tier with results := s.tier.results ++ [(p.tagIdx, p.payload)] } }

section Response

variable {s s1 s2 : State} {p : Packet} {port ty : Nat} (taken : s.takeIn p = (port, s1)) (single : p.bcast = false)
  (current : s1.bootCheck port { p with type := ty } = (s2, true))

include taken single current

/-- A response whose TAG index and generation are outstanding ends its request (R270). -/
theorem State.response1_outstanding {r : OutReq} (out : mget s2.fab.reqs p.tagIdx = some r)
    (gen : r.pkt.tagGen = p.tagGen) (keep : Bool) :
    s.response1 p ty keep = (if keep then s2.handOver p else s2).complete p.tagIdx r p.payload := by
  simp only [State.response1, taken, current, out, gen, Bool.not_true, Bool.false_eq_true, if_false, if_true]
  simp only [single, Bool.false_eq_true, if_false, State.handOver]

/-- A response whose TAG index is not outstanding is dropped and counted (R270). -/
theorem State.response1_stale (none : mget s2.fab.reqs p.tagIdx = none) (keep : Bool) :
    s.response1 p ty keep = s2.bump R.FAB_STALE_TAG (lDie (portFd port)) := by
  simp only [State.response1, taken, current, none, Bool.not_true, Bool.false_eq_true, if_false]
  simp only [single, Bool.false_eq_true, if_false]

end Response

/-- A request that is still outstanding is sent again when RETRY_US have passed (R272). -/
theorem exec_requestResend {s : State} {idx : Nat} {r : OutReq} (out : mget s.fab.reqs idx = some r) :
    exec (.requestResend idx) s =
      .next ((s.until (r.last + s.getF R.FAB_LIMIT_RETRY_US (lDie 18) * 1000)).resend idx) := by
  simp only [exec, execRequestResend, out]

/-- Settles O27: a response is matched by its TAG index and generation, and a request that waits is sent again. -/
theorem responseRows : Obligations.ResponseRows := by
  unfold Obligations.ResponseRows
  refine ⟨?ends, ?stale, fun s idx r => exec_requestResend⟩
  case ends =>
    intro s s1 s2 p port r taken single q kept out gen
    have ended {ty : Nat} (current : s1.bootCheck port (q ty) = (s2, true)) (keep : Bool) :
        (.next (s.response1 p ty keep) : Out) =
          .next ((if keep then s2.handOver p else s2).complete p.tagIdx r p.payload) :=
      congrArg _ (State.response1_outstanding taken single current out gen keep)
    exact ⟨fun c => ended c true, fun c => ended c false, fun c => ended c true, fun c => ended c false⟩
  case stale =>
    intro s s1 s2 p port taken single current none
    exact congrArg Host.Outcome.next (State.response1_stale taken single current none true)

end Sys2Proof.Machine
end

section
/-!
The command registers of the fabric dies (O11): what the record of a write leaves as it is, the state in which a write
has its effects, and the effects of ports, route tables and rings.
-/

namespace Sys2Proof.Machine

/-! ## What the record of a write leaves as it is -/

section Record

variable (s : State) {g : Fld} {b : Loc} (perf : outsidePerf (g.key b))
  (apart : ∀ hd < 2, R.PCIE_MSIX_PENDING.key (lDie (16 + hd)) ≠ g.key b)

include apart in
theorem State.getF_msix_of_apart {hd : Nat} (host : hd < 2) (v : Nat) : (s.msix hd v).getF g b = s.getF g b := by
  rcases s.msix_spec hd v with ⟨-, up⟩ | ⟨-, down⟩
  · rw [up]
    rfl
  · rw [down, s.getF_setF_ne _ _ _ _ _ (apart hd host)]

include perf apart

/-- An alarm writes the pending signals of the host dies and block PERF alone (R423). -/
theorem State.getF_alarm_of_apart (kind job key : Nat) : (s.alarm kind job key).getF g b = s.getF g b := by
  have overflow : csrBlock (R.PERF_ALSTAT_OVERFLOW.key lKeep) = 0x58 := by decide
  unfold State.alarm
  dsimp only
  split
  · rfl
  · split
    · rw [State.getF_msix_of_apart _ apart (by decide), State.getF_msix_of_apart _ apart (by decide)]
      rfl
    · rw [State.getF_bump_ne _ (by decide) perf (fun same => perf.2 (same ▸ overflow))]
      rfl

theorem State.getF_auditAlarm_of_apart : s.auditAlarm.getF g b = s.getF g b := by
  unfold State.auditAlarm
  split
  · rfl
  · exact s.getF_alarm_of_apart perf apart _ _ _

/-- A record in the audit log leaves every field outside those of an alarm as it is. -/
theorem State.getF_audit1_of_apart (d : Nat) (r : AuditRec) : (s.audit1 d r).getF g b = s.getF g b := by
  unfold State.audit1
  split
  · exact State.getF_auditAlarm_of_apart _ perf apart
  · exact State.getF_auditAlarm_of_apart _ perf apart

end Record

theorem State.alarm_disabled (s : State) (kind job key : Nat) :
    (s.alarm kind job key).obsv.disabled = s.obsv.disabled := by
  unfold State.alarm
  dsimp only
  split
  · rfl
  · split <;> simp only [State.msix_obsv, State.bump_obsv] <;> rfl

theorem State.auditAlarm_disabled (s : State) : s.auditAlarm.obsv.disabled = s.obsv.disabled := by
  unfold State.auditAlarm
  split
  · rfl
  · exact s.alarm_disabled _ _ _

theorem State.audit1_disabled (s : State) (d : Nat) (r : AuditRec) :
    (s.audit1 d r).obsv.disabled = s.obsv.disabled := by
  unfold State.audit1
  split
  · exact State.auditAlarm_disabled _
  · exact State.auditAlarm_disabled _

/-! ## Fields of the fabric dies (R4) -/

/-- A field of a block of the fabric dies that commands write, and one of its places in the block. -/
structure FabricField (f : Fld) (i : Nat) : Prop where
  blk : f.blk = .fab ∨ f.blk = .route ∨ f.blk = .llp
  off : f.off + i * f.stride < 65536
  lsb : f.lsb < 64

/-- The registers of the fabric dies stand above those of the host dies. -/
theorem Fld.key_ne_of_host {f : Fld} {a : Loc} (host : f.key a < 18 * 2 ^ 30) {die : Nat} (fabric : 18 ≤ die) (g : Fld)
    (i : Nat) : f.key a ≠ g.key (lIdx die i) := by
  have above : 18 * 2 ^ 30 ≤ g.key (lIdx die i) := by
    simp only [Fld.key, lIdx]
    omega
  omega

section Fabric

variable {g : Fld} {i : Nat} (field : FabricField g i) {die : Nat} (fabric : 18 ≤ die)

include field

theorem FabricField.outsidePerf : outsidePerf (g.key (lIdx die i)) := by
  obtain ⟨blk, off, lsb⟩ := field
  rw [Sys2Proof.Machine.outsidePerf, Fld.csrBlock_key g (lIdx die i) rfl off lsb]
  rcases blk with h | h | h <;> rw [h]
  · exact (by decide : (0x08 : Nat) ≠ 0x50 ∧ 0x08 ≠ 0x58)
  · exact (by decide : (0x10 : Nat) ≠ 0x50 ∧ 0x10 ≠ 0x58)
  · exact (by decide : (0x18 : Nat) ≠ 0x50 ∧ 0x18 ≠ 0x58)

include fabric

omit field in
theorem key_pending_ne (hd : Nat) (host : hd < 2) :
    R.PCIE_MSIX_PENDING.key (lDie (16 + hd)) ≠ g.key (lIdx die i) := by
  refine Fld.key_ne_of_host ?_ fabric g i
  simp only [Fld.key, lDie, R.PCIE_MSIX_PENDING, Blk.code]
  omega

theorem State.getF_alarm_fabric (s : State) (kind job key : Nat) :
    (s.alarm kind job key).getF g (lIdx die i) = s.getF g (lIdx die i) :=
  s.getF_alarm_of_apart field.outsidePerf (key_pending_ne fabric) kind job key

theorem State.getF_audit1_fabric (s : State) (d : Nat) (r : AuditRec) :
    (s.audit1 d r).getF g (lIdx die i) = s.getF g (lIdx die i) :=
  s.getF_audit1_of_apart field.outsidePerf (key_pending_ne fabric) d r

end Fabric

/-- Fields of one block and place lie apart where their offsets and lowest bits do. -/
theorem Fld.key_ne_of_place (f g : Fld) (block : f.blk = g.blk ∧ f.stride = g.stride)
    (ne : f.off * 64 + f.lsb ≠ g.off * 64 + g.lsb) (a : Loc) : f.key a ≠ g.key a := by
  obtain ⟨blk, stride⟩ := block
  simp only [Fld.key, blk, stride]
  omega

/-! ## A write and its effects (R382 to R388) -/

/-- The state in which a write has its effects: its record is made, and its fields have taken their values. -/
def State.taken (s : State) (d : Nat) (r : AuditRec) (ps : List FldWrite) : State :=
  forEach ps (s.audit1 d r) State.applyFld

section Taken

variable (s : State) (d : Nat) (r : AuditRec) (ps : List FldWrite)

/-- What an effect may read beside registers: taking values changes registers and WO1 marks alone. -/
theorem State.taken_spec : (s.taken d r ps).fab = s.fab ∧ (s.taken d r ps).col = s.col ∧
    (s.taken d r ps).obsv = (s.audit1 d r).obsv := by
  have frame : (s.taken d r ps).outside { csr := true, wo1 := true } =
      (s.audit1 d r).outside { csr := true, wo1 := true } :=
    forEach_outside (State.applyFld_outside rfl rfl) ps _
  exact ⟨(congrArg State.fab frame :).trans (s.audit1_fab d r), (congrArg State.col frame :).trans (s.audit1_col d r),
    (congrArg State.obsv frame :)⟩

/-- A unit is out of service after a record as it was before. -/
theorem State.unitOut_taken (die code unit : Nat) : (s.taken d r ps).unitOut die code unit = s.unitOut die code unit := by
  obtain ⟨-, -, obsv⟩ := s.taken_spec d r ps
  simp only [State.unitOut, State.testing, obsv, State.audit1_bists, State.audit1_disabled]

/-- A write leaves the fields of the fabric dies as they are, but for those it writes. -/
theorem State.getF_taken {s : State} {ps : List FldWrite} {g : Fld} {i : Nat} (field : FabricField g i) {die : Nat}
    (fabric : 18 ≤ die) (apart : ∀ p ∈ ps, p.fld.acc ≠ .wo1 ∧ p.fld.key p.loc ≠ g.key (lIdx die i)) (d : Nat)
    (r : AuditRec) : (s.taken d r ps).getF g (lIdx die i) = s.getF g (lIdx die i) := by
  rw [State.taken, State.getF_forEach, s.getF_audit1_fabric field fabric]
  intro t p hp
  obtain ⟨often, ne⟩ := apart p hp
  rw [t.applyFld_setF p often, t.getF_setF_ne _ _ _ _ _ ne]

end Taken

/-- A write of a register with fields to write: its origin does not reach the register, its record is accepted and the
plan is carried out, or it waits and is counted (R338, R388). -/
theorem State.csrWrite_cases {s : State} {csr : Nat} {v : U64} {p : FldWrite} {ps : List FldWrite}
    (plan : s.plan (regFields csr) v.toNat = p :: ps) (o : Origin) :
    s.csrWrite o csr v = s ∨ (∃ d r, s.csrWrite o csr v = (s.audit1 d r).applyPlan (p :: ps) v.toNat) ∨
      ∃ a, s.csrWrite o csr v = ({ s with audit := a } : State).bump R.AUDIT_WAIT_EVENTS (lDie 16) := by
  simp only [State.csrWrite, plan, List.isEmpty_cons, Bool.false_eq_true, or_false]
  split
  · exact .inl rfl
  · split
    · refine .inr (.inl ⟨originDie o (bits csr 28 24), s.writeRec o csr v.toNat (p :: ps), ?_⟩)
      simp only [State.csrWriteNow, plan, List.isEmpty_cons, Bool.false_eq_true, if_false]
    · exact .inr (.inr ⟨_, rfl⟩)

/-- Unless it is ROUTE_SDATA, a register has the effects of its fields once they are taken. -/
theorem State.applyPlan_taken (s : State) {p : FldWrite} (other : ¬ (p.fld.blk = .route ∧ p.fld.off = 0x10))
    (ps : List FldWrite) (v d : Nat) (r : AuditRec) :
    (s.audit1 d r).applyPlan (p :: ps) v = forEach (p :: ps) (s.taken d r (p :: ps)) State.afterFld :=
  if_neg other

/-- The plan of a register whose first field alone takes writes. -/
theorem State.plan_first {s : State} {f : Fld} {a h : Loc} (first : s.writable f a = some h) {fs : List (Fld × Loc)}
    (rest : ∀ g ∈ fs, ∀ t : State, t.writable g.1 g.2 = none) (v : Nat) :
    s.plan ((f, a) :: fs) v = [s.planFld f a h v] := by
  obtain ⟨ps, plan, each⟩ := s.plan_cons first fs v
  have none : ps = [] := List.eq_nil_iff_forall_not_mem.2 fun p hp => by
    obtain ⟨g, hg, t, k, writes, -⟩ := each p hp
    rw [rest g hg t] at writes
    exact absurd writes (Option.some_ne_none k).symm
  rw [plan, none]

theorem isFabric_cases {fd : Nat} (fabric : isFabric fd = true) : fd = 18 ∨ fd = 19 := by
  simp only [isFabric, Bool.and_eq_true, decide_eq_true_eq] at fabric
  omega

theorem isFabric_le {fd : Nat} (fabric : isFabric fd = true) : 18 ≤ fd := by
  rcases isFabric_cases fabric with rfl | rfl <;> decide

/-- A one-bit field is written 1 where the value has its bit. -/
theorem bits_of_bit {v i : Nat} (one : bit v i = true) : bits v i i = 1 := by
  rw [bit, Nat.testBit_eq_decide_div_mod_eq, decide_eq_true_eq] at one
  simpa only [bits, Nat.sub_self, Nat.zero_add, pow_one, Nat.add_sub_cancel_left] using one

/-! ## FAB_PCTL.ENABLE (R264) -/

section Port

variable {fd port : Nat} (fabric : isFabric fd = true) (unit : port < 16)

include fabric unit

/-- A fabric die's port among the device's 32. -/
theorem fabLoc_port : fabLoc ((fd - 18) * 16 + port) = lIdx fd port := by
  rcases isFabric_cases fabric with rfl | rfl
  all_goals
    simp only [fabLoc, lIdx, Loc.mk.injEq, true_and]
    omega

theorem State.portState_port (s : State) :
    s.portState ((fd - 18) * 16 + port) = s.getF R.FAB_PSTAT_STATE (lIdx fd port) := by
  rw [State.portState, fabLoc_port fabric unit]

theorem regFields_enable :
    regFields (csrOf R.FAB_PCTL_ENABLE (lIdx fd port)) = [(R.FAB_PCTL_ENABLE, lIdx fd port)] := by
  have ports : ∀ n < 32, regFields (csrOf R.FAB_PCTL_ENABLE (fabLoc n)) = [(R.FAB_PCTL_ENABLE, fabLoc n)] := by decide
  rw [← fabLoc_port fabric unit]
  exact ports _ (by rcases isFabric_cases fabric with rfl | rfl <;> omega)

/-- The plan of a write to FAB_PCTL: ENABLE alone, which reads as it was. -/
theorem State.plan_enable (s : State) (v : Nat) : s.plan (regFields (csrOf R.FAB_PCTL_ENABLE (lIdx fd port))) v =
    [s.planFld R.FAB_PCTL_ENABLE (lIdx fd port) (lIdx fd port) v] := by
  rw [regFields_enable fabric unit]
  exact State.plan_first rfl (fun g hg => absurd hg List.not_mem_nil) v

omit fabric in
theorem fabricField_PSTAT_STATE : FabricField R.FAB_PSTAT_STATE port :=
  ⟨.inl rfl, by simp only [R.FAB_PSTAT_STATE]; omega, by decide⟩

end Port

theorem State.afterFld_enable (s : State) {p : FldWrite} (enable : p.fld = R.FAB_PCTL_ENABLE) :
    s.afterFld p = if p.raw = 1 then s.enablePort ((p.loc.die - 18) * 16 + p.loc.idx) else s := by
  simp only [State.afterFld, enable, true_and, beq_iff_eq]
  rfl

section Enable

variable {s : State}

theorem State.enablePort_out {port : Nat} (out : s.unitOut (18 + port / 16) 0x08 (port % 16) = true) :
    s.enablePort port = s := if_pos out

theorem State.enablePort_down {port : Nat} (out : s.unitOut (18 + port / 16) 0x08 (port % 16) = false)
    (down : s.portState port = PortRun.down) :
    s.enablePort port = (s.setPort port { s.port port with txNext := 0, rxNext := 0 }).trainPort port := by
  simp only [State.enablePort, out, down, Bool.false_eq_true, if_false, if_true]

theorem State.enablePort_disabled {port : Nat} (out : s.unitOut (18 + port / 16) 0x08 (port % 16) = false)
    (disabled : s.portState port = PortRun.disabled) : s.enablePort port = s.portTo port PortRun.down := by
  have other : ¬ PortRun.disabled = PortRun.down := by decide
  simp only [State.enablePort, out, disabled, other, Bool.false_eq_true, if_false, if_true]

/-- A port that begins training is in TRAINING. -/
theorem State.portState_trainPort (s : State) (port : Nat) : (s.trainPort port).portState port = PortRun.training := by
  have apart : R.FAB_PVIOL_COUNT.key (fabLoc port) ≠ R.FAB_PSTAT_STATE.key (fabLoc port) :=
    Fld.key_ne_of_place R.FAB_PVIOL_COUNT R.FAB_PSTAT_STATE ⟨rfl, rfl⟩ (by decide) _
  rw [State.trainPort, State.portState, State.getF_setF_ne _ _ _ _ _ _ apart]
  exact State.portState_portTo _ port (by decide)

variable {fd port : Nat} (fabric : isFabric fd = true) (unit : port < 16)

include fabric unit

/-- The state in which a write to FAB_PCTL has its effect, as its port sees it. -/
theorem State.portState_taken_enable (s : State) (v d : Nat) (r : AuditRec) :
    (s.taken d r [s.planFld R.FAB_PCTL_ENABLE (lIdx fd port) (lIdx fd port) v]).getF R.FAB_PSTAT_STATE (lIdx fd port) =
      s.getF R.FAB_PSTAT_STATE (lIdx fd port) := by
  refine State.getF_taken (fabricField_PSTAT_STATE unit) (isFabric_le fabric) (fun p hp => ?_) d r
  rw [List.mem_singleton.1 hp, State.planFld_fld, State.planFld_loc]
  exact ⟨by decide, Fld.key_ne_of_place R.FAB_PCTL_ENABLE R.FAB_PSTAT_STATE ⟨rfl, rfl⟩ (by decide) _⟩

omit fabric unit in
/-- A carried-out write to FAB_PCTL enables the port where it writes 1. -/
theorem State.applyPlan_enable (s : State) (v d : Nat) (r : AuditRec) :
    (s.audit1 d r).applyPlan [s.planFld R.FAB_PCTL_ENABLE (lIdx fd port) (lIdx fd port) v] v =
      let u := s.taken d r [s.planFld R.FAB_PCTL_ENABLE (lIdx fd port) (lIdx fd port) v]
      if bits v 0 0 = 1 then u.enablePort ((fd - 18) * 16 + port) else u := by
  rw [s.applyPlan_taken (by rw [State.planFld_fld]; decide), forEach, List.foldl_cons, List.foldl_nil,
    State.afterFld_enable _ (State.planFld_fld ..), State.planFld_raw, State.planFld_loc]
  rfl

/-- The unit test of a port is that of its place on its die. -/
theorem State.unitOut_port (s : State) :
    s.unitOut (18 + ((fd - 18) * 16 + port) / 16) 0x08 (((fd - 18) * 16 + port) % 16) = s.unitOut fd 0x08 port := by
  have place := fabLoc_port fabric unit
  simp only [fabLoc, lIdx, Loc.mk.injEq, true_and] at place
  rw [place.1, place.2]

/-- A port that is out of service stays as it is, whether the write is accepted or not (R426). -/
theorem State.csrWrite_enable_out (out : s.unitOut fd 0x08 port = true) (o : Origin) (v : U64) :
    let t := s.csrWrite o (csrOf R.FAB_PCTL_ENABLE (lIdx fd port)) v
    t.fab = s.fab ∧ t.getF R.FAB_PSTAT_STATE (lIdx fd port) = s.getF R.FAB_PSTAT_STATE (lIdx fd port) := by
  intro t
  have le := isFabric_le fabric
  have field := fabricField_PSTAT_STATE unit
  rcases State.csrWrite_cases (s.plan_enable fabric unit v.toNat) o with same | ⟨d, r, write⟩ | ⟨a, waits⟩
  · rw [show t = s from same]
    exact ⟨rfl, rfl⟩
  · have stays : t = s.taken d r [s.planFld R.FAB_PCTL_ENABLE (lIdx fd port) (lIdx fd port) v.toNat] := by
      refine (write.trans (s.applyPlan_enable v.toNat d r)).trans ?_
      dsimp only
      rw [State.enablePort_out (by rw [State.unitOut_port fabric unit, State.unitOut_taken, out]), ite_self]
    rw [stays]
    exact ⟨(s.taken_spec d r _).1, s.portState_taken_enable fabric unit v.toNat d r⟩
  · rw [show t = _ from waits]
    refine ⟨State.bump_fab .., ?_⟩
    rw [State.getF_bump_ne _ (by decide) field.outsidePerf (Fld.key_ne_of_host (by decide) le _ _)]
    rfl

/-- ENABLE written 1, its record accepted: a DOWN port trains, a DISABLED one is DOWN (R264). -/
theorem State.csrWrite_enable {o : Origin} {v : U64} (out : s.unitOut fd 0x08 port = false)
    (room : s.writeOpen o (csrOf R.FAB_PCTL_ENABLE (lIdx fd port)) = true) (one : bit v.toNat 0 = true) :
    let t := s.csrWrite o (csrOf R.FAB_PCTL_ENABLE (lIdx fd port)) v
    let st := s.getF R.FAB_PSTAT_STATE (lIdx fd port)
    (st = PortRun.down → t.getF R.FAB_PSTAT_STATE (lIdx fd port) = PortRun.training) ∧
      (st = PortRun.disabled → t.getF R.FAB_PSTAT_STATE (lIdx fd port) = PortRun.down) := by
  intro t st
  obtain ⟨d, r, write⟩ := State.csrWrite_open room (s.plan_enable fabric unit v.toNat)
  have enabled := write.trans (s.applyPlan_enable v.toNat d r)
  dsimp only at enabled
  rw [if_pos (bits_of_bit one)] at enabled
  have before := (State.portState_port fabric unit _).trans (s.portState_taken_enable fabric unit v.toNat d r)
  have service := (State.unitOut_port fabric unit _).trans ((s.unitOut_taken d r
    [s.planFld R.FAB_PCTL_ENABLE (lIdx fd port) (lIdx fd port) v.toNat] fd 0x08 port).trans out)
  rw [show t = _ from enabled, ← State.portState_port fabric unit]
  constructor
  · intro down
    rw [State.enablePort_down service (before.trans down)]
    exact State.portState_trainPort _ _
  · intro disabled
    rw [State.enablePort_disabled service (before.trans disabled)]
    exact State.portState_portTo _ _ (by decide)

end Enable

/-! ## ROUTE_SDATA, ROUTE_SDONE and ROUTE_SEL (R278, R282) -/

/-- The fields of ROUTE_SDATA. -/
def shadowFields : List Fld := R.routeFields.filter (fun f => f.off = 0x10)

/-- A write to ROUTE_SDATA sets the shadow entry that it names, goes to the next DEST, and leaves the shadow not
complete. -/
theorem State.writeShadow_spec (s : State) (fd v : Nat) :
    mgetD (s.writeShadow fd v).fab.routes (s.shadowKey fd) 0 =
        (BitVec.ofNat 32 v &&& (if s.getB R.ROUTE_SADDR_TREE (lDie fd) then 0xFFFFFFFF else 0x3F3F3F3F)) ∧
      (s.writeShadow fd v).getF R.ROUTE_SADDR_DEST (lDie fd) =
        (s.getF R.ROUTE_SADDR_DEST (lDie fd) + 1) % 2 ^ 16 ∧
      (s.writeShadow fd v).getF R.ROUTE_SEL_SHADOWOK (lDie fd) = 0 ∧
      (s.writeShadow fd v).getF R.ROUTE_SEL_ACTIVE (lDie fd) = s.getF R.ROUTE_SEL_ACTIVE (lDie fd) := by
  have apart : R.ROUTE_SADDR_DEST.key (lDie fd) ≠ R.ROUTE_SEL_ACTIVE.key (lDie fd) :=
    Fld.key_ne_of_place R.ROUTE_SADDR_DEST R.ROUTE_SEL_ACTIVE ⟨rfl, rfl⟩ (by decide) _
  simp only [State.writeShadow]
  refine ⟨mgetD_mset_self .., ?_, State.getF_setF_self .., ?_⟩
  · rw [State.getF_setF_of_lsb _ (by decide) (by decide) (by decide), State.getF_setF_self]
    rfl
  · rw [State.getF_setF_of_lsb _ (by decide) (by decide) (by decide), State.getF_setF_ne _ _ _ _ _ _ apart]
    rfl

theorem State.shadowKey_congr {s t : State} {fd : Nat}
    (tree : t.getF R.ROUTE_SADDR_TREE (lDie fd) = s.getF R.ROUTE_SADDR_TREE (lDie fd))
    (dest : t.getF R.ROUTE_SADDR_DEST (lDie fd) = s.getF R.ROUTE_SADDR_DEST (lDie fd))
    (active : t.getF R.ROUTE_SEL_ACTIVE (lDie fd) = s.getF R.ROUTE_SEL_ACTIVE (lDie fd)) :
    t.shadowKey fd = s.shadowKey fd := by
  simp only [State.shadowKey, State.getB, tree, dest, active]
  rfl

theorem State.afterFld_done (s : State) {p : FldWrite} (done : p.fld = R.ROUTE_SDONE_DONE) :
    s.afterFld p = if p.raw = 1 then s.setF R.ROUTE_SEL_SHADOWOK p.loc 1 else s := by
  have other : ¬ R.ROUTE_SDONE_DONE = R.ROUTE_SEL_ACTIVE := by decide
  simp only [State.afterFld, done, other, true_and, beq_iff_eq, if_false]
  rfl

theorem State.afterFld_active (s : State) {p : FldWrite} (active : p.fld = R.ROUTE_SEL_ACTIVE) :
    s.afterFld p = s.flipRoutes p.loc.die p.raw := by
  simp only [State.afterFld, active, if_true]
  rfl

/-- The plan of ROUTE_SEL.ACTIVE leaves it as it is: the flip is an effect of its own. -/
theorem State.planFld_active (s : State) (a h : Loc) (v : Nat) :
    (s.planFld R.ROUTE_SEL_ACTIVE a h v).new = s.getF R.ROUTE_SEL_ACTIVE h := by
  simp only [State.planFld]
  rfl

section Flip

variable {s : State} {fd v : Nat} (other : v ≠ s.getF R.ROUTE_SEL_ACTIVE (lDie fd))

include other

/-- A complete shadow becomes the table in force (R278). -/
theorem State.flipRoutes_complete (complete : s.getB R.ROUTE_SEL_SHADOWOK (lDie fd) = true) :
    (s.flipRoutes fd v).fab = s.fab ∧ (s.flipRoutes fd v).getF R.ROUTE_SEL_ACTIVE (lDie fd) = v % 2 ∧
      (s.flipRoutes fd v).getF R.ROUTE_SEL_SHADOWOK (lDie fd) = 0 := by
  have perf {g : Fld} (field : FabricField g 0) : outsidePerf (g.key (lDie fd)) := field.outsidePerf
  simp only [State.flipRoutes, other, complete, if_false, if_true]
  refine ⟨by rw [State.bump_fab]; rfl, ?_, ?_⟩
  · rw [State.getF_bump_ne _ (by decide) (perf ⟨.inr (.inl rfl), by decide, by decide⟩)
      (Fld.key_ne_of_lsb (by decide) (by decide) (by decide) _ _),
      State.getF_setF_of_lsb _ (by decide) (by decide) (by decide), State.getF_setF_self]
    rfl
  · rw [State.getF_bump_of_lsb _ (by decide) (by decide) (by decide) (by decide) (by decide), State.getF_setF_self]
    rfl

/-- A flip is refused, with an alarm, while the shadow is not complete (R129, R278). -/
theorem State.flipRoutes_refused (fabric : isFabric fd = true)
    (incomplete : s.getB R.ROUTE_SEL_SHADOWOK (lDie fd) = false) :
    (s.flipRoutes fd v).fab = s.fab ∧
      (s.flipRoutes fd v).getF R.ROUTE_SEL_ACTIVE (lDie fd) = s.getF R.ROUTE_SEL_ACTIVE (lDie fd) := by
  simp only [State.flipRoutes, other, incomplete, Bool.false_eq_true, if_false]
  exact ⟨State.alarm_fab .., State.getF_alarm_fabric ⟨.inr (.inl rfl), by decide, by decide⟩ (isFabric_le fabric) ..⟩

end Flip

section Route

variable {s : State} {fd : Nat} (fabric : isFabric fd = true) {o : Origin} {v : U64}

include fabric

theorem regFields_shadow :
    regFields (csrOf R.ROUTE_SDATA_ALT0 (lDie fd)) = shadowFields.map (fun f => (f, lDie fd)) := by
  rcases isFabric_cases fabric with rfl | rfl
  · decide
  · decide

theorem regFields_done : regFields (csrOf R.ROUTE_SDONE_DONE (lDie fd)) = [(R.ROUTE_SDONE_DONE, lDie fd)] := by
  rcases isFabric_cases fabric with rfl | rfl
  · decide
  · decide

theorem regFields_active : regFields (csrOf R.ROUTE_SEL_ACTIVE (lDie fd)) =
    [(R.ROUTE_SEL_ACTIVE, lDie fd), (R.ROUTE_SEL_SHADOWOK, lDie fd), (R.ROUTE_SEL_FLIPS, lDie fd)] := by
  rcases isFabric_cases fabric with rfl | rfl
  · decide
  · decide

omit fabric in
/-- A field of block ROUTE that takes writes takes them where it stands. -/
theorem State.writable_route (s : State) {f : Fld} (route : f.blk = .route) (writes : f.acc = .rw) (a : Loc) :
    s.writable f a = some a := by
  simp only [State.writable, State.regHome, route, writes, reduceCtorEq, false_and, or_self, if_false]

omit fabric in
/-- ROUTE_SDATA is written as one entry once its fields are taken. -/
theorem State.applyPlan_shadow (s : State) {p : FldWrite} (first : p.fld = R.ROUTE_SDATA_ALT0) (loc : p.loc = lDie fd)
    (ps : List FldWrite) (v d : Nat) (r : AuditRec) :
    (s.audit1 d r).applyPlan (p :: ps) v = (s.taken d r (p :: ps)).writeShadow fd v := by
  have entry : p.fld.blk = .route ∧ p.fld.off = 0x10 := by rw [first]; decide
  have carried : (s.audit1 d r).applyPlan (p :: ps) v = (s.taken d r (p :: ps)).writeShadow p.loc.die v := if_pos entry
  rw [carried, loc]
  rfl

/-- A field of block ROUTE outside ROUTE_SDATA reads as before while a write takes the values of those. -/
theorem State.getF_taken_shadow {ps : List FldWrite} (shadow : ∀ p ∈ ps, p.fld ∈ shadowFields ∧ p.loc = lDie fd)
    {g : Fld} (route : g ∈ R.routeFields) (other : g.off ≠ 0x10) (d : Nat) (r : AuditRec) :
    (s.taken d r ps).getF g (lDie fd) = s.getF g (lDie fd) := by
  have table : ∀ f ∈ R.routeFields, f.blk = .route ∧ f.stride = 0 ∧ f.off < 65536 ∧ f.lsb < 64 ∧ f.acc ≠ .wo1 := by
    decide
  obtain ⟨blk, stride, off, lsb, -⟩ := table g route
  refine State.getF_taken ⟨.inr (.inl blk), by rwa [Nat.zero_mul], lsb⟩ (isFabric_le fabric) (fun p hp => ?_) d r
  obtain ⟨hf, loc⟩ := shadow p hp
  obtain ⟨hf, at_⟩ := List.mem_filter.1 hf
  obtain ⟨blk', stride', -, lsb', often⟩ := table p.fld hf
  have off' : p.fld.off = 0x10 := of_decide_eq_true at_
  rw [loc]
  exact ⟨often, Fld.key_ne_of_place p.fld g ⟨blk'.trans blk.symm, stride'.trans stride.symm⟩ (by omega) _⟩

/-- An accepted write to ROUTE_SDATA is that of the shadow entry, in a state with the block's other registers as
they were. -/
theorem State.csrWrite_shadow (room : s.writeOpen o (csrOf R.ROUTE_SDATA_ALT0 (lDie fd)) = true) :
    ∃ u : State, s.csrWrite o (csrOf R.ROUTE_SDATA_ALT0 (lDie fd)) v = u.writeShadow fd v.toNat ∧
      ∀ g ∈ R.routeFields, g.off ≠ 0x10 → u.getF g (lDie fd) = s.getF g (lDie fd) := by
  have first : s.writable R.ROUTE_SDATA_ALT0 (lDie fd) = some (lDie fd) := rfl
  obtain ⟨ps, plan, each⟩ := s.plan_cons first (shadowFields.tail.map (fun f => (f, lDie fd))) v.toNat
  obtain ⟨d, r, write⟩ := State.csrWrite_open room ((congrArg (s.plan · v.toNat) (regFields_shadow fabric)).trans plan)
  refine ⟨_, write.trans (s.applyPlan_shadow (State.planFld_fld ..) (State.planFld_loc ..) ps _ d r),
    fun g route other => ?_⟩
  refine State.getF_taken_shadow fabric (fun p hp => ?_) route other d r
  rcases List.mem_cons.1 hp with rfl | later
  · rw [State.planFld_fld, State.planFld_loc]
    exact ⟨by decide, rfl⟩
  · obtain ⟨x, hx, t, k, writes, rfl⟩ := each p later
    obtain ⟨f, hf, rfl⟩ := List.mem_map.1 hx
    have shadow := List.mem_of_mem_tail hf
    have table : ∀ f ∈ shadowFields, f.blk = .route ∧ f.acc = .rw := by decide
    rw [t.writable_route (table f shadow).1 (table f shadow).2] at writes
    rw [State.planFld_fld, State.planFld_loc]
    exact ⟨shadow, (Option.some.inj writes).symm⟩

/-- DONE written 1 marks the shadow complete. -/
theorem State.csrWrite_done (room : s.writeOpen o (csrOf R.ROUTE_SDONE_DONE (lDie fd)) = true)
    (one : bit v.toNat 0 = true) :
    (s.csrWrite o (csrOf R.ROUTE_SDONE_DONE (lDie fd)) v).fab = s.fab ∧
      (s.csrWrite o (csrOf R.ROUTE_SDONE_DONE (lDie fd)) v).getF R.ROUTE_SEL_SHADOWOK (lDie fd) = 1 := by
  let p := s.planFld R.ROUTE_SDONE_DONE (lDie fd) (lDie fd) v.toNat
  have plan : s.plan (regFields (csrOf R.ROUTE_SDONE_DONE (lDie fd))) v.toNat = [p] := by
    rw [regFields_done fabric]
    exact State.plan_first rfl (fun g hg => absurd hg List.not_mem_nil) _
  have fld : p.fld = R.ROUTE_SDONE_DONE := State.planFld_fld ..
  have raw : p.raw = 1 := (State.planFld_raw ..).trans (bits_of_bit one)
  have loc : p.loc = lDie fd := State.planFld_loc ..
  obtain ⟨d, r, write⟩ := State.csrWrite_open room plan
  rw [write, s.applyPlan_taken (by rw [fld]; decide), forEach, List.foldl_cons, List.foldl_nil,
    State.afterFld_done _ fld, if_pos raw, loc]
  exact ⟨(s.taken_spec d r [p]).1, State.getF_setF_self ..⟩

/-- An accepted write to ROUTE_SEL is a flip, or its refusal, in a state with the tables as they were. -/
theorem State.csrWrite_active (room : s.writeOpen o (csrOf R.ROUTE_SEL_ACTIVE (lDie fd)) = true) :
    ∃ u : State, s.csrWrite o (csrOf R.ROUTE_SEL_ACTIVE (lDie fd)) v = u.flipRoutes fd (v.toNat % 2) ∧
      u.fab = s.fab ∧ u.getF R.ROUTE_SEL_ACTIVE (lDie fd) = s.getF R.ROUTE_SEL_ACTIVE (lDie fd) % 2 ∧
      u.getF R.ROUTE_SEL_SHADOWOK (lDie fd) = s.getF R.ROUTE_SEL_SHADOWOK (lDie fd) := by
  let p := s.planFld R.ROUTE_SEL_ACTIVE (lDie fd) (lDie fd) v.toNat
  have plan : s.plan (regFields (csrOf R.ROUTE_SEL_ACTIVE (lDie fd))) v.toNat = [p] := by
    rw [regFields_active fabric]
    refine State.plan_first rfl (fun g hg t => ?_) _
    rcases List.mem_pair.1 hg with rfl | rfl
    · rfl
    · rfl
  have fld : p.fld = R.ROUTE_SEL_ACTIVE := State.planFld_fld ..
  have raw : p.raw = v.toNat % 2 := (State.planFld_raw ..).trans (by simp [bits, R.ROUTE_SEL_ACTIVE])
  have loc : p.loc = lDie fd := State.planFld_loc ..
  have new : p.new = s.getF R.ROUTE_SEL_ACTIVE (lDie fd) := State.planFld_active ..
  obtain ⟨d, r, write⟩ := State.csrWrite_open room plan
  refine ⟨s.taken d r [p], ?_, (s.taken_spec d r [p]).1, ?_, ?_⟩
  · rw [write, s.applyPlan_taken (by rw [fld]; decide), forEach, List.foldl_cons, List.foldl_nil,
      State.afterFld_active _ fld, loc, raw]
    rfl
  · rw [State.taken, forEach, List.foldl_cons, List.foldl_nil, State.applyFld_setF _ p (by rw [fld]; decide), fld, loc,
      new, State.getF_setF_self]
    rfl
  · refine State.getF_taken (i := 0) ⟨.inr (.inl rfl), by decide, by decide⟩ (isFabric_le fabric) (fun q hq => ?_) d r
    rw [List.mem_singleton.1 hq, fld, loc]
    exact ⟨by decide, Fld.key_ne_of_lsb (by decide) (by decide) (by decide) _ _⟩

end Route

/-! ## LLP_RCTL (R303, R304) -/

theorem State.afterFld_rejoin (s : State) {p : FldWrite} (rejoin : p.fld = R.LLP_RCTL_REJOIN) :
    s.afterFld p = if p.raw = 1 then s.rejoin p.loc.idx else s := by
  have other : ¬ R.LLP_RCTL_REJOIN = R.LLP_RCTL_RETRAIN := by decide
  simp only [State.afterFld, rejoin, other, true_and, beq_iff_eq, false_and, if_false]
  rfl

theorem State.afterFld_retrain (s : State) {p : FldWrite} (retrain : p.fld = R.LLP_RCTL_RETRAIN) :
    s.afterFld p = if p.raw = 1 then s.retrainRing p.loc.idx else s := by
  have other : ¬ R.LLP_RCTL_RETRAIN = R.LLP_RCTL_REJOIN := by decide
  simp only [State.afterFld, retrain, other, true_and, beq_iff_eq, false_and, if_false]
  rfl

/-- The position of a device in a ring stands in LLP_ID. -/
theorem fabricField_posFld (level : Nat) :
    FabricField (posFld level) 0 ∧ (posFld level).blk = .llp ∧ (posFld level).off = 0 := by
  unfold posFld
  split_ifs
  all_goals exact ⟨⟨.inr (.inr rfl), by decide, by decide⟩, rfl, rfl⟩

section Ring

variable {s : State} {level : Nat} (small : level < 3) {o : Origin}

include small

theorem regFields_ring : regFields (csrOf R.LLP_RCTL_REJOIN (lIdx 18 level)) =
    [(R.LLP_RCTL_REJOIN, lIdx 18 level), (R.LLP_RCTL_RETRAIN, lIdx 18 level)] := by
  have levels : ∀ n < 3, regFields (csrOf R.LLP_RCTL_REJOIN (lIdx 18 n)) =
      [(R.LLP_RCTL_REJOIN, lIdx 18 n), (R.LLP_RCTL_RETRAIN, lIdx 18 n)] := by decide
  exact levels level small

/-- An accepted write to LLP_RCTL rejoins and retrains as its bits say, in a state with the rings as they were. -/
theorem State.csrWrite_ring (room : s.writeOpen o (csrOf R.LLP_RCTL_REJOIN (lIdx 18 level)) = true) (v : U64) :
    ∃ u : State, u.col = s.col ∧ u.ringState level = s.ringState level ∧
      u.bypassedAt level (u.ringPos level) = s.bypassedAt level (s.ringPos level) ∧
      s.csrWrite o (csrOf R.LLP_RCTL_REJOIN (lIdx 18 level)) v =
        (let x := if bits v.toNat 0 0 = 1 then u.rejoin level else u
         if bits v.toNat 1 1 = 1 then x.retrainRing level else x) := by
  let p := s.planFld R.LLP_RCTL_REJOIN (lIdx 18 level) (lIdx 18 level) v.toNat
  let q := (s.applyFld p).planFld R.LLP_RCTL_RETRAIN (lIdx 18 level) (lIdx 18 level) v.toNat
  have plan : s.plan (regFields (csrOf R.LLP_RCTL_REJOIN (lIdx 18 level))) v.toNat = [p, q] := by
    rw [regFields_ring small]
    rfl
  have pf : p.fld = R.LLP_RCTL_REJOIN := State.planFld_fld ..
  have qf : q.fld = R.LLP_RCTL_RETRAIN := State.planFld_fld ..
  have pl : p.loc = lIdx 18 level := State.planFld_loc ..
  have ql : q.loc = lIdx 18 level := State.planFld_loc ..
  have pr : p.raw = bits v.toNat 0 0 := State.planFld_raw ..
  have qr : q.raw = bits v.toNat 1 1 := State.planFld_raw ..
  obtain ⟨d, r, write⟩ := State.csrWrite_open room plan
  -- RCTL lies apart from the registers that the effects read.
  have keeps {g : Fld} {i : Nat} (field : FabricField g i) (llp : g.blk = .llp)
      (apart : g.off + i * g.stride < 0x1028 + level * 0x40) :
      (s.taken d r [p, q]).getF g (lIdx 18 i) = s.getF g (lIdx 18 i) := by
    refine State.getF_taken field (by decide) (fun x hx => ?_) d r
    have lsb := field.lsb
    rcases List.mem_pair.1 hx with rfl | rfl
    · rw [pf, pl]
      refine ⟨by decide, ?_⟩
      simp only [Fld.key, lIdx, llp, R.LLP_RCTL_REJOIN]
      omega
    · rw [qf, ql]
      refine ⟨by decide, ?_⟩
      simp only [Fld.key, lIdx, llp, R.LLP_RCTL_RETRAIN]
      omega
  refine ⟨s.taken d r [p, q], (s.taken_spec d r _).2.1, ?_, ?_, ?_⟩
  · exact keeps ⟨.inr (.inr rfl), by simp only [R.LLP_RSTAT_STATE]; omega, by decide⟩ rfl
      (by simp only [R.LLP_RSTAT_STATE]; omega)
  · have pos : (s.taken d r [p, q]).ringPos level = s.ringPos level := by
      obtain ⟨field, llp, off⟩ := fabricField_posFld level
      exact keeps field llp (by rw [off]; omega)
    have map : (s.taken d r [p, q]).getF R.LLP_BYPASS_POSITIONS (lRing level) =
        s.getF R.LLP_BYPASS_POSITIONS (lRing level) :=
      keeps ⟨.inr (.inr rfl), by simp only [R.LLP_BYPASS_POSITIONS]; omega, by decide⟩ rfl
        (by simp only [R.LLP_BYPASS_POSITIONS]; omega)
    simp only [State.bypassedAt, pos, map]
  · rw [write, s.applyPlan_taken (by rw [pf]; decide), forEach, List.foldl_cons, List.foldl_cons, List.foldl_nil,
      State.afterFld_rejoin _ pf, State.afterFld_retrain _ qf, pl, ql, pr, qr]
    rfl

end Ring

/-- A bypassed member that rejoins is marked, and has seen no clean frame (R303). -/
theorem State.rejoin_bypassed {s : State} {level : Nat} (out : s.bypassedAt level (s.ringPos level) = true) :
    ((s.rejoin level).wring level).rejoin = true ∧ ((s.rejoin level).wring level).cleanFrames = 0 := by
  simp only [State.rejoin, out, if_true, State.modWring, State.setWring, State.wring, mgetD_mput_self, and_self]

/-- A ring that is DOWN or in FALLBACK trains again (R304). -/
theorem State.ringState_retrainRing {s : State} {level : Nat}
    (idle : s.ringState level = RingRun.down ∨ s.ringState level = RingRun.fallback) :
    (s.retrainRing level).ringState level = RingRun.training := by
  simp only [State.retrainRing, idle, if_true]
  exact State.getF_setF_self ..

/-! ## The rows -/

/-- REJOIN and RETRAIN stand in one register. -/
theorem csrOf_retrain (level : Nat) :
    csrOf R.LLP_RCTL_RETRAIN (lIdx 18 level) = csrOf R.LLP_RCTL_REJOIN (lIdx 18 level) := by
  simp only [csrOf, Fld.key, lIdx, R.LLP_RCTL_RETRAIN, R.LLP_RCTL_REJOIN]
  omega

section Rows

variable {fd : Nat} (fabric : isFabric fd = true) {level : Nat} (small : level < 3) (s : State) (o : Origin) (v : U64)

include fabric in
theorem exec_fabPctlEnable {port : Nat} (unit : port < 16) : exec (.fabPctlEnable o fd port v) s =
    .next (s.csrWrite o (csrOf R.FAB_PCTL_ENABLE (lIdx fd port)) v) :=
  if_pos (Bool.and_eq_true_iff.2 ⟨fabric, decide_eq_true unit⟩)

include fabric in
theorem exec_routeSdataWrite :
    exec (.routeSdataWrite o fd v) s = .next (s.csrWrite o (csrOf R.ROUTE_SDATA_ALT0 (lDie fd)) v) := if_pos fabric

include fabric in
theorem exec_routeSdone :
    exec (.routeSdone o fd v) s = .next (s.csrWrite o (csrOf R.ROUTE_SDONE_DONE (lDie fd)) v) := if_pos fabric

include fabric in
theorem exec_routeFlip :
    exec (.routeFlip o fd v) s = .next (s.csrWrite o (csrOf R.ROUTE_SEL_ACTIVE (lDie fd)) v) := if_pos fabric

include small in
theorem exec_llpRejoin : exec (.llpRejoin o level v) s = .next
    (s.csrWrite o (csrOf R.LLP_RCTL_REJOIN (lIdx 18 level)) (BitVec.ofNat 64 (v.toNat % 2))) :=
  if_pos (decide_eq_true small)

include small in
theorem exec_llpRetrain : exec (.llpRetrain o level v) s = .next
    (s.csrWrite o (csrOf R.LLP_RCTL_RETRAIN (lIdx 18 level)) (BitVec.ofNat 64 (v.toNat / 2 % 2 * 2))) :=
  if_pos (decide_eq_true small)

end Rows

/-- Settles O11: each row is the write of its register, and an accepted write does what its lemma above says. -/
theorem fabricRegisterRows : Obligations.FabricRegisterRows := by
  unfold Obligations.FabricRegisterRows
  refine ⟨?rows, ?ringRows, ?out, ?enable, ?shadow, ?done, ?flip, ?rejoin, ?retrain⟩
  case rows =>
    exact fun s o fd port v fabric unit => ⟨exec_fabPctlEnable fabric s o v unit, exec_routeSdataWrite fabric s o v,
      exec_routeSdone fabric s o v, exec_routeFlip fabric s o v⟩
  case ringRows =>
    exact fun s o level v small => ⟨exec_llpRejoin small s o v, exec_llpRetrain small s o v⟩
  case out =>
    intro s o fd port v fabric unit out
    obtain ⟨mem, -⟩ := s.csrWrite_frame o (csrOf R.FAB_PCTL_ENABLE (lIdx fd port)) v
    exact ⟨_, exec_fabPctlEnable fabric s o v unit, mem, State.csrWrite_enable_out fabric unit out o v⟩
  case enable =>
    intro s o fd port v fabric unit room one out
    obtain ⟨mem, -⟩ := s.csrWrite_frame o (csrOf R.FAB_PCTL_ENABLE (lIdx fd port)) v
    exact ⟨_, exec_fabPctlEnable fabric s o v unit, mem, State.csrWrite_enable fabric unit out room one⟩
  case shadow =>
    intro s o fd v fabric room mask
    obtain ⟨mem, -⟩ := s.csrWrite_frame o (csrOf R.ROUTE_SDATA_ALT0 (lDie fd)) v
    obtain ⟨u, write, keeps⟩ := State.csrWrite_shadow fabric room
    have tree := keeps R.ROUTE_SADDR_TREE (by decide) (by decide)
    have dest := keeps R.ROUTE_SADDR_DEST (by decide) (by decide)
    have active := keeps R.ROUTE_SEL_ACTIVE (by decide) (by decide)
    have spec := u.writeShadow_spec fd v.toNat
    rw [← write, State.shadowKey_congr tree dest active, State.getB, tree, dest, active] at spec
    exact ⟨_, exec_routeSdataWrite fabric s o v, mem, spec⟩
  case done =>
    intro s o fd v fabric room one
    obtain ⟨mem, -⟩ := s.csrWrite_frame o (csrOf R.ROUTE_SDONE_DONE (lDie fd)) v
    obtain ⟨fab, complete⟩ := State.csrWrite_done fabric room one
    exact ⟨_, exec_routeSdone fabric s o v, mem, congrArg FabSt.routes fab, complete⟩
  case flip =>
    intro s o fd v fabric room other
    obtain ⟨u, write, fab, active, shadow⟩ := State.csrWrite_active (v := v) fabric room
    have row := exec_routeFlip fabric s o v
    rw [write] at row
    rw [← active] at other
    have same : u.getB R.ROUTE_SEL_SHADOWOK (lDie fd) = s.getB R.ROUTE_SEL_SHADOWOK (lDie fd) :=
      congrArg (· != 0) shadow
    cases complete : s.getB R.ROUTE_SEL_SHADOWOK (lDie fd)
    · obtain ⟨fab', stays⟩ := State.flipRoutes_refused other fabric (same.trans complete)
      exact ⟨_, row, congrArg FabSt.routes (fab'.trans fab), fun h => absurd h Bool.false_ne_true,
        fun _ => stays.trans active⟩
    · obtain ⟨fab', flipped, used⟩ := State.flipRoutes_complete other (same.trans complete)
      exact ⟨_, row, congrArg FabSt.routes (fab'.trans fab),
        fun _ => ⟨flipped.trans (Nat.mod_mod _ _), used⟩, fun h => absurd h.symm Bool.false_ne_true⟩
  case rejoin =>
    intro s o level v small room one bypassed
    have value : BitVec.ofNat 64 (v.toNat % 2) = 1 := by
      rw [show v.toNat % 2 = 1 by simpa [bits] using bits_of_bit one]
      rfl
    have row := exec_llpRejoin small s o v
    rw [value] at row
    obtain ⟨mem, -⟩ := s.csrWrite_frame o (csrOf R.LLP_RCTL_REJOIN (lIdx 18 level)) 1
    obtain ⟨u, -, -, out, write⟩ := State.csrWrite_ring small room 1
    have rejoins : s.csrWrite o (csrOf R.LLP_RCTL_REJOIN (lIdx 18 level)) 1 = u.rejoin level := write
    refine ⟨_, row, mem, ?_⟩
    rw [rejoins]
    exact State.rejoin_bypassed (out.trans bypassed)
  case retrain =>
    intro s o level v small room one idle
    have value : BitVec.ofNat 64 (v.toNat / 2 % 2 * 2) = 2 := by
      rw [show v.toNat / 2 % 2 = 1 by simpa [bits] using bits_of_bit one]
      rfl
    have row := exec_llpRetrain small s o v
    rw [value, csrOf_retrain] at row
    rw [csrOf_retrain] at room
    obtain ⟨mem, -⟩ := s.csrWrite_frame o (csrOf R.LLP_RCTL_REJOIN (lIdx 18 level)) 2
    obtain ⟨u, -, state, -, write⟩ := State.csrWrite_ring small room 2
    have retrains : s.csrWrite o (csrOf R.LLP_RCTL_REJOIN (lIdx 18 level)) 2 = u.retrainRing level := write
    refine ⟨_, row, mem, ?_⟩
    rw [retrains]
    exact State.ringState_retrainRing (state.symm ▸ idle)

end Sys2Proof.Machine
end

section
/-!
The step on a queue and on an empty one (O47, O48), the initial placement of experts (O55), and what SUMMARY and
LOG_READ report (O39, O41).
-/

namespace Sys2Proof.Machine

/-! ## The step -/

/-- Settles O47: the step takes the command from the front of the queue. The queue is the model's own (log 14). -/
theorem stepRunsFront : Obligations.StepRunsFront := fun _ _ => rfl

/-- A period without a correction moves TIME by 5 ns alone. -/
theorem State.tick_of_settled {s : State} (settled : s.clk.slew = 0) : s.tick = { s with time := s.time + 5 } := by
  simp only [State.tick, settled, if_true]

/-- A period moves TIME by 4 to 6 ns, and else only the correction, towards 0 (R396). -/
theorem State.tick_slews (s : State) : s.time + 4 ≤ s.tick.time ∧ s.tick.time ≤ s.time + 6 ∧
    s.tick = { s with time := s.tick.time, clk := { s.clk with slew := s.tick.clk.slew, slewRem := s.tick.clk.slewRem } } ∧
    s.tick.clk.slew.natAbs ≤ s.clk.slew.natAbs := by
  by_cases settled : s.clk.slew = 0
  · rw [State.tick_of_settled settled]
    exact ⟨by simp, by simp, rfl, le_rfl⟩
  by_cases early : s.clk.slewRem < 999
  · have tick : s.tick = { s with time := s.time + 5, clk := { s.clk with slewRem := s.clk.slewRem + 1 } } := by
      simp only [State.tick, settled, early, if_true, if_false]
    rw [tick]
    exact ⟨by simp, by simp, rfl, le_rfl⟩
  by_cases ahead : 0 < s.clk.slew
  · have tick : s.tick =
        { s with time := s.time + 6, clk := { s.clk with slewRem := 0, slew := s.clk.slew - 1 } } := by
      simp only [State.tick, settled, early, ahead, if_true, if_false]
    rw [tick]
    exact ⟨by simp, by simp, rfl, by simp only; omega⟩
  · have tick : s.tick =
        { s with time := s.time + 4, clk := { s.clk with slewRem := 0, slew := s.clk.slew + 1 } } := by
      simp only [State.tick, settled, early, ahead, if_false]
    rw [tick]
    exact ⟨by simp, by simp, rfl, by simp only; omega⟩

/-- Settles O48: on an empty queue a step is a period of SCLK (log 14). -/
theorem stepIdles : Obligations.StepIdles := by
  unfold Obligations.StepIdles
  intro s empty
  have idles : step s = .next s.tick := by
    simp only [step, empty, idle]
  refine ⟨fun settled => ?_, s.tick, idles, s.tick_slews⟩
  rw [idles, State.tick_of_settled settled]

/-! ## The initial placement of experts (R313) -/

section Placement

variable {s : State} {job table : Nat} (fresh : mget s.sch.place (placeKey job table) = none)

/-- An expert's first entry keeps the rule of R316: its rank declares it at that slot. -/
theorem entryOk_firstEntry (c : CutDecl) (e : Nat) (members : 0 < c.expertDevices) :
    entryOk c e (firstEntry c e) = true := by
  have rank : e % max 1 c.expertDevices < c.expertDevices := by
    rw [Nat.max_eq_right members]
    exact Nat.mod_lt _ members
  simp [entryOk, entryRanks, firstEntry, declares, rank]

include fresh

/-- With no committed placement the table holds the first entries. -/
theorem State.placeTab_entries : (s.placeTab job table).entries =
    (List.range (s.jobDecl job).cut.experts).map (firstEntry (s.jobDecl job).cut) := by
  simp only [State.placeTab, mgetD, fresh, Option.getD_none]

theorem State.placeTab_entry (e : Nat) :
    nth (s.placeTab job table).entries e (firstEntry (s.jobDecl job).cut e) = firstEntry (s.jobDecl job).cut e := by
  rw [State.placeTab_entries fresh, nth, List.getElem?_map]
  by_cases inside : e < (s.jobDecl job).cut.experts
  · rw [List.getElem?_range inside]
    rfl
  · rw [List.getElem?_eq_none (by simpa using inside)]
    rfl

/-- With no committed placement each expert has one replica. -/
theorem State.replicas_initial (members : 0 < (s.jobDecl job).cut.expertDevices) (e : Nat) :
    s.replicas job table e = ([e % (s.jobDecl job).cut.expertDevices], true) := by
  simp only [State.replicas, State.placeTab_entry fresh, entryOk_firstEntry _ e members, if_true]
  simp only [entryRanks, firstEntry, Nat.max_eq_right members, max_self, List.take_succ_cons, List.take_zero]

end Placement

/-- Of the numbers below `n`, the share of one residue is the quotient, rounded down or up. -/
theorem length_filter_mod_eq {n d r : Nat} (members : 0 < d) (rank : r < d) :
    let held := ((List.range n).filter (fun e => decide (e % d = r))).length
    held = n / d ∨ held = (n + d - 1) / d := by
  have count := Nat.count_modEq_card (b := n) members r
  have held : ((List.range n).filter (fun e => decide (e % d = r))).length = n.count (· ≡ r [MOD d]) := by
    simp only [Nat.count, List.countP_eq_length_filter, Nat.ModEq, Nat.mod_eq_of_lt rank]
  intro held'
  rw [show held' = _ from held, count, Nat.mod_eq_of_lt rank]
  by_cases more : r < n % d
  · right
    have := Nat.div_add_mod n d
    rw [if_pos more]
    symm
    have split : n + d - 1 = (n % d - 1) + d * (n / d + 1) := by
      rw [Nat.mul_add]
      omega
    rw [split, Nat.add_mul_div_left _ _ members, Nat.div_eq_of_lt (by have := Nat.mod_lt n members; omega), zero_add]
  · left
    rw [if_neg more, add_zero]

/-- Settles O55: the first entry of an expert stands for it while no placement was committed (R313). -/
theorem expertsPlaced : Obligations.ExpertsPlaced := by
  unfold Obligations.ExpertsPlaced
  intro s job table e fresh c members
  refine ⟨fun inside => ⟨State.replicas_initial fresh members e, ?_⟩, fun r rank => ?_⟩
  · rw [State.placeTab_entries fresh, nth, List.getElem?_map, List.getElem?_range inside]
    simp only [Option.map_some, Option.getD_some, firstEntry, Nat.max_eq_right members, c]
  · have share := length_filter_mod_eq (n := c.experts) members rank
    simpa only [State.replicas_initial fresh members, List.contains_cons, List.contains_nil, Bool.or_false, c,
      beq_eq_decide, eq_comm (a := r)] using share

/-! ## The sections of a summary (R354) -/

/-- The bytes of the sections, placed from `o` on, that end within `n` bytes. -/
def fittedSections (n o : Nat) (l : List (Nat × List (List Byte))) : List Byte :=
  ((placeSections o l).filter (fun x => decide (x.2.2.1 + x.2.2.2.length ≤ n))).flatMap (fun x => x.2.2.2)

/-- Where the sections placed from `o` on end. -/
def sectionsEnd (o : Nat) (l : List (Nat × List (List Byte))) : Nat :=
  (placeSections o l).foldl (fun n x => max n (x.2.2.1 + x.2.2.2.length)) o

theorem sectionsEnd_cons (o : Nat) (x : Nat × List (List Byte)) (r : List (Nat × List (List Byte))) :
    sectionsEnd o (x :: r) = sectionsEnd (o + x.2.flatten.length) r := by
  simp only [sectionsEnd, placeSections, List.foldl_cons, max_eq_right (Nat.le_add_right ..)]

theorem le_sectionsEnd (o : Nat) (l : List (Nat × List (List Byte))) : o ≤ sectionsEnd o l := by
  induction l generalizing o with
  | nil => exact le_rfl
  | cons x r ih =>
    rw [sectionsEnd_cons]
    exact (Nat.le_add_right ..).trans (ih _)

theorem fittedSections_cons_of_le {n o : Nat} {x : Nat × List (List Byte)} (r : List (Nat × List (List Byte)))
    (fits : o + x.2.flatten.length ≤ n) :
    fittedSections n o (x :: r) = x.2.flatten ++ fittedSections n (o + x.2.flatten.length) r := by
  simp only [fittedSections, placeSections, List.filter_cons, fits, decide_true, if_true, List.flatMap_cons]

/-- No section fits that begins past the length. -/
theorem fittedSections_of_lt {n o : Nat} (l : List (Nat × List (List Byte))) (past : n < o) :
    fittedSections n o l = [] := by
  induction l generalizing o with
  | nil => rfl
  | cons x r ih =>
    have ends : ¬ o + x.2.flatten.length ≤ n := by omega
    have rest := ih (o := o + x.2.flatten.length) (by omega)
    simpa only [fittedSections, placeSections, List.filter_cons, ends, decide_false, Bool.false_eq_true,
      if_false] using rest

/-- The sections that fit end within the length. -/
theorem length_fittedSections_le {n o : Nat} (l : List (Nat × List (List Byte))) (h : o ≤ n) :
    o + (fittedSections n o l).length ≤ n := by
  induction l generalizing o with
  | nil => exact h
  | cons x r ih =>
    by_cases fits : o + x.2.flatten.length ≤ n
    · rw [fittedSections_cons_of_le r fits, List.length_append, ← Nat.add_assoc]
      exact ih fits
    · have ends : ¬ o + x.2.flatten.length ≤ n := fits
      have rest := fittedSections_of_lt (n := n) (o := o + x.2.flatten.length) r (by omega)
      have none : fittedSections n o (x :: r) = [] := by
        simpa only [fittedSections, placeSections, List.filter_cons, ends, decide_false, Bool.false_eq_true,
          if_false] using rest
      simpa only [none, List.length_nil, Nat.add_zero] using h

/-- Where the length reaches the end of the sections, all of them fit. -/
theorem length_fittedSections_eq {n o : Nat} (l : List (Nat × List (List Byte))) (h : sectionsEnd o l ≤ n) :
    o + (fittedSections n o l).length = sectionsEnd o l := by
  induction l generalizing o with
  | nil => rfl
  | cons x r ih =>
    rw [sectionsEnd_cons] at h ⊢
    rw [fittedSections_cons_of_le r ((le_sectionsEnd ..).trans h), List.length_append, ← Nat.add_assoc]
    exact ih h

theorem length_toLe (n v : Nat) : (toLe n v).length = n := by
  induction n generalizing v with
  | zero => rfl
  | succ n ih => rw [toLe, List.length_cons, ih]

theorem length_fitTo (n : Nat) (l : List Byte) : (fitTo n l).length = n := by
  simp only [fitTo, List.length_append, List.length_take, List.length_replicate]
  omega

/-- The header of a summary has 128 bytes. -/
theorem State.length_summaryHead (s : State) (sects len : Nat) : (s.summaryHead sects len).length = 128 := by
  simp only [State.summaryHead, List.length_append, length_toLe, length_fitTo]

/-- An entry of the directory has 16 bytes. -/
theorem length_directory (o : Nat) (l : List (Nat × List (List Byte))) :
    ((placeSections o l).flatMap (fun x => toLe 2 x.1 ++ toLe 2 0 ++ toLe 4 x.2.1 ++ toLe 8 x.2.2.1)).length =
      16 * l.length := by
  induction l generalizing o with
  | nil => rfl
  | cons x r ih =>
    rw [placeSections, List.flatMap_cons, List.length_append, ih, List.length_cons]
    simp only [List.length_append, length_toLe]
    omega

/-- What a summary holds beside its whole length: its head, with the directory, and the sections that fit. -/
theorem State.length_summaryBytes (s : State) (n : Nat) :
    let o := 128 + 16 * s.summarySections.length
    (s.summaryBytes n).1 = sectionsEnd o s.summarySections ∧
      (s.summaryBytes n).2.length = if o ≤ n then o + (fittedSections n o s.summarySections).length else 0 := by
  refine ⟨rfl, ?_⟩
  simp only [State.summaryBytes, List.length_append, State.length_summaryHead, length_directory]
  split
  · simp only [List.length_append, State.length_summaryHead, length_directory, fittedSections]
  · rfl

/-- Settles O41: a section is written where it ends within the length. -/
theorem summaryFits : Obligations.SummaryFits := by
  unfold Obligations.SummaryFits
  intro s n
  obtain ⟨total, length⟩ := s.length_summaryBytes n
  rw [total, length]
  refine ⟨?_, fun whole => ?_⟩
  · split
    · next head => exact length_fittedSections_le _ head
    · exact n.zero_le
  · rw [if_pos ((le_sectionsEnd ..).trans whole)]
    exact length_fittedSections_eq _ whole

/-! ## Reports (R354, R388) -/

/-- A value within its range is not clamped, nor recorded. -/
theorem State.clampCmd_same (s : State) (c : Cmd) (off v : Nat) : s.clampCmd c off v v = (c, s) := if_pos rfl

/-- Settles O39: SUMMARY and LOG_READ of a command that may begin write what they found and complete. -/
theorem reportRows : Obligations.ReportRows := by
  unfold Obligations.ReportRows
  refine ⟨fun s r c taken code may => ?_, fun s r c taken code may held => ?_⟩
  · exact congrArg _ (s.onCmd_now r 0x12 _ c taken code may)
  · refine (congrArg Host.Outcome.next (s.onCmd_now r 0x13 _ c taken code may)).trans ?_
    simp only [Nat.max_eq_left held, State.clampCmd_same]
    rfl

end Sys2Proof.Machine
end

section
/-!
Cuts, restores and adoptions: the CHECKPOINT and RESTORE commands (O42), the rows of a cut (O43), and SPARE (O56).
-/

namespace Sys2Proof.Machine

/-! ## The job's state of cuts -/

@[simp] theorem State.ckpJob_setCkp_self (s : State) (j : Nat) (k : Ckp) : (s.setCkp j k).ckpJob j = k := by
  simp only [State.ckpJob, State.setCkp, mgetD_mput_self]

/-- The cuts of a job stand in the state's part of cuts alone. -/
theorem State.ckpJob_congr {s t : State} (same : t.ckp = s.ckp) (j : Nat) : t.ckpJob j = s.ckpJob j := by
  simp only [State.ckpJob, same]

/-! ## CHECKPOINT and RESTORE (R358, R368, R372) -/

section Commands

variable {s : State} {r : CmdRef} {c : Cmd} (taken : s.cmdOf r = some c) (may : s.mayBegin c = true)

include taken may

section Checkpoint

variable (code : c.op = 0x0E)

include code

theorem exec_checkpointEnable_mode1 (mode : fieldAt c.params 0 1 = 1) : exec (.checkpointEnable r) s = .next
    (if s.anchored c.job = false then s.finish c 0x06 0 0
     else if s.cutsOn c.job = true then s.finish c 0x00 0 0
     else ((s.setF R.CKP_JCFG_BUDDY (lKeepI c.job) 1).modCkp c.job (fun k =>
       { k with firstBarrier := true, fullNext := true })).finish c 0x00 0 0) := by
  refine (congrArg Host.Outcome.next (s.onCmd_now r 0x0E _ c taken code may)).trans ?_
  simp only [mode, ne_eq, not_true_eq_false, if_false, Bool.not_eq_true', Status.refused, Status.ok]

theorem exec_checkpointDisable_mode2 (mode : fieldAt c.params 0 1 = 2) : exec (.checkpointDisable r) s = .next
    (((s.setF R.CKP_JCFG_BUDDY (lKeepI c.job) 0).modCkp c.job (fun k =>
      { k with cut := none, partsDue := [], prot := [], firstBarrier := false })).finish c 0x00 0 0) := by
  refine (congrArg Host.Outcome.next (s.onCmd_now r 0x0E _ c taken code may)).trans ?_
  simp only [mode, lt_self_iff_false, if_false, State.clampCmd, if_true, Status.ok]

theorem exec_checkpointDurable_mode0 (mode : fieldAt c.params 0 1 = 0) : exec (.checkpointDurable r) s = .next
    ((s.modCkp c.job (fun k => { k with durableDue := true, durableCmds := k.durableCmds ++ [r] })).beginCmd c) := by
  refine (congrArg Host.Outcome.next (s.onCmd_now r 0x0E _ c taken code may)).trans ?_
  simp only [mode, ne_eq, not_true_eq_false, if_false]

end Checkpoint

section Restore

variable (code : c.op = 0x0F) (here : Bool) (newest : List (Nat × Nat))

include code

/-- RESTORE of a job that runs, or holds at its step, goes back to the cut it names, where there is one. -/
theorem exec_restore_of_running (kept : (s.job c.job).destroyCmd = none)
    (runs : (s.job c.job).st = .running ∨ (s.job c.job).st = .stepHold) :
    exec (.restore r here newest) s = .next
      (match (s.ckpJob c.job).source (fieldAt c.params 0 8) here false with
       | none => s.finish c 0x06 0 0
       | some d => (s.restoreJob c.job d newest).finish c 0x00 0 0) := by
  refine (congrArg Host.Outcome.next (s.onCmd_now r 0x0F _ c taken code may)).trans ?_
  have sound : ¬ (s.job c.job).st = .faulted := by
    rcases runs with st | st
    · simp only [st, reduceCtorEq, not_false_eq_true]
    · simp only [st, reduceCtorEq, not_false_eq_true]
  have open_ : (decide ((s.job c.job).st = .running) || decide ((s.job c.job).st = .stepHold)) = true := by
    simpa only [Bool.or_eq_true, decide_eq_true_eq] using runs
  simp only [sound, decide_false, Bool.false_or, open_, kept, Option.isSome_none, Bool.not_true, Bool.false_eq_true,
    or_self, if_false, Bool.not_false, if_true]
  rfl

/-- RESTORE of a FAULTED job places its pans again before it goes back. -/
theorem exec_restore_of_faulted {d : Cut} (kept : (s.job c.job).destroyCmd = none)
    (faulted : (s.job c.job).st = .faulted) (cut : (s.ckpJob c.job).source (fieldAt c.params 0 8) here true = some d)
    (free : s.canPlace d.config = true) (idle : s.underTest d.config.pans = false) :
    exec (.restore r here newest) s = .next
      (((s.placeAgain (cmdOrigin r) d.config).restoreJob c.job d newest).finish c 0x00 0 0) := by
  refine (congrArg Host.Outcome.next (s.onCmd_now r 0x0F _ c taken code may)).trans ?_
  simp only [faulted, decide_true, Bool.true_or, kept, Option.isSome_none, Bool.not_true, Bool.false_eq_true,
    or_self, if_false, cut, free, idle]
  rfl

theorem exec_restore_of_created (created : (s.job c.job).st = .created) :
    exec (.restore r here newest) s = .next (s.finish c 0x06 0 0) := by
  refine (congrArg Host.Outcome.next (s.onCmd_now r 0x0F _ c taken code may)).trans ?_
  simp only [created, reduceCtorEq, decide_false, Bool.or_self, Bool.not_false, true_or, if_true, Status.refused]

end Restore

end Commands

/-! ## SPARE and SPARE_ADOPT (R370, R371) -/

section Spare

variable {s : State} {r : CmdRef} {c : Cmd} (taken : s.cmdOf r = some c) (code : c.op = 0x10)
  (room : s.auditRoom 16 = true)

include taken code room

/-- SPARE_ADOPT with no adoption under way begins one at a spare, and is refused elsewhere. -/
theorem exec_spareAdopt_first (idle : s.ckp.adopting = none) : exec (.spareAdopt r none) s = .next
    (if s.isSpare = true then
      s.beginAdoption c (fieldAt c.params 0 1) (fieldAt c.params 1 2) (fieldAt c.params 3 2)
     else s.finish c 0x06 0 0) := by
  change execSpareAdopt r none s = _
  simp only [execSpareAdopt, taken, code, room, idle, ne_eq, not_true_eq_false, Bool.not_true, Bool.false_eq_true,
    or_self, if_false, Status.refused]

/-- The answer to FIND takes the adoption on. -/
theorem exec_spareAdopt_found {a : Adoption} (begun : s.ckp.adopting = some a) (own : a.cmd = r)
    (new : a.own = none) (f : CutFound) : exec (.spareAdopt r (some f)) s = .next (s.adoptFound c a f) := by
  change execSpareAdopt r (some f) s = _
  simp only [execSpareAdopt, taken, code, room, begun, own, new, ne_eq, not_true_eq_false, Bool.not_true,
    Bool.false_eq_true, or_self, if_false, Option.isNone_none, and_self, if_true]

end Spare

/-- Settles O42: each row of a command that may begin is its branch. -/
theorem checkpointCommands : Obligations.CheckpointCommands := by
  unfold Obligations.CheckpointCommands
  refine ⟨fun s r c taken code may => ⟨fun mode => ⟨fun free => ?_, fun held off => ?_⟩,
      exec_checkpointDisable_mode2 taken may code, exec_checkpointDurable_mode0 taken may code⟩,
    fun s r here newest c taken code may kept => ⟨fun runs => ⟨fun d cut => ?_, fun cut => ?_⟩,
      fun d faulted cut free idle => exec_restore_of_faulted taken may code here newest kept faulted cut free idle,
      exec_restore_of_created taken may code here newest⟩,
    fun s r c taken code room => ⟨fun idle spare => ?_, fun idle spare => ?_,
      fun a f begun own new => exec_spareAdopt_found taken code room begun own new f⟩⟩
  · rw [exec_checkpointEnable_mode1 taken may code mode, if_pos free]
  · rw [exec_checkpointEnable_mode1 taken may code mode, held, off]
    rfl
  · rw [exec_restore_of_running taken may code here newest kept runs, cut]
  · rw [exec_restore_of_running taken may code here newest kept runs, cut]
  · rw [exec_spareAdopt_first taken code room idle, if_pos spare]
  · rw [exec_spareAdopt_first taken code room idle, spare]
    rfl

/-- Little-endian bytes of a value that they hold read back as it. -/
theorem leNat_toLe {n v : Nat} (h : v < 256 ^ n) : leNat (toLe n v) = v := by
  induction n generalizing v with
  | zero => simp only [pow_zero] at h; simp only [toLe, leNat]; omega
  | succ n ih =>
    rw [Nat.pow_succ] at h
    have rest : v / 256 < 256 ^ n := Nat.div_lt_of_lt_mul (by omega)
    have low : (BitVec.ofNat 8 v).toNat = v % 256 := BitVec.toNat_ofNat v 8
    rw [toLe, leNat, ih rest, low]
    omega

/-- JOB, RANK and FAILED of SPARE_ADOPT's parameters. -/
theorem fieldAt_adoptParams {l : List Byte} {job rank failed : Nat} (hj : job < 256) (hr : rank < 65536)
    (hf : failed < 65536) (bytes : l.take 5 = toLe 1 job ++ toLe 2 rank ++ toLe 2 failed) :
    fieldAt l 0 1 = job ∧ fieldAt l 1 2 = rank ∧ fieldAt l 3 2 = failed := by
  have inside (o n : Nat) (h : o + n ≤ 5) : (l.drop o).take n = ((l.take 5).drop o).take n := by
    rw [List.drop_take, List.take_take, Nat.min_eq_left (by omega)]
  refine ⟨?_, ?_, ?_⟩
  · rw [fieldAt, inside 0 1 (by decide), bytes]
    exact leNat_toLe (n := 1) hj
  · rw [fieldAt, inside 1 2 (by decide), bytes]
    exact leNat_toLe (n := 2) hr
  · rw [fieldAt, inside 3 2 (by decide), bytes]
    exact leNat_toLe (n := 2) hf

/-- Settles O56: SPARE is `State.isSpare`, and SPARE_ADOPT asks for it. -/
theorem spareState : Obligations.SpareState := by
  unfold Obligations.SpareState
  refine ⟨fun s => ?_, fun s r c job rank failed taken code room idle hj hr hf bytes => ?_⟩
  · have left (j : Nat × Job) : j.2.counts = false ↔ j.2.st = .none ∨ j.2.st = .destroyed := by
      simp only [Job.counts, Bool.and_eq_false_iff, decide_eq_false_iff_not, not_not]
    simp only [State.isSpare, Bool.and_eq_true, Bool.not_eq_true', List.any_eq_false, Bool.not_eq_true, left,
      and_assoc]
  · obtain ⟨job', rank', failed'⟩ := fieldAt_adoptParams hj hr hf bytes
    rw [exec_spareAdopt_first taken code room idle, job', rank', failed']
    exact ⟨fun spare => by rw [spare]; rfl, fun spare => by rw [if_pos spare]⟩

/-! ## The rows of a cut (R362, R365, R369, R374) -/

/-- The first write to a protected extent of a shard on its way to the buddy copies it, where the buffer has room. -/
theorem exec_protectedWrite_first {s : State} {job shard extent : Nat} {c : Cut} (cut : (s.ckpJob job).cut = some c)
    (sent : c.unacked.contains shard = true) (sched : s.shardKind job shard ≠ 2) (worlds : s.shardKind job shard ≠ 9)
    (first : (s.ckpJob job).prot.contains (shard, extent) = false) :
    exec (.protectedWrite job shard extent) s = .next
      (if s.bufferUsed job + 65536 ≤ (s.jobDecl job).cutBufMib * 2 ^ 20 then
        s.setCkp job { s.ckpJob job with prot := (s.ckpJob job).prot ++ [(shard, extent)] }
       else s.bump R.CKP_JCNT_PROTWAIT (lKeepI job)) := by
  change execProtectedWrite job shard extent s = _
  simp only [execProtectedWrite, cut, sent, sched, worlds, first, Bool.not_true, Bool.false_eq_true, or_self, if_false]

section ShardAck

variable {s : State} {job shard : Nat} {g : List Byte} {c : Cut} {d : ShardDecl} (cut : (s.ckpJob job).cut = some c)
  (shardDecl : (s.jobDecl job).shards[shard]? = some d) (sent : c.unacked.contains shard = true)

include cut shardDecl sent

theorem exec_shardAck_agrees (digest : (c.entryOf d).map (·.digest) = some g) :
    exec (.shardAck job shard g) s = .next (s.setCkp job { s.ckpJob job with
      cut := some { c with unacked := c.unacked.filter (fun x => x ≠ shard) }
      prot := (s.ckpJob job).prot.filter (fun x => x.1 ≠ shard) }) := by
  change execShardAck job shard g s = _
  simp only [execShardAck, cut, shardDecl, sent, digest, Bool.not_true, Bool.false_eq_true, if_false, if_true]

/-- Another digest is counted; the shard goes again, but the third time the buddy is lost. -/
theorem exec_shardAck_differs (digest : (c.entryOf d).map (·.digest) ≠ some g) :
    let n := mgetD (s.ckpJob job).mismatches shard 0 + 1
    let t := (s.setCkp job { s.ckpJob job with mismatches := mput (s.ckpJob job).mismatches shard n }).bump
      R.CKP_JCNT_RESENT (lKeepI job)
    exec (.shardAck job shard g) s = .next
      (if n < 3 ∨ (s.ckpJob job).buddyLost = true then t.resendShard job shard d c
       else (t.modCkp job (fun k => { k with buddyLost := true })).alarm Kind.buddyLost job
         (alarmKey (nth (t.roster job) (t.jobDecl job).buddyRank 0xFFFF) (t.jobDecl job).buddyRank)) := by
  change execShardAck job shard g s = _
  simp only [execShardAck, cut, shardDecl, sent, digest, Bool.not_true, Bool.false_eq_true, if_false]

end ShardAck

/-- A durable write with no command that waits for it (R369). -/
theorem exec_durableWrite_alone {s : State} {job : Nat} {c : Cut} (busy : (s.ckpJob job).durableBusy = some c)
    (alone : (s.ckpJob job).durableRun = []) :
    let c' : Cut := { c with durable := 1 - (((s.ckpJob job).durable.head?.map (·.durable)).getD 1) }
    let m := s.manifest job c' 1
    let at_ := (s.jobDecl job).flashBase + c'.durable * (s.jobDecl job).durableBytes + (s.jobDecl job).manifestAt.1
    let k := { s.ckpJob job with
      durable := { c' with manifest := m } :: (s.ckpJob job).durable.take 1, durableBusy := none, durableRun := [] }
    exec (.durableWrite job) s = .next (if s.flashClosed = true then s else
      (((s.flashShards job c').toFlash at_ m).setCkp job k).setF R.CKP_JDUR_LASTDURABLE (lKeepI job) c.step) := by
  change execDurableWrite job s = _
  simp only [execDurableWrite, busy, alone, forEach, List.foldl_nil]


/-- Free bytes advance the free numbers alone. -/
theorem State.drawBytes_spec (s : State) (n : Nat) : ∃ k, (s.drawBytes n).2 = { s with free := k } := by
  induction n generalizing s with
  | zero => exact ⟨s.free, rfl⟩
  | succ n ih =>
    obtain ⟨k, rest⟩ := ih (s.draw 8).2
    exact ⟨k, rest⟩

/-- The device that holds the failed rank's buddy copy answers FIND with a manifest and the roster. -/
theorem exec_find_held {s : State} {src failed job rank : Nat} (spare : s.fab.spares.contains src = true)
    (holder : s.hcx.jobs.any (fun j => j.2.counts && decide ((s.roster j.1)[rank]? = some failed) &&
      (s.jobDecl j.1).heldRanks.contains rank) = true) :
    ∃ t m, exec (.find src failed job rank) s = .next t ∧ t.mem = s.mem ∧ t.csr = s.csr ∧
      ∃ j, t.ckp.msgs = s.ckp.msgs ++ [(2, src, failed :: job :: rank :: s.roster j, m)] := by
  obtain ⟨j, found⟩ := Option.isSome_iff_exists.1 (List.find?_isSome.2 (List.any_eq_true.1 holder))
  let n := 0xE0 + 0x40 * (s.jobDecl j.1).shards.length
  obtain ⟨k, drawn⟩ := s.drawBytes_spec n
  have answers : exec (.find src failed job rank) s = .next
      ((s.drawBytes n).2.sendMsg 2 src (failed :: job :: rank :: (s.drawBytes n).2.roster j.1) (s.drawBytes n).1) := by
    change execFind src failed job rank s = _
    simp only [execFind, spare, Bool.not_true, Bool.false_eq_true, if_false, found, n]
  rw [drawn] at answers
  exact ⟨_, _, answers, rfl, rfl, j.1, rfl⟩

/-- ADOPT at a member of the job's roster whose job runs, or holds at its step (R371, R374). -/
theorem exec_adopt_of_open {s : State} {src job failed rank : Nat} (spare : s.fab.spares.contains src = true)
    (member : (s.roster job)[rank]? = some failed)
    (runs : (s.job job).st = .running ∨ (s.job job).st = .stepHold) (newest : List (Nat × Nat))
    (maps : List RingMaps) (room : s.roomNow [16] (3, job) = true) :
    let s1 := s.replaceDevice maps job failed src
    let s2 := if (s.roster job)[(s.jobDecl job).buddyRank]? = some failed then
        s1.modCkp job (fun k => { k with fullNext := true, buddyLost := false, mismatches := [] })
      else s1
    exec (.adopt src job failed rank newest maps) s = .next
      (if failed = s.device then s.faultJob job 0 0
       else match (s2.ckpJob job).whole with
        | none => s2.faultJob job 0 0
        | some w => s2.joinAdoption job w newest) := by
  refine (congrArg Host.Outcome.next (s.whenRoom_now _ _ _ room)).trans ?_
  have open_ : (decide ((s.job job).st = .running) || decide ((s.job job).st = .stepHold)) = true := by
    simpa only [Bool.or_eq_true, decide_eq_true_eq] using runs
  simp only [spare, member, open_, Bool.not_true, Bool.false_eq_true, ne_eq, not_true_eq_false, or_self, if_false,
    decide_eq_true_eq] <;> rfl

/-- Settles O43: each row, in the case that the statement names, is its branch. -/
theorem cutRows : Obligations.CutRows := by
  unfold Obligations.CutRows
  refine ⟨?protectedWrite, ?shardAck, ?durableWrite, ?straggler, ?find, ?adopt, ?findTimeout, ?voteTimeout⟩
  case protectedWrite =>
    intro s job shard extent c cut sent sched worlds first
    rw [exec_protectedWrite_first cut sent sched worlds first]
    refine ⟨fun room => ?_, fun full => by rw [if_neg (by omega)]⟩
    rw [if_pos room]
    exact ⟨_, rfl, rfl, rfl, s.ckpJob_setCkp_self ..⟩
  case shardAck =>
    intro s job shard g c d cut shardDecl sent
    refine ⟨fun digest => ?_, fun digest again => ?_, fun digest third kept => ?_⟩
    · rw [exec_shardAck_agrees cut shardDecl sent digest]
      refine ⟨_, rfl, rfl, rfl, ?_, ?_⟩
      · rw [State.ckpJob_setCkp_self]
      · rw [State.ckpJob_setCkp_self]
    · rw [exec_shardAck_differs cut shardDecl sent digest, if_pos]
      exact again.imp (fun few => by omega) id
    · have lost : ¬ (mgetD (s.ckpJob job).mismatches shard 0 + 1 < 3 ∨ (s.ckpJob job).buddyLost = true) := by
        rw [kept]
        simp only [Bool.false_eq_true, or_false]
        omega
      rw [exec_shardAck_differs cut shardDecl sent digest, if_neg lost]
      refine ⟨_, rfl, ?_, ?_⟩
      · rw [State.alarm_mem, State.modCkp, State.setCkp_mem, State.bump_mem, State.setCkp_mem]
      · rw [State.ckpJob_congr (State.alarm_ckp ..), State.modCkp, State.ckpJob_setCkp_self,
          State.ckpJob_congr (State.bump_ckp ..), State.ckpJob_setCkp_self]
        exact ⟨rfl, cut⟩
  case durableWrite =>
    intro s job c busy alone _ c' m at_
    rw [exec_durableWrite_alone busy alone]
    refine ⟨fun closed => by rw [if_pos closed], fun opens => ?_⟩
    rw [if_neg (Bool.eq_false_iff.1 opens)]
    refine ⟨_, rfl, (State.setF_mem ..).trans (State.setCkp_mem ..), ?_, ?_, State.getF_setF_self ..⟩
    · rw [State.ckpJob_congr (State.setF_ckp ..), State.ckpJob_setCkp_self]
    · rw [State.ckpJob_congr (State.setF_ckp ..), State.ckpJob_setCkp_self]
  case straggler =>
    intro s job rank d member other waits
    change execStraggler job rank s = _
    simp only [execStraggler, member, ne_eq, other, not_false_eq_true, waits, and_self, if_true]
  case find =>
    intro s src failed job rank spare holder
    exact exec_find_held spare holder
  case adopt =>
    intro s src job failed rank newest maps room spare member open_ s1 s2
    rw [exec_adopt_of_open spare member open_ newest maps room]
    refine ⟨fun own => by rw [if_pos own], fun other none => ?_, fun w other whole => ?_⟩
    · rw [if_neg other, none]
    · rw [if_neg other, whole]
  case findTimeout =>
    intro s a begun new
    change execFindTimeout s = _
    simp only [execFindTimeout, begun, new, Option.isSome_none, Bool.false_eq_true, if_false]
    rfl
  case voteTimeout =>
    intro s job rank room restores adopts member
    refine (congrArg Host.Outcome.next (s.whenRoom_now _ _ _ room)).trans ?_
    simp only [restores, adopts, member, and_self, if_true, Status.faulted]

end Sys2Proof.Machine
end

section
/-!
Queue pairs: doorbells, the taking of a command, and its time limit (O35).
-/

namespace Sys2Proof.Machine

/-! ## What a record in the audit log leaves of the queues -/

@[simp] theorem State.queueOf_setQueue_self (s : State) (pair : Nat) (q : Queue) :
    (s.setQueue pair q).queueOf pair = q := by
  simp only [State.queueOf, State.setQueue, mgetD_mput_self]

theorem State.queueOf_setQueue_ne (s : State) {pair p : Nat} (q : Queue) (other : p ≠ pair) :
    (s.setQueue pair q).queueOf p = s.queueOf p := by
  simp only [State.queueOf, State.setQueue, mgetD_mput_ne _ _ _ other.symm]

theorem State.queueOf_congr {s t : State} (same : t.hcx.queues = s.hcx.queues) (pair : Nat) :
    t.queueOf pair = s.queueOf pair := by
  simp only [State.queueOf, same]

theorem State.msix_queues (s : State) (hd v : Nat) : (s.msix hd v).hcx.queues = s.hcx.queues := by
  rcases s.msix_spec hd v with ⟨-, up⟩ | ⟨-, down⟩
  · rw [up]
  · rw [down, State.setF_hcx]

theorem State.alarm_queues (s : State) (kind job key : Nat) :
    (s.alarm kind job key).hcx.queues = s.hcx.queues := by
  unfold State.alarm
  dsimp only
  split
  · rfl
  · split
    · rw [State.msix_queues, State.msix_queues]
    · rw [State.bump_hcx]

theorem State.auditAlarm_queues (s : State) : s.auditAlarm.hcx.queues = s.hcx.queues := by
  unfold State.auditAlarm
  split
  · rfl
  · exact s.alarm_queues _ _ _

theorem State.audit1_queues (s : State) (die : Nat) (r : AuditRec) : (s.audit1 die r).hcx.queues = s.hcx.queues := by
  unfold State.audit1
  split
  · exact State.auditAlarm_queues _
  · exact State.auditAlarm_queues _

/-- A change that may wait for room keeps what the change, a count and the log's own state keep. -/
theorem State.whenRoom_keeps {α : Type} {g : State → α} (log : ∀ (t : State) (a : AuditSt), g { t with audit := a } = g t)
    (count : ∀ (t : State) (f : Fld) (a : Loc) (n : Nat), g (t.bump f a n) = g t) {f : State → State}
    (change : ∀ t, g (f t) = g t) (s : State) (dies : List Nat) (key : Nat × Nat) :
    g (s.whenRoom dies key f) = g s := by
  simp only [State.whenRoom]
  split
  · split
    · exact change s
    · rw [change, count, log]
  · split
    · rfl
    · rw [count, log]

/-- A doorbell value out of range changes no queue and no byte of memory, with or without room for its record. -/
theorem State.badDoorbell_keeps (s : State) (dies : List Nat) (key : Nat × Nat) (pair offset v cur : Nat) :
    let t := s.whenRoom dies key (fun s => s.badDoorbell pair offset v cur)
    t.hcx.queues = s.hcx.queues ∧ t.mem = s.mem := by
  constructor
  · exact State.whenRoom_keeps (g := fun t => t.hcx.queues) (fun _ _ => rfl)
      (fun t f a n => by rw [State.bump_hcx]) (fun t => by rw [State.badDoorbell, State.bump_hcx, State.audit1_queues])
      s dies key
  · exact State.whenRoom_keeps (g := State.mem) (fun _ _ => rfl) (fun t f a n => t.bump_mem f a n)
      (fun t => by rw [State.badDoorbell, State.bump_mem, State.audit1_mem]) s dies key

/-! ## The rows -/

section Doorbell

variable {s : State} {pair : Nat} (host : pair < 64)

include host

theorem exec_submissionDoorbell (v : Nat) : exec (.submissionDoorbell pair v) s = .next
    (if v < s.qDepth pair then s.setQueue pair { s.queueOf pair with sqTail := v }
     else s.whenRoom [16 + pair / 32] (4, pair)
      (fun t => t.badDoorbell pair (pair % 32 * 16) v (s.queueOf pair).sqTail)) :=
  if_pos (decide_eq_true host)

theorem exec_completionDoorbell (v : Nat) : exec (.completionDoorbell pair v) s = .next
    (if v < s.qDepth pair then (s.setQueue pair { s.queueOf pair with cqHead := v }).flushComps
     else s.whenRoom [16 + pair / 32] (4, pair)
      (fun t => t.badDoorbell pair (pair % 32 * 16 + 8) v (s.queueOf pair).cqHead)) :=
  if_pos (decide_eq_true host)

/-- The steward takes the entry of the pair whose turn it is, unless it is a FENCE that waits (R341). -/
theorem exec_commandTake_of_turn (turn : s.nextPair = some pair) (room : s.auditRoom (16 + pair / 32) = true)
    (up : s.stewardUp = true) (e : List Byte) (fw : Bool) : exec (.commandTake pair e fw) s = .next
      (if bit (fieldAt e 1 1) 0 = true ∧ s.getF R.HCX_QSTAT_INFLIGHT (pairLoc pair) ≠ 0 then
        { s with hcx := { s.hcx with turn := pair } }
       else s.take pair (fitTo 64 e) (s.isKeeper (pair / 32) || (fw && s.keeper.isSome))) := by
  refine (if_pos (decide_eq_true host)).trans ?_
  simp only [turn, room, up, ne_eq, not_true_eq_false, Bool.not_true, Bool.false_eq_true, or_self, if_false]

end Doorbell

/-- Settles O35: each row, in the case that the statement names, is its branch. -/
theorem queueRows : Obligations.QueueRows := by
  unfold Obligations.QueueRows
  refine ⟨fun s pair v host => ⟨fun inside => ⟨?_, ?_⟩, fun outside => ?_, fun outside room => ⟨?_, ?_⟩⟩,
    fun s pair e fw host turn room up => ⟨fun fence inFlight => ?_, fun goes => ?_⟩, fun s r c taken begun => ?_⟩
  · rw [exec_submissionDoorbell host, if_pos inside]
    exact ⟨_, rfl, rfl, rfl, s.queueOf_setQueue_self .., fun q other => s.queueOf_setQueue_ne _ other⟩
  · rw [exec_completionDoorbell host, if_pos inside]
  · rw [exec_submissionDoorbell host, exec_completionDoorbell host, if_neg (Nat.not_lt.2 outside),
      if_neg (Nat.not_lt.2 outside)]
    obtain ⟨tails, mem⟩ := s.badDoorbell_keeps [16 + pair / 32] (4, pair) pair (pair % 32 * 16) v
      (s.queueOf pair).sqTail
    obtain ⟨heads, mem'⟩ := s.badDoorbell_keeps [16 + pair / 32] (4, pair) pair (pair % 32 * 16 + 8) v
      (s.queueOf pair).cqHead
    exact ⟨_, _, rfl, rfl, State.queueOf_congr tails pair, State.queueOf_congr heads pair, mem, mem'⟩
  · rw [exec_submissionDoorbell host, if_neg (Nat.not_lt.2 outside), s.whenRoom_now _ _ _ room]
  · rw [exec_completionDoorbell host, if_neg (Nat.not_lt.2 outside), s.whenRoom_now _ _ _ room]
  · rw [exec_commandTake_of_turn host turn room up, if_pos ⟨fence, inFlight⟩]
  · rw [exec_commandTake_of_turn host turn room up, if_neg]
    rintro ⟨fence, inFlight⟩
    exact goes.elim (fun free => Bool.noConfusion (fence.symm.trans free)) inFlight
  · change execCommandTimeout r s = _
    simp only [execCommandTimeout, taken, begun, Bool.false_eq_true, if_false, Status.timeout]

end Sys2Proof.Machine
end

section
/-!
The keeper lease (O44, O54): what each operation does to the roles, to the terms and to the witness.
-/

namespace Sys2Proof.Machine

/-! ## Roles, terms and the registers of the lease -/

section Lease

variable (s : State) {hd d : Nat}

theorem hostDie_cases (host : hd < 2) : hd = 0 ∨ hd = 1 := by omega

theorem State.getB_of_csr_eq {s t : State} (same : t.csr = s.csr) (f : Fld) (a : Loc) : t.getB f a = s.getB f a := by
  simp only [State.getB, State.getF, same]

/-- A write of a field leaves another field of its block and place. -/
theorem State.getF_setF_of_place (s : State) {f g : Fld}
    (apart : f.blk = g.blk ∧ f.stride = g.stride ∧ f.off * 64 + f.lsb ≠ g.off * 64 + g.lsb) (a : Loc) (v : Nat) :
    (s.setF f a v).getF g a = s.getF g a := by
  obtain ⟨blk, stride, ne⟩ := apart
  exact s.getF_setF_ne _ _ _ _ _ (Fld.key_ne_of_place f g ⟨blk, stride⟩ ne a)

@[simp] theorem State.role_setF (f : Fld) (a : Loc) (v : Nat) : (s.setF f a v).role d = s.role d := rfl

@[simp] theorem State.role_bump (f : Fld) (a : Loc) (n : Nat) : (s.bump f a n).role d = s.role d := by
  simp only [State.role, State.bump_clk]

@[simp] theorem State.role_setRole_self (r : LeaseRun) : (s.setRole hd r).role hd = r := by
  by_cases first : hd = 0
  · simp only [State.role, State.setRole, State.setClk, first, if_true]
  · simp only [State.role, State.setRole, State.setClk, first, if_false]

theorem State.role_setRole_ne (host : hd < 2) (die : d < 2) (ne : d ≠ hd) (r : LeaseRun) :
    (s.setRole hd r).role d = s.role d := by
  rcases hostDie_cases host with rfl | rfl
  · obtain rfl : d = 1 := by omega
    rfl
  · obtain rfl : d = 0 := by omega
    rfl

@[simp] theorem State.term_setRole (r : LeaseRun) : (s.setRole hd r).term d = s.term d := rfl

@[simp] theorem State.term_setClk (c : ClkSt) : (s.setClk c).term d = s.term d := rfl

theorem State.witTerm_setRole (r : LeaseRun) : (s.setRole hd r).clk.witTerm = s.clk.witTerm := by
  unfold State.setRole
  split
  · rfl
  · rfl

/-- A die's view holds the low 32 bits of the term. -/
theorem State.term_view_self (term : Nat) : (s.view hd term).term hd = term % 2 ^ 32 :=
  s.getF_setF_self R.AON_LEASE_TERM _ term

theorem State.term_view_ne (ne : d ≠ hd) (term : Nat) : (s.view hd term).term d = s.term d := by
  refine s.getF_setF_ne _ _ _ _ _ ?_
  simp only [Fld.key, lDie, R.AON_LEASE_TERM, Blk.code]
  omega

/-- The fields of the AON block that the lease writes beside TERM: they and TERM of the other die stand apart. -/
def leaseFields : List Fld :=
  [R.AON_LEASE_KEEPER, R.AON_LEASE_FENCED, R.AON_LCNT_TAKEOVERS, R.AON_LCNT_CONFLICTS]

theorem leaseFields_apart : ∀ f ∈ leaseFields, f.blk = .aon ∧ ∀ hd < 2, ∀ d < 2,
    f.key (lDie (16 + hd)) ≠ R.AON_LEASE_TERM.key (lDie (16 + d)) := by
  decide

theorem outsidePerf_term : ∀ d < 2, outsidePerf (R.AON_LEASE_TERM.key (lDie (16 + d))) := by decide

variable (host : hd < 2) (die : d < 2)

include host die

theorem State.term_setF {f : Fld} (field : f ∈ leaseFields) (v : Nat) :
    (s.setF f (lDie (16 + hd)) v).term d = s.term d :=
  s.getF_setF_ne _ _ _ _ _ ((leaseFields_apart f field).2 hd host d die)

theorem State.term_bump {f : Fld} (field : f ∈ leaseFields) (n : Nat) :
    (s.bump f (lDie (16 + hd)) n).term d = s.term d := by
  obtain ⟨aon, apart⟩ := leaseFields_apart f field
  refine s.getF_bump_ne ?_ (outsidePerf_term d die) (apart hd host d die) n
  rw [aon]
  decide

end Lease

/-! ## Which lease a step leaves -/

/-- The lease of `t` is that of `s`: each die's role and term, and the witness's term. -/
def SameLease (s t : State) : Prop :=
  t.clk.witTerm = s.clk.witTerm ∧ ∀ d < 2, t.role d = s.role d ∧ t.term d = s.term d

/-- Die `hd` is no keeper, and all else of the lease is as before. -/
def Unkept (hd : Nat) (s t : State) : Prop :=
  t.clk.witTerm = s.clk.witTerm ∧ t.role hd ≠ .keeper ∧ ∀ d < 2, d ≠ hd → t.role d = s.role d ∧ t.term d = s.term d

/-- Die `hd` is the keeper of the witness's next term, and all else of the lease is as before. -/
def Won (hd : Nat) (s t : State) : Prop :=
  t.clk.witTerm = s.clk.witTerm + 1 ∧ t.term hd = s.clk.witTerm + 1 ∧
    ∀ d < 2, d ≠ hd → t.role d = s.role d ∧ t.term d = s.term d

theorem SameLease.refl (s : State) : SameLease s s := ⟨rfl, fun _ _ => ⟨rfl, rfl⟩⟩

theorem SameLease.trans {s t u : State} (h : SameLease s t) (k : SameLease t u) : SameLease s u :=
  ⟨k.1.trans h.1, fun d die => ⟨(k.2 d die).1.trans (h.2 d die).1, (k.2 d die).2.trans (h.2 d die).2⟩⟩

theorem Unkept.trans_same {hd : Nat} (host : hd < 2) {s t u : State} (h : Unkept hd s t) (k : SameLease t u) :
    Unkept hd s u := by
  obtain ⟨wit, follows, others⟩ := h
  obtain ⟨wit', all⟩ := k
  refine ⟨wit'.trans wit, ?_, fun d die ne => ?_⟩
  · rw [(all hd host).1]
    exact follows
  · exact ⟨(all d die).1.trans (others d die ne).1, (all d die).2.trans (others d die ne).2⟩

theorem SameLease.trans_unkept {hd : Nat} {s t u : State} (k : SameLease s t) (h : Unkept hd t u) : Unkept hd s u :=
  ⟨h.1.trans k.1, h.2.1, fun d die ne =>
    ⟨(h.2.2 d die ne).1.trans (k.2 d die).1, (h.2.2 d die ne).2.trans (k.2 d die).2⟩⟩

theorem Won.trans_same {hd : Nat} (host : hd < 2) {s t u : State} (h : Won hd s t) (k : SameLease t u) :
    Won hd s u := by
  obtain ⟨wit, term, others⟩ := h
  obtain ⟨wit', all⟩ := k
  exact ⟨wit'.trans wit, (all hd host).2.trans term, fun d die ne =>
    ⟨(all d die).1.trans (others d die ne).1, (all d die).2.trans (others d die ne).2⟩⟩

theorem SameLease.trans_won {hd : Nat} {s t u : State} (k : SameLease s t) (h : Won hd t u) : Won hd s u := by
  obtain ⟨wit, term, others⟩ := h
  rw [k.1] at wit term
  exact ⟨wit, term, fun d die ne =>
    ⟨(others d die ne).1.trans (k.2 d die).1, (others d die ne).2.trans (k.2 d die).2⟩⟩

/-- What the statement calls sound, die by die. -/
theorem leaseSound_iff {s : State} : LeaseSound s ↔ (∀ d < 2, s.role d = .keeper → s.term d ≤ s.clk.witTerm) ∧
    ∀ d < 2, ∀ e < 2, d ≠ e → s.role d = .keeper → s.role e = .keeper → s.term d ≠ s.term e := by
  constructor
  · rintro ⟨first, second, apart⟩
    refine ⟨fun d die => ?_, fun d die e die' ne => ?_⟩
    · rcases hostDie_cases die with rfl | rfl
      · exact first
      · exact second
    · rcases hostDie_cases die with rfl | rfl
      · obtain rfl : e = 1 := by omega
        exact apart
      · obtain rfl : e = 0 := by omega
        exact fun k k' same => apart k' k same.symm
  · rintro ⟨below, apart⟩
    exact ⟨below 0 (by decide), below 1 (by decide), apart 0 (by decide) 1 (by decide) (by decide)⟩

theorem SameLease.sound {s t : State} (same : SameLease s t) (h : LeaseSound s) : LeaseSound t := by
  obtain ⟨wit, all⟩ := same
  rw [leaseSound_iff] at h ⊢
  refine ⟨fun d die => ?_, fun d die e die' => ?_⟩
  · rw [(all d die).1, (all d die).2, wit]
    exact h.1 d die
  · rw [(all d die).1, (all d die).2, (all e die').1, (all e die').2]
    exact h.2 d die e die'

theorem Unkept.sound {hd : Nat} {s t : State} (unkept : Unkept hd s t) (h : LeaseSound s) : LeaseSound t := by
  obtain ⟨wit, follows, others⟩ := unkept
  rw [leaseSound_iff] at h ⊢
  refine ⟨fun d die keeps => ?_, fun d die e die' ne keeps keeps' => ?_⟩
  · have ne : d ≠ hd := by
      rintro rfl
      exact follows keeps
    rw [(others d die ne).1] at keeps
    rw [(others d die ne).2, wit]
    exact h.1 d die keeps
  · have ned : d ≠ hd := by
      rintro rfl
      exact follows keeps
    have nee : e ≠ hd := by
      rintro rfl
      exact follows keeps'
    rw [(others d die ned).1] at keeps
    rw [(others e die' nee).1] at keeps'
    rw [(others d die ned).2, (others e die' nee).2]
    exact h.2 d die e die' ne keeps keeps'

/-- The keeper of a new term is above every keeper before it. -/
theorem Won.sound {hd : Nat} {s t : State} (won : Won hd s t) (h : LeaseSound s) : LeaseSound t := by
  obtain ⟨wit, term, others⟩ := won
  rw [leaseSound_iff] at h ⊢
  have below (d : Nat) (die : d < 2) (ne : d ≠ hd) (keeps : t.role d = .keeper) : t.term d ≤ s.clk.witTerm := by
    rw [(others d die ne).1] at keeps
    rw [(others d die ne).2]
    exact h.1 d die keeps
  refine ⟨fun d die keeps => ?_, fun d die e die' ne keeps keeps' => ?_⟩
  · by_cases same : d = hd
    · rw [same, term, wit]
    · have := below d die same keeps
      omega
  · by_cases same : d = hd
    · subst same
      have := below e die' ne.symm keeps'
      omega
    · by_cases same' : e = hd
      · subst same'
        have := below d die same keeps
        omega
      · rw [(others d die same).1] at keeps
        rw [(others e die' same').1] at keeps'
        rw [(others d die same).2, (others e die' same').2]
        exact h.2 d die e die' ne keeps keeps'

/-! ## What the operations of the lease do -/

section Operations

variable (s : State) {hd : Nat}

theorem State.renewed_same : SameLease s (s.renewed hd) := by
  unfold State.renewed
  split
  · exact ⟨rfl, fun _ _ => ⟨rfl, rfl⟩⟩
  · exact ⟨rfl, fun _ _ => ⟨rfl, rfl⟩⟩

theorem State.saw_same : SameLease s (s.saw hd) := by
  unfold State.saw
  split
  · exact ⟨rfl, fun _ _ => ⟨rfl, rfl⟩⟩
  · exact ⟨rfl, fun _ _ => ⟨rfl, rfl⟩⟩

theorem State.heard_same : SameLease s (s.heard hd) := (s.renewed_same).trans (State.saw_same _)

theorem State.sendRenew_same : SameLease s (s.sendRenew hd) :=
  .trans (t := s.setClk { s.clk with sentRenew := some (hd, s.term hd, s.time) }) ⟨rfl, fun _ _ => ⟨rfl, rfl⟩⟩
    (State.renewed_same _)

theorem State.view_unkept (follows : s.role hd ≠ .keeper) (term : Nat) : Unkept hd s (s.view hd term) :=
  ⟨rfl, follows, fun _ _ ne => ⟨rfl, s.term_view_ne ne term⟩⟩

theorem Unkept.trans_view {t : State} (h : Unkept hd s t) (term : Nat) : Unkept hd s (t.view hd term) := by
  obtain ⟨wit, follows, others⟩ := h
  exact ⟨wit, follows, fun d die ne =>
    ⟨(others d die ne).1, (t.term_view_ne ne term).trans (others d die ne).2⟩⟩

variable (host : hd < 2)

include host

theorem State.setRole_unkept {r : LeaseRun} (follows : r ≠ .keeper) : Unkept hd s (s.setRole hd r) :=
  ⟨s.witTerm_setRole r, by rwa [State.role_setRole_self],
    fun _ die ne => ⟨s.role_setRole_ne host die ne r, s.term_setRole r⟩⟩

theorem State.setF_same {f : Fld} (field : f ∈ leaseFields) (v : Nat) :
    SameLease s (s.setF f (lDie (16 + hd)) v) :=
  ⟨rfl, fun _ die => ⟨rfl, s.term_setF host die field v⟩⟩

theorem State.bump_same {f : Fld} (field : f ∈ leaseFields) (n : Nat) :
    SameLease s (s.bump f (lDie (16 + hd)) n) :=
  ⟨by rw [State.bump_clk], fun _ die => ⟨s.role_bump f _ n, s.term_bump host die field n⟩⟩

theorem State.unkeep_unkept : Unkept hd s (s.unkeep hd) :=
  (s.setRole_unkept host (by decide)).trans_same host (State.setF_same _ host (by decide) 0)

theorem State.fence_unkept (term : Nat) : Unkept hd s (s.fence hd term) := by
  have fenced := (s.unkeep_unkept host).trans_same host
    (State.setF_same _ host (f := R.AON_LEASE_FENCED) (by decide) 1)
  exact (Unkept.trans_view s fenced term).trans_same host (State.bump_same _ host (by decide) 1)

/-- A claim that wins, while the witness's TERM has not run out. -/
theorem State.win_won (room : s.clk.witTerm + 1 < 2 ^ 32) : Won hd s (s.win hd) ∧ (s.win hd).role hd = .keeper := by
  let t1 := s.setClk { s.clk with witTerm := (s.clk.witTerm + 1) % 2 ^ 32, witHolder := 16 + hd }
  let t2 := (t1.setRole hd .keeper).view hd ((s.clk.witTerm + 1) % 2 ^ 32)
  have low : (s.clk.witTerm + 1) % 2 ^ 32 = s.clk.witTerm + 1 := Nat.mod_eq_of_lt room
  have rest : SameLease t2 (s.win hd) :=
    (State.setF_same t2 host (f := R.AON_LEASE_KEEPER) (by decide) 1).trans
      (State.setF_same _ host (by decide) 0)
  obtain ⟨wit, all⟩ := rest
  refine ⟨⟨?_, ?_, fun d die ne => ⟨?_, ?_⟩⟩, ?_⟩
  · rw [wit, ← low]
    exact State.witTerm_setRole _ _
  · rw [(all hd host).2, State.term_view_self, low, low]
  · rw [(all d die).1]
    exact State.role_setRole_ne _ host die ne _
  · rw [(all d die).2, State.term_view_ne _ ne]
    rfl
  · rw [(all hd host).1]
    exact State.role_setRole_self _ _

/-- What a claim does (R400): it wins where the witness holds the term it names, and else the die follows. -/
theorem State.applyClaim_cases (room : s.clk.witTerm + 1 < 2 ^ 32) :
    SameLease s (s.applyClaim hd) ∨ Unkept hd s (s.applyClaim hd) ∨ Won hd s (s.applyClaim hd) := by
  unfold State.applyClaim
  split
  · exact .inl (.refl s)
  · next claims =>
    have claiming : (s.saw (1 - hd)).role hd = s.role hd := (s.saw_same.2 hd host).1
    have room' : (s.saw (1 - hd)).clk.witTerm + 1 < 2 ^ 32 := by rwa [(s.saw_same (hd := 1 - hd)).1]
    dsimp only
    split
    · right
      right
      have rest := (State.sendRenew_same ((s.saw (1 - hd)).win hd) (hd := hd)).trans
        (State.bump_same _ host (f := R.AON_LCNT_TAKEOVERS) (by decide) 1)
      exact s.saw_same.trans_won ((State.win_won _ host room').1.trans_same host rest)
    · right
      left
      exact s.saw_same.trans_unkept
        ((Unkept.trans_view _ (State.setRole_unkept _ host (by decide)) _).trans_same host
          (State.bump_same _ host (by decide) 1))

/-- A claim keeps the lease exclusive, and advances the witness by one term at most. -/
theorem State.applyClaim_sound (room : s.clk.witTerm + 1 < 2 ^ 32) (h : LeaseSound s) :
    LeaseSound (s.applyClaim hd) ∧ (s.applyClaim hd).clk.witTerm ≤ s.clk.witTerm + 1 := by
  rcases s.applyClaim_cases host room with same | unkept | won
  · exact ⟨same.sound h, same.1.trans_le (Nat.le_succ _)⟩
  · exact ⟨unkept.sound h, unkept.1.trans_le (Nat.le_succ _)⟩
  · exact ⟨won.sound h, won.1.le⟩

end Operations

/-! ## The commands of the lease keep it exclusive -/

/-- The claims of one cycle: HD0's comes first, and each die's counts once (R400). -/
theorem witnessCas_sound {s : State} (claims : List Nat) (room : s.clk.witTerm + 2 < 2 ^ 32) (h : LeaseSound s) :
    LeaseSound (forEach ([0, 1].filter (fun hd => claims.contains hd)) s State.applyClaim) := by
  obtain ⟨sound, wit⟩ := s.applyClaim_sound (hd := 0) (by decide) (by omega) h
  rw [List.filter_cons, List.filter_cons, List.filter_nil]
  split
  · split
    · exact (State.applyClaim_sound _ (hd := 1) (by decide) (by omega) sound).1
    · exact sound
  · split
    · exact (s.applyClaim_sound (hd := 1) (by decide) (by omega) h).1
    · exact h

/-- What a die does with a RENEW that it receives (R399). -/
theorem State.renewReceive_cases (s : State) {hd : Nat} (host : hd < 2) (term : Nat) :
    ∃ t, exec (.renewReceive hd term) s = .next t ∧ (SameLease s t ∨ Unkept hd s t) := by
  refine ⟨_, if_pos (decide_eq_true host), ?_⟩
  split
  · exact .inl (.refl s)
  · split
    · split
      · exact .inr ((s.fence_unkept host term).trans_same host (State.heard_same _))
      · exact .inl (.refl s)
    · next follows =>
      have view := s.view_unkept (by rw [follows]; decide) term
      exact .inr (view.trans_same host (State.heard_same _))
    · split
      · have view := Unkept.trans_view s (s.setRole_unkept host (r := .follower) (by decide)) term
        exact .inr (view.trans_same host (State.heard_same _))
      · exact .inl (.refl s)

/-- A command of a host die that the device does not have answers no state. -/
theorem need_host {hd : Nat} {o : Out} {t : State} (h : need (decide (hd < 2)) "host die" o = .next t) :
    hd < 2 ∧ o = .next t := by
  by_cases host : hd < 2
  · simpa only [host, decide_true, need_true, true_and] using h
  · simp only [host, decide_false, need_false, reduceCtorEq] at h

/-- Settles O54: each command leaves the lease as it is, makes one die no keeper, or makes one die keeper of the
witness's next term. -/
theorem leaseStaysExclusive : Obligations.LeaseStaysExclusive := by
  unfold Obligations.LeaseStaysExclusive
  intro s t hd term ok claims sound room _ answered
  rcases answered with renew | receive | timeout | cas | watchdog
  · obtain ⟨host, h⟩ := need_host renew
    obtain rfl := Host.Outcome.next.inj h
    split
    · exact sound
    · split
      · exact (s.fence_unkept host _).sound sound
      · exact s.sendRenew_same.sound sound
  · obtain ⟨host, -⟩ := need_host receive
    obtain ⟨u, answers, cases⟩ := s.renewReceive_cases host term
    obtain rfl := Host.Outcome.next.inj (answers.symm.trans receive)
    exact cases.elim (fun same => same.sound sound) (fun unkept => unkept.sound sound)
  · obtain ⟨host, h⟩ := need_host timeout
    obtain rfl := Host.Outcome.next.inj h
    split
    · exact sound
    · have waited (n : Nat) : SameLease s (s.until n) := ⟨rfl, fun _ _ => ⟨rfl, rfl⟩⟩
      dsimp only
      split
      · exact ((waited _).trans_unkept (State.setRole_unkept _ host (by decide))).sound sound
      · exact (waited _).sound sound
  · obtain rfl := Host.Outcome.next.inj cas
    exact witnessCas_sound claims room sound
  · obtain ⟨host, h⟩ := need_host watchdog
    obtain rfl := Host.Outcome.next.inj h
    unfold State.yieldLease
    split
    · exact (s.unkeep_unkept host).sound sound
    · exact sound

/-! ## The rows of the lease -/

section Rows

variable (s : State) {hd : Nat}

/-- A die that unkeeps is a follower, and its register says so. -/
theorem State.unkeep_spec : (s.unkeep hd).mem = s.mem ∧ (s.unkeep hd).role hd = .follower ∧
    (s.unkeep hd).getB R.AON_LEASE_KEEPER (lDie (16 + hd)) = false := by
  refine ⟨rfl, s.role_setRole_self _, ?_⟩
  simp only [State.getB, State.unkeep, State.getF_setF_self]
  rfl

/-- What a fence leaves (R399): a follower of the higher term, FENCED and no KEEPER. -/
theorem State.fence_spec (host : hd < 2) {term : Nat} (low : term < 2 ^ 32) :
    (s.fence hd term).mem = s.mem ∧ (s.fence hd term).clk.sentRenew = s.clk.sentRenew ∧
      (s.fence hd term).role hd = .follower ∧ (s.fence hd term).term hd = term ∧
      (s.fence hd term).getB R.AON_LEASE_FENCED (lDie (16 + hd)) = true ∧
      (s.fence hd term).getB R.AON_LEASE_KEEPER (lDie (16 + hd)) = false := by
  let t1 := (s.unkeep hd).setF R.AON_LEASE_FENCED (lDie (16 + hd)) 1
  have counted (g : Fld) (field : g ∈ [R.AON_LEASE_TERM, R.AON_LEASE_KEEPER, R.AON_LEASE_FENCED]) :
      (s.fence hd term).getF g (lDie (16 + hd)) = (t1.view hd term).getF g (lDie (16 + hd)) := by
    have apart : ∀ hd < 2, ∀ g ∈ [R.AON_LEASE_TERM, R.AON_LEASE_KEEPER, R.AON_LEASE_FENCED],
        outsidePerf (g.key (lDie (16 + hd))) ∧ R.AON_LCNT_CONFLICTS.key (lDie (16 + hd)) ≠ g.key (lDie (16 + hd)) := by
      decide
    obtain ⟨perf, ne⟩ := apart hd host g field
    exact State.getF_bump_ne _ (by decide) perf ne 1
  refine ⟨State.bump_mem .., ?_, ?_, ?_, ?_, ?_⟩
  · rw [State.fence, State.bump_clk]
    unfold State.view State.unkeep State.setRole
    simp only [State.setF_clk, State.setClk]
    split
    · rfl
    · rfl
  · rw [State.fence, State.role_bump]
    exact State.role_setRole_self _ _
  · rw [State.term, counted _ (by decide)]
    exact (State.term_view_self t1 term).trans (Nat.mod_eq_of_lt low)
  · rw [State.getB, counted _ (by decide), State.view, State.getF_setF_of_place _ (by decide), State.getF_setF_self]
    rfl
  · rw [State.getB, counted _ (by decide), State.view, State.getF_setF_of_place _ (by decide),
      State.getF_setF_of_place _ (by decide), State.unkeep, State.getF_setF_self]
    rfl

/-- A die that has heard of the other sees it alive. -/
theorem State.heard_spec : (s.heard hd).mem = s.mem ∧ (s.heard hd).csr = s.csr ∧ (s.heard hd).peerAlive hd = true := by
  unfold State.heard State.saw State.renewed State.peerAlive State.setClk
  by_cases first : hd = 0
  · simp [first]
  · simp [first]

theorem State.sendRenew_sent : (s.sendRenew hd).clk.sentRenew = some (hd, s.term hd, s.time) := by
  unfold State.sendRenew State.renewed State.setClk
  split
  · rfl
  · rfl

theorem State.sendRenew_mem : (s.sendRenew hd).mem = s.mem := rfl

theorem State.sendRenew_witHolder : (s.sendRenew hd).clk.witHolder = s.clk.witHolder := by
  unfold State.sendRenew State.renewed State.setClk
  split
  · rfl
  · rfl

theorem State.win_mem : (s.win hd).mem = s.mem := rfl

theorem State.win_witHolder : (s.win hd).clk.witHolder = 16 + hd := by
  unfold State.win State.view State.setRole State.setClk
  simp only [State.setF_clk]
  split
  · rfl
  · rfl

theorem State.peerAlive_setRole (r : LeaseRun) : (s.setRole hd r).peerAlive hd = s.peerAlive hd := by
  by_cases first : hd = 0
  · simp [State.peerAlive, State.setRole, State.setClk, first]
  · simp [State.peerAlive, State.setRole, State.setClk, first]

/-- 100 µs after a die has seen the other, it no longer counts as alive (R412). -/
theorem State.peerAlive_until {x n : Nat} (seen : (if hd = 0 then s.clk.seen0 else s.clk.seen1) = some x)
    (late : x + 100000 ≤ n) : (s.until n).peerAlive hd = false := by
  have later : ¬ max s.time n < x + 100000 := by omega
  simp only [State.peerAlive, State.until, seen, later, decide_false]

variable (host : hd < 2)

include host

theorem exec_renew_of_keeper (keeps : s.role hd = .keeper) : exec (.renew hd) s = .next
    (if s.term hd < s.clk.witTerm then s.fence hd s.clk.witTerm else s.sendRenew hd) := by
  refine (if_pos (decide_eq_true host)).trans ?_
  simp only [keeps, ne_eq, not_true_eq_false, if_false]

theorem exec_stewardWatchdog_of_keeper (keeps : s.role hd = .keeper) :
    exec (.stewardWatchdog hd) s = .next (s.unkeep hd) := by
  refine (if_pos (decide_eq_true host)).trans ?_
  simp only [State.yieldLease, keeps, if_true]

theorem exec_renewReceive (term : Nat) : exec (.renewReceive hd term) s = .next
    (if term < s.term hd then s
     else match s.role hd with
      | .keeper => if s.term hd < term then (s.fence hd term).heard hd else s
      | .follower => (s.view hd term).heard hd
      | .claiming => if s.term hd < term then ((s.setRole hd .follower).view hd term).heard hd else s) :=
  if_pos (decide_eq_true host)

/-- A healthy follower that hears nothing claims 100 µs after the last RENEW it knows of (R399). -/
theorem exec_leaseTimeout_of_follower (follows : s.role hd = .follower) (up : s.stewardUp = true)
    (powered : s.clk.off.contains (16 + hd) = false) (ok : Bool) :
    let t := s.until ((if hd = 0 then s.clk.lastRenew0 else s.clk.lastRenew1) + 100000)
    exec (.leaseTimeout hd ok) s = .next (if ok = true then t.setRole hd .claiming else t) := by
  refine (if_pos (decide_eq_true host)).trans ?_
  simp only [follows, up, powered, ne_eq, not_true_eq_false, Bool.not_true, Bool.false_eq_true, or_self, if_false]

/-- One claim of a cycle (R400). -/
theorem exec_witnessCas_one : exec (.witnessCas [hd]) s = .next (s.applyClaim hd) := by
  rcases hostDie_cases host with rfl | rfl
  · rfl
  · rfl

/-- What a claim that wins leaves. -/
theorem State.takeover_spec (room : s.clk.witTerm + 1 < 2 ^ 32) :
    let t := ((s.win hd).sendRenew hd).bump R.AON_LCNT_TAKEOVERS (lDie (16 + hd))
    t.mem = s.mem ∧ t.role hd = .keeper ∧ t.term hd = s.clk.witTerm + 1 ∧ t.clk.witTerm = s.clk.witTerm + 1 ∧
      t.clk.witHolder = 16 + hd := by
  obtain ⟨⟨wit, term, -⟩, keeps⟩ := s.win_won host room
  obtain ⟨wit', all⟩ := (State.sendRenew_same (s.win hd) (hd := hd)).trans
    (State.bump_same _ host (f := R.AON_LCNT_TAKEOVERS) (by decide) 1)
  refine ⟨(State.bump_mem ..).trans ((s.win hd).sendRenew_mem.trans s.win_mem), (all hd host).1.trans keeps, (all hd host).2.trans term,
    wit'.trans wit, ?_⟩
  rw [State.bump_clk, State.sendRenew_witHolder, State.win_witHolder]

/-- What a claim that fails leaves: the die follows the witness's term. -/
theorem State.conflict_spec (room : s.clk.witTerm + 1 < 2 ^ 32) :
    let t := ((s.setRole hd .follower).view hd s.clk.witTerm).bump R.AON_LCNT_CONFLICTS (lDie (16 + hd))
    t.mem = s.mem ∧ t.role hd = .follower ∧ t.term hd = s.clk.witTerm ∧ t.clk.witTerm = s.clk.witTerm := by
  obtain ⟨wit, all⟩ := State.bump_same ((s.setRole hd .follower).view hd s.clk.witTerm) host
    (f := R.AON_LCNT_CONFLICTS) (by decide) 1
  refine ⟨State.bump_mem .., (all hd host).1.trans (State.role_setRole_self _ _), ?_,
    wit.trans (State.witTerm_setRole _ _)⟩
  rw [(all hd host).2, State.term_view_self]
  exact Nat.mod_eq_of_lt (by omega)

/-- The claim of a die that claims (R400). -/
theorem State.applyClaim_of_claiming (claims : s.role hd = .claiming) : s.applyClaim hd =
    (let t := s.saw (1 - hd)
     if s.clk.witTerm = s.term hd then ((t.win hd).sendRenew hd).bump R.AON_LCNT_TAKEOVERS (lDie (16 + hd))
     else ((t.setRole hd .follower).view hd t.clk.witTerm).bump R.AON_LCNT_CONFLICTS (lDie (16 + hd))) := by
  obtain ⟨wit, all⟩ := s.saw_same (hd := 1 - hd)
  simp only [State.applyClaim, claims, ne_eq, not_true_eq_false, if_false, wit, (all hd host).2]

end Rows

/-- HD0 that loses main power is no keeper (R402). -/
theorem exec_hostDieLost_of_powered {s : State} (powered : s.clk.hd0Lost = false) :
    exec .hostDieLost s = .next (((s.unkeep 0).setClk
      { (s.unkeep 0).clk with hd0Lost := true, off := 16 :: s.clk.off }).alarm Kind.hostDieLost 0xFF (alarmKey 16 0)) := by
  change execHostDieLost s = _
  simp only [execHostDieLost, powered, Bool.false_eq_true, if_false]

/-- Settles O44: each row, in the case that the statement names, is its branch. -/
theorem leaseRows : Obligations.LeaseRows := by
  unfold Obligations.LeaseRows
  refine ⟨fun s hd host keeps => ⟨fun below => ?_, fun above low => ?_, ?_⟩,
    fun s hd term host => ⟨fun lower => ?_, fun keeps higher low => ?_, fun follows above low => ?_,
      fun claims higher low => ?_⟩,
    fun s hd ok host follows up powered => ?_, fun s hd host claims room => ⟨fun holds => ?_, fun other => ?_⟩,
    fun s powered => ?_⟩
  · rw [exec_renew_of_keeper s host keeps, if_neg (Nat.not_lt.2 below)]
    exact ⟨_, rfl, rfl, rfl, s.sendRenew_sent, (s.sendRenew_same.2 hd host).1.trans keeps⟩
  · rw [exec_renew_of_keeper s host keeps, if_pos above]
    exact ⟨_, rfl, s.fence_spec host low⟩
  · exact ⟨_, exec_stewardWatchdog_of_keeper s host keeps, s.unkeep_spec⟩
  · rw [exec_renewReceive s host, if_pos lower]
  · rw [exec_renewReceive s host, if_neg (by omega), keeps]
    dsimp only
    rw [if_pos higher]
    obtain ⟨mem, -, role, term', fenced, unkept⟩ := s.fence_spec host low
    obtain ⟨mem', csr, alive⟩ := (s.fence hd term).heard_spec (hd := hd)
    obtain ⟨-, all⟩ := (s.fence hd term).heard_same (hd := hd)
    exact ⟨_, rfl, mem'.trans mem, (all hd host).1.trans role, (all hd host).2.trans term', alive,
      (State.getB_of_csr_eq csr _ _).trans fenced, (State.getB_of_csr_eq csr _ _).trans unkept⟩
  · rw [exec_renewReceive s host, if_neg (by omega), follows]
    obtain ⟨mem, -, alive⟩ := (s.view hd term).heard_spec (hd := hd)
    obtain ⟨-, all⟩ := (s.view hd term).heard_same (hd := hd)
    exact ⟨_, rfl, mem, (all hd host).1.trans follows,
      (all hd host).2.trans ((s.term_view_self term).trans (Nat.mod_eq_of_lt low)), alive⟩
  · rw [exec_renewReceive s host, if_neg (by omega), claims]
    dsimp only
    rw [if_pos higher]
    let t := (s.setRole hd .follower).view hd term
    obtain ⟨mem, -, alive⟩ := t.heard_spec (hd := hd)
    obtain ⟨-, all⟩ := t.heard_same (hd := hd)
    exact ⟨_, rfl, mem, (all hd host).1.trans (s.role_setRole_self _),
      (all hd host).2.trans ((State.term_view_self _ term).trans (Nat.mod_eq_of_lt low)), alive⟩
  · rw [exec_leaseTimeout_of_follower s host follows up powered]
    cases ok
    · refine ⟨_, rfl, rfl, follows, fun x seen heard => ?_⟩
      exact s.peerAlive_until seen (by omega)
    · refine ⟨_, rfl, rfl, State.role_setRole_self _ _, fun x seen heard => ?_⟩
      rw [if_pos rfl, State.peerAlive_setRole]
      exact s.peerAlive_until seen (by omega)
  · rw [exec_witnessCas_one s host, s.applyClaim_of_claiming host claims, if_pos holds, ← holds]
    obtain ⟨wit, -⟩ := s.saw_same (hd := 1 - hd)
    rw [← wit] at room ⊢
    exact ⟨_, rfl, State.takeover_spec _ host room⟩
  · rw [exec_witnessCas_one s host, s.applyClaim_of_claiming host claims, if_neg other]
    obtain ⟨wit, -⟩ := s.saw_same (hd := 1 - hd)
    rw [← wit] at room ⊢
    exact ⟨_, rfl, State.conflict_spec _ host room⟩
  · refine ⟨_, exec_hostDieLost_of_powered powered, State.alarm_mem .., ?_, ?_, fun _ => ?_⟩
    · rw [State.alarm_clk]
      rfl
    · rw [State.alarm_clk]
      exact List.mem_cons_self
    · rw [State.role, State.alarm_clk]
      rfl

end Sys2Proof.Machine
end

section
/-!
TIME (O34), resets and the bring-up (O45).
-/

namespace Sys2Proof.Machine

/-! ## TIME (R320, R396, R441) -/

section Time

variable (s : State) {hd : Nat}

/-- The fields of a host die's clock to gPTP stand apart from those of the keeper's source of TIME. -/
theorem key_tsync_ne : ∀ hd < 2, ∀ f ∈ [R.WPT_TSYNC_LOCKED, R.WPT_TSYNC_HOLDOVER, R.WPT_TSYNC_OFFSET_NS],
    f.key (lDie (16 + hd)) ≠ R.CLK_TSRC_SRC.key lKeep := by
  decide

variable (host : hd < 2)

include host

/-- A write of the host die's lock leaves the source of TIME. -/
theorem State.source_setF_tsync {f : Fld} (field : f ∈ [R.WPT_TSYNC_LOCKED, R.WPT_TSYNC_HOLDOVER, R.WPT_TSYNC_OFFSET_NS])
    (v : Nat) : (s.setF f (lDie (16 + hd)) v).getF R.CLK_TSRC_SRC lKeep = s.getF R.CLK_TSRC_SRC lKeep :=
  s.getF_setF_ne _ _ _ _ _ (key_tsync_ne hd host f field)

theorem exec_gptpSync_of_slave (slave : s.getB R.WPT_TSYNC_GM (lDie (16 + hd)) = false) (off : Int) :
    let s1 := ((s.setF R.WPT_TSYNC_LOCKED (lDie (16 + hd)) 1).setF R.WPT_TSYNC_HOLDOVER (lDie (16 + hd)) 0).setF
      R.WPT_TSYNC_OFFSET_NS (lDie (16 + hd)) (uInt 32 (-off))
    exec (.gptpSync hd off) s = .next
      (if s.getF R.CLK_TSRC_SRC lKeep = 1 then (s1.setF R.CLK_TSTAT_LOCKED lKeep 1).correct (-off) else s1) := by
  refine (if_pos (decide_eq_true host)).trans ?_
  simp only [slave, Bool.false_eq_true, if_false]
  rw [State.source_setF_tsync _ host (by decide), State.source_setF_tsync _ host (by decide),
    State.source_setF_tsync _ host (by decide)]

theorem exec_timeHoldover_of_locked (locked : s.getB R.WPT_TSYNC_LOCKED (lDie (16 + hd)) = true) :
    let s1 := (s.setF R.WPT_TSYNC_LOCKED (lDie (16 + hd)) 0).setF R.WPT_TSYNC_HOLDOVER (lDie (16 + hd)) 1
    exec (.timeHoldover hd) s = .next
      ((if s.getF R.CLK_TSRC_SRC lKeep = 1 then s1.setF R.CLK_TSTAT_LOCKED lKeep 0 else s1).alarm Kind.timeHoldover 0xFF
        (alarmKey (16 + hd) 0)) := by
  refine (if_pos (decide_eq_true host)).trans ?_
  simp only [locked, if_true]
  rw [State.source_setF_tsync _ host (by decide), State.source_setF_tsync _ host (by decide)]

end Time

/-- Settles O34: each row, in the case that the statement names, is its branch. -/
theorem timeRows : Obligations.TimeRows := by
  unfold Obligations.TimeRows
  refine ⟨fun s hd off host slave => ⟨fun other => ?_, fun gptp => ?_⟩, fun s hd host locked => ?_,
    fun s time half fabric master => ?_, fun s src time half fabric master other => ?_, fun s locked => ?_⟩
  · rw [exec_gptpSync_of_slave s host slave, if_neg other]
  · rw [exec_gptpSync_of_slave s host slave, if_pos gptp]
  · exact exec_timeHoldover_of_locked s host locked
  · change execFabricTime s.device time half s = _
    simp only [execFabricTime, fabric, master, ne_eq, not_true_eq_false, or_self, if_false, if_true]
  · change execFabricTime src time half s = _
    simp only [execFabricTime, fabric, master, other, ne_eq, not_true_eq_false, or_self, if_false]
  · change execPpsPulse s = _
    have later : max s.time ((s.time + 999999999) / 1000000000 * 1000000000) =
        (s.time + 999999999) / 1000000000 * 1000000000 := max_eq_right (by omega)
    have anyLock : (s.getB R.WPT_TSYNC_LOCKED (lDie 16) || s.getB R.WPT_TSYNC_LOCKED (lDie 17)) = true := by
      rwa [Bool.or_eq_true]
    have whole : ceilDiv s.time 1000000000 = (s.time + 999999999) / 1000000000 := by
      rw [ceilDiv, Nat.add_sub_assoc (by omega)]
    simp only [execPpsPulse, anyLock, if_true, whole, State.until, State.setClk, later]

/-! ## Resets (R403, R404) -/

section Reset

variable (s : State)

/-- What outlasts a reset in the AON island is written into registers alone. -/
theorem State.aonKept_spec (cold advance : Bool) (cause : Nat) (t : State) :
    ∃ m, s.aonKept cold advance cause t = { t with csr := m } := by
  unfold State.aonKept
  dsimp only
  split
  · exact ⟨_, rfl⟩
  · exact ⟨_, rfl⟩

/-- What a reset leaves: TIME 0, no job, pan, grain or key, and the queue. -/
theorem State.afterReset_spec (cause : Nat) (advance : Bool) :
    let t := s.afterReset cause advance
    t.time = 0 ∧ t.hcx.jobs = [] ∧ t.keys = [] ∧ t.sch.pans = [] ∧ t.grains = [] ∧ t.pending = s.pending ∧
      t.clk.ready = false := by
  obtain ⟨m, reset⟩ := s.aonKept_spec (cause == Cause.cold) advance cause
    { pending := s.pending, free := s.free
      mem := s.mem.filter (fun x => x.1 / 2 ^ 44 = 3)
      tier := { flash := s.tier.flash }
      clk := _ }
  intro t
  rw [show t = _ from reset]
  exact ⟨rfl, rfl, rfl, rfl, rfl, rfl, rfl⟩

/-- A reset that is not a cold one records its cause (R412). -/
theorem State.cause_afterReset {cause : Nat} (warm : (cause == Cause.cold) = false)
    (small : cause < 2 ^ R.AON_RST_CAUSE.w) (advance : Bool) :
    (s.afterReset cause advance).getF R.AON_RST_CAUSE (lDie 16) = cause := by
  have apart : ∀ f ∈ [R.AON_DEVNUM_DEVICE, R.AON_DEVNUM_VALID, R.AON_RST_BIST],
      f.key (lDie 16) ≠ R.AON_RST_CAUSE.key (lDie 16) := by decide
  simp only [State.afterReset, State.aonKept, warm, Bool.false_eq_true, if_false]
  rw [State.getF_setF_ne _ _ _ _ _ _ (apart _ (by decide)), State.getF_setF_ne _ _ _ _ _ _ (apart _ (by decide)),
    State.getF_setF_ne _ _ _ _ _ _ (apart _ (by decide)), State.getF_setF_self]
  exact Nat.mod_eq_of_lt small

/-- Without VIN48 the bring-up waits at step 3 (R436). -/
theorem State.boot3_waits {b : BootIn} (without : b.vin48 = false) :
    s.boot3 b = s.setClk { s.clk with
      bootStep := 3, vin48 := false, bootFail := true, bootCode := 1, bootWait := 1 } := by
  simp only [State.boot3, without, Bool.false_eq_true, if_false, State.atStep, State.setClk]

/-- A step that takes too long fails with a free code (R404). -/
theorem exec_bootStepTimeout_of_booting (down : s.clk.ready = false) (goes : s.clk.bootWait = 0)
    (sound : s.clk.bootFail = false) (booting : s.clk.bootStep ≠ 0) :
    exec .bootStepTimeout s = .next ((s.draw 8).2.bootFails (s.draw 8).1) := by
  change execBootStepTimeout s = _
  simp only [execBootStepTimeout, down, goes, sound, booting, Bool.false_eq_true, ne_eq, not_true_eq_false, or_self,
    if_false]

theorem exec_vin48Fault (mv us : Nat) : exec (.vin48Fault mv us) s = .next
    (if (s.clk.vsb33 && vin48Bad mv us) = true then (s.afterReset Cause.supply true).boot3 { vin48 := false }
     else s) := rfl

theorem exec_vsb33Fault (us : Nat) : exec (.vsb33Fault us) s = .next
    (if 10 < us then
      (s.afterReset Cause.cold false).setClk
        { (s.afterReset Cause.cold false).clk with vsb33 := false, bootStep := 0, off := List.range 20 }
     else s) := rfl

end Reset

/-- Settles O45: each row, in the case that the statement names, is its branch. -/
theorem resetRows : Obligations.ResetRows := by
  unfold Obligations.ResetRows
  refine ⟨fun s b => ⟨rfl, fun pin => rfl, fun without => ?_⟩, fun s down goes sound booting => ?_,
    fun s b => ⟨fun waits => ?_, fun other => ?_⟩, fun s mv us => ⟨fun gone => ?_, fun stands bad => ?_, fun low high => ?_⟩,
    fun s us => ⟨fun long => ?_, fun short => ?_⟩, fun s => ⟨rfl, rfl⟩⟩
  · obtain ⟨time, jobs, keys, pans, grains, pending, ready⟩ := s.afterReset_spec Cause.warm true
    refine ⟨_, congrArg Host.Outcome.next (State.boot3_waits _ without), time, jobs, keys, pans, grains, pending, rfl,
      rfl, ready⟩
  · exact ⟨_, exec_bootStepTimeout_of_booting s down goes sound booting, rfl, rfl, rfl, down⟩
  · exact congrArg Host.Outcome.next (if_pos waits)
  · exact congrArg Host.Outcome.next (if_neg other)
  · rw [exec_vin48Fault, gone]
    rfl
  · have fault : (s.clk.vsb33 && vin48Bad mv us) = true := by
      simp only [stands, vin48Bad, Bool.true_and, Bool.or_eq_true, Bool.and_eq_true, decide_eq_true_eq]
      omega
    rw [exec_vin48Fault, if_pos fault, State.boot3_waits _ rfl]
    obtain ⟨-, jobs, -⟩ := s.afterReset_spec Cause.supply true
    exact ⟨_, rfl, rfl, rfl, jobs, s.cause_afterReset rfl (by decide) true⟩
  · have good : vin48Bad mv us = false := by
      simp only [vin48Bad, Bool.or_eq_false_iff, Bool.and_eq_false_iff, decide_eq_false_iff_not]
      omega
    rw [exec_vin48Fault, good, Bool.and_false]
    rfl
  · obtain ⟨-, jobs, -⟩ := s.afterReset_spec Cause.cold false
    rw [exec_vsb33Fault, if_pos long]
    exact ⟨_, rfl, rfl, rfl, jobs, rfl⟩
  · rw [exec_vsb33Fault, if_neg (by omega)]

end Sys2Proof.Machine
end

section
/-!
The power cap, the temperature of a die, and the training of a PCIe link (O46).
-/

namespace Sys2Proof.Machine

/-! ## The power cap (R409) -/

section Cap

variable (s : State) (w : Nat)

theorem exec_powerCompare : exec (.powerCompare w) s = .next
    (let s1 := s.setF R.CLK_CAP_MEASURED lKeep (min w 16383)
     let cap := s1.getF R.CLK_CAP_WATTS lKeep
     if cap < w then
      let s2 : State := { s1 with clk := { s1.clk with lowUs := 0 } }
      match s2.lowerDuty (fun _ => true) with
      | some t => t
      | none => (s2.bump R.CLK_THR_UNMET lKeep).alarm Kind.powerCapUnmet 0xFF (alarmKey 16 0)
     else if w * 100 < cap * 95 then
      let s2 : State := { s1 with clk := { s1.clk with lowUs := s.clk.lowUs + 100 } }
      if 1000 ≤ s.clk.lowUs + 100 then s2.raiseDuty else s2
     else { s1 with clk := { s1.clk with lowUs := 0 } }) := rfl

end Cap

/-! ## The temperature of a die (R410) -/

/-- A value of 16 signed bits reads back as it was written. -/
theorem sInt_uInt_16 {v : Int} (low : -32768 ≤ v) (high : v < 32768) : sInt 16 (uInt 16 v % 2 ^ 16) = v := by
  unfold sInt uInt
  split
  · omega
  · omega

theorem sInt_16_bounds (n : Nat) : -32768 ≤ sInt 16 n ∧ sInt 16 n < 32768 := by
  unfold sInt
  split
  · omega
  · omega

section Sample

variable (s : State) {die : Nat} (temp : Int) (w : Nat)

/-- A temperature sample with its peak, and a power sample, in the die's registers. -/
def State.sampled (s : State) (die : Nat) (temp : Int) (w : Nat) : State :=
  let peak := sInt 16 (s.getF R.DIE_TEMP_PEAK (lDie die))
  ((s.setF R.DIE_TEMP_NOW (lDie die) (uInt 16 temp)).setF R.DIE_TEMP_PEAK (lDie die)
    (uInt 16 (if peak < temp then temp else peak))).setF R.DIE_POWER_WATTS (lDie die) (min w 65535)

/-- The registers of a sample stand apart. -/
theorem sampleFields_apart : ∀ f ∈ [R.DIE_TEMP_NOW, R.DIE_TEMP_PEAK, R.DIE_POWER_WATTS],
    f.blk = .die ∧ f.stride = 0 ∧ f.off < 65536 ∧ f.lsb < 64 := by decide

/-- A register of a sample and the warning limit stand in different blocks. -/
theorem State.warn_setF (s : State) {f : Fld} (field : f ∈ [R.DIE_TEMP_NOW, R.DIE_TEMP_PEAK, R.DIE_POWER_WATTS])
    (die v : Nat) : (s.setF f (lDie die) v).getF R.CLK_THERM_WARN lKeep = s.getF R.CLK_THERM_WARN lKeep := by
  obtain ⟨blk, stride, off, lsb⟩ := sampleFields_apart f field
  refine s.getF_setF_ne _ _ _ _ _ ?_
  simp only [Fld.key, blk, stride, lDie, lKeep, R.CLK_THERM_WARN, Blk.code]
  omega

theorem State.warn_sampled : (s.sampled die temp w).getF R.CLK_THERM_WARN lKeep = s.getF R.CLK_THERM_WARN lKeep := by
  rw [State.sampled, State.warn_setF _ (by decide), State.warn_setF _ (by decide), State.warn_setF _ (by decide)]

theorem State.sampled_spec (low : -32768 ≤ temp) (high : temp < 1760) :
    sInt 16 ((s.sampled die temp w).getF R.DIE_TEMP_NOW (lDie die)) = temp ∧
      temp ≤ sInt 16 ((s.sampled die temp w).getF R.DIE_TEMP_PEAK (lDie die)) ∧
      (s.sampled die temp w).getF R.DIE_POWER_WATTS (lDie die) = min w 65535 := by
  refine ⟨?_, ?_, ?_⟩
  · rw [State.sampled, State.getF_setF_of_place _ (by decide),
      State.getF_setF_of_place _ (by decide), State.getF_setF_self]
    exact sInt_uInt_16 low (by omega)
  · rw [State.sampled, State.getF_setF_of_place _ (by decide), State.getF_setF_self]
    obtain ⟨peakLow, peakHigh⟩ := sInt_16_bounds (s.getF R.DIE_TEMP_PEAK (lDie die))
    split
    · exact (sInt_uInt_16 low (by omega)).ge
    · next below =>
      refine (sInt_uInt_16 peakLow peakHigh).ge.trans' ?_
      omega
  · rw [State.sampled, State.getF_setF_self]
    exact Nat.mod_eq_of_lt (by simp only [R.DIE_POWER_WATTS]; omega)

variable (unit : die < 20)

include unit

/-- A die that is neither hot nor above the warning keeps its sample, and stays out of the list of hot dies. -/
theorem exec_thermalSample_of_cool (high : temp < 1760) (cool : s.clk.hot.contains die = false)
    (below : temp ≤ (s.getF R.CLK_THERM_WARN lKeep * 16 : Nat)) : exec (.thermalSample die temp w) s = .next
      ((s.sampled die temp w).setClk { s.clk with hot := s.clk.hot.filter (fun d => d ≠ die) }) := by
  refine (if_pos (decide_eq_true unit)).trans ?_
  have noTrip : ¬ 1760 ≤ temp := by omega
  have noWarn : ¬ ((((s.sampled die temp w).getF R.CLK_THERM_WARN lKeep * 16 : Nat) : Int) < temp ∨
      (s.sampled die temp w).clk.hot.contains die = true ∧
        (((s.sampled die temp w).getF R.CLK_THERM_WARN lKeep * 16 : Nat) : Int) - 48 < temp) := by
    rw [State.warn_sampled, show (s.sampled die temp w).clk = s.clk from rfl, cool]
    simp only [Bool.false_eq_true, false_and, or_false]
    omega
  exact congrArg Host.Outcome.next ((if_neg noTrip).trans (if_neg noWarn))

end Sample

/-- What a compute or fabric die at 110 °C leaves: the die off, no grain of it, no key, and no READY. -/
theorem State.tripDie_spec (s : State) (die : Nat) :
    let t := s.tripDie die
    t.keys = [] ∧ die ∈ t.clk.off ∧ t.clk.ready = false ∧ t.clk.pinTherm = false ∧
      t.grains = t.grains.filter (fun g => g.1 / 65536 ≠ die) := by
  let u := (forEach (s.jobsOn die) s (fun s j => s.faultJob j 0 0)).dieOff die
  obtain ⟨m, kept⟩ := u.aonKept_spec false true Cause.thermal u
  have trips : s.tripDie die = { { u with csr := m } with
      keys := [], clk := { u.clk with ready := false, pinReady := false, pinTherm := false, bootStep := 2 } } := by
    exact congrArg (fun v : State => { v with
      keys := [], clk := { v.clk with ready := false, pinReady := false, pinTherm := false, bootStep := 2 } }) kept
  intro t
  rw [show t = _ from trips]
  refine ⟨rfl, List.mem_cons_self, rfl, rfl, ?_⟩
  simp only [u, State.dieOff, List.filter_filter, Bool.and_self]

/-- A compute die at 110 °C trips. -/
theorem exec_thermalSample_trips (s : State) {die : Nat} (w : Nat) (compute : die < 16) :
    exec (.thermalSample die 1760 w) s = .next ((s.sampled die 1760 w).tripDie die) := by
  refine (if_pos (decide_eq_true (by omega))).trans ?_
  have unhosted : ¬ isHost die = true := by
    simp only [isHost, Bool.and_eq_true, decide_eq_true_eq]
    omega
  exact congrArg Host.Outcome.next ((if_pos le_rfl).trans (if_neg unhosted))

/-! ## The PCIe link (R338) -/

section Link

variable (s : State) {hd : Nat} (gen width c n f : Nat) (flit : Bool)

/-- The errors of a link, counted, and its retraining. -/
def State.pcieCounted (s : State) (hd c n f : Nat) : State :=
  let t := ((s.bump R.PCIE_ERR_CORR (lDie (16 + hd)) c).bump R.PCIE_ERR_NONFATAL (lDie (16 + hd)) n).bump
    R.PCIE_ERR_FATAL (lDie (16 + hd)) f
  if s.getB R.PCIE_LINK_UP (lDie (16 + hd)) then t.bump R.PCIE_ERR_RETRAINS (lDie (16 + hd)) else t

theorem State.sendPending_mem : (s.sendPending hd).mem = s.mem := rfl

theorem State.pcieCounted_mem : (s.pcieCounted hd c n f).mem = s.mem := by
  unfold State.pcieCounted
  split
  · simp only [State.bump_mem]
  · simp only [State.bump_mem]

variable (host : hd < 2)

include host

theorem exec_pcieLinkTraining_up : exec (.pcieLinkTraining hd true gen width flit c n f) s = .next
    ((((((s.pcieCounted hd c n f).sendPending hd).setF R.PCIE_LINK_UP (lDie (16 + hd)) 1).setF R.PCIE_LINK_GEN
      (lDie (16 + hd)) (max 1 (min gen 6))).setF R.PCIE_LINK_WIDTH (lDie (16 + hd)) (max 1 (min width 16))).setB
        R.PCIE_LINK_FLIT (lDie (16 + hd)) flit) :=
  if_pos (decide_eq_true host)

theorem exec_pcieLinkTraining_down : exec (.pcieLinkTraining hd false gen width flit c n f) s = .next
    (((((s.pcieCounted hd c n f).setF R.PCIE_LINK_UP (lDie (16 + hd)) 0).setF R.PCIE_LINK_GEN (lDie (16 + hd)) 0).setF
      R.PCIE_LINK_WIDTH (lDie (16 + hd)) 0).setF R.PCIE_LINK_FLIT (lDie (16 + hd)) 0) :=
  if_pos (decide_eq_true host)

/-- A link that trains is up at what it found, and its pending signals are sent. -/
theorem pcieLinkTraining_up_spec : ∃ t, exec (.pcieLinkTraining hd true gen width flit c n f) s = .next t ∧
    t.mem = s.mem ∧ t.getB R.PCIE_LINK_UP (lDie (16 + hd)) = true ∧
    t.getF R.PCIE_LINK_GEN (lDie (16 + hd)) = max 1 (min gen 6) ∧
    t.getF R.PCIE_LINK_WIDTH (lDie (16 + hd)) = max 1 (min width 16) ∧
    t.getB R.PCIE_LINK_FLIT (lDie (16 + hd)) = flit ∧ t.getF R.PCIE_MSIX_PENDING (lDie (16 + hd)) = 0 := by
  refine ⟨_, exec_pcieLinkTraining_up s gen width c n f flit host, ?_, ?_, ?_, ?_, ?_, ?_⟩
  · simp only [State.setB, State.setF_mem, State.sendPending_mem, State.pcieCounted_mem]
  · simp only [State.getB, State.setB]
    rw [State.getF_setF_of_place _ (by decide), State.getF_setF_of_place _ (by decide),
      State.getF_setF_of_place _ (by decide), State.getF_setF_self]
    rfl
  · rw [State.setB, State.getF_setF_of_place _ (by decide), State.getF_setF_of_place _ (by decide),
      State.getF_setF_self]
    exact Nat.mod_eq_of_lt (by simp only [R.PCIE_LINK_GEN]; omega)
  · rw [State.setB, State.getF_setF_of_place _ (by decide), State.getF_setF_self]
    exact Nat.mod_eq_of_lt (by simp only [R.PCIE_LINK_WIDTH]; omega)
  · rw [State.getB, State.setB, State.getF_setF_self]
    cases flit
    · rfl
    · rfl
  · rw [State.setB, State.getF_setF_of_place _ (by decide), State.getF_setF_of_place _ (by decide),
      State.getF_setF_of_place _ (by decide), State.getF_setF_of_place _ (by decide)]
    exact State.getF_setF_self _ R.PCIE_MSIX_PENDING (lDie (16 + hd)) 0

/-- A link that does not train is down. -/
theorem pcieLinkTraining_down_spec : ∃ t, exec (.pcieLinkTraining hd false gen width flit c n f) s = .next t ∧
    t.mem = s.mem ∧ t.getB R.PCIE_LINK_UP (lDie (16 + hd)) = false ∧
    t.getF R.PCIE_LINK_WIDTH (lDie (16 + hd)) = 0 := by
  refine ⟨_, exec_pcieLinkTraining_down s gen width c n f flit host, s.pcieCounted_mem c n f, ?_, ?_⟩
  · rw [State.getB, State.getF_setF_of_place _ (by decide), State.getF_setF_of_place _ (by decide),
      State.getF_setF_of_place _ (by decide), State.getF_setF_self]
    rfl
  · rw [State.getF_setF_of_place _ (by decide), State.getF_setF_self]
    rfl

end Link

/-- Settles O46: each row, in the case that the statement names, is its branch. -/
theorem powerRows : Obligations.PowerRows := by
  unfold Obligations.PowerRows
  refine ⟨fun s w => ?_, fun s die temp w unit low high cool below => ?_, fun s die w compute => ?_,
    fun s hd gen width c n f flit host =>
      ⟨pcieLinkTraining_up_spec s gen width c n f flit host, pcieLinkTraining_down_spec s gen width c n f flit host⟩⟩
  · rw [exec_powerCompare]
    intro s1 cap
    refine ⟨fun above => ?_, fun below near => ?_, fun low soon => ?_, fun low late => ?_⟩
    · exact congrArg Host.Outcome.next (if_pos above)
    · exact congrArg Host.Outcome.next ((if_neg (Nat.not_lt.2 below)).trans (if_neg (Nat.not_lt.2 near)))
    · refine congrArg Host.Outcome.next ((if_neg ?_).trans ((if_pos low).trans (if_neg ?_)))
      · change ¬ cap < w
        omega
      · omega
    · refine congrArg Host.Outcome.next ((if_neg ?_).trans ((if_pos low).trans (if_pos ?_)))
      · change ¬ cap < w
        omega
      · omega
  · exact ⟨_, exec_thermalSample_of_cool s temp w unit high cool below, rfl, rfl, rfl, s.sampled_spec temp w low high⟩
  · exact ⟨_, exec_thermalSample_trips s w compute, State.tripDie_spec _ die⟩

end Sys2Proof.Machine
end

section
/-!
Tests, scan and trace (O40).
-/

namespace Sys2Proof.Machine

/-- A loop keeps what its body keeps. -/
theorem forEach_keeps {α β : Type} {g : State → β} {f : State → α → State} (h : ∀ t x, g (f t x) = g t) (l : List α)
    (s : State) : g (forEach l s f) = g s := by
  unfold forEach
  induction l generalizing s with
  | nil => rfl
  | cons x l ih => exact (ih (f s x)).trans (h s x)

/-! ## Self-tests (R425, R426) -/

/-- BIST_RUN of a command that may begin, on a die that runs no test or whose unit may not be tested. -/
theorem exec_bistRun {s : State} {r : CmdRef} {c : Cmd} (taken : s.cmdOf r = some c) (code : c.op = 0x14)
    (may : s.mayBegin c = true) :
    let v := fieldAt c.params 0 4
    let die := bits v 12 8
    let unit := if 0x80 ≤ bits v 7 0 then 0 else bits v 19 16
    let b : Bist := { cmd := r, block := bits v 7 0, unit := unit, arrayOnly := bit v 24 }
    exec (.bistRun r) s = .next
      (if s.bistOk die (bits v 7 0) unit (bit v 24) = false then s.finish c 0x06 0 0
       else if (mget s.obsv.bists die).isSome = true then s
       else if (s.beginCmd c).bistWaits die b = true then
        { s.beginCmd c with obsv := { (s.beginCmd c).obsv with
            bists := mput (s.beginCmd c).obsv.bists die { b with waiting := true } } }
       else (s.beginCmd c).bistStart die b) := by
  refine (congrArg Host.Outcome.next (s.onCmd_now r 0x14 _ c taken code may)).trans ?_
  simp only [Bool.not_eq_true', Status.refused]

/-- A test that runs on a die ends with its signature's verdict (R426). -/
theorem exec_bistComplete_of_running {s : State} {die : Nat} {b : Bist} (unit : die < 20)
    (runs : mget s.obsv.bists die = some b) (begun : b.waiting = false) (m : U64) :
    let pass := m == Config.signature (b.block + die * 256) b.unit
    let s1 : State := { s with obsv := { s.obsv with bists := mdel s.obsv.bists die, held := mdel s.obsv.held die } }
    let s2 := s1.bistResult die pass m
    exec (.bistComplete die m) s = .next
      ((if pass = true then s2.bistRestore die b else s2.bistFails die b).finishRef b.cmd 0x00
        (if pass = true then 0 else 1) m.toNat) := by
  refine (if_pos (decide_eq_true unit)).trans ?_
  simp only [runs, begun, Bool.false_eq_true, if_false, Status.ok]

/-! ## Requests to a die under test (R427) -/

section Fenced

variable {s : State} {die : Nat} (unit : die < 20)

include unit

theorem exec_fencedRequest_of_test (tests : s.fencedDie die = true) (q : Nat) :
    exec (.fencedRequest die q none) s = .next (s.fencedReq die q none) := by
  refine (if_pos (decide_eq_true unit)).trans ?_
  simp only [tests, State.cmdHolds, Bool.and_self, if_true]

/-- A request joins the hold queue while it has room. -/
theorem fencedRequest_held (tests : s.fencedDie die = true) (q : Nat)
    (room : (mgetD s.obsv.held die []).length < s.getF R.TST_HOLD_DEPTH (lDie die)) :
    ∃ t, exec (.fencedRequest die q none) s = .next t ∧ t.mem = s.mem ∧
      mgetD t.obsv.held die [] = mgetD s.obsv.held die [] ++ [q] := by
  refine ⟨_, exec_fencedRequest_of_test unit tests q, ?_, ?_⟩
  · simp only [State.fencedReq, room, if_true, State.bump_mem]
  · simp only [State.fencedReq, room, if_true, State.bump_obsv, mgetD_mput_self]

/-- A request that the hold queue has no room for is answered BUSY_TEST, to come again after the remaining time. -/
theorem fencedRequest_busy (tests : s.fencedDie die = true) (q : Nat)
    (full : s.getF R.TST_HOLD_DEPTH (lDie die) ≤ (mgetD s.obsv.held die []).length) :
    ∃ t, exec (.fencedRequest die q none) s = .next t ∧ t.mem = s.mem ∧ t.obsv.held = s.obsv.held ∧
      t.obsv.reissue = s.obsv.reissue ++ [(die, q, s.time + s.getF R.TST_STATUS_REMAIN_US (lDie die) * 1000)] := by
  refine ⟨_, exec_fencedRequest_of_test unit tests q, ?_, ?_, ?_⟩
  · simp only [State.fencedReq, Nat.not_lt.2 full, if_false, State.bump_mem]
  · simp only [State.fencedReq, Nat.not_lt.2 full, if_false, State.bump_obsv]
  · simp only [State.fencedReq, Nat.not_lt.2 full, if_false, State.bump_obsv, State.bump_time]

/-- The one request that waits to come again is served once no test runs on its die. -/
theorem exec_busyTestReissue_served {q at_ : Nat} (waits : s.obsv.reissue = [(die, q, at_)])
    (free : s.fencedDie die = false) : exec (.busyTestReissue die q) s =
      .next (({ s with obsv := { s.obsv with reissue := [] } } : State).until at_) := by
  refine (if_pos (decide_eq_true unit)).trans ?_
  have found : s.obsv.reissue.find? (fun x => decide (x.1 = die ∧ x.2.1 = q)) = some (die, q, at_) := by
    simp only [waits, List.find?_cons, and_self, decide_true]
  have erased : s.obsv.reissue.erase (die, q, at_) = [] := by
    rw [waits, List.erase_cons_head]
  have still : (({ s with obsv := { s.obsv with reissue := [] } } : State).until at_).fencedDie die = false := free
  simp only [found, erased, still, Bool.false_eq_true, if_false]

end Fenced

/-! ## Scan (R428) -/

theorem State.zeroPlain_keys (s : State) : s.zeroPlain.keys = s.keys := by
  unfold State.zeroPlain
  refine forEach_keeps (g := State.keys) (fun t w => ?_) _ s
  dsimp only
  split
  · exact State.wrTier_keys ..
  · exact (State.wrTier_keys ..).trans (State.wrTier_keys ..)

/-- Scan mode, once every die allows it. -/
theorem exec_scanEnable {s : State} {die : Nat} (unit : die < 20) : exec (.scanEnable die) s = .next
    (if (List.range 20).all (fun d => s.getB R.TST_MODE_ENABLE (lDie d)) = true then
      ({ forEach (s.hcx.jobs.map (·.1)) s (fun s j => s.faultJob j 0 0) with keys := [] } : State).zeroPlain.setF
        R.TST_MODE_SCAN (lDie die) 1
     else s) :=
  if_pos (decide_eq_true unit)

/-- Settles O40: each row, in the case that the statement names, is its branch. -/
theorem testRows : Obligations.TestRows := by
  unfold Obligations.TestRows
  refine ⟨fun s r c taken code may => ?_, fun s die m b unit runs begun => ?_,
    fun s die q unit tests => ⟨fencedRequest_held unit tests q, fencedRequest_busy unit tests q⟩,
    fun s die q at_ unit waits free => exec_busyTestReissue_served unit waits free,
    fun s die unit => ⟨fun allow => ?_, fun ⟨d, die', refuses⟩ => ?_⟩, fun s die unit => ⟨fun runs => ?_, fun off => ?_⟩⟩
  · intro v die unit b
    rw [exec_bistRun taken code may]
    refine ⟨fun refused => by rw [if_pos refused], fun ok free => ?_⟩
    rw [if_neg (by rw [ok]; decide), free]
    rfl
  · intro s1
    rw [exec_bistComplete_of_running unit runs begun]
    refine ⟨fun expected => ?_, fun other => ?_⟩
    · rw [beq_iff_eq.2 expected]
      rfl
    · rw [beq_false_of_ne other]
      rfl
  · rw [exec_scanEnable unit, if_pos]
    · exact ⟨_, rfl, State.zeroPlain_keys _, State.getF_setF_self ..⟩
    · exact List.all_eq_true.2 fun d die' => allow d (List.mem_range.1 die')
  · rw [exec_scanEnable unit, if_neg]
    intro all
    have allows := List.all_eq_true.1 all d (List.mem_range.2 die')
    exact Bool.noConfusion (refuses.symm.trans allows)
  · exact (if_pos (decide_eq_true unit)).trans (congrArg Host.Outcome.next (if_pos runs))
  · refine (if_pos (decide_eq_true unit)).trans (congrArg Host.Outcome.next (if_neg ?_))
    rw [off]
    decide

end Sys2Proof.Machine
end


section
/-!
The command registers of the host dies and of every die (O12): a write that the audit staging accepts, by its plan.
-/

namespace Sys2Proof.Machine

/-! ## The state in which a write has its effects -/

/-- Taking values changes neither pans nor the lease. -/
theorem State.taken_sch_clk (s : State) (d : Nat) (r : AuditRec) (ps : List FldWrite) :
    (s.taken d r ps).sch = s.sch ∧ (s.taken d r ps).clk = s.clk := by
  have frame : (s.taken d r ps).outside { csr := true, wo1 := true } =
      (s.audit1 d r).outside { csr := true, wo1 := true } :=
    forEach_outside (State.applyFld_outside rfl rfl) ps _
  exact ⟨(congrArg State.sch frame :).trans (s.audit1_sch d r), (congrArg State.clk frame :).trans (s.audit1_clk d r)⟩

/-- An accepted write of a register of which one field takes writes is the field's effect, in the state that has taken
its value. -/
theorem State.csrWrite_one {s : State} {o : Origin} {csr : Nat} {v : U64} {f : Fld} {a h : Loc}
    (room : s.writeOpen o csr = true) (plan : s.plan (regFields csr) v.toNat = [s.planFld f a h v.toNat])
    (other : f.blk ≠ .route) : ∃ d r, s.csrWrite o csr v =
      (s.taken d r [s.planFld f a h v.toNat]).afterFld (s.planFld f a h v.toNat) := by
  obtain ⟨d, r, write⟩ := State.csrWrite_open room plan
  refine ⟨d, r, write.trans ?_⟩
  rw [s.applyPlan_taken (by rw [State.planFld_fld]; exact fun h => other h.1), forEach, List.foldl_cons, List.foldl_nil]

/-- A field that has just taken its value reads it. -/
theorem State.getF_taken_one (s : State) {f : Fld} (often : f.acc ≠ .wo1) (a h : Loc) (v d : Nat) (r : AuditRec) :
    (s.taken d r [s.planFld f a h v]).getF f h = (s.planFld f a h v).new % 2 ^ f.w := by
  have fld := s.planFld_fld f a h v
  have loc := s.planFld_loc f a h v
  generalize s.planFld f a h v = p at fld loc ⊢
  subst fld loc
  rw [State.taken, forEach, List.foldl_cons, List.foldl_nil, State.applyFld_setF _ p often, State.getF_setF_self]

/-- The plan of a register of two fields that take writes: the second sees the first as written. -/
theorem State.plan_pair {s : State} {f g : Fld} {a b h k : Loc} {v : Nat} (first : s.writable f a = some h)
    (second : (s.applyFld (s.planFld f a h v)).writable g b = some k) :
    s.plan [(f, a), (g, b)] v = [s.planFld f a h v, (s.applyFld (s.planFld f a h v)).planFld g b k v] := by
  simp only [State.plan, List.foldl_cons, List.foldl_nil, first, second, List.nil_append, List.singleton_append]

/-! ## AON_LCTL.YIELD (R399) -/

section Yield

variable {hd : Nat} (host : hd < 2)

include host

theorem regFields_yield :
    regFields (csrOf R.AON_LCTL_YIELD (lDie (16 + hd))) = [(R.AON_LCTL_YIELD, lDie (16 + hd))] := by
  rcases hostDie_cases host with rfl | rfl
  · decide
  · decide

omit host in
theorem State.afterFld_yield (s : State) {p : FldWrite} (yields : p.fld = R.AON_LCTL_YIELD) (one : p.raw = 1) :
    s.afterFld p = s.yieldLease (p.loc.die - 16) := by
  simp only [State.afterFld, yields, one, true_and]
  rfl

/-- YIELD written 1 on a keeper: the die keeps no more. -/
theorem State.csrWrite_yield {s : State} {o : Origin} {v : U64}
    (room : s.writeOpen o (csrOf R.AON_LCTL_YIELD (lDie (16 + hd))) = true) (one : bit v.toNat 0 = true)
    (keeps : s.role hd = .keeper) :
    ∃ u : State, s.csrWrite o (csrOf R.AON_LCTL_YIELD (lDie (16 + hd))) v = u.unkeep hd := by
  have plan : s.plan (regFields (csrOf R.AON_LCTL_YIELD (lDie (16 + hd)))) v.toNat =
      [s.planFld R.AON_LCTL_YIELD (lDie (16 + hd)) (lDie (16 + hd)) v.toNat] := by
    rw [regFields_yield host]
    exact State.plan_first rfl (fun g hg => absurd hg List.not_mem_nil) _
  obtain ⟨d, r, write⟩ := State.csrWrite_one room plan (by decide)
  have raw : (s.planFld R.AON_LCTL_YIELD (lDie (16 + hd)) (lDie (16 + hd)) v.toNat).raw = 1 :=
    (State.planFld_raw ..).trans (bits_of_bit one)
  obtain ⟨-, clk⟩ := s.taken_sch_clk d r [s.planFld R.AON_LCTL_YIELD (lDie (16 + hd)) (lDie (16 + hd)) v.toNat]
  refine ⟨s.taken d r [s.planFld R.AON_LCTL_YIELD (lDie (16 + hd)) (lDie (16 + hd)) v.toNat], write.trans ?_⟩
  rw [State.afterFld_yield _ (State.planFld_fld ..) raw, State.planFld_loc,
    show (lDie (16 + hd)).die - 16 = hd from Nat.add_sub_cancel_left .., State.yieldLease, if_pos]
  rwa [State.role, clk]

end Yield

/-! ## DIE_OP (R408) -/

section DieOp

variable {die : Nat}

theorem regFields_dieOp (small : die < 20) : regFields (csrOf R.DIE_OP_OP (lDie die)) =
    [(R.DIE_OP_OP, lDie die), (R.DIE_OP_EFFECTIVE, lDie die)] := by
  have dies : ∀ d < 20, regFields (csrOf R.DIE_OP_OP (lDie d)) =
      [(R.DIE_OP_OP, lDie d), (R.DIE_OP_EFFECTIVE, lDie d)] := by decide
  exact dies die small

/-- DIE_OP of a die that computes nothing takes no write. -/
theorem State.csrWrite_dieOp_other (s : State) (above : 16 ≤ die) (small : die < 20) (o : Origin) (v : U64) :
    s.csrWrite o (csrOf R.DIE_OP_OP (lDie die)) v = s := by
  have compute : isCompute die = false := decide_eq_false (Nat.not_lt.2 above)
  have fields : ∀ g ∈ [(R.DIE_OP_OP, lDie die), (R.DIE_OP_EFFECTIVE, lDie die)], s.writable g.1 g.2 = none := by
    intro g hg
    refine if_pos (.inr (.inr ?_))
    rcases List.mem_pair.1 hg with rfl | rfl
    · exact ⟨rfl, by simp only [lDie, compute, Bool.not_false]⟩
    · exact ⟨rfl, by simp only [lDie, compute, Bool.not_false]⟩
  simp only [State.csrWrite, regFields_dieOp small, s.plan_of_dead fields, List.isEmpty_nil, or_true, if_true]

theorem State.afterFld_dieOp (s : State) {p : FldWrite} (op : p.fld = R.DIE_OP_OP) :
    s.afterFld p = s.settlePoint p.loc.die := by
  simp only [State.afterFld, op, if_true]
  rfl

/-- The requested point is held between 4 and 7. -/
theorem State.planFld_dieOp (s : State) (a h : Loc) (v : Nat) :
    (s.planFld R.DIE_OP_OP a h v).new = min (max (v % 8) 4) 7 := by
  rw [s.planFld_clamp a h v rfl (by decide) rfl]
  simp only [Fld.clamp, R.DIE_OP_OP, bits, pow_zero, Nat.div_one]
  rfl

/-- A die's point settles where no pan runs. -/
theorem State.settlePoint_idle {s : State} (idle : ∀ p ∈ s.sch.pans, p.2.st ≠ .running) (die : Nat) :
    s.settlePoint die = s.setF R.DIE_OP_EFFECTIVE (lDie die) (s.getF R.DIE_OP_OP (lDie die)) := by
  refine if_neg fun runs => ?_
  obtain ⟨p, hp, stands⟩ := List.any_eq_true.1 runs
  exact idle p hp (of_decide_eq_true stands).1

/-- An accepted write of DIE_OP on a compute die while no pan runs sets the point and the one in force. -/
theorem State.csrWrite_dieOp {s : State} {o : Origin} {v : U64} (compute : die < 16)
    (room : s.writeOpen o (csrOf R.DIE_OP_OP (lDie die)) = true) (idle : ∀ p ∈ s.sch.pans, p.2.st ≠ .running) :
    ∃ u : State, s.csrWrite o (csrOf R.DIE_OP_OP (lDie die)) v =
        u.setF R.DIE_OP_EFFECTIVE (lDie die) (min (max (v.toNat % 8) 4) 7) ∧
      u.getF R.DIE_OP_OP (lDie die) = min (max (v.toNat % 8) 4) 7 := by
  have writes : s.writable R.DIE_OP_OP (lDie die) = some (lDie die) := by
    have kind : ¬ (R.DIE_OP_OP.acc = .ro ∨ R.DIE_OP_OP.acc = .rc) := by decide
    have here : isCompute die = true := decide_eq_true compute
    refine if_neg fun h => ?_
    rcases h with h | h | ⟨-, h⟩
    · exact kind (.inl h)
    · exact kind (.inr h)
    · simp only [lDie, here, Bool.not_true, Bool.false_eq_true] at h
  have plan : s.plan (regFields (csrOf R.DIE_OP_OP (lDie die))) v.toNat =
      [s.planFld R.DIE_OP_OP (lDie die) (lDie die) v.toNat] := by
    rw [regFields_dieOp (by omega)]
    refine State.plan_first writes (fun g hg t => ?_) _
    rw [List.mem_singleton.1 hg]
    exact if_pos (.inl rfl)
  obtain ⟨d, r, write⟩ := State.csrWrite_one room plan (by decide)
  obtain ⟨sch, -⟩ := s.taken_sch_clk d r [s.planFld R.DIE_OP_OP (lDie die) (lDie die) v.toNat]
  have point : (s.taken d r [s.planFld R.DIE_OP_OP (lDie die) (lDie die) v.toNat]).getF R.DIE_OP_OP (lDie die) =
      min (max (v.toNat % 8) 4) 7 := by
    rw [s.getF_taken_one (by decide), State.planFld_dieOp]
    exact Nat.mod_eq_of_lt (by simp only [R.DIE_OP_OP]; omega)
  refine ⟨_, ?_, point⟩
  rw [write, State.afterFld_dieOp _ (State.planFld_fld ..), State.planFld_loc,
    State.settlePoint_idle (by rw [sch]; exact idle), show (lDie die).die = die from rfl, point]

end DieOp

/-! ## AUDIT_ACK (R388) -/

theorem regFields_ack : regFields (csrOf R.AUDIT_ACK_SEQ (lDie 16)) = [(R.AUDIT_ACK_SEQ, lDie 16)] := by decide

theorem State.afterFld_ack (s : State) {p : FldWrite} (ack : p.fld = R.AUDIT_ACK_SEQ) :
    s.afterFld p = drainStaging s.audit.staging s := by
  simp only [State.afterFld, ack, if_true]
  rfl

/-- A number between the one held and the next to be issued is taken as it is. -/
theorem State.planFld_ack {s : State} {v : Nat} (width : v < 2 ^ 64) (above : s.getF R.AUDIT_ACK_SEQ (lDie 16) ≤ v)
    (issued : v ≤ s.audit.next) : (s.planFld R.AUDIT_ACK_SEQ (lDie 16) (lDie 16) v).new = v := by
  have raw : bits v (R.AUDIT_ACK_SEQ.lsb + R.AUDIT_ACK_SEQ.w - 1) R.AUDIT_ACK_SEQ.lsb = v := by
    simp only [bits, R.AUDIT_ACK_SEQ, pow_zero, Nat.div_one]
    exact Nat.mod_eq_of_lt width
  have clamped : (s.planFld R.AUDIT_ACK_SEQ (lDie 16) (lDie 16) v).new =
      min (max (bits v (R.AUDIT_ACK_SEQ.lsb + R.AUDIT_ACK_SEQ.w - 1) R.AUDIT_ACK_SEQ.lsb)
        (s.getF R.AUDIT_ACK_SEQ (lDie 16))) (max s.audit.next (s.getF R.AUDIT_ACK_SEQ (lDie 16))) := rfl
  rw [clamped, raw]
  omega

/-- An accepted write of AUDIT_ACK takes such a number. -/
theorem State.csrWrite_ack {s : State} {o : Origin} {v : U64}
    (room : s.writeOpen o (csrOf R.AUDIT_ACK_SEQ (lDie 16)) = true)
    (above : s.getF R.AUDIT_ACK_SEQ (lDie 16) ≤ v.toNat) (issued : v.toNat ≤ s.audit.next) :
    (s.csrWrite o (csrOf R.AUDIT_ACK_SEQ (lDie 16)) v).getF R.AUDIT_ACK_SEQ (lDie 16) = v.toNat := by
  have plan : s.plan (regFields (csrOf R.AUDIT_ACK_SEQ (lDie 16))) v.toNat =
      [s.planFld R.AUDIT_ACK_SEQ (lDie 16) (lDie 16) v.toNat] := by
    rw [regFields_ack]
    exact State.plan_first rfl (fun g hg => absurd hg List.not_mem_nil) _
  obtain ⟨d, r, write⟩ := State.csrWrite_one room plan (by decide)
  have drained (t : State) : (drainStaging t.audit.staging t).getF R.AUDIT_ACK_SEQ (lDie 16) =
      t.getF R.AUDIT_ACK_SEQ (lDie 16) := by
    have frame : (drainStaging t.audit.staging t).outside { audit := true } = t.outside { audit := true } :=
      drainStaging_outside rfl t _
    exact congrArg (fun c => mgetD c _ _) (congrArg State.csr frame :)
  rw [write, State.afterFld_ack _ (State.planFld_fld ..), drained, s.getF_taken_one (by decide),
    State.planFld_ack v.isLt above issued]
  exact Nat.mod_eq_of_lt v.isLt

/-! ## AON_DEVNUM (R405) -/

theorem regFields_devnum : regFields (csrOf R.AON_DEVNUM_DEVICE (lDie 16)) =
    [(R.AON_DEVNUM_DEVICE, lDie 16), (R.AON_DEVNUM_VALID, lDie 16)] := by decide

theorem State.afterFld_devnum (s : State) {p : FldWrite} (device : p.fld = R.AON_DEVNUM_DEVICE) :
    s.afterFld p = s.setF R.AON_DEVNUM_VALID p.loc 1 := by
  have other : ¬ R.AON_DEVNUM_DEVICE = R.AON_LCTL_YIELD := by decide
  simp only [State.afterFld, device, other, false_and, if_false, if_true]
  rfl

theorem State.planFld_devnum (s : State) (a h : Loc) (v : Nat) :
    (s.planFld R.AON_DEVNUM_DEVICE a h v).new = v % 2 ^ 16 := by
  rw [s.planFld_clamp a h v rfl (by decide) rfl]
  simp only [Fld.clamp, R.AON_DEVNUM_DEVICE, bits, pow_zero, Nat.div_one]
  rfl

/-- An accepted write of AON_DEVNUM sets the number, valid, and leaves the bring-up where it is. -/
theorem State.csrWrite_devnum {s : State} {o : Origin} {v : U64}
    (room : s.writeOpen o (csrOf R.AON_DEVNUM_DEVICE (lDie 16)) = true) :
    let t := s.csrWrite o (csrOf R.AON_DEVNUM_DEVICE (lDie 16)) v
    t.clk = s.clk ∧ t.getF R.AON_DEVNUM_DEVICE (lDie 16) = v.toNat % 2 ^ 16 ∧
      t.getF R.AON_DEVNUM_VALID (lDie 16) = 1 := by
  intro t
  have plan : s.plan (regFields (csrOf R.AON_DEVNUM_DEVICE (lDie 16))) v.toNat =
      [s.planFld R.AON_DEVNUM_DEVICE (lDie 16) (lDie 16) v.toNat] := by
    rw [regFields_devnum]
    refine State.plan_first rfl (fun g hg t => ?_) _
    rw [List.mem_singleton.1 hg]
    exact if_pos (.inl rfl)
  obtain ⟨d, r, write⟩ := State.csrWrite_one room plan (by decide)
  rw [State.afterFld_devnum _ (State.planFld_fld ..), State.planFld_loc] at write
  rw [show t = _ from write]
  refine ⟨(s.taken_sch_clk d r _).2, ?_, State.getF_setF_self ..⟩
  rw [State.getF_setF_of_lsb _ (by decide) (by decide) (by decide), s.getF_taken_one (by decide), State.planFld_devnum]
  exact Nat.mod_mod _ _

/-! ## Counters' selections (R414) -/

section Select

variable {die n : Nat}

/-- The fields of a counter's selection, at the counter's place. -/
theorem perfFields_select (small : n < 64) :
    R.perfFields.filterMap (fun f => (f.at? (n * 16)).map (fun i => (f, i))) =
      [(R.PERF_DSEL_EVENT, n), (R.PERF_DSEL_INST, n), (R.PERF_DSEL_ENABLE, n)] := by
  have counters : ∀ i < 64, R.perfFields.filterMap (fun f => (f.at? (i * 16)).map (fun j => (f, j))) =
      [(R.PERF_DSEL_EVENT, i), (R.PERF_DSEL_INST, i), (R.PERF_DSEL_ENABLE, i)] := by decide
  exact counters n small

theorem blkOf_perf (dies : die < 20) : blkOf die (Blk.perf.code die) = some .perf := by
  have all : ∀ d < 20, blkOf d (Blk.perf.code d) = some .perf := by decide
  exact all die dies

theorem regFields_select (dies : die < 20) (small : n < 64) : regFields (csrOf R.PERF_DSEL_EVENT (lIdx die n)) =
    [(R.PERF_DSEL_EVENT, lIdx die n), (R.PERF_DSEL_INST, lIdx die n), (R.PERF_DSEL_ENABLE, lIdx die n)] := by
  have code : Blk.perf.code die < 256 := by
    simp only [Blk.code]
    split <;> decide
  have csr : csrOf R.PERF_DSEL_EVENT (lIdx die n) = (die * 256 + Blk.perf.code die) * 65536 + n * 16 := by
    simp only [csrOf, Fld.key, lIdx, R.PERF_DSEL_EVENT]
    omega
  have at_ : bits (csrOf R.PERF_DSEL_EVENT (lIdx die n)) 28 24 = die ∧
      bits (csrOf R.PERF_DSEL_EVENT (lIdx die n)) 23 16 = Blk.perf.code die ∧
      bits (csrOf R.PERF_DSEL_EVENT (lIdx die n)) 15 0 = n * 16 ∧ csrOf R.PERF_DSEL_EVENT (lIdx die n) < 2 ^ 29 := by
    rw [csr]
    simp only [bits]
    omega
  obtain ⟨hdie, hcode, hoff, hsize⟩ := at_
  have whole : n * 16 % 8 = 0 := by omega
  simp only [regFields, hdie, hcode, hoff, blkOf_perf dies, whole, Nat.not_le.2 hsize, ne_eq, not_true_eq_false,
    or_self, if_false, reduceCtorEq]
  have placed := congrArg (List.map (fun x : Fld × Nat => (x.1, lIdx die x.2))) (perfFields_select small)
  rw [List.map_filterMap] at placed
  simp only [Option.map_map] at placed
  exact placed

theorem State.afterFld_select (s : State) {p : FldWrite} (event : p.fld = R.PERF_DSEL_EVENT) :
    s.afterFld p = { s.setF R.PERF_DCNT_VALUE p.loc 0 with
      obsv := { s.obsv with prev := mdel s.obsv.prev (p.loc.die * 64 + p.loc.idx) } } := by
  simp only [State.afterFld, event, if_true]
  rfl

theorem State.afterFld_perf_plain (s : State) {p : FldWrite} (perf : p.fld.blk = .perf)
    (plain : p.fld ≠ R.PERF_DSEL_EVENT ∧ p.fld ≠ R.PERF_TRCTL_RUN ∧ p.fld ≠ R.PERF_ALSEL_RELEASE) :
    s.afterFld p = s := by
  obtain ⟨event, run, release⟩ := plain
  simp only [State.afterFld, perf, event, run, release, false_and, if_false]

/-- Of event numbers, a selection takes those that are known (R415). -/
theorem State.planFld_event (s : State) (v : Nat) :
    (s.planFld R.PERF_DSEL_EVENT (lIdx die n) (lIdx die n) v).new =
      if eventKnown die (v % 2 ^ 16) then v % 2 ^ 16 else 0 := by
  have clamped : (s.planFld R.PERF_DSEL_EVENT (lIdx die n) (lIdx die n) v).new =
      if eventKnown die (bits v 15 0) then bits v 15 0 else 0 := rfl
  simpa only [bits, pow_zero, Nat.div_one] using clamped

/-- An accepted write of a counter's selection selects the event, and the counter begins at 0. -/
theorem State.csrWrite_select (dies : die < 20) (small : n < 64) {s : State} {o : Origin} {v : U64}
    (room : s.writeOpen o (csrOf R.PERF_DSEL_EVENT (lIdx die n)) = true) :
    let t := s.csrWrite o (csrOf R.PERF_DSEL_EVENT (lIdx die n)) v
    t.getF R.PERF_DCNT_VALUE (lIdx die n) = 0 ∧ t.getF R.PERF_DSEL_EVENT (lIdx die n) =
      if eventKnown die (v.toNat % 2 ^ 16) then v.toNat % 2 ^ 16 else 0 := by
  intro t
  let a := lIdx die n
  let p := s.planFld R.PERF_DSEL_EVENT a a v.toNat
  let q := (s.applyFld p).planFld R.PERF_DSEL_INST a a v.toNat
  let x := ((s.applyFld p).applyFld q).planFld R.PERF_DSEL_ENABLE a a v.toNat
  have plan : s.plan (regFields (csrOf R.PERF_DSEL_EVENT (lIdx die n))) v.toNat = [p, q, x] := by
    rw [regFields_select dies small]
    rfl
  have pf : p.fld = R.PERF_DSEL_EVENT := State.planFld_fld ..
  have qf : q.fld = R.PERF_DSEL_INST := State.planFld_fld ..
  have xf : x.fld = R.PERF_DSEL_ENABLE := State.planFld_fld ..
  have pl : p.loc = lIdx die n := State.planFld_loc ..
  have ql : q.loc = lIdx die n := State.planFld_loc ..
  have xl : x.loc = lIdx die n := State.planFld_loc ..
  obtain ⟨d, r, write⟩ := State.csrWrite_open room plan
  have apart : R.PERF_DCNT_VALUE.key (lIdx die n) ≠ R.PERF_DSEL_EVENT.key (lIdx die n) :=
    Fld.key_ne_of_place R.PERF_DCNT_VALUE R.PERF_DSEL_EVENT ⟨rfl, rfl⟩ (by decide) _
  have csr : t.csr = ((s.taken d r [p, q, x]).setF R.PERF_DCNT_VALUE (lIdx die n) 0).csr := by
    rw [show t = _ from write, s.applyPlan_taken (by rw [pf]; decide), forEach, List.foldl_cons, List.foldl_cons,
      List.foldl_cons, List.foldl_nil, State.afterFld_select _ pf,
      State.afterFld_perf_plain (p := q) _ (by rw [qf]; rfl) (by rw [qf]; decide),
      State.afterFld_perf_plain (p := x) _ (by rw [xf]; rfl) (by rw [xf]; decide), pl]
  have known : (s.taken d r [p, q, x]).getF R.PERF_DSEL_EVENT (lIdx die n) =
      if eventKnown die (v.toNat % 2 ^ 16) then v.toNat % 2 ^ 16 else 0 := by
    rw [State.taken, forEach, List.foldl_cons, List.foldl_cons, List.foldl_cons, List.foldl_nil,
      State.applyFld_setF _ p (by rw [pf]; decide), State.applyFld_setF _ q (by rw [qf]; decide),
      State.applyFld_setF _ x (by rw [xf]; decide), pf, qf, xf, pl, ql, xl,
      State.getF_setF_of_lsb _ (by decide) (by decide) (by decide),
      State.getF_setF_of_lsb _ (by decide) (by decide) (by decide), State.getF_setF_self, s.planFld_event]
    refine Nat.mod_eq_of_lt ?_
    have width := Nat.mod_lt v.toNat (Nat.two_pow_pos 16)
    split
    · exact width
    · exact Nat.two_pow_pos 16
  simp only [State.getF, csr]
  exact ⟨State.getF_setF_self .., ((s.taken d r [p, q, x]).getF_setF_ne _ _ _ _ 0 apart).trans known⟩

end Select

/-! ## ALSEL.RELEASE (R431) -/

section Release

variable {hd : Nat} (host : hd < 2)

include host

theorem regFields_release : regFields (csrOf R.PERF_ALSEL_RELEASE (lDie (16 + hd))) =
    [(R.PERF_ALSEL_ENTRY, lDie (16 + hd)), (R.PERF_ALSEL_RELEASE, lDie (16 + hd))] := by
  rcases hostDie_cases host with rfl | rfl
  · decide
  · decide

/-- The alarm registers are live on the keeper die, and stand in the keeper's place. -/
theorem State.writable_alarm {s : State} {f : Fld} (field : f = R.PERF_ALSEL_ENTRY ∨ f = R.PERF_ALSEL_RELEASE)
    (keeper : s.keeper = some hd) : s.writable f (lDie (16 + hd)) = some lKeep := by
  have die : isHost (16 + hd) = true := by rcases hostDie_cases host with rfl | rfl <;> rfl
  have live : s.keepLive (lDie (16 + hd)) = some lKeep := if_pos (keeper.trans (by simp [lDie]))
  have home : s.regHome f (lDie (16 + hd)) =
      if isHost (16 + hd) then s.keepLive (lDie (16 + hd)) else none := by
    rcases field with rfl | rfl
    · rfl
    · rfl
  have writes : s.writable f (lDie (16 + hd)) = s.regHome f (lDie (16 + hd)) := by
    rcases field with rfl | rfl
    · rfl
    · rfl
  rw [writes, home, if_pos die, live]

omit host in
theorem State.keeper_setF_entry (s : State) (v : Nat) : (s.setF R.PERF_ALSEL_ENTRY lKeep v).keeper = s.keeper := by
  have term (d : Nat) (host : d < 2) : (s.setF R.PERF_ALSEL_ENTRY lKeep v).term d = s.term d :=
    s.getF_setF_ne _ _ _ _ _
      ((by decide : ∀ d < 2, R.PERF_ALSEL_ENTRY.key lKeep ≠ R.AON_LEASE_TERM.key (lDie (16 + d))) d host)
  simp only [State.keeper, term 0 (by decide), term 1 (by decide)]
  rfl

omit host in
theorem State.afterFld_release (s : State) {p : FldWrite} (release : p.fld = R.PERF_ALSEL_RELEASE) (one : p.raw = 1) :
    s.afterFld p =
      { s with obsv := { s.obsv with alarms := mdel s.obsv.alarms (s.getF R.PERF_ALSEL_ENTRY lKeep) } } := by
  have event : ¬ R.PERF_ALSEL_RELEASE = R.PERF_DSEL_EVENT := by decide
  have run : ¬ R.PERF_ALSEL_RELEASE = R.PERF_TRCTL_RUN := by decide
  simp only [State.afterFld, release, event, run, one, false_and, if_false]
  rfl

/-- RELEASE written 1 on the keeper die frees the entry that the same write names. -/
theorem State.csrWrite_release {s : State} {o : Origin} {v : U64} (keeper : s.keeper = some hd)
    (room : s.writeOpen o (csrOf R.PERF_ALSEL_RELEASE (lDie (16 + hd))) = true) (one : bit v.toNat 16 = true) :
    mget (s.csrWrite o (csrOf R.PERF_ALSEL_RELEASE (lDie (16 + hd))) v).obsv.alarms (v.toNat % 2 ^ 10) = none := by
  let p := s.planFld R.PERF_ALSEL_ENTRY (lDie (16 + hd)) lKeep v.toNat
  let q := (s.applyFld p).planFld R.PERF_ALSEL_RELEASE (lDie (16 + hd)) lKeep v.toNat
  have pf : p.fld = R.PERF_ALSEL_ENTRY := State.planFld_fld ..
  have qf : q.fld = R.PERF_ALSEL_RELEASE := State.planFld_fld ..
  have pl : p.loc = lKeep := State.planFld_loc ..
  have ql : q.loc = lKeep := State.planFld_loc ..
  have qr : q.raw = 1 := (State.planFld_raw ..).trans (bits_of_bit one)
  have apply (t : State) : t.applyFld p = t.setF R.PERF_ALSEL_ENTRY lKeep p.new := by
    rw [t.applyFld_setF p (by rw [pf]; decide), pf, pl]
  have later : (s.applyFld p).writable R.PERF_ALSEL_RELEASE (lDie (16 + hd)) = some lKeep :=
    State.writable_alarm host (.inr rfl) (by rw [apply, s.keeper_setF_entry, keeper])
  have plan : s.plan (regFields (csrOf R.PERF_ALSEL_RELEASE (lDie (16 + hd)))) v.toNat = [p, q] := by
    rw [regFields_release host]
    exact State.plan_pair (State.writable_alarm host (.inl rfl) keeper) later
  have entry : p.new = v.toNat % 2 ^ 10 := by
    rw [s.planFld_clamp _ _ _ rfl (by decide) rfl]
    simp only [Fld.clamp, R.PERF_ALSEL_ENTRY, bits, pow_zero, Nat.div_one]
    rfl
  have named (d : Nat) (r : AuditRec) :
      (s.taken d r [p, q]).getF R.PERF_ALSEL_ENTRY lKeep = v.toNat % 2 ^ 10 := by
    rw [State.taken, forEach, List.foldl_cons, List.foldl_cons, List.foldl_nil, apply,
      State.applyFld_setF _ q (by rw [qf]; decide), qf, ql,
      State.getF_setF_of_lsb _ (by decide) (by decide) (by decide), State.getF_setF_self, entry]
    exact Nat.mod_mod _ _
  obtain ⟨d, r, write⟩ := State.csrWrite_open room plan
  rw [write, s.applyPlan_taken (by rw [pf]; decide), forEach, List.foldl_cons, List.foldl_cons, List.foldl_nil,
    State.afterFld_perf_plain (p := p) _ (by rw [pf]; rfl) (by rw [pf]; decide), State.afterFld_release _ qf qr, named,
    mget_mdel, if_pos rfl]

end Release

/-! ## The rows -/

section Rows

variable (s : State) (o : Origin) (v : U64)

theorem exec_aonYield {hd : Nat} (host : hd < 2) :
    exec (.aonYield o hd v) s = .next (s.csrWrite o (csrOf R.AON_LCTL_YIELD (lDie (16 + hd))) v) :=
  if_pos (decide_eq_true host)

theorem exec_dieOpWrite {die : Nat} (dies : die < 20) :
    exec (.dieOpWrite o die v) s = .next (s.csrWrite o (csrOf R.DIE_OP_OP (lDie die)) v) :=
  if_pos (decide_eq_true dies)

theorem exec_perfSelectWrite {die n : Nat} (dies : die < 20) (small : n < 64) :
    exec (.perfSelectWrite o (csrOf R.PERF_DSEL_EVENT (lIdx die n)) v) s =
      .next (s.csrWrite o (csrOf R.PERF_DSEL_EVENT (lIdx die n)) v) := by
  have selects : isSelection (csrOf R.PERF_DSEL_EVENT (lIdx die n)) = true := by
    rw [isSelection, regFields_select dies small]
    rfl
  exact if_pos selects

theorem exec_alarmRelease {s : State} {hd : Nat} (keeper : s.keeper = some hd) (o : Origin) (v : U64) :
    exec (.alarmRelease o v) s = .next (s.csrWrite o (csrOf R.PERF_ALSEL_RELEASE (lDie (16 + hd))) v) := by
  change execAlarmRelease o v s = _
  simp only [execAlarmRelease, keeper]
  rfl

end Rows

/-- Settles O12: each row is the write of its register, and an accepted write does what its lemma above says. -/
theorem hostRegisterRows : Obligations.HostRegisterRows := by
  unfold Obligations.HostRegisterRows
  refine ⟨?rows, ?yield, ?dieOp, ?other, ?ack, ?select, ?release, ?devnum⟩
  case rows =>
    exact fun s o hd die n v boot host dies small => ⟨exec_aonYield s o v host, exec_dieOpWrite s o v dies, rfl,
      exec_perfSelectWrite s o v dies small, fun keeper => exec_alarmRelease keeper o v, rfl⟩
  case yield =>
    intro s o hd v host room one keeps
    obtain ⟨mem, -⟩ := s.csrWrite_frame o (csrOf R.AON_LCTL_YIELD (lDie (16 + hd))) v
    obtain ⟨u, write⟩ := State.csrWrite_yield host room one keeps
    obtain ⟨-, follows, -⟩ := u.unkeep_spec (hd := hd)
    refine ⟨_, exec_aonYield s o v host, mem, ?_⟩
    rw [write]
    exact ⟨follows, State.getF_setF_self ..⟩
  case dieOp =>
    intro s o die v compute room idle
    obtain ⟨mem, -⟩ := s.csrWrite_frame o (csrOf R.DIE_OP_OP (lDie die)) v
    obtain ⟨u, write, point⟩ := State.csrWrite_dieOp (v := v) compute room idle
    refine ⟨_, exec_dieOpWrite s o v (by omega), mem, ?_⟩
    rw [write, State.getF_setF_of_lsb _ (by decide) (by decide) (by decide), State.getF_setF_self]
    exact ⟨point, Nat.mod_eq_of_lt (by simp only [R.DIE_OP_EFFECTIVE]; omega)⟩
  case other =>
    intro s o die v above small
    rw [exec_dieOpWrite s o v small, s.csrWrite_dieOp_other above small]
  case ack =>
    intro s o v room above issued
    obtain ⟨mem, -⟩ := s.csrWrite_frame o (csrOf R.AUDIT_ACK_SEQ (lDie 16)) v
    exact ⟨_, rfl, mem, State.csrWrite_ack room above issued⟩
  case select =>
    intro s o die n v dies small room
    obtain ⟨mem, -⟩ := s.csrWrite_frame o (csrOf R.PERF_DSEL_EVENT (lIdx die n)) v
    exact ⟨_, exec_perfSelectWrite s o v dies small, mem, State.csrWrite_select dies small room⟩
  case release =>
    intro s o hd v keeper host room one
    obtain ⟨mem, -⟩ := s.csrWrite_frame o (csrOf R.PERF_ALSEL_RELEASE (lDie (16 + hd))) v
    exact ⟨_, exec_alarmRelease keeper o v, mem, State.csrWrite_release host keeper room one⟩
  case devnum =>
    intro s o v boot room started
    obtain ⟨mem, -⟩ := s.csrWrite_frame o (csrOf R.AON_DEVNUM_DEVICE (lDie 16)) v
    obtain ⟨clk, device⟩ := State.csrWrite_devnum room
    have stays : (s.csrWrite o (csrOf R.AON_DEVNUM_DEVICE (lDie 16)) v).numberArrives boot =
        s.csrWrite o (csrOf R.AON_DEVNUM_DEVICE (lDie 16)) v :=
      if_neg fun h => started (clk ▸ h.1)
    exact ⟨_, congrArg Host.Outcome.next stays, mem, device⟩

end Sys2Proof.Machine
end


section
/-!
The world port (O30, O31, O32): frames of partners, the admission of an observation, the timers of the world states.
-/

namespace Sys2Proof.Machine

/-! ## Worlds -/

theorem State.world_modWorld_self (s : State) (i : Nat) (f : World → World) :
    (s.modWorld i f).world i = f (s.world i) := mgetD_mput_self ..

theorem State.world_modWorld_ne (s : State) {i j : Nat} (other : j ≠ i) (f : World → World) :
    (s.modWorld i f).world j = s.world j := mgetD_mput_ne _ _ _ other.symm

/-- Changes of a world that come to the same are the same. -/
theorem State.modWorld_congr (s : State) (i : Nat) {f g : World → World} (same : f (s.world i) = g (s.world i)) :
    s.modWorld i f = s.modWorld i g := congrArg (s.setWorld i) same

theorem State.world_bump (s : State) (f : Fld) (a : Loc) (n i : Nat) : (s.bump f a n).world i = s.world i :=
  congrArg (fun w => mgetD (WptSt.worlds w) i {}) (s.bump_wpt f a n)

/-! ## Frames of a partner (R323, R328, R333, R334) -/

section Frame

variable {s : State} {port : Nat} (unit : port < 8) (up : s.portUp port = true) (time : Nat) {f : WpFrame}

include unit in
/-- A frame's row is its reception. -/
theorem exec_frame : exec (.obs port time f) s = .next (s.rxFrame port time f) ∧
    exec (.hello port time f) s = .next (s.rxFrame port time f) ∧
    exec (.partnerStop port time f) s = .next (s.rxFrame port time f) ∧
    exec (.partnerSync port time f) s = .next (s.rxFrame port time f) :=
  ⟨if_pos (decide_eq_true unit), if_pos (decide_eq_true unit), if_pos (decide_eq_true unit),
    if_pos (decide_eq_true unit)⟩

include up

/-- An observation is counted as received, and taken where its world is attached (R323). -/
theorem State.rxFrame_obs (obs : f.type = 2)
    (good : ((s.until time).bump R.WPT_PCNT_RX (portLoc port)).badFrame port f = false) :
    s.rxFrame port time f =
      if (s.world f.world).st = .detached ∨ (s.world f.world).sched.port ≠ port ∨ (s.world f.world).gen ≠ f.wgen then
        ((s.until time).bump R.WPT_PCNT_RX (portLoc port)).refuseFrame port f 6
      else ((s.until time).bump R.WPT_PCNT_RX (portLoc port)).rxObs port time f := by
  simp only [State.rxFrame, up, obs, good, State.world_bump, Bool.not_true, Bool.false_eq_true, if_false, if_true]
  rfl

/-- A frame of another type is refused as malformed, or taken where its world is attached. -/
theorem State.rxFrame_other (other : f.type ≠ 2) (bad : s.badFrame port f = true) :
    s.rxFrame port time f = (s.until time).refuseFrame port f 1 := by
  have later : (s.until time).badFrame port f = true := bad
  simp only [State.rxFrame, up, other, later, Bool.not_true, Bool.false_eq_true, if_false, if_true]

variable (good : s.badFrame port f = false) (attached : (s.world f.world).st ≠ .detached)
  (here : (s.world f.world).sched.port = port) (gen : (s.world f.world).gen = f.wgen)

include good attached here gen

/-- A sound frame of a world attached to the port is taken as its type says. -/
theorem State.rxFrame_attached :
    (f.type = 1 → s.rxFrame port time f = (s.until time).rxHello port time f) ∧
    (f.type = 5 → s.rxFrame port time f = (s.until time).spinWorld f.world) ∧
    (f.type = 7 → (s.world f.world).ticking = true ∨ (s.world f.world).st = .stopped →
      s.rxFrame port time f = (s.until time).sendSync f.world (tickAfter (s.world f.world).sched time)) := by
  have later : (s.until time).badFrame port f = false := good
  have place : ¬ (((s.until time).world f.world).st = .detached ∨ ((s.until time).world f.world).sched.port ≠ port ∨
      ((s.until time).world f.world).gen ≠ f.wgen) := by
    rintro (h | h | h)
    exacts [attached h, h here, h gen]
  have kinds : ¬ 1 = 2 ∧ ¬ 5 = 2 ∧ ¬ 7 = 2 := by decide
  refine ⟨fun hello => ?_, fun stop => ?_, fun sync ticks => ?_⟩
  · simp only [State.rxFrame, up, hello, kinds, later, place, Bool.not_true, Bool.false_eq_true, if_false]
  · simp only [State.rxFrame, up, stop, kinds, later, place, Bool.not_true, Bool.false_eq_true, if_false]
  · have answers : ((s.until time).world f.world).ticking = true ∨ ((s.until time).world f.world).st = .stopped := ticks
    simp only [State.rxFrame, up, sync, kinds, later, place, answers, Bool.not_true, Bool.false_eq_true, if_false,
      if_true]
    rfl

end Frame

/-- A frame of another version is malformed (R334). -/
theorem State.badFrame_of_version (s : State) (port : Nat) {f : WpFrame} (version : f.version ≠ 1) :
    s.badFrame port f = true := by
  simp only [State.badFrame, bne_iff_ne.2 version, Bool.true_or]

/-- Settles O30: a frame of an attached world goes to its handler, another is refused. -/
theorem worldFrameRows : Obligations.WorldFrameRows := by
  unfold Obligations.WorldFrameRows
  refine ⟨?obs, ?others, ?malformed⟩
  case obs =>
    intro s port time f unit up kind s1 good
    obtain ⟨obs, -⟩ := exec_frame (s := s) (f := f) unit time
    have rx := State.rxFrame_obs up time kind good
    refine ⟨fun attached here gen => ?_, fun detached => ?_⟩
    · rw [obs, rx, if_neg]
      rintro (h | h | h)
      exacts [attached h, h here, h gen]
    · rw [obs, rx, if_pos (.inl detached)]
  case others =>
    intro s port time f unit up good attached here gen
    obtain ⟨-, hello, stop, sync⟩ := exec_frame (s := s) (f := f) unit time
    obtain ⟨toHello, toStop, toSync⟩ := State.rxFrame_attached up time good attached here gen
    exact ⟨fun kind => hello.trans (congrArg _ (toHello kind)), fun kind => stop.trans (congrArg _ (toStop kind)),
      fun kind ticks => sync.trans (congrArg _ (toSync kind ticks))⟩
  case malformed =>
    intro s port time f unit up version other
    obtain ⟨-, hello, stop, sync⟩ := exec_frame (s := s) (f := f) unit time
    have refused := State.rxFrame_other up time other (s.badFrame_of_version port version)
    exact ⟨hello.trans (congrArg _ refused), stop.trans (congrArg _ refused), sync.trans (congrArg _ refused)⟩

/-! ## An observation of one fragment (R323) -/

/-- The assembly of an observation that came in one fragment. -/
def wholePart (time : Nat) (f : WpFrame) : ObsPart :=
  { seq := f.seq, tick := f.tick, aux := f.aux, ref := f.ref, frags := [(0, f.body)], total := some 0, last := time }

/-- A single fragment, the last, is an observation whole and sound. -/
theorem addFrag_single (time : Nat) {f : WpFrame} (first : f.frag = 0) (last : f.lastFrag = true) :
    addFrag time f [] = wholePart time f := by
  simp only [addFrag, List.find?_nil, Option.getD_none, first, last, List.filter_nil, List.nil_append, if_true, ne_eq,
    not_true_eq_false, decide_false, Bool.or_self, wholePart]

theorem joined_wholePart (time : Nat) (f : WpFrame) : (wholePart time f).joined = some [f.body] := rfl

/-- An observation of its full length is its fragment. -/
theorem State.fillObs_single (s : State) (max : Nat) (b : List Byte) : s.fillObs max b.length [b] = (b, s) := by
  rw [State.fillObs, State.fillPiece, if_pos (Nat.le_refl _), List.take_length]

/-- The world once an observation is admitted. -/
def World.received (w : World) (k : Nat) (f : WpFrame) : World :=
  { w with
    good := some { seq := f.seq, tick := k, aux := f.aux, reward := f.ref, data := f.body }
    anyAdmitted := true, lastAdmitTick := k, silence := 0
    gap := min (w.gap + match w.good with
      | some g => f.seq - g.seq - 1
      | none => 0) 65535 }

section Observation

variable {s : State} {port time : Nat} {f : WpFrame}

/-- A whole observation in the window of its tick is admitted. -/
theorem State.endObs_takes (inside : (s.world f.world).inWindow ((s.world f.world).fullTick time f.tick) time = true) :
    ∃ t, s.endObs port time f (wholePart time f) f.body = t ∧ t.mem = s.mem ∧
      t.wpt = (s.modWorld f.world (fun w => w.received (w.fullTick time f.tick) f)).wpt := by
  refine ⟨_, rfl, ?_⟩
  simp only [State.endObs, wholePart, inside, Bool.not_true, Bool.false_eq_true, if_false, Option.map]
  refine ⟨rfl, congrArg State.wpt (s.modWorld_congr f.world ?_)⟩
  simp only [World.received]
  cases (s.world f.world).good with
  | none => rfl
  | some g => rfl

/-- An observation of one fragment, newer than the last, goes to its admission. -/
theorem State.rxObs_single (first : f.frag = 0) (last : f.lastFrag = true)
    (len : f.body.length = (s.world f.world).sched.obsBytes) (goes : (s.world f.world).st ≠ .stopped)
    (fresh : (s.world f.world).parts = []) (newer : ∀ g, (s.world f.world).good = some g → g.seq < f.seq) :
    s.rxObs port time f =
      (s.modWorld f.world (fun w => { w with parts := [] })).endObs port time f (wholePart time f) f.body := by
  have old : ((s.world f.world).good.map (fun g => decide (f.seq < g.seq))).getD false = false := by
    cases h : (s.world f.world).good with
    | none => rfl
    | some g => exact decide_eq_false (Nat.not_lt.2 (newer g h).le)
  have dup : ((s.world f.world).good.map (fun g => decide (f.seq = g.seq))).getD false = false := by
    cases h : (s.world f.world).good with
    | none => rfl
    | some g => exact decide_eq_false (newer g h).ne'
  simp only [State.rxObs, goes, old, dup, fresh, addFrag_single time first last, joined_wholePart, List.filter_nil,
    Bool.false_eq_true, if_false, ← len, State.fillObs_single]

end Observation

/-- Settles O31: the observation passes every check, and its admission is a change of its world alone. -/
theorem observationAdmitted : Obligations.ObservationAdmitted := by
  unfold Obligations.ObservationAdmitted
  intro s port time f unit up obs version first last len whole attached goes here gen fresh newer inside
  let s1 := (s.until time).bump R.WPT_PCNT_RX (portLoc port)
  have same (i : Nat) : s1.world i = s.world i := (State.world_bump ..).trans rfl
  have good : s1.badFrame port f = false := by
    have current : (f.version != 1) = false := by rw [version]; rfl
    have known : (f.type == 1 || f.type == 2 || f.type == 5 || f.type == 7) = true := by rw [obs]; rfl
    have sized : (f.len != f.body.length) = false := bne_eq_false_iff_eq.2 len
    have fits : decide ((s1.world f.world).sched.obsBytes < f.frag * s1.maxBody port + f.len) = false :=
      decide_eq_false (by rw [same, first, whole]; omega)
    simp only [State.badFrame, current, known, sized, fits, Bool.not_true, Bool.and_false, Bool.false_and, Bool.or_self]
  obtain ⟨row, -⟩ := exec_frame (s := s) (f := f) unit time
  have taken : s.rxFrame port time f = s1.rxObs port time f := by
    rw [State.rxFrame_obs up time obs good, if_neg]
    rintro (h | h | h)
    exacts [attached h, h here, h gen]
  have single := State.rxObs_single (s := s1) (port := port) (time := time) first last
    (by rw [same, ← whole, len]) (by rwa [same]) (by rwa [same]) (by rwa [same])
  let s2 := s1.modWorld f.world (fun w => { w with parts := [] })
  have joined : s2.world f.world = s.world f.world := by
    rw [State.world_modWorld_self, same, ← fresh]
  obtain ⟨t, ends, mem, wpt⟩ := State.endObs_takes (s := s2) (port := port) (time := time) (f := f)
    (by rwa [joined])
  have world (i : Nat) : t.world i = (s2.modWorld f.world (fun w => w.received (w.fullTick time f.tick) f)).world i :=
    congrArg (fun w => mgetD (WptSt.worlds w) i {}) wpt
  refine ⟨t, ?_, mem.trans (State.bump_mem ..), ?_, fun i other => ?_, ?_⟩
  · rw [row, taken, single, ends]
  · rw [wpt]
    have same : s1.wpt = s.wpt := State.bump_wpt ..
    change s1.wpt.sent = _
    rw [same]
  · rw [world, State.world_modWorld_ne _ other, State.world_modWorld_ne _ other, same]
  · rw [world, State.world_modWorld_self, joined]
    rfl

/-! ## Timers (R319, R323, R328, R329) -/

section Timers

variable (s : State) {world : Nat} (small : world < 16384)

include small

theorem exec_obsWindowClose (tick : Nat) : exec (.obsWindowClose world tick) s = .next
    (forEach ((s.world world).parts.filter (fun p => p.tick = tick % 2 ^ 32))
      ((s.until ((tickStart (s.world world).sched tick : Int) + (s.world world).sched.obsClose).toNat).modWorld world
        (fun w => { w with parts := w.parts.filter (fun p => p.tick ≠ tick % 2 ^ 32) }))
      (fun t (p : ObsPart) => t.refuseFrame (s.world world).sched.port
        { world := world, wgen := (s.world world).gen, seq := p.seq, tick := p.tick } 5)) :=
  if_pos (decide_eq_true small)

variable {s}

theorem exec_helloTimer (attaching : (s.world world).st = .attaching) :
    exec (.helloTimer world) s = .next (s.sendHello world) :=
  (if_pos (decide_eq_true small)).trans (congrArg Host.Outcome.next (if_pos attaching))

theorem exec_attachTimeout (attaching : (s.world world).st = .attaching) : exec (.attachTimeout world) s = .next
    (((s.until ((s.world world).attachAt + 1000000000)).endAttach world Status.timeout).dropAttach world) :=
  (if_pos (decide_eq_true small)).trans (congrArg Host.Outcome.next (if_pos attaching))

theorem exec_missLimit (missed : (s.world world).lastMissed = true)
    (reached : s.wptLimit (s.world world) R.WPT_LIMIT_MISSLIM ≤ (s.world world).consec) :
    exec (.missLimit world) s = .next (s.holdWorld world) :=
  (if_pos (decide_eq_true small)).trans (congrArg Host.Outcome.next (if_pos ⟨missed, reached⟩))

theorem exec_holdLimit (holding : (s.world world).st = .holding)
    (reached : s.wptLimit (s.world world) R.WPT_LIMIT_HOLDLIM ≤ (s.world world).holdTicks) :
    exec (.holdLimit world) s = .next (s.spinWorld world) :=
  (if_pos (decide_eq_true small)).trans (congrArg Host.Outcome.next (if_pos ⟨holding, reached⟩))

theorem exec_silenceLimit (silent : s.wptLimit (s.world world) R.WPT_LIMIT_SILENCE ≤ (s.world world).silence) :
    exec (.silenceLimit world) s = .next (s.spinWorld world) :=
  (if_pos (decide_eq_true small)).trans (congrArg Host.Outcome.next (if_pos silent))

theorem exec_rampEnd {l : Latched} {r : List Latched} (spins : (s.world world).st = .spindown)
    (ramped : (s.world world).sched.ramp ≤ (s.world world).rampTick) (latched : (s.world world).latched = l :: r)
    (act : l.type ≠ 5) (ramp : l.ramp = true) (sent : l.sent = true) : exec (.rampEnd world) s = .next
      (((s.until (sendAt (s.world world).sched (l.tick + 1))).latchFrame world (l.tick + 1)).sendLatched world
        (l.tick + 1)) := by
  refine (if_pos (decide_eq_true small)).trans (congrArg Host.Outcome.next ?_)
  simp only [latched, spins, ramped, ramp, sent, act, Bool.and_self, Bool.true_or, and_self, if_true, if_false]

theorem exec_worldQuarantineExpiry (detached : (s.world world).st = .detached) (quarantined : (s.world world).quarAt ≠ 0) :
    exec (.worldQuarantineExpiry world) s = .next
      ((s.until (s.world world).quarAt).modWorld world (fun w => { w with quarAt := 0 })) :=
  (if_pos (decide_eq_true small)).trans (congrArg Host.Outcome.next (if_pos ⟨detached, quarantined⟩))

end Timers

/-- A RUNNING or HOLDING world that spins down begins its ramp at the next frame. -/
theorem State.world_spinWorld {s : State} {i : Nat} (goes : (s.world i).st = .running ∨ (s.world i).st = .holding) :
    (s.spinWorld i).world i = { s.world i with st := .spindown, rampTick := 0 } :=
  (s.world_modWorld_self i _).trans (if_pos goes)

theorem State.world_holdWorld {s : State} {i : Nat} (running : (s.world i).st = .running) :
    (s.holdWorld i).world i = { s.world i with st := .holding, holdTicks := 0 } :=
  (s.world_modWorld_self i _).trans (if_pos running)

section Ports

variable (s : State) {port : Nat} (unit : port < 8)

include unit

theorem exec_worldPortLink (service : s.unitOut (portDie port) 0x18 (port % 4) = false) (up pre : Bool) :
    exec (.worldPortLink port up pre) s = .next ((s.setF R.WPT_PSTAT_STATE (portLoc port) (if up then 2 else 0)).setB
      R.WPT_PSTAT_PREEMPT (portLoc port) (up && pre)) :=
  (if_pos (decide_eq_true unit)).trans (congrArg Host.Outcome.next (if_neg (by rw [service]; decide)))

theorem exec_worldPortForeignFrame (up : s.portUp port = true) (k : ForeignFrame) :
    exec (.worldPortForeignFrame port k) s = .next (s.bump (match k with
      | .badFcs => R.WPT_PERR_FCS
      | .pauseOrPfc => R.WPT_PERR_PAUSE
      | .otherEthertype => R.WPT_PERR_OTHERTYPE
      | .reassembled => R.WPT_PERR_PREEMPTED) (portLoc port)) := by
  refine (if_pos (decide_eq_true unit)).trans (congrArg Host.Outcome.next ((if_neg (by rw [up]; decide)).trans ?_))
  cases k <;> rfl

end Ports

/-- Settles O32: each timer's row is its branch. -/
theorem worldTimerRows : Obligations.WorldTimerRows := by
  unfold Obligations.WorldTimerRows
  refine ⟨?closed, ?incomplete, ?attaching, ?limits, ?ramp, ?quarantine, ?link, ?foreign⟩
  case closed =>
    intro s world tick small none
    have gone : (s.world world).parts.filter (fun p => p.tick = tick % 2 ^ 32) = [] :=
      List.filter_eq_nil_iff.2 fun p hp => by simpa only [decide_eq_true_eq] using none p hp
    have kept : (s.world world).parts.filter (fun p => p.tick ≠ tick % 2 ^ 32) = (s.world world).parts :=
      List.filter_eq_self.2 fun p hp => decide_eq_true (none p hp)
    refine ⟨_, exec_obsWindowClose s small tick, ?_⟩
    rw [gone, forEach, List.foldl_nil]
    refine ⟨rfl, rfl, (State.world_modWorld_self ..).trans ?_⟩
    exact congrArg (fun ps => { s.world world with parts := ps }) kept
  case incomplete =>
    intro s world tick p small parts due w
    have late : (s.world world).parts.filter (fun p => p.tick = tick % 2 ^ 32) = [p] := by
      rw [parts, List.filter_singleton, decide_eq_true due, cond_true]
    have rest : (s.world world).parts.filter (fun p => p.tick ≠ tick % 2 ^ 32) = [] := by
      rw [parts, List.filter_singleton, decide_eq_false (not_not.2 due), cond_false]
    rw [exec_obsWindowClose s small tick, late, forEach, List.foldl_cons, List.foldl_nil,
      State.modWorld_congr (g := fun w => { w with parts := [] })]
    exact congrArg (fun ps => { s.world world with parts := ps }) rest
  case attaching =>
    exact fun s world small attaching => ⟨exec_helloTimer small attaching, exec_attachTimeout small attaching⟩
  case limits =>
    intro s world small
    exact ⟨fun running missed reached =>
        ⟨_, exec_missLimit small missed reached, rfl, rfl, State.world_holdWorld running⟩,
      fun holding reached =>
        ⟨_, exec_holdLimit small holding reached, rfl, rfl, State.world_spinWorld (.inr holding)⟩,
      fun goes silent => ⟨_, exec_silenceLimit small silent, rfl, rfl, State.world_spinWorld goes⟩⟩
  case ramp =>
    exact fun s world l r small spins ramped latched act ramp sent =>
      exec_rampEnd small spins ramped latched act ramp sent
  case quarantine =>
    exact fun s world small detached quarantined => ⟨_, exec_worldQuarantineExpiry small detached quarantined, rfl, rfl,
      rfl, State.world_modWorld_self ..⟩
  case link =>
    intro s port up pre unit service
    refine ⟨_, exec_worldPortLink s unit service up pre, rfl, rfl, ?_, State.getB_setB_self _ (by decide) _ _⟩
    rw [State.setB, State.getF_setF_of_lsb _ (by decide) (by decide) (by decide), State.getF_setF_self]
    cases up <;> rfl
  case foreign =>
    exact fun s port k unit up => exec_worldPortForeignFrame s unit up k

end Sys2Proof.Machine
end


section
/-!
The whistle's rings and the starts of EXCHANGE and BARRIER stations (O28, O29).
-/

namespace Sys2Proof.Machine

/-! ## Cells that are discarded (R302) -/

section Lost

variable (s : State) {level : Nat} (slot : Nat)

theorem State.wring_modWring (f : WRing → WRing) : (s.modWring level f).wring level = f (s.wring level) :=
  mgetD_mput_self ..

theorem State.wring_bump (f : Fld) (a : Loc) (n : Nat) : (s.bump f a n).wring level = s.wring level :=
  congrArg (fun c => mgetD (ColSt.rings c) level {}) (s.bump_col f a n)

/-- A discarded cell is counted as lost; one outside the slot's tolerance marks an edge event. -/
theorem State.lostCell_spec (small : level < 3) (edge : Bool) :
    let t := s.lostCell level slot edge
    t.mem = s.mem ∧ t.epc = s.epc ∧ t.hcx = s.hcx ∧ (t.wring level).edge = ((s.wring level).edge || edge) ∧
      slot ∈ (t.wring level).lost ∧
      t.getF R.LLP_EDGE_LOST (lRing level) = R.LLP_EDGE_LOST.plus (s.getF R.LLP_EDGE_LOST (lRing level)) 1 := by
  intro t
  have field : outsidePerf (R.LLP_EDGE_LOST.key (lRing level)) :=
    (by decide : ∀ l < 3, outsidePerf (R.LLP_EDGE_LOST.key (lRing l))) level small
  have ring : t.wring level = { s.wring level with
      lost := if (s.wring level).lost.contains slot then (s.wring level).lost else (s.wring level).lost ++ [slot]
      edge := (s.wring level).edge || edge } := by
    refine (State.wring_modWring ..).trans ?_
    rw [State.wring_bump]
  have csr : t.csr = (s.bump R.LLP_EDGE_LOST (lRing level)).csr := by
    simp only [t, State.lostCell, State.modWring, State.setWring]
  have count : t.getF R.LLP_EDGE_LOST (lRing level) =
      R.LLP_EDGE_LOST.plus (s.getF R.LLP_EDGE_LOST (lRing level)) 1 := by
    rw [← s.getF_bump_self (by decide) field Nat.one_ne_zero]
    simp only [State.getF, csr]
  have frame : t.mem = s.mem ∧ t.epc = s.epc ∧ t.hcx = s.hcx := by
    simp only [t, State.lostCell, State.modWring, State.setWring, State.bump_mem, State.bump_epc, State.bump_hcx,
      and_self]
  obtain ⟨mem, epc, hcx⟩ := frame
  refine ⟨mem, epc, hcx, congrArg WRing.edge ring, ?_, count⟩
  rw [ring]
  dsimp only
  split
  next known => exact List.contains_iff_mem.1 known
  next => exact List.mem_append_right _ (List.mem_singleton.2 rfl)

/-- What a cell leaves in the registers of its timing. -/
def State.skewed (level : Nat) (off : Int) : State :=
  (s.setF R.LLP_SKEW_LAST_PS (lRing level) (uInt 16 off)).peak R.LLP_SKEW_MAX_PS (lRing level) (min off.natAbs 65535)

theorem State.skewed_spec (off : Int) :
    (s.skewed level off).mem = s.mem ∧ (s.skewed level off).epc = s.epc ∧ (s.skewed level off).hcx = s.hcx ∧
      (s.skewed level off).wring level = s.wring level ∧
      (s.skewed level off).getF R.LLP_EDGE_LOST (lRing level) = s.getF R.LLP_EDGE_LOST (lRing level) := by
  refine ⟨State.peak_mem .., State.peak_epc .., State.peak_hcx ..,
    congrArg (fun c => mgetD (ColSt.rings c) level {}) (State.peak_col ..), ?_⟩
  have last := s.getF_setF_of_lsb (f := R.LLP_SKEW_LAST_PS) (g := R.LLP_EDGE_LOST) (by decide) (by decide) (by decide)
    (lRing level) (lRing level) (uInt 16 off)
  simp only [State.skewed, State.peak]
  split
  · rw [State.getF_setF_of_lsb _ (by decide) (by decide) (by decide), last]
  · exact last

/-- A cell too early or too late is discarded with an edge event. -/
theorem State.cellIn_untimed (b : List Byte) {off : Int} (untimed : off < -1000 ∨ 2100 < off) :
    s.cellIn level slot b off = (s.skewed level off).lostCell level slot true := if_pos untimed

/-- A cell with a bad CRC is discarded. -/
theorem State.cellIn_bad {b : List Byte} {off : Int} (early : -1000 ≤ off) (late : off ≤ 2100)
    (bad : cellCrcOk b = false) : s.cellIn level slot b off = (s.skewed level off).lostCell level slot false := by
  have timed : ¬ (off < -1000 ∨ 2100 < off) := by omega
  simp only [State.cellIn, timed, bad, Bool.false_and, Bool.not_false, if_false, if_true]
  rfl

end Lost

/-! ## Rows of the rings (R294, R301, R304) -/

section Rows

variable (s : State) {level : Nat} (small : level < 3)

include small

theorem exec_frameStart (member : s.onRing level = true) :
    exec (.frameStart level) s = .next (s.frameStart level) :=
  (if_pos (decide_eq_true small)).trans (congrArg Host.Outcome.next (if_pos member))

omit small in
theorem State.frameStart_idle {s : State} (idle : s.ringState level = RingRun.down ∨ s.ringState level = RingRun.fallback) :
    s.frameStart level = s := if_pos idle

theorem exec_cellReceive {s : State} (member : s.onRing level = true) (up : s.ringState level ≠ RingRun.down)
    (works : s.ringState level ≠ RingRun.fallback) (slot : Nat) (b : List Byte) (off : Int) :
    exec (.cellReceive level slot b off) s = .next (s.cellIn level slot b off) := by
  refine (if_pos (decide_eq_true small)).trans (congrArg Host.Outcome.next (if_neg ?_))
  rw [member]
  rintro (h | h | h)
  exacts [Bool.false_ne_true h, up h, works h]

theorem exec_whistleDeadTimeout {s : State} {pos : Nat} (place : pos < 64) (master : s.isMaster level = true)
    (live : s.deadAt level pos = false) (other : pos ≠ s.ringPos level)
    (works : s.ringState level = RingRun.running ∨ s.ringState level = RingRun.degraded) :
    exec (.whistleDeadTimeout level pos) s = .next
      (let s1 := s.until (mgetD (s.wring level).lastHeard pos 0 + 1000000)
       let s2 := (s1.alarm Kind.deviceDead 0xFF
          (alarmKey ((s1.ringDevice level pos).getD s1.device) (level * 64 + pos))).modWring
         level (fun w => { w with ctrlDue := true })
       s2.setMaps level (s2.getF R.LLP_DEAD_POSITIONS (lRing level) ||| 2 ^ pos)
         (s2.getF R.LLP_BYPASS_POSITIONS (lRing level))) := by
  refine (if_pos (decide_eq_true ⟨small, place⟩)).trans (congrArg Host.Outcome.next (if_neg ?_))
  rw [master, live]
  rintro (h | h | h | ⟨h, k⟩)
  exacts [Bool.false_ne_true h, Bool.false_ne_true h, other h, works.elim h k]

theorem exec_masterElection {s : State} {p : Nat}
    (works : s.ringState level = RingRun.running ∨ s.ringState level = RingRun.degraded)
    (next : lowest ((s.until ((s.wring level).lastFrame + 10000)).getF R.LLP_RSTAT_MEMBERS (lRing level))
      (fun p => p ≠ s.getF R.LLP_RSTAT_MASTER (lRing level) &&
        !(s.until ((s.wring level).lastFrame + 10000)).deadAt level p) = some p) :
    exec (.masterElection level) s = .next
      (let s1 := s.until ((s.wring level).lastFrame + 10000)
       (s1.setF R.LLP_RSTAT_MASTER (lRing level) p).setF R.LLP_RSTAT_TERM (lRing level)
         ((s1.getF R.LLP_RSTAT_TERM (lRing level) + 1) % 2 ^ 32)) := by
  have serves : ¬ (s.ringState level ≠ RingRun.running ∧ s.ringState level ≠ RingRun.degraded) := fun h =>
    works.elim h.1 h.2
  refine (if_pos (decide_eq_true small)).trans (congrArg Host.Outcome.next ((if_neg serves).trans ?_))
  simp only [next]

theorem exec_ringTrainingTimeout {s : State} (trains : s.ringState level = RingRun.training) :
    exec (.ringTrainingTimeout level) s = .next (s.fallBack level) :=
  (if_pos (decide_eq_true small)).trans (congrArg Host.Outcome.next (if_pos trains))

theorem exec_ringFallback {s : State}
    (works : s.ringState level = RingRun.running ∨ s.ringState level = RingRun.degraded) :
    exec (.ringFallback level) s = .next (s.fallBack level) :=
  (if_pos (decide_eq_true small)).trans (congrArg Host.Outcome.next (if_pos works))

theorem exec_ringRetrainTimer {s : State} (fallen : s.ringState level = RingRun.fallback) :
    exec (.ringRetrainTimer level true) s = .next (s.ringTo level RingRun.running) ∧
      exec (.ringRetrainTimer level false) s = .next s :=
  ⟨(if_pos (decide_eq_true small)).trans (congrArg Host.Outcome.next (if_pos ⟨fallen, rfl⟩)),
    (if_pos (decide_eq_true small)).trans (congrArg Host.Outcome.next (if_neg fun h => Bool.false_ne_true h.2))⟩

end Rows

/-- Settles O29: each row, in the case that the statement names, is its branch. -/
theorem ringStateRows : Obligations.RingStateRows := by
  unfold Obligations.RingStateRows
  refine ⟨?frame, ?cell, ?dead, ?election, ?states, ?fallback⟩
  case frame =>
    exact fun s level small member => ⟨fun _ => exec_frameStart s small member,
      fun idle => (exec_frameStart s small member).trans (congrArg _ (State.frameStart_idle idle))⟩
  case cell =>
    intro s level slot b off small member up works
    have row := exec_cellReceive small member up works slot b off
    obtain ⟨mem, epc, hcx, ring, count⟩ := s.skewed_spec (level := level) off
    have lost (edge : Bool) := (s.skewed level off).lostCell_spec slot small edge
    simp only [mem, epc, hcx, ring, count] at lost
    refine ⟨fun untimed => ?_, fun early late bad => ?_⟩
    · obtain ⟨m, e, h, marked, listed, counted⟩ := lost true
      rw [s.cellIn_untimed slot b untimed] at row
      exact ⟨_, row, m, e, h, marked.trans (Bool.or_true _), listed, counted⟩
    · obtain ⟨m, e, h, marked, listed, -⟩ := lost false
      rw [s.cellIn_bad slot early late bad] at row
      exact ⟨_, row, m, e, h, marked.trans (Bool.or_false _), listed⟩
  case dead =>
    exact fun s level pos small place master live other works =>
      exec_whistleDeadTimeout small place master live other works
  case election =>
    intro s level p small works s1 next
    refine ⟨_, exec_masterElection small works next, rfl, rfl, rfl, ?_, ?_⟩
    · rw [State.getF_setF_of_lsb _ (by decide) (by decide) (by decide), State.getF_setF_self]
    · rw [State.getF_setF_self]
      exact Nat.mod_mod _ _
  case states =>
    exact fun s level small => ⟨exec_ringTrainingTimeout small, exec_ringFallback small, exec_ringRetrainTimer small⟩
  case fallback =>
    exact fun s level p small => if_pos (decide_eq_true small)

/-! ## Stations start (R284, R288, R290, R297) -/

section Starts

variable {s : State} {pan station : Nat} {d : StationDecl} {c : ExchDecl} {g : GroupSt}

/-- A station of an operation that the whistle never takes begins it on its free engine. -/
theorem State.startExch_fabric {op : Nat} (other : op ≠ 2 ∧ op ≠ 5)
    (starts : s.exchStation pan station op = some (d, c, g)) (idle : s.engineBusy c.stage.1 c.engine = false) :
    s.startExch pan station op = s.beginExch pan station c g none := by
  simp only [State.startExch, starts, other, idle, or_self, false_and, if_false, Bool.false_eq_true]

/-- An ALL_REDUCE or a BROADCAST goes over the whistle where PATH sends it there. -/
theorem State.startExch_small {op : Nat} (small : op = 2 ∨ op = 5)
    (starts : s.exchStation pan station op = some (d, c, g))
    (goes : onWhistle c = true ∨ s.engineBusy c.stage.1 c.engine = false) : s.startExch pan station op =
      if onWhistle c = true then s.whistleExch pan station d c g else s.beginExch pan station c g none := by
  simp only [State.startExch, starts, small, true_and]
  by_cases whistle : onWhistle c = true
  · rw [if_pos whistle, if_pos whistle]
  · rw [if_neg whistle, if_neg whistle, if_neg (by rw [goes.resolve_left whistle]; decide)]

/-- ALL_TO_ALL_V begins with its counts: over the whistle where they fit and the ring works, else over the fabric. -/
theorem exec_allToAllV (counts : List Nat) (starts : s.exchStation pan station 1 = some (d, c, g))
    (idle : s.engineBusy c.stage.1 c.engine = false) :
    let l := fitCounts g.devices.length counts
    let s1 := (s.beginExch pan station c g (some l)).deadMembers (exchKey pan station)
    exec (.allToAllV pan station counts) s = .next
      (if g.devices.length * c.countw ≤ 256 ∧ g.oneRing = true ∧ s1.ringWorks 0 = true then
        (s1.bump R.COL_COUNTS_WHISTLE (lDie c.stage.1)).issueWop g
          (countOp pan station (packRow c.countw (clampCounts c.countw l)))
       else s1.countsOverFabric (exchKey pan station)) := by
  change execAllToAllV pan station counts s = _
  simp only [execAllToAllV, starts, idle, Bool.false_eq_true, if_false]

theorem exec_barrier (b : Bool) (plain : s.adoptionVote pan station = none)
    (starts : s.exchStation pan station 6 = some (d, c, g)) : exec (.barrier pan station b) s = .next
      (s.stationWop pan d c g (barrierOp pan station (c.purpose % 3) (s.barrierBit g.job c b))) := by
  change execBarrier pan station b s = _
  simp only [execBarrier, plain, starts]

theorem exec_barrier_vote (b : Bool) (votes : s.adoptionVote pan station = some g) :
    exec (.barrier pan station b) s = .next
      ((s.modCkp g.job (fun k => { k with voted := true })).issueWop g (barrierOp pan station 3 true)) := by
  change execBarrier pan station b s = _
  simp only [execBarrier, votes]

/-- A whistle operation of a station is issued with the entry of the scoreboard that it takes. -/
theorem State.stationWop_issues {u : State} {tag : Nat} (o : WOp) (may : s.mayIssue c.stage.1 pan d 0 0 = true)
    (entry : s.takeEntry c.stage.1 { pan := pan, step := (s.pan pan).step, station := d.idx, mb := 0, slice := 0 } =
      some (tag, u)) : s.stationWop pan d c g o = u.issueWop g { o with tag := some tag } := by
  simp only [State.stationWop, State.issueEntry, may, if_true, entry]

end Starts

/-- Settles O28: a station that may start begins its operation as its kind and PATH say. -/
theorem exchangeStarts : Obligations.ExchangeStarts := by
  unfold Obligations.ExchangeStarts
  refine ⟨?starts, ?issues, ?vote⟩
  case starts =>
    intro s pan station d c g
    have fabric {op : Nat} (other : op ≠ 2 ∧ op ≠ 5) (starts : s.exchStation pan station op = some (d, c, g))
        (idle : s.engineBusy c.stage.1 c.engine = false) :=
      congrArg (Host.Outcome.next (φ := Fault) (ρ := Refusal)) (State.startExch_fabric other starts idle)
    have small {op : Nat} (op25 : op = 2 ∨ op = 5) (starts : s.exchStation pan station op = some (d, c, g))
        (goes : onWhistle c = true ∨ s.engineBusy c.stage.1 c.engine = false) :=
      congrArg (Host.Outcome.next (φ := Fault) (ρ := Refusal)) (State.startExch_small op25 starts goes)
    exact ⟨fabric (by decide), small (.inl rfl), fabric (by decide), fabric (by decide), small (.inr rfl),
      fun counts starts idle => exec_allToAllV counts starts idle, fun b plain starts => exec_barrier b plain starts⟩
  case issues =>
    exact fun s u pan tag d c g o may entry => State.stationWop_issues o may entry
  case vote =>
    exact fun s pan station b g votes => exec_barrier_vote b votes

end Sys2Proof.Machine
end


section
/-!
The queue (O52): what the shared operations of the state, the fabric and the schedulers leave of it. A lemma `Waits.f`
says that the operation `f` leaves the queue; its proof follows the text of `f`, the operations that it applies inmost
last. An operation that the frames describe is an `outside`.
-/

namespace Sys2Proof.Machine

/-- The commands that wait are `cs`. -/
def Waits (cs : List Instr) (s : State) : Prop := s.pending = cs

/-- Every part of the state but the queue. -/
def Parts.butQueue : Parts :=
  { time := true, free := true, csr := true, wo1 := true, mem := true, grains := true, bricks := true
    arrays := true, sch := true, att := true, lanes := true, epc := true, rings := true, tier := true, fab := true
    col := true, wpt := true, hcx := true, ckp := true, audit := true, keys := true, clk := true, obsv := true }

/-- Every next state that an outcome answers has the queue. -/
def WaitsOut (cs : List Instr) (o : Out) : Prop := ∀ t, o = .next t → Waits cs t

/-- An instruction that is done leaves the queue. -/
def WaitsEnd (cs : List Instr) (r : GOut) : Prop := ∀ t g, r = .done t g → Waits cs t

section Kept

variable {cs : List Instr} {s t u : State}

theorem Waits.frame (e : t.pending = s.pending) (h : Waits cs s) : Waits cs t := e.trans h

/-- A frame over the other parts holds the queue fast. -/
theorem Waits.outside (e : t.outside Parts.butQueue = s.outside Parts.butQueue) (h : Waits cs s) : Waits cs t :=
  .frame (congrArg State.pending e :) h

theorem Waits.withCsr {x} (h : Waits cs s) : Waits cs { s with csr := x } := h

theorem Waits.withBricks {x} (h : Waits cs s) : Waits cs { s with bricks := x } := h

theorem Waits.withAtt {x} (h : Waits cs s) : Waits cs { s with att := x } := h

theorem Waits.withEpc {x} (h : Waits cs s) : Waits cs { s with epc := x } := h

theorem Waits.withTier {x} (h : Waits cs s) : Waits cs { s with tier := x } := h

theorem Waits.withCol {x} (h : Waits cs s) : Waits cs { s with col := x } := h

theorem Waits.withObsv {x} (h : Waits cs s) : Waits cs { s with obsv := x } := h

theorem Waits.ite {c : Prop} [Decidable c] (ht : Waits cs t) (hu : Waits cs u) : Waits cs (if c then t else u) := by
  split
  · exact ht
  · exact hu

/-- The state that a `let` names may stand in what follows more than once. -/
theorem Waits.named (k : Waits cs s → Waits cs t) (h : Waits cs s) : Waits cs t := k h

/-- An operation under a condition. -/
theorem Waits.when {c : Prop} [Decidable c] (ht : Waits cs s → Waits cs t) (h : Waits cs s) :
    Waits cs (if c then t else s) := .ite (ht h) h

theorem Waits.forEach {α : Type} {f : State → α → State} {l : List α} (hf : ∀ t x, Waits cs t → Waits cs (f t x))
    (h : Waits cs s) : Waits cs (forEach l s f) := by
  unfold Machine.forEach
  induction l generalizing s with
  | nil => exact h
  | cons x l ih => exact ih (hf s x h)

theorem Waits.iteSnd {β : Type} {c : Prop} [Decidable c] {x y : β × State} (hx : Waits cs x.2) (hy : Waits cs y.2) :
    Waits cs (if c then x else y).2 := by
  split
  · exact hx
  · exact hy

theorem Waits.iteFst {β : Type} {c : Prop} [Decidable c] {x y : State × β} (hx : Waits cs x.1) (hy : Waits cs y.1) :
    Waits cs (if c then x else y).1 := by
  split
  · exact hx
  · exact hy

theorem Waits.foldlSnd {α β : Type} {f : β × State → α → β × State} {l : List α} {a : β × State}
    (hf : ∀ a x, Waits cs a.2 → Waits cs (f a x).2) (h : Waits cs a.2) : Waits cs (l.foldl f a).2 := by
  induction l generalizing a with
  | nil => exact h
  | cons x l ih => exact ih (hf a x h)

/-- The state of a pair has the queue when the pair's second is. -/
theorem Waits.ofSnd {β : Type} {p : β × State} {b : β} (e : p = (b, t)) (h : Waits cs p.2) : Waits cs t := by
  rwa [e] at h

theorem Waits.getD {o : Option State} (ho : ∀ t, o = some t → Waits cs t) (h : Waits cs s) :
    Waits cs (o.getD s) := by
  cases o with
  | none => exact h
  | some t => exact ho t rfl

theorem WaitsEnd.done {g} (h : Waits cs t) : WaitsEnd cs (.done t g) := by
  rintro _ _ ⟨⟩
  exact h

theorem WaitsEnd.fault {k a} : WaitsEnd cs (.fault k a) := fun _ _ h => GOut.noConfusion h

theorem WaitsEnd.wait : WaitsEnd cs .wait := fun _ _ h => GOut.noConfusion h

theorem WaitsEnd.halt : WaitsEnd cs .halt := fun _ _ h => GOut.noConfusion h

theorem WaitsEnd.ite {c : Prop} [Decidable c] {p q : GOut} (hp : WaitsEnd cs p) (hq : WaitsEnd cs q) :
    WaitsEnd cs (if c then p else q) := by
  split
  · exact hp
  · exact hq

theorem WaitsOut.next (h : Waits cs t) : WaitsOut cs (.next t) := by
  rintro u ⟨⟩
  exact h

theorem WaitsOut.refused {r} : WaitsOut cs (.refused r) := by
  rintro u ⟨⟩

theorem WaitsOut.ite {c : Prop} [Decidable c] {o p : Out} (ho : WaitsOut cs o) (hp : WaitsOut cs p) :
    WaitsOut cs (if c then o else p) := by
  split
  · exact ho
  · exact hp

theorem WaitsOut.need {o : Out} {ok unit} (h : WaitsOut cs o) : WaitsOut cs (need ok unit o) := .ite h .refused

theorem WaitsOut.whenThere {o : Out} {ok} (h : Waits cs s) (ho : WaitsOut cs o) : WaitsOut cs (whenThere ok s o) :=
  .ite ho (.next h)

/-! ### Ops -/

theorem Waits.setF {f a v} (h : Waits cs s) : Waits cs (s.setF f a v) := .outside (State.setF_outside rfl ..) h
theorem Waits.setB {f a v} (h : Waits cs s) : Waits cs (s.setB f a v) := .outside (State.setB_outside rfl ..) h
theorem Waits.bump {f a n} (h : Waits cs s) : Waits cs (s.bump f a n) := .outside (State.bump_outside rfl ..) h
theorem Waits.peak {f a v} (h : Waits cs s) : Waits cs (s.peak f a v) := .outside (State.peak_outside rfl ..) h
theorem Waits.wrMem {space off bs} (h : Waits cs s) : Waits cs (s.wrMem space off bs) :=
  .outside (State.wrMem_outside rfl ..) h

theorem Waits.clrMem {space off n} (h : Waits cs s) : Waits cs (s.clrMem space off n) := .frame rfl h

theorem Waits.wrBrick {die brick off bs} (h : Waits cs s) : Waits cs (s.wrBrick die brick off bs) :=
  .outside (State.wrBrick_outside rfl ..) h

theorem Waits.taint {die brick off n b} (h : Waits cs s) : Waits cs (s.taint die brick off n b) :=
  .ite (.frame (by rfl) h) h

theorem Waits.draw {w} (h : Waits cs s) : Waits cs (s.draw w).2 := .outside (State.draw_outside rfl ..) h

theorem Waits.drawBytes {n} (h : Waits cs s) : Waits cs (s.drawBytes n).2 := by
  induction n generalizing s with
  | zero => exact h
  | succ n ih => exact ih (.draw (w := 8) h)

theorem Waits.until {t} (h : Waits cs s) : Waits cs (s.until t) := .outside (State.until_outside rfl ..) h
theorem Waits.alarm {kind job key} (h : Waits cs s) : Waits cs (s.alarm kind job key) :=
  .outside (State.alarm_outside rfl rfl rfl ..) h
theorem Waits.audit1 {die r} (h : Waits cs s) : Waits cs (s.audit1 die r) :=
  .outside (State.audit1_outside rfl rfl rfl rfl ..) h

theorem Waits.whenRoom {dies key} {f : State → State} (hf : ∀ t, Waits cs t → Waits cs (f t)) (h : Waits cs s) :
    Waits cs (s.whenRoom dies key f) := by
  simp only [State.whenRoom]
  split
  · split
    · exact hf _ h
    · exact hf _ (.bump h)
  · exact .ite h (.bump h)

theorem Waits.setPan {p v} (h : Waits cs s) : Waits cs (s.setPan p v) := .outside (State.setPan_outside rfl ..) h
theorem Waits.modPan {p f} (h : Waits cs s) : Waits cs (s.modPan p f) := .outside (State.modPan_outside rfl ..) h

theorem Waits.setJob {j v} (h : Waits cs s) : Waits cs (s.setJob j v) := .frame rfl h

theorem Waits.modJob {j f} (h : Waits cs s) : Waits cs (s.modJob j f) := .frame rfl h

theorem Waits.holdWorlds {p} (h : Waits cs s) : Waits cs (s.holdWorlds p) := .frame rfl h

theorem Waits.jobTo {j t} (h : Waits cs s) : Waits cs (s.jobTo j t) :=
  .named (fun h => .ite h (.modJob (.audit1 h))) (.ite (.holdWorlds h) h)

theorem Waits.settlePoint {die} (h : Waits cs s) : Waits cs (s.settlePoint die) :=
  .outside (State.settlePoint_outside rfl ..) h

theorem Waits.panTo {p t} (h : Waits cs s) : Waits cs (s.panTo p t) :=
  .named (fun h => .ite h (.forEach (fun _ _ h => .settlePoint h) (.modPan (.audit1 h)))) (.ite h (.holdWorlds h))

theorem Waits.setGrain {die brick g v} (h : Waits cs s) : Waits cs (s.setGrain die brick g v) :=
  .outside (State.setGrain_outside rfl ..) h
theorem Waits.modGrain {die brick g f} (h : Waits cs s) : Waits cs (s.modGrain die brick g f) :=
  .outside (State.modGrain_outside rfl ..) h
theorem Waits.setArray {die brick v} (h : Waits cs s) : Waits cs (s.setArray die brick v) :=
  .outside (State.setArray_outside rfl ..) h
theorem Waits.bumpPan {f p n} (h : Waits cs s) : Waits cs (s.bumpPan f p n) := .outside (State.bumpPan_outside rfl ..) h

theorem Waits.wipeCounters {die b} (h : Waits cs s) : Waits cs (s.wipeCounters die b) :=
  .forEach (fun _ _ h => .setF (.setF h)) h

theorem Waits.bistBegin {die b} (h : Waits cs s) : Waits cs (s.bistBegin die b) := by
  simp only [State.bistBegin]
  exact .ite (.frame (by rfl) h) (.frame (by rfl) h)

theorem Waits.bistMover {die} (h : Waits cs s) : Waits cs (s.bistMover die) := by
  unfold State.bistMover
  split
  · exact .ite (.bistBegin h) h
  · exact h

theorem Waits.bistReleased {die brick} (h : Waits cs s) : Waits cs (s.bistReleased die brick) := by
  unfold State.bistReleased
  split
  · exact .ite (.bistBegin h) h
  · exact h

theorem Waits.bistBoundary {p} (h : Waits cs s) : Waits cs (s.bistBoundary p) :=
  .forEach (fun _ _ h => .ite (.bistBegin h) h) h

/-! ### Cmds -/

theorem Waits.setQueue {pair q} (h : Waits cs s) : Waits cs (s.setQueue pair q) :=
  .outside (State.setQueue_outside rfl ..) h

theorem Waits.badDoorbell {pair offset value cur} (h : Waits cs s) :
    Waits cs (s.badDoorbell pair offset value cur) :=
  .bump (.audit1 h)

theorem Waits.hostWrite {addr b} (h : Waits cs s) : Waits cs (s.hostWrite addr b) :=
  .outside (State.hostWrite_outside rfl ..) h
theorem Waits.post {c} (h : Waits cs s) : Waits cs (s.post c) := .outside (State.post_outside rfl rfl ..) h

theorem Waits.flushComps (h : Waits cs s) : Waits cs s.flushComps :=
  .forEach (fun _ _ h => .post h) (.frame (by rfl) h)

theorem Waits.finish {c status r0 r1} (h : Waits cs s) : Waits cs (s.finish c status r0 r1) :=
  .outside (State.finish_outside rfl rfl rfl ..) h
theorem Waits.finishRef {r status r0 r1} (h : Waits cs s) : Waits cs (s.finishRef r status r0 r1) :=
  .outside (State.finishRef_outside rfl rfl rfl ..) h
theorem Waits.setCmd {c} (h : Waits cs s) : Waits cs (s.setCmd c) := .outside (State.setCmd_outside rfl ..) h

theorem Waits.beginCmd {c} (h : Waits cs s) : Waits cs (s.beginCmd c) := .frame rfl h

theorem Waits.onCmd {r op} {f : Cmd → State → State} (hf : ∀ c t, Waits cs t → Waits cs (f c t))
    (h : Waits cs s) : Waits cs (s.onCmd r op f) := by
  unfold State.onCmd
  split
  · exact .ite (.whenRoom (hf _) h) h
  · exact h

theorem Waits.clampCmd {c off written eff} (h : Waits cs s) : Waits cs (s.clampCmd c off written eff).2 := by
  simp only [State.clampCmd]
  exact .iteSnd h (.setCmd (.audit1 h))

theorem Waits.clampBits {c} (h : Waits cs s) : Waits cs (s.clampBits c) := by
  simp only [State.clampBits]
  split
  · exact h
  · exact .clampCmd h

theorem Waits.take {pair e forwarded} (h : Waits cs s) : Waits cs (s.take pair e forwarded) := by
  simp only [State.take]
  split
  · exact .finish (.frame (by rfl) (.bump (.setF (.setF (.audit1 h)))))
  · exact .clampBits (.frame (by rfl) (.bump (.setF (.setF (.audit1 h)))))

theorem Waits.execCommandTimeout {cmd} (h : Waits cs s) : WaitsOut cs (execCommandTimeout cmd s) := by
  unfold Machine.execCommandTimeout
  refine .next ?_
  split
  · exact .ite h (.finish (.until h))
  · exact h

/-! ### Operands -/

theorem Waits.wrTier {space off bs} (h : Waits cs s) : Waits cs (s.wrTier space off bs) :=
  .outside (State.wrTier_outside rfl ..) h
theorem Waits.zeroTier {space off n} (h : Waits cs s) : Waits cs (s.zeroTier space off n) :=
  .outside (State.zeroTier_outside rfl ..) h

theorem Waits.setReqs {m} (h : Waits cs s) : Waits cs (s.setReqs m) := .frame rfl h

theorem Waits.wrote {die pan space off len dest} (h : Waits cs s) : Waits cs (s.wrote die pan space off len dest) :=
  .outside (State.wrote_outside rfl ..) h

/-! ### Fabric -/

theorem Waits.setPort {p v} (h : Waits cs s) : Waits cs (s.setPort p v) := .outside (State.setPort_outside rfl ..) h
theorem Waits.portTo {p st} (h : Waits cs s) : Waits cs (s.portTo p st) := .outside (State.portTo_outside rfl ..) h
theorem Waits.out {port p} (h : Waits cs s) : Waits cs (s.out port p) := .outside (State.out_outside rfl ..) h

theorem Waits.control {port type reason seq tagIdx tagGen} (h : Waits cs s) :
    Waits cs (s.control port type reason seq tagIdx tagGen) :=
  .frame rfl h

theorem Waits.sendAck {port} (h : Waits cs s) : Waits cs (s.sendAck port) := .frame rfl h

theorem Waits.offer {port p} (h : Waits cs s) : Waits cs (s.offer port p) := .outside (State.offer_outside rfl ..) h
theorem Waits.transmit {fd p} (h : Waits cs s) : Waits cs (s.transmit fd p) :=
  .outside (State.transmit_outside rfl ..) h

theorem Waits.flushCredit (h : Waits cs s) : Waits cs s.flushCredit :=
  .forEach (fun _ _ h => .ite (.offer h) (.transmit h)) (.frame (by rfl) h)

theorem Waits.trainPort {port} (h : Waits cs s) : Waits cs (s.trainPort port) :=
  .outside (State.trainPort_outside rfl rfl ..) h

theorem Waits.disablePort {port} (h : Waits cs s) : Waits cs (s.disablePort port) :=
  .flushCredit (.forEach (fun _ _ h => .transmit h) (.setF (.portTo (.setPort h))))

theorem Waits.retrainPort {port} (h : Waits cs s) : Waits cs (s.retrainPort port) :=
  .ite h (.bump (.portTo (.setPort h)))

theorem Waits.leaveQuarantine {port} (h : Waits cs s) : Waits cs (s.leaveQuarantine port) := .ite (.trainPort h) h

theorem Waits.quarantinePort {port} (h : Waits cs s) : Waits cs (s.quarantinePort port) :=
  .named (fun h => .ite (.disablePort h) (.leaveQuarantine h)) (.alarm (.bump (.portTo (.setPort h))))

theorem Waits.violation {port reason} (h : Waits cs s) : Waits cs (s.violation port reason) :=
  .named (fun h => .ite (.quarantinePort h) h) (.setF (.bump (.setF (.setPort h))))

theorem Waits.replayFrom {port i} (h : Waits cs s) : Waits cs (s.replayFrom port i) :=
  .named (fun h => .ite h (.named (fun h => .ite h (.ite
      (.leaveQuarantine (.forEach (fun _ _ h => .transmit h) (.setPort h))) (.retrainPort h))) (.setPort h)))
    (.setPort (.bump (.forEach (fun _ _ h => .out h) h)))

theorem Waits.portTrained {port t} (h : Waits cs s) : Waits cs (s.portTrained port t) := by
  simp only [State.portTrained]
  exact .ite h (.ite (.disablePort h) (.named (fun h => .ite (.flushCredit (.bump (.forEach (fun _ _ h => .out h) h)))
    (.flushCredit h)) (.portTo (.setF (.setF (.setF (.setF (.setB (.setF h)))))))))

theorem Waits.ackTo {port seq} (h : Waits cs s) : Waits cs (s.ackTo port seq) :=
  .ite h (.leaveQuarantine (.flushCredit (.setPort h)))

theorem Waits.setFab {f} (h : Waits cs s) : Waits cs (s.setFab f) := .outside (State.setFab_outside rfl ..) h
theorem Waits.sendReq {p} (h : Waits cs s) : Waits cs (s.sendReq p) := .outside (State.sendReq_outside rfl ..) h
theorem Waits.issue {p u} (h : Waits cs s) : Waits cs (s.issue p u) := .outside (State.issue_outside rfl rfl ..) h

theorem Waits.unblock (h : Waits cs s) : Waits cs s.unblock := by
  simp only [State.unblock]
  split
  · exact h
  · exact .issue (.setFab h)

theorem Waits.unblockAll (h : Waits cs s) : Waits cs s.unblockAll := .forEach (fun _ _ h => .unblock h) h

theorem Waits.endReq {idx} (h : Waits cs s) : Waits cs (s.endReq idx) := .unblock (.setFab (.setReqs h))

theorem Waits.resend {idx} (h : Waits cs s) : Waits cs (s.resend idx) := by
  simp only [State.resend]
  split
  · exact h
  · exact .ite h (.sendReq (.setFab h))

theorem Waits.execRequestResend {tagIdx} (h : Waits cs s) : WaitsOut cs (execRequestResend tagIdx s) := by
  unfold Machine.execRequestResend
  refine .next ?_
  split
  · exact h
  · exact .resend (.until h)

theorem Waits.nakIn {port seq reason tagIdx tagGen} (h : Waits cs s) :
    Waits cs (s.nakIn port seq reason tagIdx tagGen) := by
  simp only [State.nakIn]
  split
  · exact .replayFrom h
  · split
    · split
      · exact .ite (.resend h) h
      · exact h
    · exact h

theorem Waits.relay {port p} (h : Waits cs s) : Waits cs (s.relay port p) := .ite (.bump h) (.transmit h)

theorem Waits.accept {port p} (h : Waits cs s) : Waits cs (s.accept port p) :=
  .ite (.setFab h) (.ite (.out h) (.relay h))

theorem Waits.acceptFrame {port p} (h : Waits cs s) : Waits cs (s.acceptFrame port p) :=
  .named (fun h => .accept (.ite (.sendAck h) h)) (.setPort h)

theorem Waits.goodFrame {port p credit} (h : Waits cs s) : Waits cs (s.goodFrame port p credit) := by
  simp only [State.goodFrame]
  split
  · exact .ackTo h
  · split
    · exact .nakIn h
    · split
      · exact .accept h
      · split
        · split
          · exact .violation (.control h)
          · exact .acceptFrame h
        · exact .ite (.sendAck h) (.control h)

/-! ### Stream -/

theorem Waits.poisonOuts {pan die cause n} (h : Waits cs s) : Waits cs (s.poisonOuts pan die cause n) :=
  .outside (State.poisonOuts_outside rfl ..) h
theorem Waits.poisonOut {pan die cause} (h : Waits cs s) : Waits cs (s.poisonOut pan die cause) :=
  .outside (State.poisonOut_outside rfl ..) h
theorem Waits.emit {pan i r} (h : Waits cs s) : Waits cs (s.emit pan i r) := .outside (State.emit_outside rfl ..) h
theorem Waits.give {pan i r} (h : Waits cs s) : Waits cs (s.give pan i r) := .outside (State.give_outside rfl ..) h
theorem Waits.takeThe {pan i c d f} (h : Waits cs s) : Waits cs (s.takeThe pan i c d f) :=
  .outside (State.takeThe_outside rfl ..) h

theorem Waits.takeRow {pan i c d} (h : Waits cs s) : Waits cs (s.takeRow pan i c d) := .takeThe h

theorem Waits.takeSlice {pan i c mb slice n} (h : Waits cs s) : Waits cs (s.takeSlice pan i c mb slice n).2 := by
  induction n generalizing s with
  | zero => exact h
  | succ n ih =>
    unfold State.takeSlice
    split
    · exact ih (.takeThe h)
    · exact h

theorem Waits.discardOrphans {pan} (h : Waits cs s) : Waits cs (s.discardOrphans pan) := .frame (by rfl) (.bump h)

theorem Waits.takeEntry {die tag : Nat} {e : ScoreEntry} (h : Waits cs s) (ht : s.takeEntry die e = some (tag, t)) :
    Waits cs t :=
  .outside (State.takeEntry_outside rfl rfl ht) h

theorem Waits.freeEntry {die i} (h : Waits cs s) : Waits cs (s.freeEntry die i) :=
  .outside (State.freeEntry_outside rfl ..) h

theorem Waits.issueEntry {die pan d mb slice} {f : Nat → State → State}
    (hf : ∀ tag t, Waits cs t → Waits cs (f tag t)) (h : Waits cs s) :
    Waits cs (s.issueEntry die pan d mb slice f) := by
  unfold State.issueEntry
  split
  · split
    · exact h
    · next entry => exact hf _ _ (h.takeEntry entry)
  · exact h

theorem Waits.withEntry {die pan d mb slice} {f : Nat → State → State}
    (hf : ∀ tag t, Waits cs t → Waits cs (f tag t)) (h : Waits cs s) :
    Waits cs (s.withEntry die pan d mb slice f) :=
  .issueEntry (fun tag t h => .freeEntry (hf tag t h)) h

theorem Waits.codeEntry {die tag code} (h : Waits cs s) : Waits cs (s.codeEntry die tag code) :=
  .outside (State.codeEntry_outside rfl ..) h

theorem Waits.withAct {die pan d mb slice} {f : State → State} (hf : ∀ t, Waits cs t → Waits cs (f t))
    (h : Waits cs s) : Waits cs (s.withAct die pan d mb slice f) :=
  .issueEntry (fun _ _ h => .freeEntry (hf _ (.codeEntry h))) h

/-! ### Ledger -/

theorem Waits.setWset {ws w} (h : Waits cs s) : Waits cs (s.setWset ws w) :=
  .outside (State.setWset_outside rfl rfl ..) h
theorem Waits.modWset {ws f} (h : Waits cs s) : Waits cs (s.modWset ws f) :=
  .outside (State.modWset_outside rfl rfl ..) h
theorem Waits.reportEpoch {ws e} (h : Waits cs s) : Waits cs (s.reportEpoch ws e) :=
  .outside (State.reportEpoch_outside rfl rfl ..) h
theorem Waits.retireIfDone {ws e} (h : Waits cs s) : Waits cs (s.retireIfDone ws e) :=
  .outside (State.retireIfDone_outside rfl rfl rfl rfl rfl rfl rfl rfl ..) h
theorem Waits.countEpoch {ws e f} (h : Waits cs s) : Waits cs (s.countEpoch ws e f) :=
  .outside (State.countEpoch_outside rfl rfl rfl rfl ..) h
theorem Waits.subRecords {ws e n} (h : Waits cs s) : Waits cs (s.subRecords ws e n) :=
  .outside (State.subRecords_outside rfl rfl rfl rfl rfl rfl rfl rfl ..) h

theorem Waits.addHolder {ws e} (h : Waits cs s) : Waits cs (s.addHolder ws e) := .countEpoch h

theorem Waits.dropHolder {ws e} (h : Waits cs s) : Waits cs (s.dropHolder ws e) := .retireIfDone (.countEpoch h)

theorem Waits.reported {ws e device holders records} (h : Waits cs s) :
    Waits cs (s.reported ws e device holders records) :=
  .retireIfDone (.modWset h)

theorem Waits.countBases (h : Waits cs s) : Waits cs s.countBases := by
  simp only [State.countBases]
  refine .forEach (fun _ _ h => ?_) h
  split
  · exact h
  · exact .ite h (.countEpoch h)

theorem Waits.setRing {n v} (h : Waits cs s) : Waits cs (s.setRing n v) :=
  .outside (State.setRing_outside rfl rfl rfl rfl ..) h
theorem Waits.failImage {w i reason} (h : Waits cs s) : Waits cs (s.failImage w i reason) :=
  .outside (State.failImage_outside rfl rfl rfl rfl rfl ..) h
theorem Waits.confirmEpoch {ws e} (h : Waits cs s) : Waits cs (s.confirmEpoch ws e) :=
  .outside (State.confirmEpoch_outside rfl rfl rfl rfl rfl rfl rfl rfl ..) h
theorem Waits.dueCommit {pan b} (h : Waits cs s) : Waits cs (s.dueCommit pan b) :=
  .outside (State.dueCommit_outside rfl ..) h
theorem Waits.retractEpoch {ws e cause} (h : Waits cs s) : Waits cs (s.retractEpoch ws e cause) :=
  .outside (State.retractEpoch_outside rfl rfl rfl rfl rfl rfl rfl rfl rfl rfl rfl ..) h

theorem Waits.retractJob {job cause} (h : Waits cs s) : Waits cs (s.retractJob job cause) :=
  .forEach (fun _ _ h => .forEach (fun _ _ h => .retractEpoch h) h) h

theorem Waits.issueEpoch {ws slot step p} (h : Waits cs s) : Waits cs (s.issueEpoch ws slot step p) :=
  .outside (State.issueEpoch_outside rfl rfl rfl rfl rfl rfl rfl rfl rfl ..) h

theorem Waits.adopt {p e} (h : Waits cs s) : Waits cs (s.adopt p e) := by
  simp only [State.adopt]
  split
  · exact h
  · split
    · exact h
    · exact .modPan (.dropHolder (.addHolder h))

theorem Waits.loseFetch {pan} (h : Waits cs s) : Waits cs (s.loseFetch pan) := .frame (by rfl) h

theorem Waits.adoptAtBoundary {p} (h : Waits cs s) : Waits cs (s.adoptAtBoundary p) := by
  simp only [State.adoptAtBoundary]
  split
  · exact .modPan h
  · exact .ite (.modPan h) (.ite (.loseFetch (.bumpPan (.modPan h))) (.adopt (.ite (.bumpPan (.modPan h)) (.bumpPan
      (.modPan h)))))

/-! ### Whisk -/

theorem Waits.takeWords {lane n} (h : Waits cs s) : Waits cs (s.takeWords lane n).2 :=
  .outside (State.takeWords_outside rfl ..) h

theorem Waits.zeroBrickLanes {die brick} (h : Waits cs s) : Waits cs (s.zeroBrickLanes die brick) :=
  .frame (by rfl) h

theorem Waits.zeroSieveLanes {l} (h : Waits cs s) : Waits cs (s.zeroSieveLanes l) := .frame (by rfl) h

/-! ### Epochs -/

theorem Waits.sendWeights {w target e i b} (h : Waits cs s) : Waits cs (s.sendWeights w target e i b) :=
  .outside (State.sendWeights_outside rfl rfl ..) h
theorem Waits.countSealed {off good} (h : Waits cs s) : Waits cs (s.countSealed off good) :=
  .outside (State.countSealed_outside rfl ..) h

theorem Waits.streamChunk {w e i b} (h : Waits cs s) : Waits cs (s.streamChunk w e i b).1 := by
  simp only [State.streamChunk]
  split
  · exact .ite (.countSealed h) h
  · exact .modWset (.wrTier (.ite (.countSealed h) h))

theorem Waits.streamPiece {b} (h : Waits cs s) : Waits cs (s.streamPiece b).1 := by
  simp only [State.streamPiece]
  split
  · exact h
  · exact .iteFst h (.iteFst (.frame (by rfl) h) (.streamChunk (.frame (by rfl) h)))

theorem Waits.targetDead {ws dev} (h : Waits cs s) : Waits cs (s.targetDead ws dev) := by
  unfold State.targetDead
  split
  · exact h
  · split
    · exact .ite (.retractEpoch h) h
    · exact h

theorem Waits.execPublishChecks {ws others} (h : Waits cs s) : WaitsOut cs (execPublishChecks ws others s) := by
  simp only [Machine.execPublishChecks]
  split
  · exact .next h
  · refine .next ?_
    split
    · exact h
    · split
      · exact h
      · refine .whenRoom (fun _ h => ?_) h
        split
        · exact .retractEpoch h
        · exact .confirmEpoch h

theorem Waits.checkBoundary {pan poisoned} (h : Waits cs s) : Waits cs (s.checkBoundary pan poisoned) :=
  .frame (by rfl) h

theorem Waits.applyChange {ws c} (h : Waits cs s) : Waits cs (s.applyChange ws c) :=
  .outside (State.applyChange_outside rfl rfl rfl rfl rfl rfl rfl rfl rfl rfl rfl ..) h

/-! ### Array -/

theorem Waits.mxaErr {die brick kind optag} (h : Waits cs s) : Waits cs (s.mxaErr die brick kind optag) :=
  .outside (State.mxaErr_outside rfl ..) h
theorem Waits.endCommand {die brick c} (h : Waits cs s) : Waits cs (s.endCommand die brick c) :=
  .outside (State.endCommand_outside rfl rfl rfl ..) h
theorem Waits.mxaIssue {die brick w0 w1 w2 w3} (h : Waits cs s) : Waits cs (s.mxaIssue die brick w0 w1 w2 w3) :=
  .outside (State.mxaIssue_outside rfl rfl rfl ..) h
theorem Waits.drainArray {die brick ready} (h : Waits cs s) : Waits cs (s.drainArray die brick ready) :=
  .outside (State.drainArray_outside rfl rfl ..) h

theorem Waits.toDrain {die brick port r} (h : Waits cs s) : Waits cs (s.toDrain die brick port r) := .setArray h

theorem Waits.bankSet {die brick bank fl} (h : Waits cs s) : Waits cs (s.bankSet die brick bank fl) :=
  .outside (State.bankSet_outside rfl ..) h

theorem Waits.takeFeed {die brick c} (h : Waits cs s) : Waits cs (s.takeFeed die brick c) :=
  .outside (State.takeFeed_outside rfl ..) h

theorem Waits.drawWords {n} (h : Waits cs s) : Waits cs (s.drawWords n).2 := by
  simp only [State.drawWords]
  exact .frame (by rfl) h

theorem Waits.takeModes {die brick c vn} (h : Waits cs s) : Waits cs (s.takeModes die brick c vn).2 := by
  simp only [State.takeModes]
  exact .iteSnd (.takeWords h) h

theorem Waits.acceptClean {die brick c f} (h : Waits cs s) : Waits cs (s.acceptClean die brick c f) := by
  simp only [State.acceptClean]
  exact .named (fun h => .ite (.setArray (.toDrain (.bankSet (.takeModes h)))) h) (.setArray (.bankSet h))

theorem Waits.acceptPoison {die brick c cause} (h : Waits cs s) : Waits cs (s.acceptPoison die brick c cause) := by
  simp only [State.acceptPoison]
  split
  · split
    · exact .poisonOut (.toDrain (.drawBytes (.takeModes (.setArray (.drawWords h)))))
    · exact .toDrain (.drawBytes (.takeModes (.setArray (.drawWords h))))
  · exact .setArray (.drawWords h)

theorem Waits.acceptRow {die brick accError c f} (h : Waits cs s) : Waits cs (s.acceptRow die brick accError c f) :=
  .drainArray (.when .endCommand (.setArray (.named (fun h => .ite (.acceptClean h) (.acceptPoison h))
    (.when .mxaErr (.when .mxaErr (.when .bump (.bump (.takeFeed h))))))))

theorem Waits.applyMode {die brick} (h : Waits cs s) : Waits cs (s.applyMode die brick) :=
  .outside (State.applyMode_outside rfl ..) h
theorem Waits.requestMode {die brick v} (h : Waits cs s) : Waits cs (s.requestMode die brick v) :=
  .outside (State.requestMode_outside rfl ..) h

theorem Waits.fgParity {die brick} (h : Waits cs s) : Waits cs (s.fgParity die brick) :=
  .bump (.mxaErr (.setArray h))

theorem Waits.rowElastic {die brick accError segs c} (h : Waits cs s) :
    Waits cs (s.rowElastic die brick accError segs c) := by
  simp only [State.rowElastic]
  split
  · exact .bump h
  · exact .named (fun h => .ite (.acceptRow h) (.bump h)) (.setArray h)

theorem Waits.rowService {die brick accError c} (h : Waits cs s) : Waits cs (s.rowService die brick accError c) := by
  unfold State.rowService
  split
  · exact .bump h
  · exact .ite (.acceptRow h) (.bump h)

theorem Waits.rowTry {die brick accError parity segs groups} (h : Waits cs s) :
    Waits cs (s.rowTry die brick accError parity segs groups) := by
  simp only [State.rowTry]
  split
  · exact .when (fun h => .fgParity h) (.drainArray h)
  · exact .ite (.when (fun h => .fgParity h) (.drainArray h)) (.ite (.rowElastic (.when (fun h => .fgParity h)
      (.drainArray h))) (.rowService (.when (fun h => .fgParity h) (.drainArray h))))

/-! ### Flash -/

theorem Waits.setFlash {fd f} (h : Waits cs s) : Waits cs (s.setFlash fd f) :=
  .outside (State.setFlash_outside rfl ..) h
theorem Waits.flashTouch {ring off n} (h : Waits cs s) : Waits cs (s.flashTouch ring off n) :=
  .outside (State.flashTouch_outside rfl ..) h

theorem Waits.flashRead {off n} (h : Waits cs s) : Waits cs (s.flashRead off n) := by
  simp only [State.flashRead]
  split
  · exact h
  · refine .forEach (fun _ _ h => ?_) h
    split
    · exact .setFlash h
    · exact h

theorem Waits.flashSpare {fd} (h : Waits cs s) : Waits cs (s.flashSpare fd) :=
  .outside (State.flashSpare_outside rfl rfl rfl ..) h
theorem Waits.flashWear {fd} (h : Waits cs s) : Waits cs (s.flashWear fd) := .outside (State.flashWear_outside rfl ..) h

/-! ### Replay -/

theorem Waits.ringTouched {n off len} (h : Waits cs s) : Waits cs (s.ringTouched n off len) := by
  simp only [State.ringTouched]
  split
  · exact h
  · exact .ite h (.bump (.setRing h))

theorem Waits.hbmTouched {off len} (h : Waits cs s) : Waits cs (s.hbmTouched off len) :=
  .forEach (fun _ _ h => .ringTouched h) h

theorem Waits.completeRecord {ring stripe k w reward done trunc cause} (h : Waits cs s) :
    Waits cs (s.completeRecord ring stripe k w reward done trunc cause) :=
  .outside (State.completeRecord_outside rfl rfl rfl rfl rfl ..) h

theorem Waits.claimAnswer {ring i k old} (h : Waits cs s) : Waits cs (s.claimAnswer ring i k old) := by
  unfold State.claimAnswer
  split
  · exact h
  · exact .ite (.setRing h) h

theorem Waits.commitBlock {ring i k} (h : Waits cs s) : Waits cs (s.commitBlock ring i k) := by
  simp only [State.commitBlock]
  split
  · exact h
  · split
    · exact .setRing h
    · split
      · exact .setRing h
      · split
        · exact .subRecords (.setRing (.setRing h))
        · exact .subRecords (.setRing (.setRing h))
        · exact .subRecords (.setRing (.setRing h))
        · exact .setRing (.setRing h)

theorem Waits.closePartials {ring i k} (h : Waits cs s) : Waits cs (s.closePartials ring i k) := by
  unfold State.closePartials
  split
  · exact h
  · exact .forEach (fun _ _ h => .completeRecord h) h

theorem Waits.commitBlocks {pan step} (h : Waits cs s) : Waits cs (s.commitBlocks pan step) := by
  unfold State.commitBlocks
  refine .forEach (fun _ _ h => ?_) h
  split
  · exact h
  · refine .forEach (fun _ _ h => ?_) h
    split
    · exact h
    · exact .ite h (.ite (.commitBlock h) (.ite (.commitBlock (.closePartials h)) h))

end Kept

end Sys2Proof.Machine
end

section
/-!
The queue under pages, draws of attention, and the tiers.
-/

namespace Sys2Proof.Machine

section Kept

variable {cs : List Instr} {s t u : State}

/-! ### Pages -/

theorem Waits.takeFrame {pan tier n} (h : Waits cs s) : Waits cs (s.takeFrame pan tier n) :=
  .outside (State.takeFrame_outside rfl ..) h
theorem Waits.giveFrame {pan tier n} (h : Waits cs s) : Waits cs (s.giveFrame pan tier n) :=
  .outside (State.giveFrame_outside rfl ..) h
theorem Waits.setSeq {i q} (h : Waits cs s) : Waits cs (s.setSeq i q) := .outside (State.setSeq_outside rfl rfl ..) h
theorem Waits.modSeq {i f} (h : Waits cs s) : Waits cs (s.modSeq i f) := .outside (State.modSeq_outside rfl rfl ..) h
theorem Waits.setPte {k e} (h : Waits cs s) : Waits cs (s.setPte k e) := .outside (State.setPte_outside rfl rfl ..) h
theorem Waits.setIdent {tier addr i} (h : Waits cs s) : Waits cs (s.setIdent tier addr i) :=
  .outside (State.setIdent_outside rfl rfl ..) h
theorem Waits.modIdent {tier addr f} (h : Waits cs s) : Waits cs (s.modIdent tier addr f) :=
  .outside (State.modIdent_outside rfl rfl ..) h
theorem Waits.labDrop {pan seq layer page} (h : Waits cs s) : Waits cs (s.labDrop pan seq layer page) :=
  .outside (State.labDrop_outside rfl rfl ..) h

theorem Waits.labCommit {pan} (h : Waits cs s) : Waits cs (s.labCommit pan) := .frame (by rfl) h

theorem Waits.queuedAt {tier addr} (h : Waits cs s) : Waits cs (s.queuedAt tier addr) := by
  unfold State.queuedAt
  split
  · exact .bump h
  · exact h

theorem Waits.freePage {tier addr} (h : Waits cs s) : Waits cs (s.freePage tier addr) :=
  .outside (State.freePage_outside rfl rfl rfl ..) h
theorem Waits.releaseRef {tier addr} (h : Waits cs s) : Waits cs (s.releaseRef tier addr) :=
  .outside (State.releaseRef_outside rfl rfl rfl ..) h
theorem Waits.dropEntry {k} (h : Waits cs s) : Waits cs (s.dropEntry k) :=
  .outside (State.dropEntry_outside rfl rfl rfl rfl ..) h
theorem Waits.releaseSeq {seq} (h : Waits cs s) : Waits cs (s.releaseSeq seq) :=
  .outside (State.releaseSeq_outside rfl rfl rfl rfl ..) h

theorem Waits.endSeq {seq} (h : Waits cs s) : Waits cs (s.endSeq seq) := .modSeq (.releaseSeq h)

theorem Waits.dropPage {k} (h : Waits cs s) : Waits cs (s.dropPage k) :=
  .outside (State.dropPage_outside rfl rfl rfl rfl ..) h

theorem Waits.dropUntil {pan l} (h : Waits cs s) : Waits cs (dropUntil pan l s) := by
  induction l generalizing s with
  | nil => exact h
  | cons p rest ih => exact .ite h (ih (.dropPage h))

theorem Waits.allocPage {pan seq} (h : Waits cs s) : Waits cs (s.allocPage pan seq).2 := by
  simp only [State.allocPage]
  split
  · exact .takeFrame (.ite h (.dropUntil (.alarm (.bumpPan h))))
  · exact .ite h (.dropUntil (.alarm (.bumpPan h)))

theorem Waits.writeK {q tier addr j hd row} (h : Waits cs s) : Waits cs (s.writeK q tier addr j hd row) :=
  .named (fun h => .ite (.forEach (fun _ _ h => .wrTier h) h) h) (.forEach (fun _ _ h => .wrTier h) h)

theorem Waits.writeV {q tier addr j hd row} (h : Waits cs s) : Waits cs (s.writeV q tier addr j hd row) := by
  simp only [State.writeV]
  exact .named (fun h => .ite (.forEach (fun _ _ h => .wrTier (.drawBytes h)) h) h) (.forEach
    (fun _ _ h => .wrTier h) h)

theorem Waits.writeKV {q tier addr j k v} (h : Waits cs s) : Waits cs (s.writeKV q tier addr j k v) :=
  .forEach (fun _ _ h => .writeV (.writeK h)) h

theorem Waits.zeroPos {q tier addr j} (h : Waits cs s) : Waits cs (s.zeroPos q tier addr j) :=
  .forEach (fun _ _ h => .forEach (fun _ _ h => .wrTier h) (.forEach (fun _ _ h => .wrTier h) h)) h

theorem Waits.intoPage {k j row spec recompute} (h : Waits cs s) : Waits cs (s.intoPage k j row spec recompute) :=
  .setPte (.modIdent (.wrote (.writeKV (.ite h (.bump h)))))

theorem Waits.newPage {k page recomp} (h : Waits cs s) : Waits cs (s.newPage k page recomp).2 := by
  have alloc := h.allocPage (pan := (s.seq (pteSeq k)).pan) (seq := pteSeq k)
  simp only [State.newPage]
  split
  · next none => exact .ofSnd none alloc
  · next some => exact .setPte (.setIdent (.zeroTier (.ofSnd some alloc)))

theorem Waits.writePos {seq layer p row spec recompute} (h : Waits cs s) :
    Waits cs (s.writePos seq layer p row spec recompute) := by
  simp only [State.writePos]
  split
  · exact .alarm (.bumpPan h)
  · split
    · exact .bumpPan h
    · split
      · exact .ite (.intoPage h) (.ite (.intoPage (.setPte (.labDrop (.modIdent (.zeroTier h))))) h)
      · split
        · next new => exact .intoPage (.ofSnd new h.newPage)
        · next new => exact .ofSnd new h.newPage

theorem Waits.insertPrefix {seq k} (h : Waits cs s) : Waits cs (s.insertPrefix seq k) := by
  simp only [State.insertPrefix]
  exact .ite h (.dueCommit (.frame (by rfl) (.forEach (fun _ _ h => .modIdent h) h)))

theorem Waits.reuseBlock {seq k x} (h : Waits cs s) : Waits cs (s.reuseBlock seq k x) :=
  .bumpPan (.forEach (fun _ _ h => .setPte (.modIdent (.queuedAt h))) h)

theorem Waits.reuseFrom {seq n k prev hash} (h : Waits cs s) : Waits cs (reuseFrom seq n k prev hash s).2 := by
  induction n generalizing s k prev hash with
  | zero => exact h
  | succ n ih =>
    simp only [Machine.reuseFrom]
    split
    · exact h
    · exact .iteSnd (ih (.reuseBlock h)) (.bumpPan h)

theorem Waits.prefixReuse {seq tokens slot} (h : Waits cs s) : Waits cs (s.prefixReuse seq tokens slot) := by
  have reused {c : Prop} [Decidable c] {n k prev hash} {u : State} (h : Waits cs u) :
      Waits cs (if c then (0, u) else Machine.reuseFrom seq n k prev hash u).2 := .iteSnd h h.reuseFrom
  simp only [State.prefixReuse]
  exact .wrBrick (.ite (reused h.modSeq) (.modSeq (reused h.modSeq)))

theorem Waits.prefixCommit {job} (h : Waits cs s) : Waits cs (s.prefixCommit job) := by
  simp only [State.prefixCommit]
  split
  · exact h
  · exact .forEach (fun _ _ h => .releaseRef h) (.frame (by rfl) h)

theorem Waits.appendRow {layer row} (h : Waits cs s) : Waits cs (s.appendRow layer row).2 := by
  simp only [State.appendRow]
  exact .when (fun h => .insertPrefix h) (.ite (.writePos h) (.modSeq (.writePos h)))

theorem Waits.zeroAccept {q} (h : Waits cs s) : Waits cs (s.zeroAccept q) := .wrMem h

theorem Waits.settlePos {seq p keep} (h : Waits cs s) : Waits cs (s.settlePos seq p keep) :=
  .forEach (fun _ _ h => .ite (.named (fun h => .ite h (.zeroPos h)) (.modIdent h)) h) h

theorem Waits.settleTree {seq} (h : Waits cs s) : Waits cs (s.settleTree seq) :=
  .ite h (.forEach (fun _ _ h => .dropEntry h) (.modSeq (.bumpPan (.bumpPan (.forEach (fun _ _ h => .settlePos h)
    (.zeroAccept h))))))

theorem Waits.appendTree {layer seq acceptAt parents rows} (h : Waits cs s) :
    Waits cs (s.appendTree layer seq acceptAt parents rows) := by
  simp only [State.appendTree]
  exact .modSeq (.forEach (fun _ _ h => .writePos h) (.ite (.bumpPan (.zeroAccept (.setSeq h))) h))

theorem Waits.seqBoundary {pan} (h : Waits cs s) : Waits cs (s.seqBoundary pan) :=
  .forEach (fun _ _ h => .endSeq h) (.forEach (fun _ _ h => .settleTree h) h)

theorem Waits.endSeqs {pan} (h : Waits cs s) : Waits cs (s.endSeqs pan) := .forEach (fun _ _ h => .endSeq h) h

theorem Waits.cancelSeq {seq} (h : Waits cs s) : Waits cs (s.cancelSeq seq) := .ite (.modSeq h) h

theorem Waits.walk {die walker seq gen layer page} (h : Waits cs s) :
    Waits cs (s.walk die walker seq gen layer page).2 :=
  .outside (State.walk_outside rfl rfl ..) h

/-! ### Attend -/

theorem Waits.takeRows {pan c mb slice n is} (h : Waits cs s) : Waits cs (s.takeRows pan c mb slice n is).2 := by
  simp only [State.takeRows]
  refine .foldlSnd (fun a i h => ?_) h
  split
  · exact .takeSlice h
  · exact h

theorem Waits.attInputs {pan st d mb slice n} (h : Waits cs s) : Waits cs (s.attInputs pan st d mb slice n).2 := by
  simp only [State.attInputs]
  exact .takeRows (.takeRows (.takeRows (.takeRows h)))

theorem Waits.seqInputs {pan st d seq gen mb slice n} (h : Waits cs s) :
    Waits cs (s.seqInputs pan st d seq gen mb slice n).2 := by
  simp only [State.seqInputs]
  exact .takeRows (.takeRows (.takeRows h))

theorem Waits.walkPages {die l} (h : Waits cs s) : Waits cs (s.walkPages die l).2 :=
  .foldlSnd (fun _ _ h => .walk h) h

theorem Waits.poisonRow {d dim cause} (h : Waits cs s) : Waits cs (s.poisonRow d dim cause).2 := by
  simp only [State.poisonRow]
  exact .drawBytes h

theorem Waits.attRow {die pan layer d slow bad r e} (h : Waits cs s) :
    Waits cs (s.attRow die pan layer d slow bad r e).2 := by
  simp only [State.attRow]
  exact .iteSnd (.poisonRow (.when .bump h)) (.iteSnd (.when .bump h) (.iteSnd (.bumpPan (.when .bump h))
    (.when .bump h)))

theorem Waits.attRows {die pan layer d l} (h : Waits cs s) : Waits cs (s.attRows die pan layer d l).2 :=
  .foldlSnd (fun _ _ h => .attRow h) (.walkPages (.bump h))

theorem Waits.emitAtt {die pan st optag mb slice fmt outs} (h : Waits cs s) :
    Waits cs (s.emitAtt die pan st optag mb slice fmt outs) := by
  simp only [State.emitAtt]
  refine .foldlSnd (fun a o h => ?_) h
  split
  · exact h
  · exact .forEach (fun _ _ h => .give (.ite h (.poisonOut h))) h

theorem Waits.attend {die pan layer optag mb slice st d rows} (h : Waits cs s) :
    Waits cs (s.attend die pan layer optag mb slice st d rows) := by
  simp only [State.attend]
  exact .emitAtt (.attRows (.foldlSnd (fun _ _ h => .iteSnd (.appendRow h) h) h))

theorem Waits.attendTree {die pan layer seq optag mb slice st d parents rows} (h : Waits cs s) :
    Waits cs (s.attendTree die pan layer seq optag mb slice st d parents rows) := by
  simp only [State.attendTree]
  exact .ite h (.emitAtt (.attRows (.appendTree h)))

theorem Waits.recomputePage {layer seq page rows} (h : Waits cs s) :
    Waits cs (s.recomputePage layer seq page rows) :=
  .ite (.forEach (fun _ _ h => .writePos h) h) h

theorem Waits.onSeq {die seq gen} {f : State → State} (hf : ∀ t, Waits cs t → Waits cs (f t)) (h : Waits cs s) :
    Waits cs (s.onSeq die seq gen f) :=
  .ite (.bump h) (hf s h)

/-! ### Tiers -/

theorem Waits.setBuf {i b} (h : Waits cs s) : Waits cs (s.setBuf i b) := .outside (State.setBuf_outside rfl ..) h
theorem Waits.setMoves {m} (h : Waits cs s) : Waits cs (s.setMoves m) := .outside (State.setMoves_outside rfl ..) h
theorem Waits.endBuf {i} (h : Waits cs s) : Waits cs (s.endBuf i) := .outside (State.endBuf_outside rfl ..) h

theorem Waits.endBufs {pan} (h : Waits cs s) : Waits cs (s.endBufs pan) := .forEach (fun _ _ h => .endBuf h) h

theorem Waits.setMoving {tier addr v} (h : Waits cs s) : Waits cs (s.setMoving tier addr v) :=
  .outside (State.setMoving_outside rfl rfl ..) h

theorem Waits.dropSeqFetch {pan} (h : Waits cs s) : Waits cs (s.dropSeqFetch pan) := .modPan (.frame (by rfl) h)

theorem Waits.moveStart {die engine o dst} (h : Waits cs s) : Waits cs (s.moveStart die engine o dst) :=
  .outside (State.moveStart_outside rfl rfl rfl rfl ..) h
theorem Waits.moverFreed (h : Waits cs s) : Waits cs s.moverFreed :=
  .outside (State.moverFreed_outside rfl rfl rfl rfl ..) h
theorem Waits.applyAccess {tier base a} (h : Waits cs s) : Waits cs (s.applyAccess tier base a) :=
  .outside (State.applyAccess_outside rfl rfl ..) h

theorem Waits.applyQueue {tier base l} (h : Waits cs s) : Waits cs (s.applyQueue tier base l) :=
  .forEach (fun _ _ h => .applyAccess h) h

theorem Waits.modMove {k f} (h : Waits cs s) : Waits cs (s.modMove k f) := .outside (State.modMove_outside rfl ..) h

theorem Waits.endReleased {m flipped} (h : Waits cs s) : Waits cs (s.endReleased m flipped) := by
  simp only [State.endReleased]
  split
  · exact h
  · split
    · exact .giveFrame h
    · exact .freePage h

theorem Waits.releaseQueue {m} (h : Waits cs s) : Waits cs (s.releaseQueue m) := by
  simp only [State.releaseQueue]
  split
  · exact .applyQueue h
  · refine .forEach (fun _ _ h => ?_) h
    split
    · exact .frame (by rfl) h
    · exact .applyAccess h

theorem Waits.failMove {k m} (h : Waits cs s) : Waits cs (s.failMove k m) :=
  .named (fun h => .moverFreed (.bistMover (.endReleased (.setMoves (.bump (.giveFrame (.ite (.setMoving h) h)))))))
    (.releaseQueue h)

theorem Waits.poisonPage {tier addr cause tiles} (h : Waits cs s) : Waits cs (s.poisonPage tier addr cause tiles) :=
  .forEach (fun _ _ h => .setPte h) (.modIdent h)

theorem Waits.poisonBuf {i cause tiles} (h : Waits cs s) : Waits cs (s.poisonBuf i cause tiles) := .setBuf h

theorem Waits.poisonObj {m cause tiles} (h : Waits cs s) : Waits cs (s.poisonObj m cause tiles) := by
  unfold State.poisonObj
  split
  · exact .poisonBuf h
  · exact .poisonPage h

theorem Waits.copyTier {st sa dt da n} (h : Waits cs s) : Waits cs (s.copyTier st sa dt da n) := .wrTier h

theorem Waits.flip {m} (h : Waits cs s) : Waits cs (s.flip m) := by
  simp only [State.flip]
  split
  · exact .setBuf h
  · split
    · refine .bumpPan (.frame (by rfl) (.forEach (fun _ _ h => .labDrop (.setPte h)) ?_))
      split
      · exact .frame (by rfl) h
      · exact h
    · refine .bumpPan (.frame (by rfl) (.forEach (fun _ _ h => .labDrop (.setPte h)) ?_))
      split
      · exact .frame (by rfl) h
      · exact h

theorem Waits.goodCopy {k m} (h : Waits cs s) : Waits cs (s.goodCopy k m) :=
  .named (fun h => .named (fun h => .bump (.modMove (.flip (.ite (.flashTouch h) h)))) (.ite (.flashRead h) h))
    (.copyTier h)

theorem Waits.moveFailed {k m} (h : Waits cs s) : Waits cs (s.moveFailed k m) := .failMove (.frame (by rfl) h)

theorem Waits.copyDone {k r} (h : Waits cs s) : Waits cs (s.copyDone k r) := by
  unfold State.copyDone
  split
  · exact h
  · split
    · exact h
    · split
      · exact .ite (.moveFailed h) (.goodCopy h)
      · exact .failMove (.bump (.poisonObj h))
      · exact .moveFailed h
      · exact .moveFailed (.bump h)

theorem Waits.dropStub {k m} (h : Waits cs s) : Waits cs (s.dropStub k m) :=
  .moverFreed (.bistMover (.endReleased (.setMoves (.giveFrame h))))

theorem Waits.drained {k} (h : Waits cs s) : Waits cs (s.drained k) := by
  simp only [State.drained]
  split
  · exact h
  · exact .ite h (.named (fun h => .ite (.dropStub h) (.moverFreed h)) (.modMove (.applyQueue (.applyQueue h))))

theorem Waits.liftAll (h : Waits cs s) : Waits cs s.liftAll := .outside (State.liftAll_outside rfl rfl rfl rfl ..) h

theorem Waits.moveBoundary {pan} (h : Waits cs s) : Waits cs (s.moveBoundary pan) :=
  .forEach (fun _ _ h => .ite h (.ite (.dropStub h) (.modMove h))) (.liftAll (.frame (by rfl) h))

theorem Waits.mediumCount {space off corr retry bad} (h : Waits cs s) :
    Waits cs (s.mediumCount space off corr retry bad) := by
  simp only [State.mediumCount]
  split
  · exact .bump (.bump (.bump h))
  · exact .bump (.bump (.bump h))
  · exact .bump (.bump (.bump h))
  · exact h

theorem Waits.poisonTile {die brick off cause} (h : Waits cs s) : Waits cs (s.poisonTile die brick off cause) :=
  .wrBrick h

theorem Waits.flashRetries {off n} (h : Waits cs s) : Waits cs (s.flashRetries off n) := by
  simp only [State.flashRetries]
  split
  · exact .setFlash h
  · exact h

theorem Waits.entryPresent {pan step k} (h : Waits cs s) : Waits cs (s.entryPresent pan step k) :=
  .outside (State.entryPresent_outside rfl ..) h

theorem Waits.loadBg {pan entry bk off} (h : Waits cs s) : Waits cs (s.loadBg pan entry bk off) := by
  simp only [State.loadBg]
  split
  · exact .ite (.setArray h) h
  · exact h

theorem Waits.poisonFetch {pan bk off cause} (h : Waits cs s) : Waits cs (s.poisonFetch pan bk off cause) :=
  .poisonOut (.poisonTile h)

theorem Waits.reqDone {r} (h : Waits cs s) : Waits cs (s.reqDone r) := by
  simp only [State.reqDone]
  split
  · exact .named (fun h => .entryPresent (.loadBg (.ite (.poisonFetch (.bump h)) (.ite (.poisonFetch h) h))))
      (.wrBrick (.ite (.wrTier h) h))
  · exact .ite (.wrTier h) h

theorem Waits.poisonRecord {ring stripe k w cause} (h : Waits cs s) :
    Waits cs (s.poisonRecord ring stripe k w cause) := by
  simp only [State.poisonRecord]
  split
  · exact h
  · exact .setRing (.wrTier h)

theorem Waits.reqFail {r cause} (h : Waits cs s) : Waits cs (s.reqFail r cause) := by
  unfold State.reqFail
  split
  · exact .entryPresent (.loadBg (.poisonFetch h))
  · exact .poisonBuf h
  · exact .poisonPage h
  · exact .poisonRecord h
  · exact h

theorem Waits.tierTimeout {req} (h : Waits cs s) : Waits cs (s.tierTimeout req) := by
  simp only [State.tierTimeout]
  split
  · exact h
  · exact .ite h (.reqFail (.bump (.setReqs (.until h))))

theorem Waits.perturb {r x} (h : Waits cs s) : Waits cs (s.perturb r x).2.2 := by
  simp only [State.perturb, apply_ite Prod.snd]
  exact .ite h (.frame rfl h)

theorem Waits.respondTier {r x} (h : Waits cs s) : Waits cs (s.respondTier r x) := by
  simp only [State.respondTier]
  split
  · exact .named (fun h => .reqDone (.ite (.flashRetries h) h)) (.mediumCount h)
  · exact .reqFail (.bump (.mediumCount h))

theorem Waits.response {k x} (h : Waits cs s) : Waits cs (s.response k x) := by
  simp only [State.response]
  split
  · exact h
  · exact .ite (.bump (.setReqs h)) (.ite (.bump (.setReqs (.tierTimeout (.perturb h)))) (.respondTier (.setReqs
      (.perturb h))))

theorem Waits.msApply {space off op e data cmp} (h : Waits cs s) : Waits cs (s.msApply space off op e data cmp).2 :=
  .outside (State.msApply_outside rfl rfl ..) h

end Kept

end Sys2Proof.Machine
end

section
/-!
The queue under worlds, teardown and grains.
-/

namespace Sys2Proof.Machine

section Kept

variable {cs : List Instr} {s t u : State}

/-! ### World -/

theorem Waits.setWorld {w v} (h : Waits cs s) : Waits cs (s.setWorld w v) := .frame (State.setWorld_pending ..) h

theorem Waits.modWorld {w f} (h : Waits cs s) : Waits cs (s.modWorld w f) := .frame (State.modWorld_pending ..) h

theorem Waits.worldEvent {port f} (h : Waits cs s) : Waits cs (s.worldEvent port f) := .frame (by rfl) h

theorem Waits.putFrame {port f} (h : Waits cs s) : Waits cs (s.putFrame port f) :=
  .ite (.named (fun h => .ite (.bump h) h) (.frame (by rfl) h)) h

theorem Waits.sendFrame {i type tick aux ref body} (h : Waits cs s) :
    Waits cs (s.sendFrame i type tick aux ref body) :=
  .putFrame (.modWorld h)

theorem Waits.sendHello {i} (h : Waits cs s) : Waits cs (s.sendHello i) := .sendFrame h

theorem Waits.sendSync {i tick} (h : Waits cs s) : Waits cs (s.sendSync i tick) := .sendFrame h

theorem Waits.countReason {i port reason} (h : Waits cs s) : Waits cs (s.countReason i port reason) :=
  .ite h (.ite (.worldEvent (.modWorld h)) (.ite (.worldEvent (.modWorld h)) (.worldEvent (.modWorld h))))

theorem Waits.refuseFrame {port f reason} (h : Waits cs s) : Waits cs (s.refuseFrame port f reason) := by
  simp only [State.refuseFrame]
  exact .alarm (.countReason (.ite (.sendFrame h) (.putFrame h)))

theorem Waits.endAttach {i status} (h : Waits cs s) : Waits cs (s.endAttach i status) := by
  simp only [State.endAttach]
  split
  · exact .finishRef (.modWorld h)
  · exact .modWorld h

theorem Waits.detachWorld {i} (h : Waits cs s) : Waits cs (s.detachWorld i) := .modWorld h

theorem Waits.dropAttach {i} (h : Waits cs s) : Waits cs (s.dropAttach i) := .modWorld h

theorem Waits.stopWorld {i} (h : Waits cs s) : Waits cs (s.stopWorld i) :=
  .named (fun h => .ite (.detachWorld h) h) (.forEach (fun _ _ h => .finishRef h) (.modWorld h))

theorem Waits.spinWorld {i} (h : Waits cs s) : Waits cs (s.spinWorld i) := .modWorld h

theorem Waits.holdWorld {i} (h : Waits cs s) : Waits cs (s.holdWorld i) := .modWorld h

theorem Waits.spinWorlds {job} (h : Waits cs s) : Waits cs (s.spinWorlds job) :=
  .forEach (fun _ _ h => .spinWorld h) h

theorem Waits.dropWorlds {job status} (h : Waits cs s) : Waits cs (s.dropWorlds job status) := by
  unfold State.dropWorlds
  refine .forEach (fun _ _ h => ?_) h
  split
  · exact .dropAttach (.endAttach h)
  · exact .detachWorld h
  · exact h
  · exact .modWorld (.spinWorld h)

theorem Waits.latchFrame {i k} (h : Waits cs s) : Waits cs (s.latchFrame i k) := .modWorld h

theorem Waits.miss {i} (h : Waits cs s) : Waits cs (s.miss i) := by
  simp only [State.miss]
  exact .alarm (.worldEvent (.modWorld h))

theorem Waits.sendLatched {i k} (h : Waits cs s) : Waits cs (s.sendLatched i k) := by
  simp only [State.sendLatched]
  split
  · exact h
  · exact .ite h (.named (fun h => .ite (.stopWorld h) (.when .sendSync h))
      (.when .miss (.sendFrame (.modWorld h))))

theorem Waits.sendRepeats {port t} (h : Waits cs s) : Waits cs (s.sendRepeats port t) := by
  unfold State.sendRepeats
  refine .forEach (fun _ _ h => ?_) h
  split
  · exact .ite (.putFrame (.modWorld h)) h
  · exact h

theorem Waits.acceptAct {i g action} (h : Waits cs s) : Waits cs (s.acceptAct i g action) := .modWorld h

theorem Waits.giveVerdict {world time g r} (h : Waits cs s) : Waits cs (s.giveVerdict world time g r) :=
  .ite (.acceptAct h) (.named (fun h => .ite (.alarm h) h) (.worldEvent (.modWorld h)))

theorem Waits.execActionVerdict {pan world time} (h : Waits cs s) :
    WaitsOut cs (execActionVerdict pan world time s) := by
  simp only [Machine.execActionVerdict]
  refine .need (.next ?_)
  split
  · exact h
  · split
    · exact h
    · refine .withAct (fun _ h => ?_) (.until h)
      split
      · exact .giveVerdict (.takeThe h)
      · exact .takeThe h

theorem Waits.giveRows {pan} (h : Waits cs s) : Waits cs (s.giveRows pan) := .frame (by rfl) h

theorem Waits.listRows {pan} (h : Waits cs s) : Waits cs (s.listRows pan) := .modPan h

theorem Waits.fillPiece {n b} (h : Waits cs s) : Waits cs (s.fillPiece n b).2 := by
  simp only [State.fillPiece]
  exact .iteSnd h (.drawBytes h)

theorem Waits.fillObs {max n l} (h : Waits cs s) : Waits cs (s.fillObs max n l).2 := by
  induction l generalizing s n with
  | nil => exact h
  | cons b rest ih =>
    cases rest with
    | nil => exact .fillPiece h
    | cons c rest => exact ih (.fillPiece h)

theorem Waits.endObs {port time f p b} (h : Waits cs s) : Waits cs (s.endObs port time f p b) := 
  .ite (.refuseFrame h) (.ite (.refuseFrame h) (.withCsr (.modWorld h)))

theorem Waits.rxObs {port time f} (h : Waits cs s) : Waits cs (s.rxObs port time f) := by
  simp only [State.rxObs]
  split
  · exact .refuseFrame h
  · split
    · exact .refuseFrame h
    · split
      · exact .modWorld (.refuseFrame h)
      · split
        · exact .modWorld h
        · exact .endObs (.fillObs (.modWorld h))

theorem Waits.rxHello {port time f} (h : Waits cs s) : Waits cs (s.rxHello port time f) :=
  .ite (.ite (.named (fun h => .ite h (.holdWorld h)) (.endAttach (.sendSync (.modWorld h)))) (.dropAttach (.endAttach
    (.refuseFrame h)))) (.ite h (.refuseFrame h))

theorem Waits.rxFrame {port time f} (h : Waits cs s) : Waits cs (s.rxFrame port time f) := by
  simp only [State.rxFrame]
  refine .ite h (.ite (.refuseFrame (.when .bump (.until h))) (.ite (.refuseFrame (.when .bump (.until h))) ?_))
  split
  · exact .rxHello (.when .bump (.until h))
  · exact .rxObs (.when .bump (.until h))
  · exact .spinWorld (.when .bump (.until h))
  · exact .when .sendSync (.when .bump (.until h))

theorem Waits.attachWorld {c d pan} (h : Waits cs s) : Waits cs (s.attachWorld c d pan) := by
  simp only [State.attachWorld]
  split
  · exact .finish h
  · exact .sendHello (.setWorld (.beginCmd h))

theorem Waits.execWorldAttach {cmd} (h : Waits cs s) : WaitsOut cs (execWorldAttach cmd s) := by
  simp only [Machine.execWorldAttach]
  refine .next (.onCmd (fun _ _ h => ?_) h)
  split
  · exact .finish h
  · exact .ite (.finish h) (.attachWorld h)

theorem Waits.execWorldStop {cmd} (h : Waits cs s) : WaitsOut cs (execWorldStop cmd s) := by
  simp only [Machine.execWorldStop]
  refine .next (.onCmd (fun _ _ h => ?_) h)
  split
  · exact .finish h
  · split
    · exact .dropAttach (.endAttach (.finish h))
    · exact .finish h
    · exact .spinWorld (.modWorld (.beginCmd h))

theorem Waits.execWorldDetach {cmd} (h : Waits cs s) : WaitsOut cs (execWorldDetach cmd s) := by
  unfold Machine.execWorldDetach
  refine .next (.onCmd (fun _ _ h => ?_) h)
  split
  · exact .finish h
  · exact .ite (.finish (.detachWorld h)) (.finish h)

/-! ### Teardown -/

theorem Waits.killOpen {ring i} (h : Waits cs s) : Waits cs (s.killOpen ring i) := by
  simp only [State.killOpen]
  split
  · exact h
  · refine .forEach (fun _ _ h => ?_) (.setRing h)
    split
    · exact h
    · exact .named (fun h => .ite (.subRecords h) h) (.setRing h)

theorem Waits.killBlocks {pan} (h : Waits cs s) : Waits cs (s.killBlocks pan) := by
  unfold State.killBlocks
  refine .forEach (fun _ _ h => ?_) h
  split
  · exact h
  · exact .forEach (fun _ _ h => .killOpen h) h

theorem Waits.quietPan {p} (h : Waits cs s) : Waits cs (s.quietPan p) :=
  .modPan (.killBlocks (.unblockAll (.frame (by rfl) h)))

theorem Waits.endMoves {p} (h : Waits cs s) : Waits cs (s.endMoves p) := by
  unfold State.endMoves
  refine .forEach (fun _ _ h => ?_) h
  split
  · exact h
  · exact .ite (.failMove h) (.dropStub (.applyQueue h))

theorem Waits.unwait {p} (h : Waits cs s) : Waits cs (s.unwait p) :=
  .forEach (fun _ _ h => .ite (.dropStub h) (.modMove h)) h

theorem Waits.idleGrains {die b} (h : Waits cs s) : Waits cs (s.idleGrains die b) := .frame (by rfl) h

theorem Waits.releaseBrick {die b} (h : Waits cs s) : Waits cs (s.releaseBrick die b) :=
  .bistReleased (.setF (.setF (.setF (.setF (.setF (.zeroBrickLanes (.withBricks (.wipeCounters (.applyMode
    (.idleGrains h))))))))))

theorem Waits.freePan {p} (h : Waits cs s) : Waits cs (s.freePan p) :=
  have quiet : Waits cs ((((((s.quietPan p).endSeqs p).endBufs p).endMoves p).unwait p).dropHolder
      (s.pan p).cfg.ws (s.pan p).epoch) := .dropHolder (.unwait (.endMoves (.endBufs (.endSeqs (.quietPan h)))))
  .countBases (.setPan (.panTo (.forEach (fun _ _ h => .releaseBrick h) (.zeroSieveLanes (.withAtt quiet)))))

theorem Waits.nextJobGen {j} (h : Waits cs s) : Waits cs (s.nextJobGen j) := .modJob h

theorem Waits.endJobCmds {j status} (h : Waits cs s) : Waits cs (s.endJobCmds j status) :=
  .forEach (fun _ _ h => .finish h) h

theorem Waits.clearKeys {j} (h : Waits cs s) : Waits cs (s.clearKeys j) := .frame (by rfl) h

theorem Waits.dropPrefix {j} (h : Waits cs s) : Waits cs (s.dropPrefix j) := by
  simp only [State.dropPrefix]
  split
  · exact h
  · exact .forEach (fun _ _ h => .releaseRef h) (.frame (by rfl) h)

theorem Waits.teardown {j status} (h : Waits cs s) : Waits cs (s.teardown j status) :=
  .nextJobGen (.endJobCmds (.clearKeys (.dropWorlds (.retractJob (.dropPrefix (.forEach
    (fun _ _ h => .freePan h) h))))))

theorem Waits.faultJob {j kind unit} (h : Waits cs s) : Waits cs (s.faultJob j kind unit) :=
  .ite h (.teardown (.forEach (fun _ _ h => .panTo h) (.jobTo (.modJob h))))

theorem Waits.forgetJob {j} (h : Waits cs s) : Waits cs (s.forgetJob j) := .frame (by rfl) h

theorem Waits.destroyJob {j} (h : Waits cs s) : Waits cs (s.destroyJob j) := by
  simp only [State.destroyJob]
  split
  · exact .finishRef (.modJob (.jobTo (.forgetJob (.teardown (.modJob h)))))
  · exact .modJob (.jobTo (.forgetJob (.teardown (.modJob h))))

theorem Waits.destroyIfReady {j} (h : Waits cs s) : Waits cs (s.destroyIfReady j) :=
  .ite h (.ite (.destroyJob h) h)

theorem Waits.captureFault {die b g kind addr pc insn} (h : Waits cs s) :
    Waits cs (s.captureFault die b g kind addr pc insn) :=
  .ite (.bump h) (.bump (.setF (.setF (.setF (.setF (.setF (.setF (.setF h))))))))

theorem Waits.grainFault {die b g kind addr pc insn} (h : Waits cs s) :
    Waits cs (s.grainFault die b g kind addr pc insn) := by
  simp only [State.grainFault]
  split
  · exact .faultJob (.alarm (.captureFault (.modGrain h)))
  · exact .alarm (.captureFault (.modGrain h))

/-! ### Grain -/

theorem Waits.step {a g} (h : Waits cs s) : WaitsEnd cs (GAt.step a s g) := .done h

theorem Waits.csrInsn {a x w} (h : Waits cs s) : WaitsEnd cs (s.csrInsn a x w) := by
  simp only [State.csrInsn]
  split
  · exact .fault
  · split
    · exact .step (.iteSnd (.draw h) h)
    · split
      · exact .fault
      · exact .step (.iteSnd (.draw h) h)

theorem Waits.loadInsn {a x w} (h : Waits cs s) : WaitsEnd cs (s.loadInsn a x w) := by
  simp only [State.loadInsn]
  split
  · exact .fault
  · split
    · exact .fault
    · exact .step h

theorem Waits.storeInsn {a x w n v d} (h : Waits cs s) : WaitsEnd cs (s.storeInsn a x w n v d) := by
  simp only [State.storeInsn]
  split
  · exact .fault
  · exact .step (.taint (.wrBrick h))

theorem Waits.flwInsn {a x w} (h : Waits cs s) : WaitsEnd cs (s.flwInsn a x w) := by
  simp only [State.flwInsn]
  split
  · exact .fault
  · exact .step h

theorem Waits.fres {a x rd r d} (h : Waits cs s) : WaitsEnd cs (GAt.fres a s x rd r d) := .step h

theorem Waits.ires {a x rd r d} (h : Waits cs s) : WaitsEnd cs (GAt.ires a s x rd r d) := .step h

theorem Waits.fmaInsn {a x w} (h : Waits cs s) : WaitsEnd cs (s.fmaInsn a x w) := by
  simp only [State.fmaInsn]
  split
  · exact .fault
  · exact .ite .fault (.fres h)

theorem Waits.fpInsn {a x w} (h : Waits cs s) : WaitsEnd cs (s.fpInsn a x w) := by
  simp only [State.fpInsn]
  split
  · exact .fres h
  · exact .ires h
  · split
    · exact .fres h
    · split
      · exact .fault
      · split
        · exact .fres h
        · exact .ite (.ires h) (.ite (.fres h) .fault)

theorem Waits.spread {a src p dst q n} (h : Waits cs s) : Waits cs (s.spread t a src p dst q n) :=
  .ite h (.forEach (fun _ _ h => .taint h) h)

theorem Waits.slRld {a x rd rs1 rs2} (h : Waits cs s) : WaitsEnd cs (s.slRld a x rd rs1 rs2) := by
  simp only [State.slRld]
  split
  · exact .fault
  · exact .fault
  · exact .step (.spread (.wrBrick h))

theorem Waits.slRst {a x rd rs1 rs2} (h : Waits cs s) : WaitsEnd cs (s.slRst a x rd rs1 rs2) := by
  simp only [State.slRst]
  split
  · exact .fault
  · exact .fault
  · exact .step (.spread (.wrBrick h))

theorem Waits.slRred {a x rd rs1 rs2 fn} (h : Waits cs s) : WaitsEnd cs (s.slRred a x rd rs1 rs2 fn) := by
  simp only [State.slRred]
  split
  · exact .fault
  · split
    · exact .fault
    · exact .step h

theorem Waits.slPush {a x rd rs1 rs2} (h : Waits cs s) : WaitsEnd cs (s.slPush a x rd rs1 rs2) := by
  simp only [State.slPush]
  split
  · exact .fault
  · split
    · exact .fault
    · split
      · exact .fault
      · exact .ite .wait (.step (.ite (.emit h) (.poisonOut (.emit h))))

theorem Waits.slPop {a x rd rs1 rs2} (h : Waits cs s) : WaitsEnd cs (s.slPop a x rd rs1 rs2) := by
  simp only [State.slPop]
  split
  · exact .fault
  · split
    · exact .fault
    · split
      · exact .fault
      · split
        · exact .wait
        · exact .step (.taint (.wrBrick (.takeRow h)))

theorem Waits.slCred {a x rd rs1 rs2} (h : Waits cs s) : WaitsEnd cs (s.slCred a x rd rs1 rs2) := by
  simp only [State.slCred]
  split
  · exact .fault
  · split
    · exact .fault
    · exact .step h

theorem Waits.slDraw {a x rd rs1 rs2} (h : Waits cs s) : WaitsEnd cs (s.slDraw a x rd rs1 rs2) := by
  simp only [State.slDraw]
  exact .ite .fault (.step (.takeWords h))

theorem Waits.slDrawf {a x rd rs1 rs2} (h : Waits cs s) : WaitsEnd cs (s.slDrawf a x rd rs1 rs2) := by
  simp only [State.slDrawf]
  exact .ite .fault (.step (.takeWords h))

theorem Waits.slWaitb {a x rd rs1 rs2} (h : Waits cs s) : WaitsEnd cs (s.slWaitb a x rd rs1 rs2) :=
  .ite .fault (.step h)

theorem Waits.slFma2 {a x rd rs1 rs2 rs3 rm} (h : Waits cs s) : WaitsEnd cs (s.slFma2 a x rd rs1 rs2 rs3 rm) := by
  simp only [State.slFma2]
  split
  · exact .fault
  · split
    · exact .fault
    · exact .step h

theorem Waits.slBfma4 {a x rd rs1 rs2 rs3 rm} (h : Waits cs s) : WaitsEnd cs (s.slBfma4 a x rd rs1 rs2 rs3 rm) :=
  .ite .fault (.step h)

theorem Waits.custom0 {a x w} (h : Waits cs s) : WaitsEnd cs (s.custom0 a x w) := by
  simp only [State.custom0]
  split
  · exact .slRld h
  · exact .slRst h
  · exact .slRred h
  · exact .slPush h
  · exact .slPop h
  · exact .slCred h
  · exact .slDraw h
  · exact .slDrawf h
  · exact .slWaitb h
  · exact .fault

theorem Waits.custom1 {a x w} (h : Waits cs s) : WaitsEnd cs (s.custom1 a x w) := by
  unfold State.custom1
  split
  · exact .slFma2 h
  · exact .slBfma4 h
  · exact .fault

theorem WaitsEnd.ebreakOp {a} : WaitsEnd cs (s.ebreakOp a) := .ite .halt .fault

theorem Waits.jump {a x rd target} (h : Waits cs s) : WaitsEnd cs (GAt.jump a s x rd target) := .done h

theorem Waits.aluInsn {a x w imm} (h : Waits cs s) : WaitsEnd cs (s.aluInsn a x w imm) :=
  .ite (.step h) (.ite (.step h) (.ite (.step h) .fault))

theorem Waits.execWord {a x w} (h : Waits cs s) : WaitsEnd cs (s.execWord a x w) := by
  unfold State.execWord
  split
  · exact .step h
  · exact .step h
  · exact .jump h
  · exact .ite (.jump h) .fault
  · split
    · exact .fault
    · exact .done h
    · exact .step h
  · exact .loadInsn h
  · exact .ite (.storeInsn h) .fault
  · exact .aluInsn h
  · exact .aluInsn h
  · exact .ite (.step h) .fault
  · exact .ite .fault (.ite .ebreakOp (.ite (.csrInsn h) .fault))
  · exact .ite (.flwInsn h) .fault
  · exact .ite (.storeInsn h) .fault
  · exact .fmaInsn h
  · exact .fmaInsn h
  · exact .fmaInsn h
  · exact .fmaInsn h
  · exact .fpInsn h
  · exact .custom0 h
  · exact .custom1 h
  · exact .fault

theorem Waits.endInsn {a x insn cyc r} (h : Waits cs s) (hr : WaitsEnd cs r) : Waits cs (s.endInsn a x insn cyc r) := by
  unfold State.endInsn
  cases r with
  | done t y => exact .setGrain (hr t y rfl)
  | wait => exact .setGrain h
  | halt =>
    dsimp only
    split
    · exact .destroyIfReady (.setGrain h)
    · exact .setGrain h
  | fault k addr => exact .grainFault h

theorem Waits.eccFix {die b ecc} (h : Waits cs s) : Waits cs (s.eccFix die b ecc) := .ite (.bump h) h

theorem Waits.withEcc {a x insn cyc push} {f : State → GOut} (hf : ∀ t, Waits cs t → WaitsEnd cs (f t))
    (h : Waits cs s) : Waits cs (s.withEcc a x insn cyc push f) :=
  .endInsn (.eccFix h) (.ite .fault (hf _ (.eccFix h)))

theorem Waits.runRow {die brick g cyc ecc insn} {f : State → GAt → Grain → GOut}
    (hf : ∀ t a x, Waits cs t → WaitsEnd cs (f t a x)) (h : Waits cs s) :
    WaitsOut cs (s.runRow die brick g cyc ecc insn f) :=
  .need (.next (.ite (.withEcc (fun t => hf t _ _) h) h))

theorem Waits.execGrainInstruction {die brick grain cyc ecc} (h : Waits cs s) :
    WaitsOut cs (execGrainInstruction die brick grain cyc ecc s) := by
  simp only [Machine.execGrainInstruction]
  refine .need (.next ?_)
  split
  · exact h
  · split
    · exact .endInsn h .fault
    · split
      · exact .withEcc (fun _ h => .execWord h) h
      · exact .endInsn h .fault

theorem Waits.execSlRld {die brick grain rd rs1 rs2 cyc ecc} (h : Waits cs s) :
    WaitsOut cs (execSlRld die brick grain rd rs1 rs2 cyc ecc s) :=
  .runRow (fun _ _ _ h => .slRld h) h

theorem Waits.execSlRst {die brick grain rd rs1 rs2 cyc ecc} (h : Waits cs s) :
    WaitsOut cs (execSlRst die brick grain rd rs1 rs2 cyc ecc s) :=
  .runRow (fun _ _ _ h => .slRst h) h

theorem Waits.execSlRred {die brick grain rd rs1 rs2 fn cyc ecc} (h : Waits cs s) :
    WaitsOut cs (execSlRred die brick grain rd rs1 rs2 fn cyc ecc s) :=
  .runRow (fun _ _ _ h => .slRred h) h

theorem Waits.execSlPush {die brick grain rd rs1 rs2 cyc ecc} (h : Waits cs s) :
    WaitsOut cs (execSlPush die brick grain rd rs1 rs2 cyc ecc s) :=
  .runRow (fun _ _ _ h => .slPush h) h

theorem Waits.execSlPop {die brick grain rd rs1 rs2 cyc ecc} (h : Waits cs s) :
    WaitsOut cs (execSlPop die brick grain rd rs1 rs2 cyc ecc s) :=
  .runRow (fun _ _ _ h => .slPop h) h

theorem Waits.execSlCred {die brick grain rd rs1 rs2 cyc ecc} (h : Waits cs s) :
    WaitsOut cs (execSlCred die brick grain rd rs1 rs2 cyc ecc s) :=
  .runRow (fun _ _ _ h => .slCred h) h

theorem Waits.execSlDraw {die brick grain rd rs1 rs2 cyc ecc} (h : Waits cs s) :
    WaitsOut cs (execSlDraw die brick grain rd rs1 rs2 cyc ecc s) :=
  .runRow (fun _ _ _ h => .slDraw h) h

theorem Waits.execSlDrawf {die brick grain rd rs1 rs2 cyc ecc} (h : Waits cs s) :
    WaitsOut cs (execSlDrawf die brick grain rd rs1 rs2 cyc ecc s) :=
  .runRow (fun _ _ _ h => .slDrawf h) h

theorem Waits.execSlWaitb {die brick grain rd rs1 rs2 cyc ecc} (h : Waits cs s) :
    WaitsOut cs (execSlWaitb die brick grain rd rs1 rs2 cyc ecc s) :=
  .runRow (fun _ _ _ h => .slWaitb h) h

theorem Waits.execSlFma2 {die brick grain rd rs1 rs2 rs3 rm cyc ecc} (h : Waits cs s) :
    WaitsOut cs (execSlFma2 die brick grain rd rs1 rs2 rs3 rm cyc ecc s) :=
  .runRow (fun _ _ _ h => .slFma2 h) h

theorem Waits.execSlBfma4 {die brick grain rd rs1 rs2 rs3 rm cyc ecc} (h : Waits cs s) :
    WaitsOut cs (execSlBfma4 die brick grain rd rs1 rs2 rs3 rm cyc ecc s) :=
  .runRow (fun _ _ _ h => .slBfma4 h) h

theorem Waits.enterReset {d} (h : Waits cs s) : Waits cs (s.enterReset d) := by
  simp only [State.enterReset]
  exact .forEach (fun _ _ h => .modGrain (.draw h)) h

theorem Waits.modDev {pan w f} (h : Waits cs s) : Waits cs (s.modDev pan w f) := .modPan h

theorem Waits.resetWorld {pan d} (h : Waits cs s) : Waits cs (s.resetWorld pan d) := by
  simp only [State.resetWorld]
  refine .enterReset (.modDev ?_)
  split
  · exact .cancelSeq h
  · exact h

theorem Waits.worldReturned {pan w} (h : Waits cs s) : Waits cs (s.worldReturned pan w) := by
  simp only [State.worldReturned]
  split
  · exact h
  · exact .ite (.resetWorld h) h

theorem Waits.execSentinelReturn {die brick grain} (h : Waits cs s) :
    WaitsOut cs (execSentinelReturn die brick grain s) := by
  simp only [Machine.execSentinelReturn]
  refine .need (.next ?_)
  split
  · exact h
  · exact .ite h (.named (fun h => .worldReturned (.ite (.modDev h) h)) (.setGrain h))

end Kept

end Sys2Proof.Machine
end

section
/-!
The queue under placement, loads of a pan, rings, exchanges and schedules.
-/

namespace Sys2Proof.Machine

section Kept

variable {cs : List Instr} {s t u : State}

/-! ### Place -/

theorem Waits.resetPanRegs {p} (h : Waits cs s) : Waits cs (s.resetPanRegs p) := .frame (by rfl) h

theorem Waits.resetRingRegs {r} (h : Waits cs s) : Waits cs (s.resetRingRegs r) := .frame (by rfl) h

theorem Waits.auditLoadClamp {o job pan kind off written eff} (h : Waits cs s) :
    Waits cs (s.auditLoadClamp o job pan kind off written eff) :=
  .ite h (.audit1 h)

theorem Waits.loadWin {o job pan kbase size w} (h : Waits cs s) : Waits cs (s.loadWin o job pan kbase size w).2 := by
  simp only [State.loadWin]
  exact .iteSnd h (.auditLoadClamp (.draw h))

theorem Waits.placeGrain {o job pan d g} (h : Waits cs s) : Waits cs (s.placeGrain o job pan d g) := by
  simp only [State.placeGrain]
  exact .ite (.frame (by rfl) (.loadWin (.loadWin h))) (.ite (.setGrain (.loadWin (.loadWin h))) (.setGrain (.when
    (fun h => .clrMem h) (.loadWin (.loadWin h)))))

theorem Waits.ownBrick {p die b} (h : Waits cs s) : Waits cs (s.ownBrick p die b) :=
  .setF (.setF (.setF (.wipeCounters h)))

theorem Waits.loadBrick {o job p perf d} (h : Waits cs s) : Waits cs (s.loadBrick o job p perf d) :=
  .forEach (fun _ _ h => .placeGrain h) (.frame (s := s) rfl h)

theorem Waits.addBricks {p l} (h : Waits cs s) : Waits cs (s.addBricks p l) :=
  .forEach (fun _ _ h => .zeroBrickLanes (.ownBrick h)) h

theorem Waits.loadBricks {o job p perf ds l} (h : Waits cs s) : Waits cs (s.loadBricks o job p perf ds l) :=
  .forEach (fun _ _ h => .loadBrick h) h

theorem Waits.bindSieves {old new} (h : Waits cs s) : Waits cs (s.bindSieves old new) := .zeroSieveLanes h

theorem Waits.placeDev {ds w} (h : Waits cs s) : Waits cs (s.placeDev ds w).2 := by
  simp only [State.placeDev]
  exact .clrMem (.draw h)

theorem Waits.placeDevs {ds old l} (h : Waits cs s) : Waits cs (placeDevs ds old l s).2 := by
  induction l generalizing s with
  | nil => exact h
  | cons w rest ih =>
    simp only [Machine.placeDevs]
    split
    · exact ih h
    · exact ih (.placeDev h)

theorem Waits.openPan {d} (h : Waits cs s) : Waits cs (s.openPan d) :=
  .addBricks (.panTo (.withTier (.resetPanRegs (.setPan h))))

theorem Waits.fillPan {o d ds} (h : Waits cs s) : Waits cs (s.fillPan o d ds) := by
  simp only [State.fillPan]
  exact .modPan (.placeDevs (.bindSieves (.loadBricks h)))

theorem Waits.placeAdded {o p d ds} (h : Waits cs s) : Waits cs (s.placeAdded o p d ds) :=
  .loadBricks (.addBricks h)

theorem Waits.dropBrick {die b} (h : Waits cs s) : Waits cs (s.dropBrick die b) := .releaseBrick (.clrMem h)

theorem Waits.applyResize {o p d ds} (h : Waits cs s) : Waits cs (s.applyResize o p d ds) := by
  simp only [State.applyResize]
  refine .modPan (.placeDevs (.frame (by rfl) (.forEach (fun _ _ h => .dropBrick h) (.zeroSieveLanes
    (.bindSieves (.loadBricks (.forEach (fun _ _ h => ?_) h)))))))
  split
  · exact .cancelSeq h
  · exact h

/-! ### Cut -/

theorem Waits.releasePan {p} (h : Waits cs s) : Waits cs (s.releasePan p) :=
  .setF (.setF (.listRows (.giveRows (.modPan h))))

theorem Waits.stewardMode {j p die brick v} (h : Waits cs s) : Waits cs (s.stewardMode j p die brick v) :=
  .requestMode (.audit1 h)

theorem Waits.panMode {p v} (h : Waits cs s) : Waits cs (s.panMode p v) := .forEach (fun _ _ h => .stewardMode h) h

theorem Waits.startPan {p} (h : Waits cs s) : Waits cs (s.startPan p) :=
  .named (fun h => .releasePan (.panTo (.ite (.adopt h) h))) (.panMode h)

theorem Waits.setCkp {j c} (h : Waits cs s) : Waits cs (s.setCkp j c) := .frame (State.setCkp_pending ..) h

theorem Waits.modCkp {j f} (h : Waits cs s) : Waits cs (s.modCkp j f) := .frame (State.modCkp_pending ..) h

theorem Waits.toBuddy {j off b} (h : Waits cs s) : Waits cs (s.toBuddy j off b) := by
  unfold State.toBuddy
  split
  · exact h
  · exact .ite h (.forEach (fun _ _ h => .issue h) h)

theorem Waits.toRegions {j off b} (h : Waits cs s) : Waits cs (s.toRegions j off b) := .toBuddy (.wrTier h)

theorem Waits.writeCopy {j i d e data} (h : Waits cs s) : Waits cs (s.writeCopy j i d e data) := by
  unfold State.writeCopy
  split
  · exact h
  · exact .toRegions h

theorem Waits.drawForm (h : Waits cs s) : Waits cs s.drawForm.2 := by
  simp only [State.drawForm]
  exact .drawBytes (.draw h)

theorem Waits.captureShard {j i d} (h : Waits cs s) : Waits cs (s.captureShard j i d) := by
  simp only [State.captureShard]
  split
  · exact h
  · exact .ite (.writeCopy (.setCkp (.iteSnd h (.drawForm h)))) (.setCkp h)

theorem Waits.writeManifest {j} (h : Waits cs s) : Waits cs (s.writeManifest j) := by
  simp only [State.writeManifest]
  split
  · exact h
  · exact .toRegions (.setCkp h)

theorem Waits.durableDue {j c} (h : Waits cs s) : Waits cs (s.durableDue j c) :=
  .ite h (.ite (.bump h) (.setCkp h))

theorem Waits.makeWhole {j} (h : Waits cs s) : Waits cs (s.makeWhole j) := by
  simp only [State.makeWhole]
  split
  · exact h
  · exact .durableDue (.setF (.setCkp h))

theorem Waits.settleCut {j} (h : Waits cs s) : Waits cs (s.settleCut j) :=
  .ite h (.named (fun h => .ite (.makeWhole (.modCkp h)) h) (.writeManifest h))

theorem Waits.takePart {j p next anchor} (h : Waits cs s) : Waits cs (s.takePart j p next anchor) := by
  simp only [State.takePart]
  split
  · exact h
  · exact .settleCut (.forEach (fun _ _ h => .ite (.captureShard h) h) (.setCkp h))

theorem Waits.takeCut {j p n} (h : Waits cs s) : Waits cs (s.takeCut j p n) :=
  .forEach (fun _ _ h => .takePart h) (.modCkp (.takePart (.setF (.setCkp h))))

theorem Waits.cutAtBoundary {p n} (h : Waits cs s) : Waits cs (s.cutAtBoundary p n) := by
  simp only [State.cutAtBoundary]
  split
  · exact h
  · split
    · split
      · exact h
      · exact .ite (.takeCut (.makeWhole h)) (.ite (.takeCut h) (.bump h))
    · exact .ite (.takePart h) h

theorem Waits.drawRegs {i n} (h : Waits cs s) : Waits cs (drawRegs i n s).2 := by
  induction n generalizing s i with
  | zero => exact h
  | succ n ih => exact ih (.draw (w := 32) h)

/-- The draws are kept from being unfolded: the definition is opened with a name in their place. -/
theorem Waits.blurGrain {die b g} (h : Waits cs s) : Waits cs (s.blurGrain die b g) := by
  obtain ⟨draw, drawn⟩ : ∃ draw, State.drawBytes = draw := ⟨_, rfl⟩
  have kept {t n} (h : Waits cs t) : Waits cs (draw t n).2 := drawn ▸ h.drawBytes
  generalize e : State.blurGrain = f
  delta State.blurGrain at e
  rw [drawn] at e
  subst e
  rcases ints : Machine.drawRegs 1 31 s with ⟨x, s₁⟩
  beta_reduce
  rw [ints]
  dsimp only
  rcases floats : Machine.drawRegs 0 32 s₁ with ⟨f, s₂⟩
  exact .modGrain (.wrBrick (.draw (w := 48) (kept (.ofSnd floats (.drawRegs (.ofSnd ints h.drawRegs))))))

/-- The draws are kept from being unfolded: the definition is opened with a name in their place. -/
theorem Waits.blurBrick {die b} (h : Waits cs s) : Waits cs (s.blurBrick die b) := by
  obtain ⟨draw, drawn⟩ : ∃ draw, State.drawBytes = draw := ⟨_, rfl⟩
  have kept {t n} (h : Waits cs t) : Waits cs (draw t n).2 := drawn ▸ h.drawBytes
  generalize e : State.blurBrick = f
  delta State.blurBrick at e
  rw [drawn] at e
  subst e
  exact .forEach (fun _ _ h => .ite (.blurGrain h) h) (.wrBrick (.wrBrick (kept h)))

theorem Waits.forgetSeqs {p} (h : Waits cs s) : Waits cs (s.forgetSeqs p) :=
  .forEach (fun _ _ h => .modSeq h) (.forEach (fun _ _ h => .modSeq h) (.endSeqs h))

theorem Waits.haltPan {p} (h : Waits cs s) : Waits cs (s.haltPan p) := by
  simp only [State.haltPan]
  exact .modPan (.panMode (.panTo (.unwait (.endMoves (.forgetSeqs (.quietPan h))))))

theorem Waits.restoreSet {newest ws w} (h : Waits cs s) : Waits cs (s.restoreSet newest ws w) := by
  simp only [State.restoreSet]
  refine .setWset ?_
  split
  · exact .ite (.failImage h) h
  · exact h

theorem Waits.retractDrafts {ws} (h : Waits cs s) : Waits cs (s.retractDrafts ws) := by
  unfold State.retractDrafts
  split
  · exact h
  · exact .forEach (fun _ _ h => .retractEpoch h) h

theorem Waits.restoreRing {r g} (h : Waits cs s) : Waits cs (s.restoreRing r g) :=
  .forEach (fun _ _ h => .killOpen h) (.setRing h)

theorem Waits.restorePart {sets c} (h : Waits cs s) : Waits cs (s.restorePart sets c) := .frame (by rfl) h

theorem Waits.recount {ws} (h : Waits cs s) : Waits cs (s.recount ws) := by
  simp only [State.recount]
  split
  · exact .modWset h
  · exact .forEach (fun _ _ h => .retireIfDone (.reportEpoch h)) (.modWset h)

theorem Waits.restoreCut {j c newest} (h : Waits cs s) : Waits cs (s.restoreCut j c newest) :=
  .forEach (fun _ _ h => .recount h) (.forEach (fun _ _ h => .restorePart h) (.forEach (fun _ _ h => .retractDrafts h)
    (.forEach (fun _ _ h => .restoreRing h) (.forEach (fun _ _ h => .restoreSet h) (.forEach (fun _ _ h => .wrTier h)
    (.forEach (fun _ _ h => .forEach (fun _ _ h => .blurBrick h) h) (.holdWorlds (.forEach
    (fun _ _ h => .haltPan h) h))))))))

theorem Waits.enterRestore {j} (h : Waits cs s) : Waits cs (s.enterRestore j) := .nextJobGen (.jobTo h)

theorem Waits.endAdoption {j status} (h : Waits cs s) : Waits cs (s.endAdoption j status) := by
  simp only [State.endAdoption]
  split
  · exact h
  · exact .ite h (.finishRef (.setF (.frame (by rfl) h)))

theorem Waits.resumeJob {j} (h : Waits cs s) : Waits cs (s.resumeJob j) :=
  .forEach (fun _ _ h => .startPan h) (.jobTo h)

/-! ### Sections -/

theorem Waits.auditClamps {o job pan l} (h : Waits cs s) : Waits cs (s.auditClamps o job pan l) := by
  simp only [State.auditClamps]
  exact .forEach (fun _ _ h => .auditLoadClamp (.draw h)) h

theorem Waits.loadSets {j l} (h : Waits cs s) : Waits cs (s.loadSets j l) := by
  unfold State.loadSets
  refine .forEach (fun _ _ h => ?_) h
  split
  · exact .setWset h
  · exact .setWset (.zeroTier h)

theorem Waits.loadRings {j l} (h : Waits cs s) : Waits cs (s.loadRings j l) := by
  simp only [State.loadRings]
  refine .forEach (fun _ _ h => ?_) h
  split
  · exact .ite (.setRing h) h
  · exact .setRing (.resetRingRegs (.ite h (.zeroTier (.zeroTier (.zeroTier h)))))

theorem Waits.loadGroups {j l} (h : Waits cs s) : Waits cs (s.loadGroups j l) :=
  .forEach (fun _ _ h => .named (fun h => .ite (.alarm h) h) (.frame (by rfl) h)) h

theorem Waits.loadJob {d} (h : Waits cs s) : Waits cs (s.loadJob d) :=
  .loadGroups (.loadRings (.loadSets (.modJob h)))

theorem Waits.loadScheds {l} (h : Waits cs s) : Waits cs (s.loadScheds l) := .frame (by rfl) h

theorem Waits.loadGates {l} (h : Waits cs s) : Waits cs (s.loadGates l) :=
  .forEach (fun _ _ h => .setF (.setB (.frame (by rfl) h))) h

theorem Waits.loadWeights {l} (h : Waits cs s) : Waits cs (s.loadWeights l) :=
  .forEach (fun _ _ h => .setF (.setF h)) h

theorem Waits.loadTiers {d} (h : Waits cs s) : Waits cs (s.loadTiers d) :=
  .setF (.forEach (fun _ _ h => .setF h) (.frame (by rfl) h))

theorem Waits.wo1Load {o f l v} (h : Waits cs s) : Waits cs (s.wo1Load o f l v) :=
  .ite h (.frame (by rfl) (.audit1 h))

theorem Waits.addKey {o k} (h : Waits cs s) : Waits cs (s.addKey o k) := by
  simp only [State.addKey]
  split
  · exact h
  · exact .frame (by rfl) (.audit1 h)

theorem Waits.loadSecurity {o d} (h : Waits cs s) : Waits cs (s.loadSecurity o d) :=
  .forEach (fun _ _ h => .addKey h) (.frame (by rfl) (.forEach (fun _ _ h => .wo1Load h) h))

theorem Waits.lockOne {o d b} (h : Waits cs s) : Waits cs (s.lockOne o d b) := .setF (.audit1 h)

theorem Waits.lockBlocks {o v} (h : Waits cs s) : Waits cs (s.lockBlocks o v) :=
  .forEach (fun _ _ h => .lockOne h) h

theorem Waits.loadPanSections {c} (h : Waits cs s) : Waits cs (s.loadPanSections c) :=
  .loadGates (.loadScheds (.forEach (fun _ _ h => .loadJob h) h))

theorem Waits.keepContent {j c} (h : Waits cs s) : Waits cs (s.keepContent j c) := .modJob h

theorem Waits.resizeNow {p} (h : Waits cs s) : Waits cs (s.resizeNow p) := by
  simp only [State.resizeNow]
  split
  · exact h
  · split
    · exact h
    · exact .finishRef (.modCkp (.keepContent (.loadPanSections (.applyResize h))))

/-! ### Rings -/

theorem Waits.ringTo {level st} (h : Waits cs s) : Waits cs (s.ringTo level st) :=
  .outside (State.ringTo_outside rfl ..) h
theorem Waits.setWring {level w} (h : Waits cs s) : Waits cs (s.setWring level w) :=
  .outside (State.setWring_outside rfl ..) h
theorem Waits.modWring {level f} (h : Waits cs s) : Waits cs (s.modWring level f) :=
  .outside (State.modWring_outside rfl ..) h

theorem Waits.sendFb {dev job c} (h : Waits cs s) : Waits cs (s.sendFb dev job c) := .transmit (.bump h)

theorem Waits.fbToMaster {level job c} (h : Waits cs s) : Waits cs (s.fbToMaster level job c) := by
  unfold State.fbToMaster
  split
  · exact .sendFb h
  · exact h

theorem Waits.modOp {level wgroup opnum f} (h : Waits cs s) : Waits cs (s.modOp level wgroup opnum f) :=
  .frame (by rfl) h

theorem Waits.startOp {o} (h : Waits cs s) : Waits cs (s.startOp o) :=
  .named (fun h => .ite (.modWring h) (.ite h (.fbToMaster h))) (.frame (by rfl) (.ite h (.modWring h)))

theorem Waits.issueOp0 {g o} (h : Waits cs s) : Waits cs (s.issueOp0 g o).1 := by
  simp only [State.issueOp0]
  exact .startOp (.frame (by rfl) h)

/-! ### Collective -/

theorem Waits.setExch {k x} (h : Waits cs s) : Waits cs (s.setExch k x) := .outside (State.setExch_outside rfl ..) h
theorem Waits.wrAt {a b} (h : Waits cs s) : Waits cs (s.wrAt a b) := .outside (State.wrAt_outside rfl ..) h
theorem Waits.setLanding {k l} (h : Waits cs s) : Waits cs (s.setLanding k l) :=
  .outside (State.setLanding_outside rfl ..) h
theorem Waits.fold {k} (h : Waits cs s) : Waits cs (s.fold k) := .outside (State.fold_outside rfl rfl rfl ..) h
theorem Waits.land {k rank off b} (h : Waits cs s) : Waits cs (s.land k rank off b) :=
  .outside (State.land_outside rfl rfl rfl ..) h

theorem Waits.landWrite {p d c a b} (h : Waits cs s) : Waits cs (s.landWrite p d c a b) := by
  simp only [State.landWrite]
  split
  · exact h
  · exact .land (.setLanding h)

theorem Waits.sendColl {x r kind b} (h : Waits cs s) : Waits cs (s.sendColl x r kind b) :=
  .outside (State.sendColl_outside rfl rfl ..) h
theorem Waits.stationResult {pan station b} (h : Waits cs s) : Waits cs (s.stationResult pan station b) :=
  .outside (State.stationResult_outside rfl ..) h

theorem Waits.chunkGone {x c} (h : Waits cs s) : Waits cs (s.chunkGone x c) := .freeEntry h

theorem Waits.stepExch {k} (h : Waits cs s) : Waits cs (s.stepExch k) :=
  .outside (State.stepExch_outside rfl rfl rfl rfl rfl rfl ..) h

theorem Waits.chunkAck {k chunk} (h : Waits cs s) : Waits cs (s.chunkAck k chunk) := by
  simp only [State.chunkAck]
  split
  · exact h
  · split
    · exact h
    · exact .ite (.setExch h) (.stepExch (.setExch (.chunkGone (.ite (.bump h) h))))

theorem Waits.countsHeld {k} (h : Waits cs s) : Waits cs (s.countsHeld k) := by
  simp only [State.countsHeld]
  split
  · exact h
  · exact .ite h (.stepExch (.setExch (.modJob (.bump h))))

theorem Waits.countRow {k rank row} (h : Waits cs s) : Waits cs (s.countRow k rank row) := by
  unfold State.countRow
  split
  · exact h
  · exact .countsHeld (.setExch h)

theorem Waits.poisonAt {a} (h : Waits cs s) : Waits cs (s.poisonAt a) := .forEach (fun _ _ h => .poisonBuf h) h

theorem Waits.exchDead {k rank} (h : Waits cs s) : Waits cs (s.exchDead k rank) := by
  simp only [State.exchDead]
  split
  · exact h
  · exact .ite h (.named (fun h => .stepExch (.countsHeld (.fold (.setExch (.forEach (fun _ _ h => .chunkGone h) (.ite
      (.poisonAt h) h)))))) (.ite (.poisonOuts (.bump h)) h))

theorem Waits.collIn {p} (h : Waits cs s) : Waits cs (s.collIn p) := by
  simp only [State.collIn]
  split
  · exact h
  · split
    · split
      · exact h
      · exact .ite (.countRow h) (.stepExch (.setExch (.bump h)))
    · exact .ite (.frame (by rfl) h) (.frame (by rfl) h)

theorem Waits.deadMembers {k} (h : Waits cs s) : Waits cs (s.deadMembers k) := by
  unfold State.deadMembers
  split
  · exact h
  · exact .forEach (fun _ _ h => .exchDead h) h

theorem Waits.beginExch {pan station c g counts} (h : Waits cs s) :
    Waits cs (s.beginExch pan station c g counts) := by
  simp only [State.beginExch]
  split
  · exact .deadMembers (.stepExch (.fold (.setExch (.frame (by rfl) (.bump h)))))
  · exact .setExch (.frame (by rfl) (.bump h))

theorem Waits.countsOverFabric {k} (h : Waits cs s) : Waits cs (s.countsOverFabric k) := by
  simp only [State.countsOverFabric]
  split
  · exact h
  · exact .countsHeld (.bump (.forEach (fun _ _ h => .sendColl h) h))

theorem Waits.stepExchs {pan} (h : Waits cs s) : Waits cs (s.stepExchs pan) :=
  .outside (State.stepExchs_outside rfl rfl rfl rfl rfl rfl ..) h

/-! ### Sched -/

theorem Waits.setPlace {job table t} (h : Waits cs s) : Waits cs (s.setPlace job table t) := by
  simp only [State.setPlace]
  split
  · exact .wrTier (.wrTier (.frame (by rfl) h))
  · exact .frame (by rfl) h

theorem Waits.routeRow {job table srcRank e} (h : Waits cs s) : Waits cs (s.routeRow job table srcRank e) := by
  simp only [State.routeRow]
  exact .frame (by rfl) (.ite h (.modJob h))

theorem Waits.placeCommit {job table result} (h : Waits cs s) : Waits cs (s.placeCommit job table result) :=
  .ite h (.ite (.modJob (.setPlace h)) (.modJob (.alarm h)))

theorem Waits.devAct {pan w data cause} (h : Waits cs s) : Waits cs (s.devAct pan w data cause) := by
  simp only [State.devAct]
  split
  · exact h
  · exact .ite (.modDev h) (.modDev (.wrBrick h))

theorem Waits.actNext {pan d mb slice} (h : Waits cs s) : Waits cs (s.actNext pan d mb slice) := by
  unfold State.actNext
  split
  · exact h
  · split
    · next taken =>
      split
      · exact .devAct (.ofSnd taken h.takeSlice)
      · exact .ofSnd taken h.takeSlice
    · next taken => exact .ofSnd taken h.takeSlice

theorem Waits.observeNext {die pan d mb optag} (h : Waits cs s) : Waits cs (s.observeNext die pan d mb optag) := by
  simp only [State.observeNext]
  split
  · split
    · exact .give (.ite h (.poisonOut h))
    · exact .give h
  · exact h

theorem Waits.issueArray {die pan d mb slice optag b} (h : Waits cs s) :
    Waits cs (s.issueArray die pan d mb slice optag b) := by
  simp only [State.issueArray]
  split
  · exact h
  · exact .mxaIssue (.modPan h)

theorem Waits.startWork {die pan d mb slice optag w} (h : Waits cs s) :
    Waits cs (s.startWork die pan d mb slice optag w) := by
  simp only [State.startWork]
  split
  · exact .issueArray h
  · exact .attend (.attInputs h)
  · exact .onSeq (fun _ h => .attendTree h) (.seqInputs h)
  · exact .onSeq (fun _ h => .recomputePage h) (.seqInputs h)
  · exact .onSeq (fun _ h => .prefixReuse h) h
  · exact .routeRow h
  · exact .observeNext h
  · exact .actNext h
  · exact .named (fun h => .ite (.dueCommit h) h) (.setPlace h)
  · exact .moveStart h
  · exact h

theorem Waits.issueOp {die pan d mb slice w} (h : Waits cs s) : Waits cs (s.issueOp die pan d mb slice w) := by
  unfold State.issueOp
  split
  · exact h
  · next entry => exact .when .freeEntry (.startWork (.when .modPan (h.takeEntry entry)))

theorem Waits.missed {pan} (h : Waits cs s) : Waits cs (s.missed pan) := .ite h (.bumpPan (.modPan h))

theorem Waits.issueOffer {o} (h : Waits cs s) : Waits cs (s.issueOffer o) := by
  simp only [State.issueOffer]
  split
  · exact h
  · exact .issueOp (.frame (by rfl) h)

theorem Waits.tryIssue {o d waited} (h : Waits cs s) : Waits cs (s.tryIssue o d waited) := by
  have offered : Waits cs (if s.sch.offers.contains o then s
      else { s with sch := { s.sch with offers := s.sch.offers ++ [o] } }) := .ite h (.frame rfl h)
  simp only [State.tryIssue]
  refine .ite offered (.ite (.bump offered) (.ite (.missed offered) ?_))
  split
  · exact .issueOffer offered
  · exact offered

theorem Waits.execTileOpIssue {die pan station mb slice waited work} (h : Waits cs s) :
    WaitsOut cs (execTileOpIssue die pan station mb slice waited work s) := by
  unfold Machine.execTileOpIssue
  refine .need ?_
  refine .whenThere ?_ ?_
  · exact h
  · split
    · exact .next h
    · exact .next (.tryIssue h)

theorem Waits.applyPending {p} (h : Waits cs s) : Waits cs (s.applyPending p) :=
  .setF (.setF (.setF (.modPan (.forEach (fun _ _ h => .ite (.applyMode h) h) h))))

theorem Waits.commitTables {p} (h : Waits cs s) : Waits cs (s.commitTables p) :=
  .setF (.applyPending (.moveBoundary (.labCommit (.prefixCommit (.forEach (fun _ _ h => .placeCommit h) h)))))

theorem Waits.releaseOrFence {p} (h : Waits cs s) : Waits cs (s.releaseOrFence p) :=
  .ite (.releasePan h) (.ite (.panTo h) h)

theorem Waits.stopIfReady {j} (h : Waits cs s) : Waits cs (s.stopIfReady j) := by
  unfold State.stopIfReady
  split
  · exact .ite (.finishRef (.modJob h)) h
  · exact h

theorem Waits.boundary {p ns} (h : Waits cs s) : Waits cs (s.boundary p ns) :=
  .destroyIfReady (.stopIfReady (.releaseOrFence (.setF (.until (.bistBoundary (.resizeNow (.modPan
    (.checkBoundary (.discardOrphans (.cutAtBoundary (.adoptAtBoundary (.moverFreed (.seqBoundary (.dropSeqFetch
    (.commitTables (.commitBlocks h))))))))))))))))

theorem Waits.wakeDie {die p step} (h : Waits cs s) : Waits cs (s.wakeDie die p step) :=
  .outside (State.wakeDie_outside rfl rfl ..) h

theorem Waits.linkPoison {die port t} (h : Waits cs s) : Waits cs (s.linkPoison die port t) :=
  .outside (State.linkPoison_outside rfl ..) h

theorem Waits.linkTo {die port st} (h : Waits cs s) : Waits cs (s.linkTo die port st) :=
  .outside (State.linkTo_outside rfl ..) h

end Kept

end Sys2Proof.Machine
end

section
/-!
The queue under the whistle, packets and the clock.
-/

namespace Sys2Proof.Machine

section Kept

variable {cs : List Instr} {s t u : State}

/-! ### Whistle -/

theorem Waits.gatherRows {g o} (h : Waits cs s) : Waits cs (s.gatherRows g o) := by
  simp only [State.gatherRows]
  split
  · exact h
  · exact .countsHeld (.setExch h)

theorem Waits.opResult {g o dead res} (h : Waits cs s) : Waits cs (s.opResult g o dead res) := by
  unfold State.opResult
  extract_lets b st col recorded tagged counted
  have recordedSound : Waits cs recorded := .withCol h
  have taggedSound : Waits cs tagged := by
    simp only [tagged]
    split
    · exact .stationResult (.freeEntry recordedSound)
    · exact recordedSound
  have countedSound : Waits cs counted := .when .bump taggedSound
  split
  · exact .modPan countedSound
  · exact .modPan countedSound
  · exact .ite countedSound (.endAdoption (.resumeJob (.modCkp countedSound)))
  · exact .gatherRows countedSound
  · exact .wrAt countedSound
  · exact .wrAt countedSound
  · exact countedSound

theorem Waits.closeOp {o res} (h : Waits cs s) : Waits cs (s.closeOp o res) := by
  refine .ite (.when .bump (.bump (.withCol h))) (.forEach (fun _ _ h => ?_) (.when .bump (.bump (.withCol h))))
  split
  · exact .sendFb h
  · exact h

theorem Waits.opFinal {wgroup opnum res l} (h : Waits cs s) : Waits cs (s.opFinal wgroup opnum res l) := by
  induction l generalizing s with
  | zero =>
    unfold State.opFinal
    split
    · exact h
    · split
      · exact h
      · exact .opResult (.setF (.closeOp h))
  | succ l ih =>
    unfold State.opFinal
    extract_lets closed below
    have closedSound : Waits cs closed := by
      simp only [closed]
      split
      · exact .closeOp h
      · exact h
    refine ih ?_
    simp only [below]
    split
    · exact .ite closedSound (.modWring closedSound)
    · exact closedSound

theorem Waits.settleOp {wgroup opnum n level} (h : Waits cs s) : Waits cs (s.settleOp wgroup opnum n level) := by
  induction n generalizing s level with
  | zero => exact h
  | succ n ih =>
    unfold State.settleOp
    split
    · exact h
    · split
      · exact h
      · exact .ite h (.ite (.opFinal h) (.ite (ih (.startOp h)) h))

theorem Waits.settle {level wgroup opnum} (h : Waits cs s) : Waits cs (s.settle level wgroup opnum) := .settleOp h

theorem Waits.settleAll {level} (h : Waits cs s) : Waits cs (s.settleAll level) :=
  .forEach (fun _ _ h => .settle h) h

theorem Waits.opCell {level c} (h : Waits cs s) : Waits cs (s.opCell level c) := by
  simp only [State.opCell]
  split
  · exact .ite (.opFinal h) (.settle (.modOp h))
  · exact .ite (.frame (by rfl) h) h

theorem Waits.deviceDead {dev} (h : Waits cs s) : Waits cs (s.deviceDead dev) :=
  .forEach (fun _ _ h => .ite (.alarm (.modCkp h)) h) (.forEach (fun _ _ h => .targetDead h) (.forEach
    (fun _ _ h => .ite (.exchDead h) h) h))

theorem Waits.ringHealth {level} (h : Waits cs s) : Waits cs (s.ringHealth level) := .ite (.ringTo h) h

theorem Waits.setMaps {level dead bypass} (h : Waits cs s) : Waits cs (s.setMaps level dead bypass) := by
  simp only [State.setMaps]
  refine .settleAll (.forEach (fun _ _ h => ?_) (.ringHealth (.setF (.setF h))))
  split
  · exact .deviceDead h
  · exact h

theorem Waits.fallBack {level} (h : Waits cs s) : Waits cs (s.fallBack level) :=
  .settleAll (.forEach (fun _ _ h => .named (fun h => .ite h (.fbToMaster h)) (.modWring (.modOp h))) (.ringTo h))

theorem Waits.nackLost {level lost} (h : Waits cs s) : Waits cs (s.nackLost level lost) :=
  .ite h (.forEach (fun _ _ h => .ite (.fbToMaster (.modOp h)) (.modWring (.bump (.modOp h)))) h)

theorem Waits.edgeReports {level} (h : Waits cs s) : Waits cs (s.edgeReports level) :=
  .ite h (.named (fun h => .ite h (.setMaps h)) (.setWring h))

theorem Waits.discover {level heard} (h : Waits cs s) : Waits cs (s.discover level heard) :=
  .setF (.setF (.setF h))

theorem Waits.cleanFrame {level} (h : Waits cs s) : Waits cs (s.cleanFrame level) :=
  .named (fun h => .ite (.ite (.ringTo (.discover h)) h) (.ite (.setMaps (.modWring h)) h)) (.setWring h)

theorem Waits.putCell {level c} (h : Waits cs s) : Waits cs (s.putCell level c) := .frame (by rfl) h

theorem Waits.writeSlot {level} (h : Waits cs s) : Waits cs (s.writeSlot level) := by
  simp only [State.writeSlot]
  split
  · exact .setWring (.forEach (fun _ _ h => .putCell h) h)
  · exact .setWring (.putCell (.forEach (fun _ _ h => .putCell h) h))

theorem Waits.frameStart {level} (h : Waits cs s) : Waits cs (s.frameStart level) :=
  .ite h (.named (fun h => .ite (.modWring h) (.writeSlot h)) (.cleanFrame (.nackLost (.edgeReports (.modWring h)))))

theorem Waits.ctrlIn {level c} (h : Waits cs s) : Waits cs (s.ctrlIn level c) :=
  .named (fun h => .ite h (.setMaps (.ite (.modWring (.bump h)) h))) (.ite (.setF (.setF h)) h)

theorem Waits.nackIn {level c} (h : Waits cs s) : Waits cs (s.nackIn level c) := by
  simp only [State.nackIn]
  split
  · exact h
  · exact .modWring h

theorem Waits.returned {level pos} (h : Waits cs s) : Waits cs (s.returned level pos) :=
  .ite (.setMaps (.modWring h)) h

theorem Waits.goodCell {level c edge} (h : Waits cs s) : Waits cs (s.goodCell level c edge) := by
  simp only [State.goodCell]
  split
  · exact .modWring h
  · split
    · exact .ite (.modWring h) (.returned (.modWring h))
    · exact .nackIn (.ite (.modWring h) (.returned (.modWring h)))
    · exact .ctrlIn (.ite (.modWring h) (.returned (.modWring h)))
    · exact .opCell (.ite (.modWring h) (.returned (.modWring h)))

theorem Waits.lostCell {level slot edge} (h : Waits cs s) : Waits cs (s.lostCell level slot edge) :=
  .modWring (.bump h)

theorem Waits.cellIn {level slot b off} (h : Waits cs s) : Waits cs (s.cellIn level slot b off) :=
  .named (fun h => .ite (.lostCell h) (.ite (.lostCell h) (.ite h (.goodCell (.ite (.bump h) h))))) (.peak (.setF h))

theorem Waits.execMasterElection {level} (h : Waits cs s) : WaitsOut cs (execMasterElection level s) := by
  simp only [Machine.execMasterElection]
  refine .need (.next ?_)
  split
  · exact h
  · split
    · exact .setF (.setF (.until h))
    · exact .until h

theorem Waits.fbIn {level src job c} (h : Waits cs s) : Waits cs (s.fbIn level src job c) := by
  simp only [State.fbIn]
  split
  · split
    · exact .opFinal (.ite (.bump h) (.modOp (.bump h)))
    · exact .bump h
  · split
    · exact .bump h
    · split
      · exact .ite (.sendFb (.bump h)) (.opCell (.bump h))
      · exact .opCell (.bump h)
      · exact .settle (.modOp (.ite (.bump h) (.modWring (.bump h))))

theorem Waits.issueWop {g o} (h : Waits cs s) : Waits cs (s.issueWop g o) := by
  simp only [State.issueWop]
  exact .settle (.issueOp0 h)

theorem Waits.stationWop {pan d c g o} (h : Waits cs s) : Waits cs (s.stationWop pan d c g o) :=
  .issueEntry (fun _ _ h => .issueWop h) h

theorem Waits.whistleExch {pan station d c g} (h : Waits cs s) : Waits cs (s.whistleExch pan station d c g) :=
  .ite (.stationWop h) (.stationWop h)

theorem Waits.startExch {pan station op} (h : Waits cs s) : Waits cs (s.startExch pan station op) := by
  unfold State.startExch
  split
  · exact h
  · exact .ite (.whistleExch h) (.ite (.stepExchs h) (.beginExch h))

theorem Waits.execAllToAllV {pan station counts} (h : Waits cs s) :
    WaitsOut cs (execAllToAllV pan station counts s) := by
  simp only [Machine.execAllToAllV]
  refine .next ?_
  split
  · exact h
  · exact .ite (.stepExchs h) (.named (fun h => .ite (.issueWop (.bump h)) (.countsOverFabric h)) (.deadMembers
      (.beginExch h)))

theorem Waits.execBarrier {pan station bit} (h : Waits cs s) : WaitsOut cs (execBarrier pan station bit s) := by
  unfold Machine.execBarrier
  refine .next ?_
  split
  · exact .issueWop (.modCkp h)
  · split
    · exact h
    · exact .stationWop h

/-! ### Packets -/

theorem Waits.respond {port p type b status poison} (h : Waits cs s) :
    Waits cs (s.respond port p type b status poison) :=
  .transmit h

theorem Waits.refuse {port p reason} (h : Waits cs s) : Waits cs (s.refuse port p reason) := .out h

theorem Waits.ackParent {port p} (h : Waits cs s) : Waits cs (s.ackParent port p) := .offer h

theorem Waits.guarded {port p a} {f : State → State} (hf : ∀ t, Waits cs t → Waits cs (f t)) (h : Waits cs s) :
    Waits cs (s.guarded port p a f) := by
  unfold State.guarded
  split
  · exact hf s h
  · exact .bump h
  · exact .violation (.refuse h)

theorem Waits.orUnmapped {p n} {f : State → State} (hf : ∀ t, Waits cs t → Waits cs (f t)) (h : Waits cs s) :
    Waits cs (s.orUnmapped p n f) :=
  .ite (hf s h) (.bump h)

theorem Waits.landPacket {p} (h : Waits cs s) : Waits cs (s.landPacket p) := by
  simp only [State.landPacket]
  split
  · refine .bump (.frame (by rfl) ?_)
    split
    · exact .landWrite (.when (fun h => .hbmTouched h) (.wrTier h))
    · exact .when (fun h => .hbmTouched h) (.wrTier h)
  · split
    · exact .landWrite (.when (fun h => .hbmTouched h) (.wrTier h))
    · exact .when (fun h => .hbmTouched h) (.wrTier h)

theorem Waits.msopPacket {p} (h : Waits cs s) : Waits cs (s.msopPacket p) :=
  .ite h (.forEach (fun _ _ h => .msApply h) h)

theorem Waits.purgeCache (h : Waits cs s) : Waits cs s.purgeCache := .setFab h

theorem Waits.atomicPacket {port p} (h : Waits cs s) : Waits cs (s.atomicPacket port p) := by
  have mapped {n : Nat} : Waits cs (s.orUnmapped p n id) := .orUnmapped (fun _ h => h) h
  simp only [State.atomicPacket]
  exact .respond (.setFab (.when .hbmTouched (.iteSnd (.msApply (.ite mapped h)) (.ite mapped h))))

theorem Waits.setOrd {src vc o} (h : Waits cs s) : Waits cs (s.setOrd src vc o) := .setFab h

theorem Waits.answerFences {port} (h : Waits cs s) : Waits cs (s.answerFences port) :=
  .forEach (fun _ _ h => .respond h) (.setFab h)

theorem Waits.epochPacket {p} (h : Waits cs s) : Waits cs (s.epochPacket p).1 := by
  simp only [State.epochPacket]
  split
  · exact .applyChange h
  · exact .streamPiece h
  · exact .reported h

theorem Waits.applyReq {port p} (h : Waits cs s) : Waits cs (s.applyReq port p).1 := by
  unfold State.applyReq
  split
  · exact .guarded (fun _ h => .respond (.orUnmapped (fun _ h => h) h)) h
  · exact .guarded (fun _ h => .respond (.orUnmapped (fun _ h => .landPacket h) h)) h
  · exact .guarded (fun _ h => .respond (.orUnmapped (fun _ h => .msopPacket h) h)) h
  · dsimp only
    split
    · exact .respond (.purgeCache h)
    · exact .iteFst (.refuse (.bump (.purgeCache h))) (.guarded (fun _ h => .atomicPacket h) (.purgeCache h))
  · exact .setFab h
  · exact .guarded (fun _ h => .respond (.collIn h)) h
  · exact .guarded (fun _ h => .respond (.epochPacket h)) h
  · exact .setFab h

theorem Waits.drainHeld {src vc n} (h : Waits cs s) : Waits cs (drainHeld src vc n s) := by
  induction n generalizing s with
  | zero => exact h
  | succ n ih =>
    simp only [Machine.drainHeld]
    split
    · exact h
    · exact .ite (ih (.setOrd (.applyReq (.setOrd h)))) (.applyReq (.setOrd h))

theorem Waits.duplicate {port p} (h : Waits cs s) : Waits cs (s.duplicate port p) := by
  simp only [State.duplicate]
  split
  · exact .applyReq (.bump h)
  · split
    · exact .respond (.purgeCache (.bump h))
    · exact .purgeCache (.bump h)
  · exact .respond (.bump h)
  · exact .bump h
  · exact .respond (.bump h)

theorem Waits.ordered {port p} (h : Waits cs s) : Waits cs (s.ordered port p) := by
  simp only [State.ordered]
  exact .ite (.when (fun h => .answerFences (.drainHeld (.setOrd h))) (.applyReq h)) (.ite (.ite h (.ite
    (.refuse (.bump h)) (.setOrd h))) (.ite (.duplicate h) (.refuse h)))

theorem Waits.relayDown {port p answer} (h : Waits cs s) : Waits cs (s.relayDown port p answer) :=
  .named (fun h => .ite h (.ite (.ackParent h) (.setFab h))) (.forEach (fun _ _ h => .offer h) (.ite (.bump h) h))

theorem Waits.bcastWrite {port p} (h : Waits cs s) : Waits cs (s.bcastWrite port p) :=
  .relayDown (.guarded (fun _ h => .orUnmapped (fun _ h => .landPacket h) h) h)

theorem Waits.bootCheck {port p} (h : Waits cs s) : Waits cs (s.bootCheck port p).1 :=
  .iteFst (.bump h) (.setFab h)

theorem Waits.takeIn {p} (h : Waits cs s) : Waits cs (s.takeIn p).2 := by
  simp only [State.takeIn]
  split
  · exact .setFab h
  · exact h

theorem Waits.arrive {p} {f : State → Nat → State} (hf : ∀ t port, Waits cs t → Waits cs (f t port))
    (h : Waits cs s) : Waits cs (s.arrive p f) := by
  simp only [State.arrive]
  split
  · exact .violation (.refuse (.takeIn h))
  · split
    · exact hf _ _ (.bootCheck (.takeIn h))
    · exact .bootCheck (.takeIn h)

theorem Waits.request1 {p type} (h : Waits cs s) : Waits cs (s.request1 p type) := by
  simp only [State.request1]
  exact .arrive (fun _ _ h => .ite (.bcastWrite h) (.ordered h)) (.frame (by rfl) (.takeIn h))

theorem Waits.complete {idx r answer} (h : Waits cs s) : Waits cs (s.complete idx r answer) := by
  simp only [State.complete]
  split
  · exact .chunkAck (.endReq h)
  · exact .claimAnswer (.endReq h)
  · exact .endReq h
  · exact .endReq h

theorem Waits.treeAck {p} (h : Waits cs s) : Waits cs (s.treeAck p) := by
  simp only [State.treeAck]
  split
  · exact h
  · split
    · exact .setFab h
    · split
      · exact .ackParent (.setFab h)
      · split
        · exact .when (fun h => .complete h) (.setFab h)
        · exact .setFab h

theorem Waits.response1 {p type keep} (h : Waits cs s) : Waits cs (s.response1 p type keep) := by
  simp only [State.response1]
  split
  · exact .bootCheck (.takeIn h)
  · split
    · exact .treeAck (.bootCheck (.takeIn h))
    · split
      · exact .ite (.complete (.when (fun h => .frame (by rfl) h) (.bootCheck (.takeIn h)))) (.bump (.bootCheck
          (.takeIn h)))
      · exact .bump (.bootCheck (.takeIn h))

theorem Waits.remoteEnd {idx} (h : Waits cs s) : Waits cs (s.remoteEnd idx) := by
  simp only [State.remoteEnd]
  split
  · exact h
  · split
    · exact .endReq h
    · exact .endReq h
    · exact .claimAnswer (.endReq h)
    · split
      · exact .exchDead (.endReq h)
      · exact .endReq h

theorem Waits.execTierTimeout {req} (h : Waits cs s) : WaitsOut cs (execTierTimeout req s) := by
  unfold Machine.execTierTimeout
  refine .next ?_
  split
  · exact h
  · split
    · exact h
    · split
      · exact .remoteEnd (.tierTimeout h)
      · exact .tierTimeout h

/-! ### Clock -/

theorem Waits.setClk {c} (h : Waits cs s) : Waits cs (s.setClk c) := .outside (State.setClk_outside rfl ..) h

theorem Waits.correct {off} (h : Waits cs s) : Waits cs (s.correct off) :=
  .ite (.frame (by rfl) h) (.named (fun h => .ite (.alarm h) h) (.setClk h))

theorem Waits.sendTimeOut (h : Waits cs s) : Waits cs s.sendTimeOut := .sendReq h

theorem Waits.setRole {hd r} (h : Waits cs s) : Waits cs (s.setRole hd r) := .outside (State.setRole_outside rfl ..) h

theorem Waits.renewed {hd} (h : Waits cs s) : Waits cs (s.renewed hd) := .setClk h

theorem Waits.saw {hd} (h : Waits cs s) : Waits cs (s.saw hd) := .setClk h

theorem Waits.heard {hd} (h : Waits cs s) : Waits cs (s.heard hd) := .saw (.renewed h)

theorem Waits.view {hd term} (h : Waits cs s) : Waits cs (s.view hd term) := .setF h

theorem Waits.unkeep {hd} (h : Waits cs s) : Waits cs (s.unkeep hd) := .outside (State.unkeep_outside rfl rfl ..) h

theorem Waits.fence {hd term} (h : Waits cs s) : Waits cs (s.fence hd term) := .bump (.view (.setF (.unkeep h)))

theorem Waits.sendRenew {hd} (h : Waits cs s) : Waits cs (s.sendRenew hd) := .renewed (.setClk h)

theorem Waits.win {hd} (h : Waits cs s) : Waits cs (s.win hd) := .setF (.setF (.view (.setRole (.setClk h))))

theorem Waits.execRenewReceive {hd term} (h : Waits cs s) : WaitsOut cs (execRenewReceive hd term s) := by
  unfold Machine.execRenewReceive
  refine .need (.next ?_)
  split
  · exact h
  · split
    · exact .ite (.heard (.fence h)) h
    · exact .heard (.view h)
    · exact .ite (.heard (.view (.setRole h))) h

theorem Waits.applyClaim {hd} (h : Waits cs s) : Waits cs (s.applyClaim hd) :=
  .ite h (.named (fun h => .ite (.bump (.sendRenew (.win h))) (.bump (.view (.setRole h)))) (.saw h))

theorem Waits.yieldLease {hd} (h : Waits cs s) : Waits cs (s.yieldLease hd) :=
  .outside (State.yieldLease_outside rfl rfl ..) h

theorem Waits.aonKept {cold advance cause} (h : Waits cs t) : Waits cs (s.aonKept cold advance cause t) :=
  .ite (.setF (.setF h)) (.setF (.setF (.setF (.setF (.setF h)))))

theorem Waits.afterReset {cause advance} (h : Waits cs s) : Waits cs (s.afterReset cause advance) :=
  .aonKept (.frame rfl h)

theorem Waits.atStep {n} (h : Waits cs s) : Waits cs (s.atStep n) := .outside (State.atStep_outside rfl ..) h

theorem Waits.bootFails {code} (h : Waits cs s) : Waits cs (s.bootFails code) := .setClk h

theorem Waits.unitFails {block} (h : Waits cs s) : Waits cs (s.unitFails block) :=
  .outside (State.unitFails_outside rfl rfl rfl ..) h
theorem Waits.boot6 {b} (h : Waits cs s) : Waits cs (s.boot6 b) :=
  .outside (State.boot6_outside rfl rfl rfl rfl rfl rfl rfl ..) h

theorem Waits.trainHbm {t} (h : Waits cs s) : Waits cs (s.trainHbm t).2 := by
  simp only [State.trainHbm]
  exact .forEach (fun _ _ h => .setF (.setF h)) h

theorem Waits.trainLpd {t} (h : Waits cs s) : Waits cs (s.trainLpd t) :=
  .setB (.setB (.forEach (fun _ _ h => .ite (.setF (.setF (.setB (.setF (.setF h))))) (.setF h)) h))

theorem Waits.formatFlash {t fd gib} (h : Waits cs s) : Waits cs (s.formatFlash t fd gib) :=
  .flashWear (.flashSpare (.setF (.setF (.ite (.setFlash h) (.setFlash h)))))

theorem Waits.trainOnfi {t} (h : Waits cs s) : Waits cs (s.trainOnfi t) :=
  .formatFlash (.formatFlash (.forEach (fun _ _ h => .ite (.setF (.setF (.setB (.setF h)))) (.setF h)) h))

theorem Waits.boot5 {b} (h : Waits cs s) : Waits cs (s.boot5 b) := by
  simp only [State.boot5]
  exact .named (fun h => .ite (.bootFails (.draw h)) (.ite (.boot6 h) (.setClk (.atStep h)))) (.trainOnfi (.trainLpd
    (.trainHbm (.atStep h))))

theorem Waits.firstLease (h : Waits cs s) : Waits cs s.firstLease := .win (.view (.view h))

theorem Waits.boot4 {b} (h : Waits cs s) : Waits cs (s.boot4 b) := by
  simp only [State.boot4]
  exact .named (fun h => .ite (.boot5 (.firstLease (.setClk h))) (.bootFails (.draw h))) (.atStep h)

theorem Waits.boot3 {b} (h : Waits cs s) : Waits cs (s.boot3 b) :=
  .named (fun h => .ite (.boot4 h) (.setClk h)) (.setClk (.atStep h))

theorem Waits.execBootStepTimeout (h : Waits cs s) : WaitsOut cs (execBootStepTimeout s) := by
  simp only [Machine.execBootStepTimeout]
  exact .next (.ite h (.bootFails (.draw h)))

theorem Waits.setDuty {p v} (h : Waits cs s) : Waits cs (s.setDuty p v) := .bump (.setF h)

theorem Waits.yieldPower {p} (h : Waits cs s) : Waits cs (s.yieldPower p) := by
  simp only [State.yieldPower]
  split
  · exact h
  · exact .alarm (.setF (.bump h))

theorem Waits.lowerDuty {f} (h : Waits cs s) (ht : s.lowerDuty f = some t) : Waits cs t := by
  unfold State.lowerDuty at ht
  split at ht
  · cases ht
  · cases ht
    exact .yieldPower (.setDuty h)

theorem Waits.raiseDuty (h : Waits cs s) : Waits cs s.raiseDuty := by
  unfold State.raiseDuty
  split
  · exact h
  · exact .setDuty h

theorem Waits.execPowerCompare {watts} (h : Waits cs s) : WaitsOut cs (execPowerCompare watts s) := by
  refine .next (.ite ?_ (.ite (.when .raiseDuty (.setClk (.setF h))) (.setClk (.setF h))))
  dsimp only
  split
  · next lowered => exact (Waits.setClk (.setF h)).lowerDuty lowered
  · exact .alarm (.bump (.setClk (.setF h)))

theorem Waits.dieOff {die} (h : Waits cs s) : Waits cs (s.dieOff die) := .frame rfl h

theorem Waits.tripDie {die} (h : Waits cs s) : Waits cs (s.tripDie die) :=
  .frame (by rfl) (.aonKept (.dieOff (.forEach (fun _ _ h => .faultJob h) h)))

theorem Waits.tripHost (h : Waits cs s) : Waits cs s.tripHost := .setClk (.afterReset h)

end Kept

end Sys2Proof.Machine
end

section
/-!
The queue under images, jobs, checkpoints, observation and registers.
-/

namespace Sys2Proof.Machine

section Kept

variable {cs : List Instr} {s t u : State}

/-! ### Images -/

theorem Waits.tableFull {ws w} (h : Waits cs s) : Waits cs (s.tableFull ws w) := .ite (.alarm h) h

theorem Waits.imageRefused {c ws reason w} (h : Waits cs s) : Waits cs (s.imageRefused c ws reason w) :=
  .finish (.setF (.ite (.tableFull h) h))

theorem Waits.imageBegin {c ws hd key w} (h : Waits cs s) : Waits cs (s.imageBegin c ws hd key w) :=
  .beginCmd (.withEpc (.setF (.setF (.issueEpoch h))))

theorem Waits.sendPayload {ws e b} (h : Waits cs s) : Waits cs (s.sendPayload ws e b) := by
  unfold State.sendPayload
  split
  · exact h
  · exact .forEach (fun _ _ h => .forEach (fun _ _ h => .sendWeights h) h) h

theorem Waits.copyBase {c ws src w} (h : Waits cs s) : Waits cs (s.copyBase c ws src w) := by
  simp only [State.copyBase]
  split
  · exact .finish h
  · exact .ite (.finish h) (.ite (.imageRefused h) (.ite (.imageRefused h) (.finish (.confirmEpoch (.sendPayload
      (.wrTier (.issueEpoch h)))))))

theorem Waits.execImageLoad {cmd header} (h : Waits cs s) : WaitsOut cs (execImageLoad cmd header s) := by
  simp only [Machine.execImageLoad]
  refine .next (.onCmd (fun _ _ h => ?_) h)
  split
  · exact h
  · split
    · exact .finish h
    · split
      · exact .finish h
      · split
        · exact .copyBase h
        · split
          · exact .imageRefused h
          · exact .imageBegin h

theorem Waits.fresh (h : Waits cs s) : Waits cs s.fresh.2 := by
  simp only [State.fresh]
  exact .frame (by rfl) h

theorem Waits.snapImage {w epoch step payload rcpt} (h : Waits cs s) :
    Waits cs (s.snapImage w epoch step payload rcpt).2 := by
  unfold State.snapImage
  split
  · exact h
  · rcases e1 : s.fresh with ⟨b, s1⟩
    rcases e2 : s1.fresh with ⟨x, s2⟩
    dsimp only
    rw [e2]
    exact .ofSnd e2 (.fresh (.ofSnd e1 h.fresh))

theorem Waits.snapOut {job dest device b} (h : Waits cs s) : Waits cs (s.snapOut job dest device b) :=
  .ite (.hostWrite h) (.forEach (fun _ _ h => .issue h) h)

theorem Waits.execSnapshot {cmd} (h : Waits cs s) : WaitsOut cs (execSnapshot cmd s) := by
  simp only [Machine.execSnapshot]
  refine .next (.onCmd (fun _ _ h => ?_) h)
  split
  · exact .finish h
  · exact .ite (.finish h) (.ite (.finish h) (.ite (.finish h) (.finish (.snapOut (.setF (.snapImage h))))))

theorem Waits.execPublish {cmd} (h : Waits cs s) : WaitsOut cs (execPublish cmd s) := by
  simp only [Machine.execPublish]
  refine .next (.onCmd (fun _ _ h => ?_) h)
  split
  · exact .finish h
  · split
    · exact .finish h
    · split
      · exact .finish h
      · exact .beginCmd (.modPan h)

/-! ### Load -/

theorem Waits.loadShared {c} (h : Waits cs s) : Waits cs (s.loadShared c) := by
  simp only [State.loadShared]
  refine .setB (.setB (.loadGates (.loadScheds ?_)))
  split
  · refine .loadTiers ?_
    split
    · exact .loadWeights h
    · exact h
  · split
    · exact .loadWeights h
    · exact h

theorem Waits.applyWhole {o c} (h : Waits cs s) : Waits cs (s.applyWhole o c) := by
  simp only [State.applyWhole]
  refine .forEach (fun _ _ h => .jobTo (.keepContent h)) (.countBases (.forEach (fun _ _ h => .panTo h) (.forEach
    (fun _ _ h => .lockBlocks h) ?_)))
  split
  · exact .loadSecurity (.loadShared (.forEach (fun _ _ h => .fillPan h) (.forEach (fun _ _ h => .loadJob h) (.forEach
      (fun _ _ h => .openPan h) (.forEach (fun _ _ h => .jobTo h) h)))))
  · exact .loadShared (.forEach (fun _ _ h => .fillPan h) (.forEach (fun _ _ h => .loadJob h) (.forEach
      (fun _ _ h => .openPan h) (.forEach (fun _ _ h => .jobTo h) h))))

theorem Waits.applyPerPan {o c d} (h : Waits cs s) : Waits cs (s.applyPerPan o c d) :=
  .named (fun h => .jobTo (.modCkp (.keepContent (.countBases (.panTo (.loadPanSections (.fillPan
    (.forEach (fun _ _ h => .loadJob h) (.openPan (.ite h (.freePan h))))))))))) (.jobTo h)

theorem Waits.loadRefused {c i job f} (h : Waits cs s) : Waits cs (s.loadRefused c i job f) :=
  .finish (.bump (.setF (.setF (.setF (.audit1 h)))))

theorem Waits.loadPassed {c i job cl} (h : Waits cs s) : Waits cs (s.loadPassed c i job cl) :=
  .bump (.auditClamps (.audit1 h))

theorem Waits.keepDigest {i} (h : Waits cs s) : Waits cs (s.keepDigest i) := .frame (by rfl) h

theorem Waits.execWholeLoad {cmd image} (h : Waits cs s) : WaitsOut cs (execWholeLoad cmd image s) := by
  simp only [Machine.execWholeLoad]
  refine .next (.onCmd (fun _ _ h => ?_) h)
  split
  · exact h
  · split
    · exact .loadRefused h
    · exact .ite h (.finish (.keepDigest (.applyWhole (.loadPassed h))))

theorem Waits.execPerPanLoad {cmd image} (h : Waits cs s) : WaitsOut cs (execPerPanLoad cmd image s) := by
  simp only [Machine.execPerPanLoad]
  refine .next (.onCmd (fun _ _ h => ?_) h)
  split
  · exact h
  · split
    · exact .loadRefused h
    · exact .ite h (.finish (.forEach (fun _ _ h => .applyPerPan h) (.loadPassed h)))

theorem Waits.beginResize {c x} (h : Waits cs s) : Waits cs (s.beginResize c x) :=
  .forEach (fun _ _ h => .named (fun h => .ite (.resizeNow h) h) (.modPan (.placeAdded h))) (.setCmd h)

theorem Waits.execResize {cmd image} (h : Waits cs s) : WaitsOut cs (execResize cmd image s) := by
  simp only [Machine.execResize]
  refine .next (.onCmd (fun _ _ h => ?_) h)
  split
  · exact h
  · split
    · exact .loadRefused h
    · exact .ite h (.beginResize (.loadPassed h))

theorem Waits.execKeyLoad {cmd blob} (h : Waits cs s) : WaitsOut cs (execKeyLoad cmd blob s) := by
  simp only [Machine.execKeyLoad]
  refine .next (.onCmd (fun _ _ h => ?_) h)
  split
  · exact .finish (.bump (.clampCmd h))
  · exact .ite (.finish (.bump (.clampCmd h))) (.finish (.addKey (.clampCmd h)))

/-! ### Jobs -/

theorem Waits.execJobCreate {cmd} (h : Waits cs s) : WaitsOut cs (execJobCreate cmd s) := by
  simp only [Machine.execJobCreate]
  refine .next (.onCmd (fun _ _ h => ?_) h)
  split
  · exact .finish h
  · exact .ite (.finish h) (.finish (.jobTo (.setJob h)))

theorem Waits.quiesceJob {j} (h : Waits cs s) : Waits cs (s.quiesceJob j) := .forEach (fun _ _ h => .panTo h) h

theorem Waits.execLogRead {cmd} (h : Waits cs s) : WaitsOut cs (execLogRead cmd s) := by
  simp only [Machine.execLogRead]
  exact .next (.onCmd (fun _ _ h => .finish (.hostWrite (.clampCmd h))) h)

/-! ### Checkpoint -/

theorem Waits.execCheckpointDisable {cmd} (h : Waits cs s) : WaitsOut cs (execCheckpointDisable cmd s) := by
  simp only [Machine.execCheckpointDisable]
  exact .next (.onCmd (fun _ _ h => .ite h (.finish (.modCkp (.setF (.clampCmd h))))) h)

theorem Waits.execProtectedWrite {job shard extent} (h : Waits cs s) :
    WaitsOut cs (execProtectedWrite job shard extent s) := by
  simp only [Machine.execProtectedWrite]
  refine .next ?_
  split
  · exact h
  · exact .ite h (.ite (.setCkp h) (.bump h))

theorem Waits.resendShard {j i d c} (h : Waits cs s) : Waits cs (s.resendShard j i d c) := by
  unfold State.resendShard
  split
  · exact h
  · split
    · exact h
    · exact .toBuddy h

theorem Waits.execShardAck {job shard digest} (h : Waits cs s) : WaitsOut cs (execShardAck job shard digest s) := by
  simp only [Machine.execShardAck]
  refine .next ?_
  split
  · exact .ite h (.ite (.setCkp h) (.named (fun h => .ite (.resendShard h) (.alarm (.modCkp h))) (.bump (.setCkp h))))
  · exact h

theorem Waits.toFlash {off b} (h : Waits cs s) : Waits cs (s.toFlash off b) := .flashTouch (.wrTier h)

theorem Waits.flashShards {j c} (h : Waits cs s) : Waits cs (s.flashShards j c) := by
  simp only [State.flashShards]
  refine .forEach (fun _ _ h => ?_) h
  split
  · exact h
  · split
    · exact h
    · exact .toFlash h

theorem Waits.execDurableWrite {job} (h : Waits cs s) : WaitsOut cs (execDurableWrite job s) := by
  simp only [Machine.execDurableWrite]
  refine .next ?_
  split
  · exact h
  · exact .ite h (.forEach (fun _ _ h => .finishRef h) (.setF (.setCkp (.toFlash (.flashShards h)))))

theorem Waits.placeAgain {o c} (h : Waits cs s) : Waits cs (s.placeAgain o c) :=
  .countBases (.forEach (fun _ _ h => .panTo h) (.loadPanSections (.forEach (fun _ _ h => .fillPan h) (.forEach
    (fun _ _ h => .openPan h) h))))

theorem Waits.restoreJob {j d newest} (h : Waits cs s) : Waits cs (s.restoreJob j d newest) :=
  .resumeJob (.stopIfReady (.modCkp (.restoreCut (.enterRestore h))))

theorem Waits.execRestore {cmd presentEverywhere newest} (h : Waits cs s) :
    WaitsOut cs (execRestore cmd presentEverywhere newest s) := by
  simp only [Machine.execRestore]
  refine .next (.onCmd (fun _ _ h => ?_) h)
  split
  · exact .finish h
  · split
    · exact .finish h
    · exact .ite (.finish (.restoreJob h)) (.ite (.finish h) (.ite h (.finish (.restoreJob (.placeAgain h)))))

theorem Waits.sendMsg {kind dest words bytes} (h : Waits cs s) : Waits cs (s.sendMsg kind dest words bytes) :=
  .frame (by rfl) h

theorem Waits.execFind {src failed job rank} (h : Waits cs s) : WaitsOut cs (execFind src failed job rank s) := by
  simp only [Machine.execFind]
  refine .next ?_
  split
  · exact h
  · split
    · exact h
    · exact .sendMsg (.drawBytes h)

theorem Waits.replaceIn {maps key g old new} (h : Waits cs s) : Waits cs (s.replaceIn maps key g old new) := by
  simp only [State.replaceIn]
  refine .frame (by rfl) ?_
  split
  · exact h
  · exact .draw (w := 6) h

theorem Waits.replaceHolder {j old new} (h : Waits cs s) : Waits cs (s.replaceHolder j old new) :=
  .frame (by rfl) h

theorem Waits.replaceDevice {maps j old new} (h : Waits cs s) : Waits cs (s.replaceDevice maps j old new) :=
  .forEach (fun _ _ h => .replaceIn h) (.replaceHolder h)

theorem Waits.joinAdoption {j w newest} (h : Waits cs s) : Waits cs (s.joinAdoption j w newest) :=
  .stopIfReady (.modCkp (.restoreCut (.enterRestore h)))

theorem Waits.execAdopt {src job failed rank newest maps} (h : Waits cs s) :
    WaitsOut cs (execAdopt src job failed rank newest maps s) := by
  simp only [Machine.execAdopt]
  refine .next (.whenRoom (fun _ h => ?_) h)
  split
  · exact h
  · split
    · exact .faultJob h
    · split
      · exact .faultJob (.when (fun h => .modCkp h) (.replaceDevice h))
      · exact .joinAdoption (.when (fun h => .modCkp h) (.replaceDevice h))

theorem Waits.adoptJob {o j f c rank} (h : Waits cs s) : Waits cs (s.adoptJob o j f c rank) :=
  .jobTo (.keepContent (.placeAgain (.forEach (fun _ _ h => .loadJob h) (.jobTo (.jobTo (.setJob h))))))

theorem Waits.beginAdoption {c job rank failed} (h : Waits cs s) : Waits cs (s.beginAdoption c job rank failed) :=
  .sendMsg (.beginCmd (.frame (by rfl) h))

theorem Waits.adoptFound {c a f} (h : Waits cs s) : Waits cs (s.adoptFound c a f) := by
  simp only [State.adoptFound]
  split
  · exact .finish (.frame (by rfl) h)
  · exact .ite (.finish (.frame (by rfl) h)) (.named (fun h => .ite (.endAdoption (.faultJob h)) (.joinAdoption
      (.modCkp h))) (.forEach (fun _ _ h => .sendMsg h) (.setF (.adoptJob (.frame (by rfl) h)))))

theorem Waits.execSpareAdopt {cmd found} (h : Waits cs s) : WaitsOut cs (execSpareAdopt cmd found s) := by
  unfold Machine.execSpareAdopt
  refine .next ?_
  split
  · exact h
  · split
    · exact h
    · split
      · exact .ite (.adoptFound h) h
      · exact .ite h (.finish h)
      · exact .ite (.beginAdoption h) (.finish h)
      · exact .ite h (.finish h)

theorem Waits.execFindTimeout (h : Waits cs s) : WaitsOut cs (execFindTimeout s) := by
  simp only [Machine.execFindTimeout]
  refine .next ?_
  split
  · exact h
  · exact .ite h (.finishRef (.frame (by rfl) h))

theorem Waits.execStraggler {job rank} (h : Waits cs s) : WaitsOut cs (execStraggler job rank s) := by
  unfold Machine.execStraggler
  refine .next ?_
  split
  · exact .ite (.alarm h) h
  · exact h

/-! ### Observe -/

theorem Waits.traceOne {die rec} (h : Waits cs s) : Waits cs (s.traceOne die rec) := by
  simp only [State.traceOne]
  exact .ite (.bump (.withObsv (.wrTier h))) (.bump (.frame (by rfl) h))

theorem Waits.traceRec {die kind trig arg value} (h : Waits cs s) : Waits cs (s.traceRec die kind trig arg value) :=
  .traceOne (.ite (.traceOne (.frame (by rfl) h)) h)

theorem Waits.countCycles {die} (h : Waits cs s) : Waits cs (s.countCycles die) := by
  simp only [State.countCycles]
  exact .forEach (fun _ _ h => .ite (.setF (.draw h)) h) h

theorem Waits.keepSample {die} (h : Waits cs s) : Waits cs (s.keepSample die) := .withObsv h

theorem Waits.sample {die} (h : Waits cs s) : Waits cs (s.sample die) :=
  .keepSample (.named (fun h => .ite h (.when (.forEach fun _ _ h => .bump h)
    (.when (.forEach fun _ _ h => .traceRec h) (.when (fun h => .setF (.setF h)) (.traceRec h))))) (.countCycles h))

theorem Waits.bistStart {die b} (h : Waits cs s) : Waits cs (s.bistStart die b) :=
  .named (fun h => .ite (.ite h (.clrMem (.idleGrains h))) (.ite (.disablePort h) (.ite (.setF h) (.ite (.frame
    (by rfl) h) h)))) (.bistBegin h)

theorem Waits.reloadSets {die b} (h : Waits cs s) : Waits cs (s.reloadSets die b) := by
  simp only [State.reloadSets]
  split
  · exact .setArray h
  · exact h

theorem Waits.bistRestore {die b} (h : Waits cs s) : Waits cs (s.bistRestore die b) :=
  .ite (.applyMode (.reloadSets h)) (.ite (.trainPort h) (.ite (.setF h) h))

theorem Waits.bistFails {die b} (h : Waits cs s) : Waits cs (s.bistFails die b) := by
  simp only [State.bistFails]
  split
  · split
    · exact .faultJob (.applyMode (.unitFails h))
    · exact .applyMode (.unitFails h)
  · exact .unitFails h

theorem Waits.bistResult {die pass misr} (h : Waits cs s) : Waits cs (s.bistResult die pass misr) :=
  .setF (.setF (.setF (.setF (.setF h))))

theorem Waits.execBistComplete {die misr} (h : Waits cs s) : WaitsOut cs (execBistComplete die misr s) := by
  simp only [Machine.execBistComplete]
  refine .need (.next ?_)
  split
  · exact .ite h (.named (fun h => .finishRef (.ite (.bistRestore h) (.bistFails h))) (.bistResult (.frame (by rfl) h)))
  · exact h

theorem Waits.fencedReq {die requester cmd} (h : Waits cs s) : Waits cs (s.fencedReq die requester cmd) := by
  simp only [State.fencedReq]
  split
  · exact .bump (.frame (by rfl) h)
  · split
    · exact .finishRef (.bump h)
    · exact .frame (by rfl) (.bump h)

theorem Waits.execBusyTestReissue {die requester} (h : Waits cs s) :
    WaitsOut cs (execBusyTestReissue die requester s) := by
  simp only [Machine.execBusyTestReissue]
  refine .need (.next ?_)
  split
  · exact .named (fun h => .ite (.fencedReq h) h) (.until (.frame (by rfl) h))
  · exact h

theorem Waits.zeroPlain (h : Waits cs s) : Waits cs s.zeroPlain := by
  have zeroed : Waits cs (Machine.forEach s.epc.sets s fun s w =>
      let s := s.zeroTier 1 w.2.decl.slot0 w.2.decl.payload
      if w.2.decl.kind = 1 then s else s.zeroTier 1 w.2.decl.slot1 w.2.decl.payload) :=
    .forEach (fun _ _ h => .ite (.zeroTier h) (.zeroTier (.zeroTier h))) h
  exact .frame rfl zeroed

theorem Waits.sendPending {hd} (h : Waits cs s) : Waits cs (s.sendPending hd) := .frame (by rfl) h

/-! ### Registers -/

theorem Waits.csrWrite {o csr value} (h : Waits cs s) : Waits cs (s.csrWrite o csr value) :=
  .outside (State.csrWrite_outside rfl rfl rfl rfl rfl rfl rfl rfl rfl rfl ..) h

theorem Waits.clearRc {f a} (h : Waits cs s) : Waits cs (s.clearRc f a) := by
  simp only [State.clearRc]
  split
  · exact h
  · split
    · exact h
    · exact .ite (.ite (.modWorld h) h) (.setF h)

theorem Waits.csrRead {csr} (h : Waits cs s) : Waits cs (s.csrRead csr).2 := by
  simp only [State.csrRead]
  exact .forEach (fun _ _ h => .clearRc h) h

theorem Waits.readMany {csr n} (h : Waits cs s) : Waits cs (s.readMany csr n).2 := by
  induction n generalizing s csr with
  | zero => exact h
  | succ n ih => exact ih (.csrRead h)

theorem Waits.writeMany {o csr b} (h : Waits cs s) : Waits cs (s.writeMany o csr b) :=
  .forEach (fun _ _ h => .csrWrite h) h

theorem Waits.manage {port p} (h : Waits cs s) : Waits cs (s.manage port p) := by
  simp only [State.manage]
  exact .ite (.violation (.refuse h)) (.ite (.relayDown (.iteSnd (.readMany h) (.writeMany h))) (.respond (.iteSnd
    (.readMany h) (.writeMany h))))

theorem Waits.execMgmt {p} (h : Waits cs s) : WaitsOut cs (execMgmt p s) := by
  simp only [Machine.execMgmt]
  exact .next (.arrive (fun _ _ h => .manage h) (.frame (by rfl) (.takeIn h)))

end Kept

end Sys2Proof.Machine
end

section
/-!
No command touches the queue (O52).
-/

namespace Sys2Proof.Machine

section Kept

variable {cs : List Instr} {s t u : State}

section Groups

variable {c : Instr} (h : Waits cs s)

include h

theorem WaitsOut.registers (hc : Part.onRegisters c = true) : WaitsOut cs (exec c s) :=
  fun _ answered => .frame (congrArg State.pending (outside_of_onRegisters hc answered) :) h

theorem WaitsOut.arrays (hc : Part.onArrays c = true) : WaitsOut cs (exec c s) :=
  fun _ answered => .frame (congrArg State.pending (outside_of_onArrays hc answered) :) h

theorem WaitsOut.tiers (hc : Part.onTiers c = true) : WaitsOut cs (exec c s) :=
  fun _ answered => .frame (congrArg State.pending (outside_of_onTiers hc answered) :) h

theorem WaitsOut.epochs (hc : Part.onEpochs c = true) : WaitsOut cs (exec c s) :=
  fun _ answered => .frame (congrArg State.pending (outside_of_onEpochs hc answered) :) h

end Groups

/-- A command answers only states with the queue as it was. -/
theorem waitsOut_exec (c : Instr) (h : Waits cs s) : WaitsOut cs (exec c s) := by
  cases c with
  | brkDbgResume | brkFaultClear | mxaModeWrite | mxaFlagsClear | mxaErrClear | schSplitWrite | attPmodeWrite
  | fabPctlEnable | routeSdataWrite | routeSdone | routeFlip | llpRejoin | llpRetrain | aonYield | aonDevnumWrite
  | dieOpWrite | auditStagingAccept | auditAckWrite | perfSelectWrite | alarmRelease | registerWrite =>
    exact .registers h rfl
  | swap | backgroundLoadDone | mxaCommand | d2dRetrainDone | d2dRetrainTimeout | tileOpRetire | localBoundary =>
    exact .arrays h rfl
  | memorySideOp | patrolScrub | flashRelocate | flashProgramFail | bufferAllocate | bufferFree
  | bufferQuarantineExpiry | moveStart | stubAccess | walk | spill | seqQuarantineExpiry | ladlePrefetch
  | discreteDraw | continuousDraw | seqOpen =>
    exact .tiers h rfl
  | adoptionPoint | publishBegin | publishChunkAck | epochChangeMessage | imageChunk | retract | recordWrite
  | stagingEviction | priorityUpdate | drawIssue =>
    exact .epochs h rfl
  | grainInstruction => exact .execGrainInstruction h
  | ecall => exact .runRow (fun _ _ _ _ => .fault) h
  | ebreak => exact .need (.next (.ite (.endInsn h .ebreakOp) h))
  | slRld => exact .execSlRld h
  | slRst => exact .execSlRst h
  | slRred => exact .execSlRred h
  | slPush => exact .execSlPush h
  | slPop => exact .execSlPop h
  | slCred => exact .execSlCred h
  | slDraw => exact .execSlDraw h
  | slDrawf => exact .execSlDrawf h
  | slWaitb => exact .execSlWaitb h
  | slFma2 => exact .execSlFma2 h
  | slBfma4 => exact .execSlBfma4 h
  | sentinelReturn => exact .execSentinelReturn h
  | watchdog => exact .need (.next (.ite (.endInsn h .fault) h))
  | rowAccept => exact .need (.next (.rowTry h))
  | tileOpIssue => exact .execTileOpIssue h
  | done => exact .whenThere h (.next (.ite (.ite (.whenRoom (fun _ h => .boundary (.modPan h)) h) (.modPan h)) h))
  | stepRelease => exact .whenThere h (.next (.ite (.wakeDie h) h))
  | boundaryLate => exact .whenThere h (.next (.ite h (.alarm (.setF (.until h)))))
  | d2dRetrain =>
    exact .need (.next (.ite h (.named (fun h => .ite h (.frame (by rfl) (.forEach (fun _ _ h => .linkPoison h)
      (.linkTo (.forEach (fun _ _ h => .bump h) h))))) (.bump (.bump h)))))
  | publishChecks => exact .execPublishChecks h
  | moveCopyDone => exact .next (.copyDone h)
  | moveDrained => exact .next (.drained h)
  | tierResponse => exact .next (.response h)
  | tierTimeout => exact .execTierTimeout h
  | portTrained => exact .need (.next (.portTrained h))
  | portRetrain => exact .need (.next (.retrainPort h))
  | retrainTimeout => exact .need (.next (.ite (.disablePort (.until h)) h))
  | frameReceive => exact .need (.next (.ite h (.ite (.goodFrame h) (.control (.bump h)))))
  | replayTimeout => exact .need (.next (.ite h (.replayFrom (.until h))))
  | ack => exact .need (.next (.ackTo (.bump h)))
  | nak => exact .need (.next (.nakIn h))
  | read => exact .next (.request1 h)
  | write => exact .next (.request1 h)
  | msop => exact .next (.request1 h)
  | atomic => exact .next (.request1 h)
  | fence => exact .next (.request1 h)
  | epoch => exact .next (.request1 h)
  | telem => exact .next (.request1 h)
  | mgmt => exact .execMgmt h
  | readRsp => exact .next (.response1 h)
  | writeAck => exact .next (.response1 h)
  | atomicRsp => exact .next (.response1 h)
  | fenceAck => exact .next (.response1 h)
  | requestResend => exact .execRequestResend h
  | allToAll => exact .next (.startExch h)
  | allToAllV => exact .execAllToAllV h
  | allReduce => exact .next (.startExch h)
  | reduceScatter => exact .next (.startExch h)
  | allGather => exact .next (.startExch h)
  | broadcast => exact .next (.startExch h)
  | barrier => exact .execBarrier h
  | collDone => exact .next (.request1 h)
  | frameStart => exact .need (.next (.ite (.frameStart h) h))
  | cellReceive => exact .need (.next (.ite h (.cellIn h)))
  | whistleDeadTimeout => exact .need (.next (.ite h (.setMaps (.modWring (.alarm (.until h))))))
  | masterElection => exact .execMasterElection h
  | ringTrainingTimeout => exact .need (.next (.ite (.fallBack h) h))
  | ringFallback => exact .need (.next (.ite (.fallBack h) h))
  | ringRetrainTimer => exact .need (.next (.ite (.ringTo h) h))
  | whistleFb => exact .need (.next (.fbIn h))
  | obs => exact .need (.next (.rxFrame h))
  | obsWindowClose => exact .need (.next (.forEach (fun _ _ h => .refuseFrame h) (.modWorld (.until h))))
  | hello => exact .need (.next (.rxFrame h))
  | helloTimer => exact .need (.next (.ite (.sendHello h) h))
  | attachTimeout => exact .need (.next (.ite (.dropAttach (.endAttach (.until h))) h))
  | partnerStop => exact .need (.next (.rxFrame h))
  | partnerSync => exact .need (.next (.rxFrame h))
  | actionVerdict => exact .execActionVerdict h
  | frameLatch => exact .need (.next (.ite (.latchFrame (.until h)) h))
  | sendTime =>
    exact .need (.next (.named (fun h => .ite (.sendRepeats h) h) (.forEach (fun _ _ h => .sendLatched h) (.forEach
      (fun _ _ h => .latchFrame h) (.until h)))))
  | missLimit => exact .need (.next (.ite (.holdWorld h) h))
  | holdLimit => exact .need (.next (.ite (.spinWorld h) h))
  | silenceLimit => exact .need (.next (.ite (.spinWorld h) h))
  | rampEnd => exact .need (.next (.ite (.sendLatched (.latchFrame (.until h))) h))
  | worldQuarantineExpiry => exact .need (.next (.ite (.modWorld (.until h)) h))
  | gptpSync => exact .need (.next (.ite h (.named (fun h => .ite (.correct (.setF h)) h) (.setF (.setF (.setF h))))))
  | timeHoldover => exact .need (.next (.ite (.named (fun h => .alarm (.ite (.setF h) h)) (.setF (.setF h))) h))
  | worldPortLink => exact .need (.next (.ite h (.setB (.setF h))))
  | submissionDoorbell => exact .need (.next (.ite (.setQueue h) (.whenRoom (fun _ h => .badDoorbell h) h)))
  | completionDoorbell =>
    exact .need (.next (.ite (.flushComps (.setQueue h)) (.whenRoom (fun _ h => .badDoorbell h) h)))
  | commandTake => exact .need (.next (.ite h (.ite (.frame (by rfl) h) (.take h))))
  | commandTimeout => exact .execCommandTimeout h
  | wholeLoad => exact .execWholeLoad h
  | perPanLoad => exact .execPerPanLoad h
  | resize => exact .execResize h
  | imageLoad => exact .execImageLoad h
  | keyLoad => exact .execKeyLoad h
  | jobCreate => exact .execJobCreate h
  | jobStart =>
    exact .next (.onCmd (fun _ _ h => .ite (.finish h) (.finish (.forEach (fun _ _ h => .startPan h) (.jobTo h)))) h)
  | jobStop =>
    exact .next (.onCmd (fun _ _ h => .ite (.stopIfReady (.beginCmd (.modJob (.quiesceJob (.jobTo h))))) (.ite h
      (.finish h))) h)
  | jobDestroy =>
    exact .next (.onCmd (fun _ _ h => .ite h (.ite (.finish h) (.destroyIfReady (.quiesceJob (.spinWorlds (.beginCmd
      (.modJob h))))))) h)
  | indexQuarantineExpiry => exact .need (.next (.ite (.ite h (.setJob (.until h))) (.ite h (.setPan (.until h)))))
  | worldAttach => exact .execWorldAttach h
  | worldStop => exact .execWorldStop h
  | worldDetach => exact .execWorldDetach h
  | publish => exact .execPublish h
  | snapshot => exact .execSnapshot h
  | checkpointDurable => exact .next (.onCmd (fun _ _ h => .ite h (.beginCmd (.modCkp h))) h)
  | checkpointEnable =>
    exact .next (.onCmd (fun _ _ h => .ite h (.ite (.finish h) (.ite (.finish h) (.finish (.modCkp (.setF h)))))) h)
  | checkpointDisable => exact .execCheckpointDisable h
  | restore => exact .execRestore h
  | spareAdopt => exact .execSpareAdopt h
  | seqCancel => exact .next (.onCmd (fun _ _ h => .ite (.finish (.bump h)) (.finish (.cancelSeq h))) h)
  | summary => exact .next (.onCmd (fun _ _ h => .finish (.hostWrite h)) h)
  | logRead => exact .execLogRead h
  | bistRun =>
    exact .next (.onCmd (fun _ _ h => .ite (.finish h) (.ite h (.named (fun h => .ite (.frame (by rfl) h) (.bistStart
      h)) (.beginCmd h)))) h)
  | bistComplete => exact .execBistComplete h
  | fencedRequest => exact .need (.next (.ite (.fencedReq h) h))
  | lock => exact .next (.onCmd (fun _ _ h => .finish (.lockBlocks h)) h)
  | protectedWrite => exact .execProtectedWrite h
  | shardAck => exact .execShardAck h
  | durableWrite => exact .execDurableWrite h
  | find => exact .execFind h
  | adopt => exact .execAdopt h
  | straggler => exact .execStraggler h
  | renew => exact .need (.next (.ite h (.ite (.fence h) (.sendRenew h))))
  | renewReceive => exact .execRenewReceive h
  | leaseTimeout => exact .need (.next (.ite h (.named (fun h => .ite (.setRole h) h) (.until h))))
  | witnessCas => exact .next (.forEach (fun _ _ h => .applyClaim h) h)
  | stewardWatchdog => exact .need (.next (.yieldLease h))
  | coldReset => exact .next (.boot3 (.setClk (.afterReset h)))
  | warmReset => exact .next (.boot3 (.afterReset h))
  | bootStepTimeout => exact .execBootStepTimeout h
  | vin48Arrival => exact .next (.ite (.boot3 h) (.setClk h))
  | perstRelease => exact .need (.next (.setClk h))
  | vin48Fault => exact .next (.ite (.boot3 (.afterReset h)) h)
  | vsb33Fault => exact .next (.ite (.setClk (.afterReset h)) h)
  | hostDieLost => exact .next (.ite h (.alarm (.setClk (.unkeep h))))
  | powerCompare => exact .execPowerCompare h
  | thermalSample =>
    exact .need (.next (.ite (.ite (.tripHost (.setF (.setF (.setF h)))) (.tripDie (.setF (.setF (.setF h))))) (.ite
      (.getD (fun _ lowered => Waits.lowerDuty (.setClk (.setF (.setF (.setF h)))) lowered) (.setClk (.setF (.setF
      (.setF h))))) (.setClk (.setF (.setF (.setF h)))))))
  | fabricTime => exact .next (.ite h (.ite (.sendTimeOut h) (.correct (.setF h))))
  | traceSample => exact .need (.next (.ite (.sample h) h))
  | scanEnable =>
    exact .need (.next (.ite (.setF (.zeroPlain (.frame (by rfl) (.forEach (fun _ _ h => .faultJob h) h)))) h))
  | readClear => exact .next (.ite (.csrRead h) h)
  | findTimeout => exact .execFindTimeout h
  | adoptionVoteTimeout => exact .next (.whenRoom (fun _ h => .ite (.endAdoption (.faultJob (.modCkp h))) h) h)
  | busyTestReissue => exact .execBusyTestReissue h
  | ackDelayExpiry => exact .need (.next (.ite h (.sendAck h)))
  | ppsPulse => exact .next (.ite (.setClk (.until h)) h)
  | pcieLinkTraining =>
    exact .need (.next (.named (fun h => .ite (.setB (.setF (.setF (.setF (.sendPending h))))) (.setF (.setF (.setF
      (.setF h))))) (.when .bump (.bump (.bump (.bump h))))))
  | worldPortForeignFrame => exact .need (.next (.ite h (.bump h)))

end Kept

/-- Settles O52: each operation of the model leaves the queue, and so each command does. -/
theorem queueKept : Obligations.QueueKept := fun c _ _ answered => waitsOut_exec c rfl _ answered

end Sys2Proof.Machine
end
